-- ==== Sys2Proof/Word.lean ====
section
/-! DEFINITION. The word types of the XN6 and the plain finite maps that hold its register files and tables.
Rules: spec/00_scope.md R3, spec/01_machine_state.md R7. -/

namespace Sys2Proof

/-- A 64-bit scalar register or system register (R7). -/
abbrev Word := BitVec 64
/-- A 2048-bit vector register, tile row or direct-send vector (R7). -/
abbrev Vec := BitVec 2048
/-- A 256-bit mask register, and also one instruction line (R7, R73). -/
abbrev Mask := BitVec 256
/-- One byte. -/
abbrev Byte := BitVec 8

/-- A finite map from numbers, as a list of pairs with rising keys: plain data. -/
abbrev Map (α : Type) := List (Nat × α)

/-- The value at a key, if the map lists it. -/
def Map.get? {α : Type} (m : Map α) (k : Nat) : Option α :=
  match m with
  | [] => none
  | (j, a) :: r => if j = k then some a else Map.get? r k

/-- The value at a key, or `d` where the map lists none. -/
def Map.get {α : Type} (m : Map α) (k : Nat) (d : α) : α := (Map.get? m k).getD d

/-- The map with one value put at a key, keys kept rising. -/
def Map.put {α : Type} (m : Map α) (k : Nat) (a : α) : Map α :=
  match m with
  | [] => [(k, a)]
  | (j, b) :: r =>
    if j < k then (j, b) :: Map.put r k a
    else if j = k then (k, a) :: r
    else (k, a) :: (j, b) :: r

/-- The map without a key. -/
def Map.del {α : Type} (m : Map α) (k : Nat) : Map α := m.filter fun x => x.1 != k

/-- The keys a map lists. -/
def Map.keys {α : Type} (m : Map α) : List Nat := m.map Prod.fst

/-- What one fabric packet carries: the header fields of R310, and the payload bytes; DEST and MASK of route KIND 4 are its MBASE and mask.
`bad` is 0 for a sound packet, 1 for an uncorrectable body flit, 2 for an uncorrectable head flit, 3 for an error that was corrected
(R311 to R313);
`sent` is the sending core and the number of the instruction that sent it, for coverage (R242); `num` its place among the packets of its CXSEND
(R197, R342), and `frame` the receiving flow and PSN of the SCT frame that brought it (R320). -/
structure Packet where
  part    : Nat
  ctx     : BitVec 16
  tag     : BitVec 16
  fmt     : BitVec 4
  parity  : Bool
  dkind   : Nat
  src     : Nat
  dest    : Nat
  spkg    : Nat
  origin  : Word
  mask    : BitVec 64
  count   : Nat
  payload : List Byte
  bad     : Nat
  sent    : Option (Nat × Nat)
  num     : Nat
  frame   : Option (Nat × BitVec 32)
  deriving DecidableEq, Repr

/-- What a packet of TYPE 4 carries: the collective of which it is the result, and in `bad` the code of an error in it, as in `Packet` (R211,
R311 to R313). -/
structure CollResult where
  coll : Nat
  bad  : Nat
  deriving DecidableEq, Repr

end Sys2Proof
end

