-- ==== Sys2Proof/Config.lean ====
section
/-! DEFINITION. What an implementation fixes and the free values: opaque constants with no body, so that a claim holds
whatever they are. Each is applied to operands, or to the plain counter `State.oracle`. -/

namespace Sys2Proof.Config

/-- Which enabled free step is taken next, or that the phase of free steps ends (R231). DESIGN CHOICE, log entry 1. -/
opaque freeChoice : Nat → Nat
/-- The cycles after which a member learns of a stall event once its cluster has, taken modulo 7 (R30). DESIGN CHOICE, log entry 6. -/
opaque stallDelay : Nat → Nat
/-- The cycles after which a cluster other than a stall event's learns of it, taken modulo 3, before its members do (R30). DESIGN CHOICE, log
entry 6. -/
opaque stallHop : Nat → Nat
/-- Old or new, for one cell of a pending tile (R13, R187). DESIGN CHOICE, log entry 7. -/
opaque pendingCell : Nat → Bool
/-- The bits a special function delivers, before they are held to the bound of R140: opcode and operand. DESIGN CHOICE, log entry 8. -/
opaque sfu : Nat → BitVec 32 → BitVec 32
/-- Which of two timed flits that entered a router by one port goes on first, by parity (R305). DESIGN CHOICE, log entry 9. -/
opaque laneWait : Nat → Nat
/-- The cycles from the last link of a timed transfer's path to its arrival, by class of traffic (R197, R208). DESIGN CHOICE, log entry 9. -/
opaque laneGap : Nat → Nat
/-- The signature that the alias key makes over a transcript, by its seed M1 and the nonce (R333). PRESUMED, log entry 10. -/
opaque spdmSignature : List (BitVec 8) → Nat → List (BitVec 8) → List (BitVec 8)
/-- The certificate chain of a boot, by its alias key seed M1 (R333). PRESUMED, log entry 10. -/
opaque spdmCertificate : List (BitVec 8) → List (BitVec 8)
/-- A nonce or ephemeral key of the SPDM responder (R333). PRESUMED, log entry 10. -/
opaque spdmNonce : Nat → List (BitVec 8)
/-- A syndrome of the memory error log (R337). DESIGN CHOICE, log entry 11. -/
opaque syndrome : Nat → BitVec 48
/-- Whether the nested TLB still serves a page it has held (R270, R272). DESIGN CHOICE, log entry 14. -/
opaque tlbHit : Nat → Bool
/-- The cycles a placement takes before its start cycle (R293). DESIGN CHOICE, log entry 15. -/
opaque placementCycles : Nat → Nat
/-- The answer of ASQRY where φ × N is no number: an infinite φ and N = 0 (R151). DESIGN CHOICE, log entry 17. -/
opaque quantileOfNone : BitVec 32 → BitVec 32
/-- An FVAL that the spec does not state: the FORMAT of CXTILE, of LTTLD's entries and of waybill steps. DESIGN CHOICE, log entry 18. -/
opaque fvalOfNone : Nat → BitVec 64
/-- An entry that firmware's MTS of SQDEPTH adds to the scale queue (R14, R23). DESIGN CHOICE, log entry 57. -/
opaque scaleEntry : Nat → BitVec 640
/-- By how much GT advances less in a cycle while it absorbs a backward offset, held to the bound of R323. DESIGN CHOICE, log entry 24. -/
opaque gtSlow : Nat → Nat
/-- The frame, by number within its destination, that the migration unit gives a page (R274). DESIGN CHOICE, log entry 19. -/
opaque migFrame : Nat → Nat
/-- The number of this package among those of the system (R310, R321). DESIGN CHOICE, log entry 20. -/
opaque packageNumber : Nat
/-- The port at which an error in a flit was found, by the numbers of R337's log (R311). DESIGN CHOICE, log entry 20. -/
opaque errorPort : Nat → Nat
/-- The MAC address of an Ethernet port (R320). DESIGN CHOICE, log entry 22. -/
opaque portMac : Nat → BitVec 48
/-- The message authentication code that ends a handshake, by session and transcript (R333). PRESUMED, log entry 10. -/
opaque spdmMac : Nat → List (BitVec 8) → List (BitVec 8)
/-- Cycles for which a router's purge holds timed traffic, taken modulo 257 (R314). DESIGN CHOICE, log entry 21. -/
opaque purgeCycles : Nat → Nat

end Sys2Proof.Config
end

