-- ==== Sys2Proof/Syntax.lean ====
section
/-! DEFINITION. The instructions of the XN6: one constructor per row of spec/opcode_table.json, in its order.
A slot word keeps the field names of the table; `xw` is the word of the surrendered slot to its right (R79, R81).
A row without an encoding is an event, a command, a message or a debugger command, with the operands its rule gives it;
in a command, `page` is the partition whose command page holds it, and none is the hypervisor's page (R326). -/

namespace Sys2Proof

/-- One row of spec/opcode_table.json each. -/
inductive Instr where
  /-- NOP (R91). -/
  | nop (t : BitVec 7)
  /-- BR (R99). -/
  | br (t : BitVec 7) (g : BitVec 4) (o : BitVec 15) (xw : Option (BitVec 32))
  /-- JMP (R99). -/
  | jmp (t : BitVec 7) (g : BitVec 4) (a : BitVec 6)
  /-- CALL (R99). -/
  | call (t : BitVec 7) (g : BitVec 4) (o : BitVec 15) (xw : Option (BitVec 32))
  /-- RET (R99). -/
  | ret (t : BitVec 7) (g : BitVec 4) (a : BitVec 6)
  /-- LOOP (R101). -/
  | loop (t : BitVec 7) (g : BitVec 4) (a : BitVec 6) (n : BitVec 4) (b : BitVec 5) (xw : Option (BitVec 32))
  /-- LEXIT (R104). -/
  | lexit (t : BitVec 7) (g : BitVec 4)
  /-- SYNC (R105). -/
  | sync (t : BitVec 7) (n : BitVec 3)
  /-- BAR (R106). -/
  | bar (t : BitVec 7) (n : BitVec 3)
  /-- BARNS (R106). -/
  | barns (t : BitVec 7) (n : BitVec 3)
  /-- WAITT (R107). -/
  | waitt (t : BitVec 7) (g : BitVec 4) (a : BitVec 6) (xw : Option (BitVec 32))
  /-- TWAIT (R107). -/
  | twait (t : BitVec 7) (g : BitVec 4) (m : BitVec 8)
  /-- CCWAIT (R107). -/
  | ccwait (t : BitVec 7) (g : BitVec 4) (a : BitVec 6) (n : BitVec 5)
  /-- UEND (R111). -/
  | uend (t : BitVec 7) (g : BitVec 4)
  /-- QPOINT (R110). -/
  | qpoint (t : BitVec 7) (g : BitVec 4)
  /-- IFENCE (R109). -/
  | ifence (t : BitVec 7) (g : BitVec 4)
  /-- BKACQ (R108). -/
  | bkacq (t : BitVec 7) (g : BitVec 4) (s : BitVec 1) (m : BitVec 8)
  /-- BKREL (R108). -/
  | bkrel (t : BitVec 7) (g : BitVec 4) (s : BitVec 1) (m : BitVec 8)
  /-- DRAINNT (R236). -/
  | drainnt (t : BitVec 7) (g : BitVec 4)
  /-- QFENCE (R237). -/
  | qfence (t : BitVec 7) (g : BitVec 4)
  /-- PACK (R82). -/
  | pack (n : BitVec 4)
  /-- TRAP (R110). -/
  | trap (t : BitVec 7) (g : BitVec 4) (c : BitVec 8)
  /-- BRK (R110). -/
  | brk (t : BitVec 7) (x : BitVec 8)
  /-- ERET (R220). -/
  | eret (t : BitVec 7) (a : BitVec 6)
  /-- SNAPST (R218). -/
  | snapst (t : BitVec 7) (a : BitVec 6)
  /-- SNAPREL (R218). -/
  | snaprel (t : BitVec 7)
  /-- CTXSAVE (R222). -/
  | ctxsave (t : BitVec 7) (a : BitVec 6)
  /-- CTXREST (R224). -/
  | ctxrest (t : BitVec 7) (a b : BitVec 6) (m : BitVec 2)
  /-- LTTLD (R227). -/
  | lttld (t : BitVec 7) (a b : BitVec 6)
  /-- LTTINV (R228). -/
  | lttinv (t : BitVec 7) (a : BitVec 6)
  /-- ADD (R112). -/
  | add (g : BitVec 4) (d a b : BitVec 6)
  /-- ADDI (R112). -/
  | addi (g : BitVec 4) (d a : BitVec 6) (i : BitVec 10) (xw : Option (BitVec 32))
  /-- SUB (R112). -/
  | sub (g : BitVec 4) (d a b : BitVec 6)
  /-- MUL (R112). -/
  | mul (g : BitVec 4) (d a b : BitVec 6)
  /-- MULH (R112). -/
  | mulh (g : BitVec 4) (d a b : BitVec 6) (m : BitVec 4)
  /-- DIV (R112). -/
  | div (g : BitVec 4) (d a b : BitVec 6) (m : BitVec 4)
  /-- AND (R112). -/
  | and (g : BitVec 4) (d a b : BitVec 6)
  /-- OR (R112). -/
  | or (g : BitVec 4) (d a b : BitVec 6)
  /-- XOR (R112). -/
  | xor (g : BitVec 4) (d a b : BitVec 6)
  /-- ANDI (R112). -/
  | andi (g : BitVec 4) (d a : BitVec 6) (i : BitVec 10) (xw : Option (BitVec 32))
  /-- ORI (R112). -/
  | ori (g : BitVec 4) (d a : BitVec 6) (i : BitVec 10) (xw : Option (BitVec 32))
  /-- XORI (R112). -/
  | xori (g : BitVec 4) (d a : BitVec 6) (i : BitVec 10) (xw : Option (BitVec 32))
  /-- SHL (R112). -/
  | shl (g : BitVec 4) (d a b : BitVec 6)
  /-- SHR (R112). -/
  | shr (g : BitVec 4) (d a b : BitVec 6)
  /-- SAR (R112). -/
  | sar (g : BitVec 4) (d a b : BitVec 6)
  /-- SHLI (R112). -/
  | shli (g : BitVec 4) (d a : BitVec 6) (i : BitVec 10) (xw : Option (BitVec 32))
  /-- SHRI (R112). -/
  | shri (g : BitVec 4) (d a : BitVec 6) (i : BitVec 10) (xw : Option (BitVec 32))
  /-- SARI (R112). -/
  | sari (g : BitVec 4) (d a : BitVec 6) (i : BitVec 10) (xw : Option (BitVec 32))
  /-- MINMAX (R112). -/
  | minmax (g : BitVec 4) (d a b : BitVec 6) (m : BitVec 4)
  /-- CMP (R113). -/
  | cmp (g d : BitVec 4) (a b : BitVec 6) (m : BitVec 4)
  /-- CMPI (R113). -/
  | cmpi (g : BitVec 4) (c : BitVec 2) (d : BitVec 4) (a : BitVec 6) (i : BitVec 10) (xw : Option (BitVec 32))
  /-- SEL (R113). -/
  | sel (g : BitVec 4) (d a b : BitVec 6) (m : BitVec 4)
  /-- MOVI (R114). -/
  | movi (g : BitVec 4) (d : BitVec 6) (i : BitVec 16) (xw : Option (BitVec 32))
  /-- MOVHI (R114). -/
  | movhi (g : BitVec 4) (d : BitVec 6) (i : BitVec 16) (xw : Option (BitVec 32))
  /-- LEA (R112). -/
  | lea (g : BitVec 4) (d a b : BitVec 6) (s : BitVec 4)
  /-- PLOG (R113). -/
  | plog (g d a b m : BitVec 4)
  /-- BITC (R113). -/
  | bitc (g : BitVec 4) (d a : BitVec 6) (m : BitVec 4)
  /-- BITC_TEST (R113). -/
  | bitcTest (g d : BitVec 4) (a b : BitVec 6)
  /-- LDB (R115). -/
  | ldb (g : BitVec 4) (d a : BitVec 6) (i : BitVec 10) (xw : Option (BitVec 32))
  /-- LDBU (R115). -/
  | ldbu (g : BitVec 4) (d a : BitVec 6) (i : BitVec 10) (xw : Option (BitVec 32))
  /-- LDH (R115). -/
  | ldh (g : BitVec 4) (d a i : BitVec 6) (xw : Option (BitVec 32))
  /-- LDW (R115). -/
  | ldw (g : BitVec 4) (d a i : BitVec 6) (xw : Option (BitVec 32))
  /-- LDHU (R115). -/
  | ldhu (g : BitVec 4) (d a i : BitVec 6) (xw : Option (BitVec 32))
  /-- LDWU (R115). -/
  | ldwu (g : BitVec 4) (d a i : BitVec 6) (xw : Option (BitVec 32))
  /-- LDD (R115). -/
  | ldd (g : BitVec 4) (d a : BitVec 6) (i : BitVec 10) (xw : Option (BitVec 32))
  /-- STB (R115). -/
  | stb (g : BitVec 4) (d a : BitVec 6) (i : BitVec 10) (xw : Option (BitVec 32))
  /-- STH (R115). -/
  | sth (g : BitVec 4) (d a : BitVec 6) (i : BitVec 10) (xw : Option (BitVec 32))
  /-- STW (R115). -/
  | stw (g : BitVec 4) (d a : BitVec 6) (i : BitVec 10) (xw : Option (BitVec 32))
  /-- STD (R115). -/
  | std (g : BitVec 4) (d a : BitVec 6) (i : BitVec 10) (xw : Option (BitVec 32))
  /-- ATOM (R117). -/
  | atom (g : BitVec 4) (d a b : BitVec 6) (m : BitVec 4)
  /-- ACAS (R117). -/
  | acas (g : BitVec 4) (d a b : BitVec 6)
  /-- MFS (R119). -/
  | mfs (g : BitVec 4) (d : BitVec 6) (r : BitVec 12)
  /-- MTS (R119). -/
  | mts (g : BitVec 4) (d : BitVec 6) (r : BitVec 12)
  /-- RDCYC (R119). -/
  | rdcyc (g : BitVec 4) (d : BitVec 6)
  /-- RDGT (R119). -/
  | rdgt (g : BitVec 4) (d : BitVec 6)
  /-- EXT (R113). -/
  | ext (g : BitVec 4) (d a b : BitVec 6) (m : BitVec 4)
  /-- VADD (R124). -/
  | vadd (k : BitVec 3) (z : BitVec 1) (d a b : BitVec 7) (s : BitVec 1)
  /-- VSUB (R124). -/
  | vsub (k : BitVec 3) (z : BitVec 1) (d a b : BitVec 7) (s : BitVec 1)
  /-- VMUL (R124). -/
  | vmul (k : BitVec 3) (z : BitVec 1) (d a b : BitVec 7) (s : BitVec 1)
  /-- VFMA (R124). -/
  | vfma (k : BitVec 3) (z : BitVec 1) (d a b : BitVec 7) (s : BitVec 1)
  /-- VFMS (R124). -/
  | vfms (k : BitVec 3) (z : BitVec 1) (d a b : BitVec 7) (s : BitVec 1)
  /-- VMIN (R124). -/
  | vmin (k : BitVec 3) (z : BitVec 1) (d a b : BitVec 7) (s : BitVec 1)
  /-- VMAX (R124). -/
  | vmax (k : BitVec 3) (z : BitVec 1) (d a b : BitVec 7) (s : BitVec 1)
  /-- VABS (R124). -/
  | vabs (k : BitVec 3) (z : BitVec 1) (d a : BitVec 7)
  /-- VNEG (R124). -/
  | vneg (k : BitVec 3) (z : BitVec 1) (d a : BitVec 7)
  /-- VCMPEQ (R125). -/
  | vcmpeq (k : BitVec 3) (z : BitVec 1) (d : BitVec 3) (a b : BitVec 7) (s : BitVec 1)
  /-- VCMPLT (R125). -/
  | vcmplt (k : BitVec 3) (z : BitVec 1) (d : BitVec 3) (a b : BitVec 7) (s : BitVec 1)
  /-- VCMPLE (R125). -/
  | vcmple (k : BitVec 3) (z : BitVec 1) (d : BitVec 3) (a b : BitVec 7) (s : BitVec 1)
  /-- VCMPNE (R125). -/
  | vcmpne (k : BitVec 3) (z : BitVec 1) (d : BitVec 3) (a b : BitVec 7) (s : BitVec 1)
  /-- VIADD (R126). -/
  | viadd (k : BitVec 3) (z : BitVec 1) (d a : BitVec 7) (n : BitVec 1) (b : BitVec 6) (s : BitVec 1)
  /-- VISUB (R126). -/
  | visub (k : BitVec 3) (z : BitVec 1) (d a : BitVec 7) (n : BitVec 1) (b : BitVec 6) (s : BitVec 1)
  /-- VIMUL (R126). -/
  | vimul (k : BitVec 3) (z : BitVec 1) (d a : BitVec 7) (n : BitVec 1) (b : BitVec 6) (s : BitVec 1)
  /-- VAND (R126). -/
  | vand (k : BitVec 3) (z : BitVec 1) (d a : BitVec 7) (n : BitVec 1) (b : BitVec 6) (s : BitVec 1)
  /-- VOR (R126). -/
  | vor (k : BitVec 3) (z : BitVec 1) (d a : BitVec 7) (n : BitVec 1) (b : BitVec 6) (s : BitVec 1)
  /-- VXOR (R126). -/
  | vxor (k : BitVec 3) (z : BitVec 1) (d a : BitVec 7) (n : BitVec 1) (b : BitVec 6) (s : BitVec 1)
  /-- VSHL (R126). -/
  | vshl (k : BitVec 3) (z : BitVec 1) (d a : BitVec 7) (n : BitVec 1) (b : BitVec 6) (s : BitVec 1)
  /-- VSHR (R126). -/
  | vshr (k : BitVec 3) (z : BitVec 1) (d a : BitVec 7) (n : BitVec 1) (b : BitVec 6) (s : BitVec 1)
  /-- VSAR (R126). -/
  | vsar (k : BitVec 3) (z : BitVec 1) (d a : BitVec 7) (n : BitVec 1) (b : BitVec 6) (s : BitVec 1)
  /-- VIMIN (R126). -/
  | vimin (k : BitVec 3) (z : BitVec 1) (d a : BitVec 7) (n : BitVec 1) (b : BitVec 6) (s : BitVec 1)
  /-- VIMAX (R126). -/
  | vimax (k : BitVec 3) (z : BitVec 1) (d a : BitVec 7) (n : BitVec 1) (b : BitVec 6) (s : BitVec 1)
  /-- VICMPEQ (R127). -/
  | vicmpeq (k : BitVec 3) (z : BitVec 1) (d : BitVec 3) (a : BitVec 7) (n : BitVec 1) (b : BitVec 6) (s : BitVec 1)
  /-- VICMPLT (R127). -/
  | vicmplt (k : BitVec 3) (z : BitVec 1) (d : BitVec 3) (a : BitVec 7) (n : BitVec 1) (b : BitVec 6) (s : BitVec 1)
  /-- VSEL (R128). -/
  | vsel (k : BitVec 3) (z : BitVec 1) (d a : BitVec 7) (n : BitVec 1) (b : BitVec 6) (s : BitVec 1)
  /-- VCVT (R131). -/
  | vcvt (k : BitVec 3) (z : BitVec 1) (d a : BitVec 7) (t f : BitVec 3) (p : BitVec 2)
  /-- VBCAST (R129). -/
  | vbcast (k : BitVec 3) (z : BitVec 1) (d : BitVec 7) (w : BitVec 2) (b : BitVec 6)
  /-- VBCAST_EXTENSION (R129). -/
  | vbcastExt (k : BitVec 3) (z : BitVec 1) (d : BitVec 7) (w : BitVec 2) (xw : BitVec 32)
  /-- VPERM (R128). -/
  | vperm (k : BitVec 3) (z : BitVec 1) (d a : BitVec 7) (n : BitVec 1) (b : BitVec 6) (s : BitVec 1)
  /-- VROT (R128). -/
  | vrot (k : BitVec 3) (z : BitVec 1) (d a : BitVec 7) (n : BitVec 1) (b : BitVec 6) (s : BitVec 1)
  /-- VRSUM (R134). -/
  | vrsum (k : BitVec 3) (d a : BitVec 7) (x : BitVec 1) (f : BitVec 2)
  /-- VRMAX (R134). -/
  | vrmax (k : BitVec 3) (d a : BitVec 7) (x : BitVec 1) (f : BitVec 2)
  /-- VMOV (R129). -/
  | vmov (k : BitVec 3) (z : BitVec 1) (d a : BitVec 7) (w : BitVec 2)
  /-- VLD (R135). -/
  | vld (k : BitVec 3) (z : BitVec 1) (d : BitVec 7) (w : BitVec 2) (b : BitVec 6) (xw : Option (BitVec 32))
  /-- VST (R135). -/
  | vst (k : BitVec 3) (d : BitVec 7) (w : BitVec 2) (b : BitVec 6) (xw : Option (BitVec 32))
  /-- VGATHER (R136). -/
  | vgather (k : BitVec 3) (z : BitVec 1) (d a : BitVec 7) (b : BitVec 6)
  /-- VSCATTER (R136). -/
  | vscatter (k : BitVec 3) (d a : BitVec 7) (b : BitVec 6)
  /-- TWROW (R138). -/
  | twrow (k : BitVec 3) (z : BitVec 1) (d : BitVec 3) (a : BitVec 7) (b : BitVec 6) (s : BitVec 1)
  /-- TRDCOL (R138). -/
  | trdcol (k : BitVec 3) (z : BitVec 1) (d : BitVec 7) (a : BitVec 3) (b : BitVec 6) (s : BitVec 1)
  /-- VQNT (R132). -/
  | vqnt (k : BitVec 3) (d a : BitVec 7)
  /-- VRNG (R133). -/
  | vrng (k : BitVec 3) (z : BitVec 1) (d : BitVec 7)
  /-- VIADDS (R126). -/
  | viadds (k : BitVec 3) (z : BitVec 1) (d a : BitVec 7) (n : BitVec 1) (b : BitVec 6) (s : BitVec 1)
  /-- VRCP (R140). -/
  | vrcp (k : BitVec 3) (z : BitVec 1) (d a : BitVec 7)
  /-- VRSQ (R140). -/
  | vrsq (k : BitVec 3) (z : BitVec 1) (d a : BitVec 7)
  /-- VEXP2 (R140). -/
  | vexp2 (k : BitVec 3) (z : BitVec 1) (d a : BitVec 7)
  /-- VLOG2 (R140). -/
  | vlog2 (k : BitVec 3) (z : BitVec 1) (d a : BitVec 7)
  /-- VSIN (R140). -/
  | vsin (k : BitVec 3) (z : BitVec 1) (d a : BitVec 7)
  /-- VCOS (R140). -/
  | vcos (k : BitVec 3) (z : BitVec 1) (d a : BitVec 7)
  /-- VTANH (R140). -/
  | vtanh (k : BitVec 3) (z : BitVec 1) (d a : BitVec 7)
  /-- ASCFG (R148). -/
  | ascfg (o k c : BitVec 2) (s : BitVec 6)
  /-- ASCLR (R148). -/
  | asclr (f : BitVec 1) (c : BitVec 2)
  /-- ASQU (R149). -/
  | asqu (k : BitVec 3) (c : BitVec 2) (a : BitVec 7)
  /-- ASHH (R153). -/
  | ashh (k : BitVec 3) (c : BitVec 2) (a b : BitVec 7) (s : BitVec 1)
  /-- ASDC (R155). -/
  | asdc (k : BitVec 3) (c : BitVec 2) (a : BitVec 7) (w : BitVec 1)
  /-- ASMRG (R159). -/
  | asmrg (c : BitVec 2) (b : BitVec 6)
  /-- ASSV (R157). -/
  | assv (c : BitVec 2) (b : BitVec 6)
  /-- ASQRY (R151). -/
  | asqry (k : BitVec 3) (z : BitVec 1) (d : BitVec 7) (x : BitVec 1) (c : BitVec 2) (b : BitVec 7) (s : BitVec 1)
  /-- ASEST (R152). -/
  | asest (d : BitVec 6) (c : BitVec 2)
  /-- ASTOPK (R154). -/
  | astopk (d : BitVec 7) (p c : BitVec 2)
  /-- RHCFG (R164). -/
  | rhcfg (r : BitVec 3) (b : BitVec 6)
  /-- RHSIG (R165). -/
  | rhsig (r : BitVec 3) (a b : BitVec 6)
  /-- RHLIST (R166). -/
  | rhlist (r : BitVec 3) (a : BitVec 6)
  /-- RHSTEP (R167). -/
  | rhstep (f : BitVec 1) (r : BitVec 3) (a : BitVec 7)
  /-- RHMAP (R168). -/
  | rhmap (d : BitVec 7) (p r : BitVec 3)
  /-- MMA (R173). -/
  | mma (g : BitVec 4) (c : BitVec 1) (a b t : BitVec 6) (z : BitVec 1) (y : BitVec 2)
  /-- MMA3 (R181). -/
  | mma3 (g : BitVec 4) (c : BitVec 1) (a b t : BitVec 6) (z : BitVec 1)
  /-- MZERO (R179). -/
  | mzero (g : BitVec 4) (c : BitVec 1)
  /-- MBAND (R178). -/
  | mband (g : BitVec 4) (c : BitVec 1) (a : BitVec 6)
  /-- TLD (R187). -/
  | tld (g : BitVec 4) (x y w : BitVec 6) (m : BitVec 3) (xw : Option (BitVec 32))
  /-- TST (R187). -/
  | tst (g : BitVec 4) (x y w : BitVec 6) (m : BitVec 3) (xw : Option (BitVec 32))
  /-- TSTNT (R190). -/
  | tstnt (g : BitVec 4) (x y w : BitVec 6) (m : BitVec 3) (xw : Option (BitVec 32))
  /-- SCLD (R191). -/
  | scld (g : BitVec 4) (x y : BitVec 6)
  /-- PULL (R192). -/
  | pull (g : BitVec 4) (x y w : BitVec 6)
  /-- PUSH (R192). -/
  | push (g : BitVec 4) (x y w : BitVec 6)
  /-- CXSEND (R196). -/
  | cxsend (g : BitVec 4) (x y w : BitVec 6)
  /-- CXTILE (R206). -/
  | cxtile (g : BitVec 4) (x w : BitVec 6) (m : BitVec 3)
  /-- GATHER (R189). -/
  | gather (g : BitVec 4) (x y w : BitVec 6) (m : BitVec 3)
  /-- RTSET (R195). -/
  | rtset (g : BitVec 4) (x : BitVec 6) (e : BitVec 5)
  /-- MAPSET (R200). -/
  | mapset (g : BitVec 4) (x : BitVec 6) (c : BitVec 1) (m : BitVec 4)
  /-- MAPRET (R200). -/
  | mapret (g : BitVec 4) (n c : BitVec 1) (m : BitVec 4)
  /-- MAPSWAP (R200). -/
  | mapswap (g : BitVec 4) (x : BitVec 6) (o : BitVec 4) (c : BitVec 1) (m : BitVec 4)
  /-- MAPQ (R201). -/
  | mapq (g : BitVec 4) (y : BitVec 6) (c : BitVec 1) (m : BitVec 4)
  /-- STRAYPOP (R205). -/
  | straypop (g : BitVec 4) (x y w : BitVec 6)
  /-- SEND (R208). -/
  | send (g : BitVec 4) (v : BitVec 7) (s : BitVec 6)
  /-- RECV (R208). -/
  | recv (g : BitVec 4) (v : BitVec 7) (s : BitVec 6)
  /-- RECVADD (R208). -/
  | recvadd (g : BitVec 4) (v : BitVec 7) (s : BitVec 6) (f : BitVec 2)
  /-- RECVMAX (R208). -/
  | recvmax (g : BitVec 4) (v : BitVec 7) (s : BitVec 6) (f : BitVec 2)
  /-- GRPSET (R210). -/
  | grpset (g : BitVec 4) (s : BitVec 6) (n : BitVec 3)
  /-- MCLDR (R211). -/
  | mcldr (g : BitVec 4) (v : BitVec 7) (s : BitVec 6) (o : BitVec 2) (n : BitVec 3)
  /-- WBRUN (R213). -/
  | wbrun (g : BitVec 4) (s : BitVec 6) (n : BitVec 9)
  /-- TTARM (R214). -/
  | ttarm (g : BitVec 4) (s : BitVec 6) (n : BitVec 5) (t : BitVec 4)
  /-- CTARM (R214). -/
  | ctarm (g : BitVec 4) (w : BitVec 5) (s : BitVec 6) (n : BitVec 5) (t : BitVec 4)
  /-- TRDIS (R214). -/
  | trdis (g t : BitVec 4)
  /-- CCINC (R215). -/
  | ccinc (g : BitVec 4) (s : BitVec 6) (o : BitVec 3) (n : BitVec 5)
  /-- ITERATION_BOUNDARY (R102). -/
  | iterationBoundary (core : Nat)
  /-- DYNAMIC_WAIT_RELEASE (R31). -/
  | dynamicWaitRelease (core : Nat)
  /-- BARRIER_RELEASE (R106). -/
  | barrierRelease (core g : Nat)
  /-- GROUP_STALL (R30). -/
  | groupStall (core : Nat)
  /-- GROUP_RESUME (R251). -/
  | groupResume (group : Nat)
  /-- PENDING_EVENT (R246). -/
  | pendingEvent (core : Nat)
  /-- FORCED_QUENCH (R254). -/
  | forcedQuench (launch : Nat)
  /-- WATCHDOG (R255). -/
  | watchdog (launch : Nat)
  /-- DEBUGGER_HALT (R338). -/
  | debuggerHalt (core : Nat)
  /-- COORDINATE_PACKET (R202). -/
  | coordinatePacket (node : Nat) (pkt : Packet)
  /-- DIRECT_SEND (R209). -/
  | directSend (core src : Nat) (data : Vec) (bad : Nat)
  /-- COLLECTIVE_CONTRIBUTION (R315). -/
  | collectiveContribution (coll core : Nat) (data : Vec) (bad : Nat)
  /-- COLLECTIVE_RESULT (R211). -/
  | collectiveResult (pkt : CollResult) (core : Nat)
  /-- WAYBILL_MEMORY_TRANSFER (R317). -/
  | waybillMemoryTransfer (core src : Nat) (data : Vec) (bad : Nat)
  /-- QUEUED_ROW_PERFORM (R234). -/
  | queuedRowPerform (core slot : Nat) (perform : Option Nat)
  /-- NON_TEMPORAL_PERFORM (R236). -/
  | nonTemporalPerform (core index : Nat) (perform : Option Nat)
  /-- COUNTER_INCREMENT (R242). -/
  | counterIncrement (index : Nat)
  /-- TIME_TRIGGER_FIRE (R214). -/
  | timeTriggerFire (part slot : Nat)
  /-- COUNTER_INTERRUPT (R296). -/
  | counterInterrupt (part cc : Nat)
  /-- NESTED_WALK (R271). -/
  | nestedWalk (core : Nat)
  /-- MIGRATION_REQUEST (R274). -/
  | migrationRequest (part index : Nat)
  /-- MIGRATION_COPY (R274). -/
  | migrationCopy (index : Nat)
  /-- RE_KEY (R283). -/
  | reKey (msu : Nat) (hallmark : Word)
  /-- PATROL_SCRUB (R286). -/
  | patrolScrub (addr : Nat) (uncorrectable : Bool)
  /-- LAUNCH_RECORD (R290). -/
  | launchRecord (part queue : Nat)
  /-- ADMISSION (R291). -/
  | admission (part : Nat)
  /-- LAUNCH_START (R293). -/
  | launchStart (launch : Nat)
  /-- NODE_START (R301). -/
  | nodeStart (replay node : Nat)
  /-- HANDOVER_START (R302). -/
  | handoverStart (launch : Nat)
  /-- BANK_PASS (R302). -/
  | bankPass (core bank : Nat)
  /-- UNIT_COMPLETE (R297). -/
  | unitComplete (core : Nat)
  /-- COMPLETION_INCREMENT (R297). -/
  | completionIncrement (launch : Nat) (unit : Option Nat)
  /-- CANCEL_MARK (R298). -/
  | cancelMark (part cc : Nat)
  /-- RESTORE_START (R258). -/
  | restoreStart (launch : Nat)
  /-- PARTITION_HALTED (R337). -/
  | partitionHalted (part : Nat)
  /-- EMERGENCY_STOP (R335). -/
  | emergencyStop (milliamps micros celsius : Nat)
  /-- POWER_GOOD (R331). -/
  | powerGood (rom ioFw dieFw training uefi : List Byte) (hallmark fatalBase : Word)
  /-- MEASUREMENT_EXTENSION (R332). -/
  | measurementExtension (hart reg : Nat) (image : List Byte)
  /-- FIRMWARE_LOG_READ (R337). -/
  | firmwareLogRead (memoryLog : Bool)
  /-- PSTATE_ON_DELAY (R334). -/
  | pstateOnDelay (part : Nat)
  /-- SCT_FRAME (R320). -/
  | sctFrame (port vlan : Nat) (flags : Byte) (flow : BitVec 16) (psn : BitVec 32) (pkt : Packet)
  /-- SCT_ACKNOWLEDGEMENT (R320). -/
  | sctAcknowledgement (flow : Nat) (ackPsn : BitVec 32)
  /-- CUMULATIVE_ACKNOWLEDGEMENT (R320). -/
  | cumulativeAcknowledgement (flow : Nat)
  /-- RETRANSMIT_TIMEOUT (R320). -/
  | retransmitTimeout (flow : Nat)
  /-- RDMA_WRITE (R322). -/
  | rdmaWrite (qp addr : Nat) (data : List Byte) (marked : Bool)
  /-- RDMA_READ (R322). -/
  | rdmaRead (qp addr len : Nat) (marked : Bool)
  /-- ROCE_SEND_REQUEST (R322). -/
  | roceSendRequest (qp : Nat) (marked : Bool)
  /-- ROCE_ATOMIC_REQUEST (R322). -/
  | roceAtomicRequest (qp : Nat) (marked : Bool)
  /-- PTP_EVENT_MESSAGE (R323). -/
  | ptpEventMessage (port seqId : Nat) (oneStep : Bool)
  /-- GET_VERSION (R333). -/
  | getVersion (tcp : Bool)
  /-- GET_CAPABILITIES (R333). -/
  | getCapabilities (tcp : Bool)
  /-- NEGOTIATE_ALGORITHMS (R333). -/
  | negotiateAlgorithms (tcp : Bool) (hashes signatures dheGroups : List Nat)
  /-- GET_DIGESTS (R333). -/
  | getDigests (tcp : Bool)
  /-- GET_CERTIFICATE (R333). -/
  | getCertificate (tcp : Bool) (offset length : Nat)
  /-- CHALLENGE (R333). -/
  | challenge (tcp : Bool) (nonce : List Byte)
  /-- GET_MEASUREMENTS (R333). -/
  | getMeasurements (tcp : Bool) (index : Nat) (nonce : List Byte) (signed : Bool)
  /-- KEY_EXCHANGE (R333). -/
  | keyExchange (tcp : Bool) (session : Nat) (peerKey : List Byte)
  /-- FINISH (R333). -/
  | finish (tcp : Bool) (session : Nat) (mac : List Byte)
  /-- END_SESSION (R333). -/
  | endSession (tcp : Bool) (session : Nat)
  /-- QSET (R288). -/
  | qset (page : Option Nat) (part queue addr : Nat)
  /-- CCSET (R294). -/
  | ccset (page : Option Nat) (part cc : Nat) (words : BitVec 8) (addr : Nat)
  /-- CANCEL (R298). -/
  | cmdCancel (page : Option Nat) (part cc : Nat)
  /-- QUENCH (R253). -/
  | cmdQuench (page : Option Nat) (part : Nat) (launchId : BitVec 32)
  /-- HOLD (R251). -/
  | cmdHold (page : Option Nat) (part : Nat) (launchId : BitVec 32)
  /-- UNHOLD (R251). -/
  | cmdUnhold (page : Option Nat) (part : Nat) (launchId : BitVec 32)
  /-- QLIMIT (R254). -/
  | qlimit (page : Option Nat) (part : Nat) (micros : Word)
  /-- MSUMAP (R267). -/
  | msumap (page : Option Nat) (part msu slot addr : Nat)
  /-- MIGQ (R274). -/
  | migq (page : Option Nat) (part addr entries : Nat)
  /-- ROOTS (R270). -/
  | roots (page : Option Nat) (part : Nat) (guest system : Word)
  /-- INVTLB (R272). -/
  | invtlb (page : Option Nat) (part base len : Nat)
  /-- SCTPEER (R321). -/
  | sctpeer (page : Option Nat) (part index addr : Nat)
  /-- PSTATE (R334). -/
  | pstate (page : Option Nat) (part state : Nat)
  /-- RESET (R336). -/
  | cmdReset (page : Option Nat) (part : Nat)
  /-- HARVEST (R336). -/
  | harvest (page : Option Nat) (part kind router port : Nat)
  /-- HANDLER (R76). -/
  | handler (page : Option Nat) (part base addr : Nat)
  /-- CSW (R22). -/
  | mtsCsw (value : Word)
  /-- VSTAT (R45). -/
  | mtsVstat (value : Word)
  /-- RNGPOS (R15). -/
  | mtsRngpos (value : Word)
  /-- RNGKEY (R15). -/
  | mtsRngkey (value : Word)
  /-- WDOG (R255). -/
  | mtsWdog (value : Word)
  /-- RHSTAT (R162). -/
  | mtsRhstat (value : Word)
  /-- ASSTAT (R142). -/
  | mtsAsstat (value : Word)
  /-- MAPSTAT (R205). -/
  | mtsMapstat (value : Word)
  /-- STRAYN (R205). -/
  | mtsStrayn (value : Word)
  /-- COLLIDE (R25). -/
  | mtsCollide (value : Word)
  /-- GTADJ (R330). -/
  | mtsGtadj (value : Word)
  /-- BREAK (R338). -/
  | dbgBreak (unit addr : Nat)
  /-- BREAK_ALL (R348). -/
  | dbgBreakAll (addr : Nat)
  /-- CONTINUE (R338). -/
  | dbgContinue
  /-- LAUNCH (R348). -/
  | dbgLaunch (params : List Word)
  /-- RT (R340). -/
  | rt (code : Nat) (operands : List Byte)
  /-- FQ (R340). -/
  | dbgFq (unit : Nat)
  /-- MTX (R340). -/
  | dbgMtx (unit : Nat)
  /-- LTT (R340). -/
  | dbgLtt (unit first count : Nat)
  /-- ASSAY (R342). -/
  | dbgAssay (unit ctx : Nat)
  /-- LANDLOG (R342). -/
  | landlog (unit : Nat)
  /-- RH (R344). -/
  | dbgRh (unit region : Nat)
  /-- EFDB_LOOP (R344). -/
  | efdbLoop (unit : Nat)
  /-- GROUP (R348). -/
  | dbgGroup (unit group : Nat)
  /-- REDLOG (R348). -/
  | redlog (unit group lane : Nat)
  /-- STACK_OFFLINE (R309). -/
  | stackOffline (stack : Nat)
  /-- POWER_REMOVED (R335). -/
  | powerRemoved
  /-- PARTITION_FORMATION (R264). -/
  | partitionFormation (part row col rows cols : Nat)
  /-- COMPATIBILITY_MODE (R284). -/
  | compatibilityMode (part msu : Nat) (table : Option Nat)
  /-- PRIORITY_FLOW_CONTROL (R319). -/
  | priorityFlowControl (port : Nat) (enable : Byte) (quanta : List Nat)
  deriving DecidableEq, Repr

end Sys2Proof
end

