-- ==== Sys2Proof/WellFormed.lean ====
section
/-! DEFINITION. Which instructions are well-formed: no reserved value in a field (R95), as each instruction's rule
gives it, and in which slots an instruction stands (R91 to R94). -/

namespace Sys2Proof

/-- The width of a conversion format code (R130). -/
def cvtWidth (c : BitVec 3) : Nat :=
  if c = 0 || c = 5 then 32 else if c = 1 || c = 2 then 16 else 8

/-- The ratio of the two widths of a conversion (R131). -/
def cvtRatio (t f : BitVec 3) : Nat :=
  max (cvtWidth t) (cvtWidth f) / min (cvtWidth t) (cvtWidth f)

/-- No field holds a value that the instruction's rule reserves (R95, R98, R101, R112, R113, R117, R123, R130, R143,
R207, R216). An event has no reserved operand. -/
def Instr.wf (i : Instr) : Bool :=
  match i with
  | .nop _ => true
  | .br _ _ _ _ => true
  | .jmp _ _ _ => true
  | .call _ _ _ _ => true
  | .ret _ _ _ => true
  | .loop _ _ _ _ b xw =>
    match xw with
    | none => b != 0
    | some e => b == 0 && e.extractLsb' 17 15 == 0 && e.extractLsb' 0 17 != 0
  | .lexit _ _ => true
  | .sync _ _ => true
  | .bar _ _ => true
  | .barns _ _ => true
  | .waitt _ _ _ _ => true
  | .twait _ _ m => m != 0
  | .ccwait _ _ _ _ => true
  | .uend _ _ => true
  | .qpoint _ _ => true
  | .ifence _ _ => true
  | .bkacq _ _ _ m => m != 0
  | .bkrel _ _ _ m => m != 0
  | .drainnt _ _ => true
  | .qfence _ _ => true
  | .pack n => n != 0 && n != 15
  | .trap _ _ _ => true
  | .brk _ _ => true
  | .eret _ _ => true
  | .snapst _ a => a != 0
  | .snaprel _ => true
  | .ctxsave _ a => a != 0
  | .ctxrest _ a b m => a != 0 && m != 3 && (m == 2 || b == 0)
  | .lttld _ _ _ => true
  | .lttinv _ _ => true
  | .add _ _ _ _ => true
  | .addi _ _ _ _ _ => true
  | .sub _ _ _ _ => true
  | .mul _ _ _ _ => true
  | .mulh _ _ _ _ m => m.toNat < 3
  | .div _ _ _ _ m => m.toNat < 4
  | .and _ _ _ _ => true
  | .or _ _ _ _ => true
  | .xor _ _ _ _ => true
  | .andi _ _ _ _ _ => true
  | .ori _ _ _ _ _ => true
  | .xori _ _ _ _ _ => true
  | .shl _ _ _ _ => true
  | .shr _ _ _ _ => true
  | .sar _ _ _ _ => true
  | .shli _ _ _ _ _ => true
  | .shri _ _ _ _ _ => true
  | .sari _ _ _ _ _ => true
  | .minmax _ _ _ _ m => m.toNat < 4
  | .cmp _ _ _ _ m => m.toNat < 6
  | .cmpi _ _ _ _ _ _ => true
  | .sel _ _ _ _ _ => true
  | .movi _ _ _ _ => true
  | .movhi _ _ _ _ => true
  | .lea _ _ _ _ _ => true
  | .plog _ _ _ _ _ => true
  | .bitc _ _ _ m => m.toNat < 3
  | .bitcTest _ _ _ _ => true
  | .ldb _ _ _ _ _ => true
  | .ldbu _ _ _ _ _ => true
  | .ldh _ _ _ _ _ => true
  | .ldw _ _ _ _ _ => true
  | .ldhu _ _ _ _ _ => true
  | .ldwu _ _ _ _ _ => true
  | .ldd _ _ _ _ _ => true
  | .stb _ _ _ _ _ => true
  | .sth _ _ _ _ _ => true
  | .stw _ _ _ _ _ => true
  | .std _ _ _ _ _ => true
  | .atom _ _ _ _ m => m.toNat < 9
  | .acas _ _ _ _ => true
  | .mfs _ _ _ => true
  | .mts _ _ _ => true
  | .rdcyc _ _ => true
  | .rdgt _ _ => true
  | .ext _ _ _ _ m => m.toNat < 2
  | .vadd _ _ _ _ b s => s == 0 || b.getLsbD 6 == false
  | .vsub _ _ _ _ b s => s == 0 || b.getLsbD 6 == false
  | .vmul _ _ _ _ b s => s == 0 || b.getLsbD 6 == false
  | .vfma _ _ _ _ b s => s == 0 || b.getLsbD 6 == false
  | .vfms _ _ _ _ b s => s == 0 || b.getLsbD 6 == false
  | .vmin _ _ _ _ b s => s == 0 || b.getLsbD 6 == false
  | .vmax _ _ _ _ b s => s == 0 || b.getLsbD 6 == false
  | .vabs _ _ _ _ => true
  | .vneg _ _ _ _ => true
  | .vcmpeq _ _ _ _ b s => s == 0 || b.getLsbD 6 == false
  | .vcmplt _ _ _ _ b s => s == 0 || b.getLsbD 6 == false
  | .vcmple _ _ _ _ b s => s == 0 || b.getLsbD 6 == false
  | .vcmpne _ _ _ _ b s => s == 0 || b.getLsbD 6 == false
  | .viadd _ _ _ _ _ _ _ => true
  | .visub _ _ _ _ _ _ _ => true
  | .vimul _ _ _ _ _ _ _ => true
  | .vand _ _ _ _ _ _ _ => true
  | .vor _ _ _ _ _ _ _ => true
  | .vxor _ _ _ _ _ _ _ => true
  | .vshl _ _ _ _ _ _ _ => true
  | .vshr _ _ _ _ _ _ _ => true
  | .vsar _ _ _ _ _ _ _ => true
  | .vimin _ _ _ _ _ _ _ => true
  | .vimax _ _ _ _ _ _ _ => true
  | .vicmpeq _ _ _ _ _ _ _ => true
  | .vicmplt _ _ _ _ _ _ _ => true
  | .vsel _ z _ _ _ _ _ => z == 0
  | .vcvt _ _ _ _ t f p => t != f && decide (p.toNat < cvtRatio t f)
  | .vbcast _ _ _ w _ => w != 3
  | .vbcastExt _ _ _ w _ => w != 3
  | .vperm _ _ _ _ _ _ _ => true
  | .vrot _ _ _ _ _ _ _ => true
  | .vrsum _ d _ x f => f != 3 && (x == 0 || d.getLsbD 6 == false)
  | .vrmax _ d _ x f => f != 3 && (x == 0 || d.getLsbD 6 == false)
  | .vmov _ _ _ _ w => w != 3
  | .vld _ _ _ w _ _ => w != 3
  | .vst _ _ w _ _ => w != 3
  | .vgather _ _ _ _ _ => true
  | .vscatter _ _ _ _ => true
  | .twrow _ _ _ _ _ _ => true
  | .trdcol _ _ _ _ _ _ => true
  | .vqnt _ _ _ => true
  | .vrng _ _ _ => true
  | .viadds _ _ _ _ _ _ _ => true
  | .vrcp _ _ _ _ => true
  | .vrsq _ _ _ _ => true
  | .vexp2 _ _ _ _ => true
  | .vlog2 _ _ _ _ => true
  | .vsin _ _ _ _ => true
  | .vcos _ _ _ _ => true
  | .vtanh _ _ _ _ => true
  | .ascfg o k _ _ => k != 0 && o != 3 && (k == 1 || o == 0)
  | .asclr _ _ => true
  | .asqu _ _ _ => true
  | .ashh _ _ _ b s => s == 0 || b.getLsbD 6 == false
  | .asdc _ _ _ _ => true
  | .asmrg _ _ => true
  | .assv _ _ => true
  | .asqry k z d x _ b s => (x == 0 || (s == 1 && k == 0 && z == 0 && d.getLsbD 6 == false)) && (s == 0 || b.getLsbD 6 == false)
  | .asest _ _ => true
  | .astopk _ p _ => p != 3
  | .rhcfg _ _ => true
  | .rhsig _ _ _ => true
  | .rhlist _ _ => true
  | .rhstep f _ a => f == 1 || a == 0
  | .rhmap _ p _ => p.toNat < 5
  | .mma _ _ _ _ _ _ _ => true
  | .mma3 _ _ _ _ _ _ => true
  | .mzero _ _ => true
  | .mband _ _ _ => true
  | .tld _ _ _ _ _ _ => true
  | .tst _ _ _ _ _ _ => true
  | .tstnt _ _ _ _ _ _ => true
  | .scld _ _ _ => true
  | .pull _ _ _ _ => true
  | .push _ _ _ _ => true
  | .cxsend _ _ _ _ => true
  | .cxtile _ _ _ _ => true
  | .gather _ _ _ _ _ => true
  | .rtset _ _ _ => true
  | .mapset _ _ _ _ => true
  | .mapret _ _ _ _ => true
  | .mapswap _ _ _ _ _ => true
  | .mapq _ _ _ _ => true
  | .straypop _ _ _ _ => true
  | .send _ _ _ => true
  | .recv _ _ _ => true
  | .recvadd _ _ _ f => f.toNat < 2
  | .recvmax _ _ _ f => f.toNat < 2
  | .grpset _ _ _ => true
  | .mcldr _ _ _ o _ => o != 3
  | .wbrun _ _ n => n != 0
  | .ttarm _ _ _ _ => true
  | .ctarm _ _ _ _ _ => true
  | .trdis _ _ => true
  | .ccinc _ _ o _ => o.toNat < 5
  | .iterationBoundary _ => true
  | .dynamicWaitRelease _ => true
  | .barrierRelease _ _ => true
  | .groupStall _ => true
  | .groupResume _ => true
  | .pendingEvent _ => true
  | .forcedQuench _ => true
  | .watchdog _ => true
  | .debuggerHalt _ => true
  | .coordinatePacket _ _ => true
  | .directSend _ _ _ _ => true
  | .collectiveContribution _ _ _ _ => true
  | .collectiveResult _ _ => true
  | .waybillMemoryTransfer _ _ _ _ => true
  | .queuedRowPerform _ _ _ => true
  | .nonTemporalPerform _ _ _ => true
  | .counterIncrement _ => true
  | .timeTriggerFire _ _ => true
  | .counterInterrupt _ _ => true
  | .nestedWalk _ => true
  | .migrationRequest _ _ => true
  | .migrationCopy _ => true
  | .reKey _ _ => true
  | .patrolScrub _ _ => true
  | .launchRecord _ _ => true
  | .admission _ => true
  | .launchStart _ => true
  | .nodeStart _ _ => true
  | .handoverStart _ => true
  | .bankPass _ _ => true
  | .unitComplete _ => true
  | .completionIncrement _ _ => true
  | .cancelMark _ _ => true
  | .restoreStart _ => true
  | .partitionHalted _ => true
  | .emergencyStop _ _ _ => true
  | .powerGood _ _ _ _ _ _ _ => true
  | .measurementExtension _ _ _ => true
  | .firmwareLogRead _ => true
  | .pstateOnDelay _ => true
  | .sctFrame _ _ _ _ _ _ => true
  | .sctAcknowledgement _ _ => true
  | .cumulativeAcknowledgement _ => true
  | .retransmitTimeout _ => true
  | .rdmaWrite _ _ _ _ => true
  | .rdmaRead _ _ _ _ => true
  | .roceSendRequest _ _ => true
  | .roceAtomicRequest _ _ => true
  | .ptpEventMessage _ _ _ => true
  | .getVersion _ => true
  | .getCapabilities _ => true
  | .negotiateAlgorithms _ _ _ _ => true
  | .getDigests _ => true
  | .getCertificate _ _ _ => true
  | .challenge _ _ => true
  | .getMeasurements _ _ _ _ => true
  | .keyExchange _ _ _ => true
  | .finish _ _ _ => true
  | .endSession _ _ => true
  | .qset _ _ _ _ => true
  | .ccset _ _ _ _ _ => true
  | .cmdCancel _ _ _ => true
  | .cmdQuench _ _ _ => true
  | .cmdHold _ _ _ => true
  | .cmdUnhold _ _ _ => true
  | .qlimit _ _ _ => true
  | .msumap _ _ _ _ _ => true
  | .migq _ _ _ _ => true
  | .roots _ _ _ _ => true
  | .invtlb _ _ _ _ => true
  | .sctpeer _ _ _ _ => true
  | .pstate _ _ _ => true
  | .cmdReset _ _ => true
  | .harvest _ _ _ _ _ => true
  | .handler _ _ _ _ => true
  | .mtsCsw _ => true
  | .mtsVstat _ => true
  | .mtsRngpos _ => true
  | .mtsRngkey _ => true
  | .mtsWdog _ => true
  | .mtsRhstat _ => true
  | .mtsAsstat _ => true
  | .mtsMapstat _ => true
  | .mtsStrayn _ => true
  | .mtsCollide _ => true
  | .mtsGtadj _ => true
  | .dbgBreak _ _ => true
  | .dbgBreakAll _ => true
  | .dbgContinue => true
  | .dbgLaunch _ => true
  | .rt _ _ => true
  | .dbgFq _ => true
  | .dbgMtx _ => true
  | .dbgLtt _ _ _ => true
  | .dbgAssay _ _ => true
  | .landlog _ => true
  | .dbgRh _ _ => true
  | .efdbLoop _ => true
  | .dbgGroup _ _ => true
  | .redlog _ _ _ => true
  | .stackOffline _ => true
  | .powerRemoved => true
  | .partitionFormation _ _ _ _ _ => true
  | .compatibilityMode _ _ _ => true
  | .priorityFlowControl _ _ _ => true

/-- The slots in which an instruction stands (R91 to R94); an event stands in none. -/
def Instr.slots (i : Instr) : List Nat :=
  match i with
  | .nop _ => [0]
  | .br _ _ _ _ => [0]
  | .jmp _ _ _ => [0]
  | .call _ _ _ _ => [0]
  | .ret _ _ _ => [0]
  | .loop _ _ _ _ _ _ => [0]
  | .lexit _ _ => [0]
  | .sync _ _ => [0]
  | .bar _ _ => [0]
  | .barns _ _ => [0]
  | .waitt _ _ _ _ => [0]
  | .twait _ _ _ => [0]
  | .ccwait _ _ _ _ => [0]
  | .uend _ _ => [0]
  | .qpoint _ _ => [0]
  | .ifence _ _ => [0]
  | .bkacq _ _ _ _ => [0]
  | .bkrel _ _ _ _ => [0]
  | .drainnt _ _ => [0]
  | .qfence _ _ => [0]
  | .pack _ => [0]
  | .trap _ _ _ => [0]
  | .brk _ _ => [0]
  | .eret _ _ => [0]
  | .snapst _ _ => [0]
  | .snaprel _ => [0]
  | .ctxsave _ _ => [0]
  | .ctxrest _ _ _ _ => [0]
  | .lttld _ _ _ => [0]
  | .lttinv _ _ => [0]
  | .add _ _ _ _ => [1]
  | .addi _ _ _ _ _ => [1]
  | .sub _ _ _ _ => [1]
  | .mul _ _ _ _ => [1]
  | .mulh _ _ _ _ _ => [1]
  | .div _ _ _ _ _ => [1]
  | .and _ _ _ _ => [1]
  | .or _ _ _ _ => [1]
  | .xor _ _ _ _ => [1]
  | .andi _ _ _ _ _ => [1]
  | .ori _ _ _ _ _ => [1]
  | .xori _ _ _ _ _ => [1]
  | .shl _ _ _ _ => [1]
  | .shr _ _ _ _ => [1]
  | .sar _ _ _ _ => [1]
  | .shli _ _ _ _ _ => [1]
  | .shri _ _ _ _ _ => [1]
  | .sari _ _ _ _ _ => [1]
  | .minmax _ _ _ _ _ => [1]
  | .cmp _ _ _ _ _ => [1]
  | .cmpi _ _ _ _ _ _ => [1]
  | .sel _ _ _ _ _ => [1]
  | .movi _ _ _ _ => [1]
  | .movhi _ _ _ _ => [1]
  | .lea _ _ _ _ _ => [1]
  | .plog _ _ _ _ _ => [1]
  | .bitc _ _ _ _ => [1]
  | .bitcTest _ _ _ _ => [1]
  | .ldb _ _ _ _ _ => [1]
  | .ldbu _ _ _ _ _ => [1]
  | .ldh _ _ _ _ _ => [1]
  | .ldw _ _ _ _ _ => [1]
  | .ldhu _ _ _ _ _ => [1]
  | .ldwu _ _ _ _ _ => [1]
  | .ldd _ _ _ _ _ => [1]
  | .stb _ _ _ _ _ => [1]
  | .sth _ _ _ _ _ => [1]
  | .stw _ _ _ _ _ => [1]
  | .std _ _ _ _ _ => [1]
  | .atom _ _ _ _ _ => [1]
  | .acas _ _ _ _ => [1]
  | .mfs _ _ _ => [1]
  | .mts _ _ _ => [1]
  | .rdcyc _ _ => [1]
  | .rdgt _ _ => [1]
  | .ext _ _ _ _ _ => [1]
  | .vadd _ _ _ _ _ _ => [2, 3]
  | .vsub _ _ _ _ _ _ => [2, 3]
  | .vmul _ _ _ _ _ _ => [2, 3]
  | .vfma _ _ _ _ _ _ => [2, 3]
  | .vfms _ _ _ _ _ _ => [2, 3]
  | .vmin _ _ _ _ _ _ => [2, 3]
  | .vmax _ _ _ _ _ _ => [2, 3]
  | .vabs _ _ _ _ => [2, 3]
  | .vneg _ _ _ _ => [2, 3]
  | .vcmpeq _ _ _ _ _ _ => [2, 3]
  | .vcmplt _ _ _ _ _ _ => [2, 3]
  | .vcmple _ _ _ _ _ _ => [2, 3]
  | .vcmpne _ _ _ _ _ _ => [2, 3]
  | .viadd _ _ _ _ _ _ _ => [2, 3]
  | .visub _ _ _ _ _ _ _ => [2, 3]
  | .vimul _ _ _ _ _ _ _ => [2, 3]
  | .vand _ _ _ _ _ _ _ => [2, 3]
  | .vor _ _ _ _ _ _ _ => [2, 3]
  | .vxor _ _ _ _ _ _ _ => [2, 3]
  | .vshl _ _ _ _ _ _ _ => [2, 3]
  | .vshr _ _ _ _ _ _ _ => [2, 3]
  | .vsar _ _ _ _ _ _ _ => [2, 3]
  | .vimin _ _ _ _ _ _ _ => [2, 3]
  | .vimax _ _ _ _ _ _ _ => [2, 3]
  | .vicmpeq _ _ _ _ _ _ _ => [2, 3]
  | .vicmplt _ _ _ _ _ _ _ => [2, 3]
  | .vsel _ _ _ _ _ _ _ => [2, 3]
  | .vcvt _ _ _ _ _ _ _ => [2, 3]
  | .vbcast _ _ _ _ _ => [2, 3]
  | .vbcastExt _ _ _ _ _ => [2, 3]
  | .vperm _ _ _ _ _ _ _ => [2, 3]
  | .vrot _ _ _ _ _ _ _ => [2, 3]
  | .vrsum _ _ _ _ _ => [2, 3]
  | .vrmax _ _ _ _ _ => [2, 3]
  | .vmov _ _ _ _ _ => [2, 3]
  | .vld _ _ _ _ _ _ => [2, 3]
  | .vst _ _ _ _ _ => [2, 3]
  | .vgather _ _ _ _ _ => [2, 3]
  | .vscatter _ _ _ _ => [2, 3]
  | .twrow _ _ _ _ _ _ => [2, 3]
  | .trdcol _ _ _ _ _ _ => [2, 3]
  | .vqnt _ _ _ => [2, 3]
  | .vrng _ _ _ => [2, 3]
  | .viadds _ _ _ _ _ _ _ => [2, 3]
  | .vrcp _ _ _ _ => [2]
  | .vrsq _ _ _ _ => [2]
  | .vexp2 _ _ _ _ => [2]
  | .vlog2 _ _ _ _ => [2]
  | .vsin _ _ _ _ => [2]
  | .vcos _ _ _ _ => [2]
  | .vtanh _ _ _ _ => [2]
  | .ascfg _ _ _ _ => [2]
  | .asclr _ _ => [2]
  | .asqu _ _ _ => [2]
  | .ashh _ _ _ _ _ => [2]
  | .asdc _ _ _ _ => [2]
  | .asmrg _ _ => [2]
  | .assv _ _ => [2]
  | .asqry _ _ _ _ _ _ _ => [2]
  | .asest _ _ => [2]
  | .astopk _ _ _ => [2]
  | .rhcfg _ _ => [3]
  | .rhsig _ _ _ => [3]
  | .rhlist _ _ => [3]
  | .rhstep _ _ _ => [3]
  | .rhmap _ _ _ => [3]
  | .mma _ _ _ _ _ _ _ => [4]
  | .mma3 _ _ _ _ _ _ => [4]
  | .mzero _ _ => [4]
  | .mband _ _ _ => [4]
  | .tld _ _ _ _ _ _ => [5, 6]
  | .tst _ _ _ _ _ _ => [5, 6]
  | .tstnt _ _ _ _ _ _ => [5, 6]
  | .scld _ _ _ => [5, 6]
  | .pull _ _ _ _ => [5, 6]
  | .push _ _ _ _ => [5, 6]
  | .cxsend _ _ _ _ => [5, 6]
  | .cxtile _ _ _ _ => [5, 6]
  | .gather _ _ _ _ _ => [5, 6]
  | .rtset _ _ _ => [5, 6]
  | .mapset _ _ _ _ => [5, 6]
  | .mapret _ _ _ _ => [5, 6]
  | .mapswap _ _ _ _ _ => [5, 6]
  | .mapq _ _ _ _ => [5, 6]
  | .straypop _ _ _ _ => [5, 6]
  | .send _ _ _ => [7]
  | .recv _ _ _ => [7]
  | .recvadd _ _ _ _ => [7]
  | .recvmax _ _ _ _ => [7]
  | .grpset _ _ _ => [7]
  | .mcldr _ _ _ _ _ => [7]
  | .wbrun _ _ _ => [7]
  | .ttarm _ _ _ _ => [7]
  | .ctarm _ _ _ _ _ => [7]
  | .trdis _ _ => [7]
  | .ccinc _ _ _ _ => [7]
  | .iterationBoundary _ => []
  | .dynamicWaitRelease _ => []
  | .barrierRelease _ _ => []
  | .groupStall _ => []
  | .groupResume _ => []
  | .pendingEvent _ => []
  | .forcedQuench _ => []
  | .watchdog _ => []
  | .debuggerHalt _ => []
  | .coordinatePacket _ _ => []
  | .directSend _ _ _ _ => []
  | .collectiveContribution _ _ _ _ => []
  | .collectiveResult _ _ => []
  | .waybillMemoryTransfer _ _ _ _ => []
  | .queuedRowPerform _ _ _ => []
  | .nonTemporalPerform _ _ _ => []
  | .counterIncrement _ => []
  | .timeTriggerFire _ _ => []
  | .counterInterrupt _ _ => []
  | .nestedWalk _ => []
  | .migrationRequest _ _ => []
  | .migrationCopy _ => []
  | .reKey _ _ => []
  | .patrolScrub _ _ => []
  | .launchRecord _ _ => []
  | .admission _ => []
  | .launchStart _ => []
  | .nodeStart _ _ => []
  | .handoverStart _ => []
  | .bankPass _ _ => []
  | .unitComplete _ => []
  | .completionIncrement _ _ => []
  | .cancelMark _ _ => []
  | .restoreStart _ => []
  | .partitionHalted _ => []
  | .emergencyStop _ _ _ => []
  | .powerGood _ _ _ _ _ _ _ => []
  | .measurementExtension _ _ _ => []
  | .firmwareLogRead _ => []
  | .pstateOnDelay _ => []
  | .sctFrame _ _ _ _ _ _ => []
  | .sctAcknowledgement _ _ => []
  | .cumulativeAcknowledgement _ => []
  | .retransmitTimeout _ => []
  | .rdmaWrite _ _ _ _ => []
  | .rdmaRead _ _ _ _ => []
  | .roceSendRequest _ _ => []
  | .roceAtomicRequest _ _ => []
  | .ptpEventMessage _ _ _ => []
  | .getVersion _ => []
  | .getCapabilities _ => []
  | .negotiateAlgorithms _ _ _ _ => []
  | .getDigests _ => []
  | .getCertificate _ _ _ => []
  | .challenge _ _ => []
  | .getMeasurements _ _ _ _ => []
  | .keyExchange _ _ _ => []
  | .finish _ _ _ => []
  | .endSession _ _ => []
  | .qset _ _ _ _ => []
  | .ccset _ _ _ _ _ => []
  | .cmdCancel _ _ _ => []
  | .cmdQuench _ _ _ => []
  | .cmdHold _ _ _ => []
  | .cmdUnhold _ _ _ => []
  | .qlimit _ _ _ => []
  | .msumap _ _ _ _ _ => []
  | .migq _ _ _ _ => []
  | .roots _ _ _ _ => []
  | .invtlb _ _ _ _ => []
  | .sctpeer _ _ _ _ => []
  | .pstate _ _ _ => []
  | .cmdReset _ _ => []
  | .harvest _ _ _ _ _ => []
  | .handler _ _ _ _ => []
  | .mtsCsw _ => []
  | .mtsVstat _ => []
  | .mtsRngpos _ => []
  | .mtsRngkey _ => []
  | .mtsWdog _ => []
  | .mtsRhstat _ => []
  | .mtsAsstat _ => []
  | .mtsMapstat _ => []
  | .mtsStrayn _ => []
  | .mtsCollide _ => []
  | .mtsGtadj _ => []
  | .dbgBreak _ _ => []
  | .dbgBreakAll _ => []
  | .dbgContinue => []
  | .dbgLaunch _ => []
  | .rt _ _ => []
  | .dbgFq _ => []
  | .dbgMtx _ => []
  | .dbgLtt _ _ _ => []
  | .dbgAssay _ _ => []
  | .landlog _ => []
  | .dbgRh _ _ => []
  | .efdbLoop _ => []
  | .dbgGroup _ _ => []
  | .redlog _ _ _ => []
  | .stackOffline _ => []
  | .powerRemoved => []
  | .partitionFormation _ _ _ _ _ => []
  | .compatibilityMode _ _ _ => []
  | .priorityFlowControl _ _ _ => []

/-- An instruction that may stand in slot `k` with no reserved value. -/
def Instr.wellFormedIn (i : Instr) (k : Nat) : Bool := i.wf && i.slots.contains k

end Sys2Proof
end

