-- ==== Sys2Proof/Decode.lean ====
section
/-! DEFINITION. From slot words to instructions and back (R73, R78 to R94). The decoder is total on any word and rejects by
name; the encoder is written from the same tables of spec/04, spec/05, spec/06, spec/07, spec/08, spec/09 and spec/10. -/

namespace Sys2Proof

/-- Why a slot word is no instruction of its slot (R95). -/
inductive DecodeError where
  /-- an opcode that the slot's table does not give (R91 to R94). -/
  | reservedOpcode
  /-- a non-zero bit in a field that must be zero, or a NOP word that is not all zeros. -/
  | mustBeZero
  /-- a value that the instruction's rule reserves. -/
  | reservedValue
  /-- an extension word where the instruction takes none, or none where it needs one (R81, R123). -/
  | extension
  /-- there is no such slot. -/
  | noSlot
  deriving DecidableEq, Repr

/-- The instruction of slot 0 (R91) that a word names by its opcode, with its extension word if its right neighbour is
surrendered. -/
def decode0 (w : BitVec 32) (x : Option (BitVec 32)) : Except DecodeError Instr :=
  match (w.extractLsb' 19 6).toNat with
  | 0x00 =>
    if w &&& 0x01FFFFFF#32 == 0x00000000#32 then (if x.isNone then .ok (.nop (w.extractLsb' 25 7)) else .error .extension) else .error .mustBeZero
  | 0x01 =>
    if w &&& 0x01F80000#32 == 0x00080000#32 then .ok (.br (w.extractLsb' 25 7) (w.extractLsb' 15 4) (w.extractLsb' 0 15) x) else .error .mustBeZero
  | 0x02 =>
    if w &&& 0x01F801FF#32 == 0x00100000#32 then (if x.isNone then .ok (.jmp (w.extractLsb' 25 7) (w.extractLsb' 15 4) (w.extractLsb' 9 6)) else .error .extension) else .error .mustBeZero
  | 0x03 =>
    if w &&& 0x01F80000#32 == 0x00180000#32 then .ok (.call (w.extractLsb' 25 7) (w.extractLsb' 15 4) (w.extractLsb' 0 15) x) else .error .mustBeZero
  | 0x04 =>
    if w &&& 0x01F801FF#32 == 0x00200000#32 then (if x.isNone then .ok (.ret (w.extractLsb' 25 7) (w.extractLsb' 15 4) (w.extractLsb' 9 6)) else .error .extension) else .error .mustBeZero
  | 0x05 =>
    if w &&& 0x01F80000#32 == 0x00280000#32 then .ok (.loop (w.extractLsb' 25 7) (w.extractLsb' 15 4) (w.extractLsb' 9 6) (w.extractLsb' 5 4) (w.extractLsb' 0 5) x) else .error .mustBeZero
  | 0x06 =>
    if w &&& 0x01F87FFF#32 == 0x00300000#32 then (if x.isNone then .ok (.lexit (w.extractLsb' 25 7) (w.extractLsb' 15 4)) else .error .extension) else .error .mustBeZero
  | 0x07 =>
    if w &&& 0x01FFFFF8#32 == 0x00380000#32 then (if x.isNone then .ok (.sync (w.extractLsb' 25 7) (w.extractLsb' 0 3)) else .error .extension) else .error .mustBeZero
  | 0x08 =>
    if w &&& 0x01FFFFF8#32 == 0x00400000#32 then (if x.isNone then .ok (.bar (w.extractLsb' 25 7) (w.extractLsb' 0 3)) else .error .extension) else .error .mustBeZero
  | 0x09 =>
    if w &&& 0x01FFFFF8#32 == 0x00480000#32 then (if x.isNone then .ok (.barns (w.extractLsb' 25 7) (w.extractLsb' 0 3)) else .error .extension) else .error .mustBeZero
  | 0x0A =>
    if w &&& 0x01F801FF#32 == 0x00500000#32 then .ok (.waitt (w.extractLsb' 25 7) (w.extractLsb' 15 4) (w.extractLsb' 9 6) x) else .error .mustBeZero
  | 0x0B =>
    if w &&& 0x01F87F00#32 == 0x00580000#32 then (if x.isNone then .ok (.twait (w.extractLsb' 25 7) (w.extractLsb' 15 4) (w.extractLsb' 0 8)) else .error .extension) else .error .mustBeZero
  | 0x0C =>
    if w &&& 0x01F801E0#32 == 0x00600000#32 then (if x.isNone then .ok (.ccwait (w.extractLsb' 25 7) (w.extractLsb' 15 4) (w.extractLsb' 9 6) (w.extractLsb' 0 5)) else .error .extension) else .error .mustBeZero
  | 0x0D =>
    if w &&& 0x01F87FFF#32 == 0x00680000#32 then (if x.isNone then .ok (.uend (w.extractLsb' 25 7) (w.extractLsb' 15 4)) else .error .extension) else .error .mustBeZero
  | 0x0E =>
    if w &&& 0x01F87FFF#32 == 0x00700000#32 then (if x.isNone then .ok (.qpoint (w.extractLsb' 25 7) (w.extractLsb' 15 4)) else .error .extension) else .error .mustBeZero
  | 0x0F =>
    if w &&& 0x01F87FFF#32 == 0x00780000#32 then (if x.isNone then .ok (.ifence (w.extractLsb' 25 7) (w.extractLsb' 15 4)) else .error .extension) else .error .mustBeZero
  | 0x10 =>
    if w &&& 0x01F87E00#32 == 0x00800000#32 then (if x.isNone then .ok (.bkacq (w.extractLsb' 25 7) (w.extractLsb' 15 4) (w.extractLsb' 8 1) (w.extractLsb' 0 8)) else .error .extension) else .error .mustBeZero
  | 0x11 =>
    if w &&& 0x01F87E00#32 == 0x00880000#32 then (if x.isNone then .ok (.bkrel (w.extractLsb' 25 7) (w.extractLsb' 15 4) (w.extractLsb' 8 1) (w.extractLsb' 0 8)) else .error .extension) else .error .mustBeZero
  | 0x12 =>
    if w &&& 0x01F87FFF#32 == 0x00900000#32 then (if x.isNone then .ok (.drainnt (w.extractLsb' 25 7) (w.extractLsb' 15 4)) else .error .extension) else .error .mustBeZero
  | 0x13 =>
    if w &&& 0x01F87FFF#32 == 0x00980000#32 then (if x.isNone then .ok (.qfence (w.extractLsb' 25 7) (w.extractLsb' 15 4)) else .error .extension) else .error .mustBeZero
  | 0x14 =>
    if w &&& 0xFFF87FFF#32 == 0xFEA00000#32 then (if x.isNone then .ok (.pack (w.extractLsb' 15 4)) else .error .extension) else .error .mustBeZero
  | 0x15 =>
    if w &&& 0x01F87F00#32 == 0x00A80000#32 then (if x.isNone then .ok (.trap (w.extractLsb' 25 7) (w.extractLsb' 15 4) (w.extractLsb' 0 8)) else .error .extension) else .error .mustBeZero
  | 0x16 =>
    if w &&& 0x01FFFF00#32 == 0x00B00000#32 then (if x.isNone then .ok (.brk (w.extractLsb' 25 7) (w.extractLsb' 0 8)) else .error .extension) else .error .mustBeZero
  | 0x17 =>
    if w &&& 0x01FF81FF#32 == 0x00B80000#32 then (if x.isNone then .ok (.eret (w.extractLsb' 25 7) (w.extractLsb' 9 6)) else .error .extension) else .error .mustBeZero
  | 0x18 =>
    if w &&& 0x01FF81FF#32 == 0x00C00000#32 then (if x.isNone then .ok (.snapst (w.extractLsb' 25 7) (w.extractLsb' 9 6)) else .error .extension) else .error .mustBeZero
  | 0x19 =>
    if w &&& 0x01FFFFFF#32 == 0x00C80000#32 then (if x.isNone then .ok (.snaprel (w.extractLsb' 25 7)) else .error .extension) else .error .mustBeZero
  | 0x1A =>
    if w &&& 0x01FF81FF#32 == 0x00D00000#32 then (if x.isNone then .ok (.ctxsave (w.extractLsb' 25 7) (w.extractLsb' 9 6)) else .error .extension) else .error .mustBeZero
  | 0x1B =>
    if w &&& 0x01FF8001#32 == 0x00D80000#32 then (if x.isNone then .ok (.ctxrest (w.extractLsb' 25 7) (w.extractLsb' 9 6) (w.extractLsb' 3 6) (w.extractLsb' 1 2)) else .error .extension) else .error .mustBeZero
  | 0x1C =>
    if w &&& 0x01FF8007#32 == 0x00E00000#32 then (if x.isNone then .ok (.lttld (w.extractLsb' 25 7) (w.extractLsb' 9 6) (w.extractLsb' 3 6)) else .error .extension) else .error .mustBeZero
  | 0x1D =>
    if w &&& 0x01FF81FF#32 == 0x00E80000#32 then (if x.isNone then .ok (.lttinv (w.extractLsb' 25 7) (w.extractLsb' 9 6)) else .error .extension) else .error .mustBeZero
  | _ => .error .reservedOpcode

/-- The instruction of slot 1 (R92) that a word names by its opcode, with its extension word if its right neighbour is
surrendered. -/
def decode1 (w : BitVec 32) (x : Option (BitVec 32)) : Except DecodeError Instr :=
  match (w.extractLsb' 26 6).toNat with
  | 0x01 =>
    if w &&& 0xFC00000F#32 == 0x04000000#32 then (if x.isNone then .ok (.add (w.extractLsb' 22 4) (w.extractLsb' 16 6) (w.extractLsb' 10 6) (w.extractLsb' 4 6)) else .error .extension) else .error .mustBeZero
  | 0x02 =>
    if w &&& 0xFC000000#32 == 0x08000000#32 then .ok (.addi (w.extractLsb' 22 4) (w.extractLsb' 16 6) (w.extractLsb' 10 6) (w.extractLsb' 0 10) x) else .error .mustBeZero
  | 0x03 =>
    if w &&& 0xFC00000F#32 == 0x0C000000#32 then (if x.isNone then .ok (.sub (w.extractLsb' 22 4) (w.extractLsb' 16 6) (w.extractLsb' 10 6) (w.extractLsb' 4 6)) else .error .extension) else .error .mustBeZero
  | 0x04 =>
    if w &&& 0xFC00000F#32 == 0x10000000#32 then (if x.isNone then .ok (.mul (w.extractLsb' 22 4) (w.extractLsb' 16 6) (w.extractLsb' 10 6) (w.extractLsb' 4 6)) else .error .extension) else .error .mustBeZero
  | 0x05 =>
    if w &&& 0xFC000000#32 == 0x14000000#32 then (if x.isNone then .ok (.mulh (w.extractLsb' 22 4) (w.extractLsb' 16 6) (w.extractLsb' 10 6) (w.extractLsb' 4 6) (w.extractLsb' 0 4)) else .error .extension) else .error .mustBeZero
  | 0x06 =>
    if w &&& 0xFC000000#32 == 0x18000000#32 then (if x.isNone then .ok (.div (w.extractLsb' 22 4) (w.extractLsb' 16 6) (w.extractLsb' 10 6) (w.extractLsb' 4 6) (w.extractLsb' 0 4)) else .error .extension) else .error .mustBeZero
  | 0x07 =>
    if w &&& 0xFC00000F#32 == 0x1C000000#32 then (if x.isNone then .ok (.and (w.extractLsb' 22 4) (w.extractLsb' 16 6) (w.extractLsb' 10 6) (w.extractLsb' 4 6)) else .error .extension) else .error .mustBeZero
  | 0x08 =>
    if w &&& 0xFC00000F#32 == 0x20000000#32 then (if x.isNone then .ok (.or (w.extractLsb' 22 4) (w.extractLsb' 16 6) (w.extractLsb' 10 6) (w.extractLsb' 4 6)) else .error .extension) else .error .mustBeZero
  | 0x09 =>
    if w &&& 0xFC00000F#32 == 0x24000000#32 then (if x.isNone then .ok (.xor (w.extractLsb' 22 4) (w.extractLsb' 16 6) (w.extractLsb' 10 6) (w.extractLsb' 4 6)) else .error .extension) else .error .mustBeZero
  | 0x0A =>
    if w &&& 0xFC000000#32 == 0x28000000#32 then .ok (.andi (w.extractLsb' 22 4) (w.extractLsb' 16 6) (w.extractLsb' 10 6) (w.extractLsb' 0 10) x) else .error .mustBeZero
  | 0x0B =>
    if w &&& 0xFC000000#32 == 0x2C000000#32 then .ok (.ori (w.extractLsb' 22 4) (w.extractLsb' 16 6) (w.extractLsb' 10 6) (w.extractLsb' 0 10) x) else .error .mustBeZero
  | 0x0C =>
    if w &&& 0xFC000000#32 == 0x30000000#32 then .ok (.xori (w.extractLsb' 22 4) (w.extractLsb' 16 6) (w.extractLsb' 10 6) (w.extractLsb' 0 10) x) else .error .mustBeZero
  | 0x0D =>
    if w &&& 0xFC00000F#32 == 0x34000000#32 then (if x.isNone then .ok (.shl (w.extractLsb' 22 4) (w.extractLsb' 16 6) (w.extractLsb' 10 6) (w.extractLsb' 4 6)) else .error .extension) else .error .mustBeZero
  | 0x0E =>
    if w &&& 0xFC00000F#32 == 0x38000000#32 then (if x.isNone then .ok (.shr (w.extractLsb' 22 4) (w.extractLsb' 16 6) (w.extractLsb' 10 6) (w.extractLsb' 4 6)) else .error .extension) else .error .mustBeZero
  | 0x0F =>
    if w &&& 0xFC00000F#32 == 0x3C000000#32 then (if x.isNone then .ok (.sar (w.extractLsb' 22 4) (w.extractLsb' 16 6) (w.extractLsb' 10 6) (w.extractLsb' 4 6)) else .error .extension) else .error .mustBeZero
  | 0x10 =>
    if w &&& 0xFC000000#32 == 0x40000000#32 then .ok (.shli (w.extractLsb' 22 4) (w.extractLsb' 16 6) (w.extractLsb' 10 6) (w.extractLsb' 0 10) x) else .error .mustBeZero
  | 0x11 =>
    if w &&& 0xFC000000#32 == 0x44000000#32 then .ok (.shri (w.extractLsb' 22 4) (w.extractLsb' 16 6) (w.extractLsb' 10 6) (w.extractLsb' 0 10) x) else .error .mustBeZero
  | 0x12 =>
    if w &&& 0xFC000000#32 == 0x48000000#32 then .ok (.sari (w.extractLsb' 22 4) (w.extractLsb' 16 6) (w.extractLsb' 10 6) (w.extractLsb' 0 10) x) else .error .mustBeZero
  | 0x13 =>
    if w &&& 0xFC000000#32 == 0x4C000000#32 then (if x.isNone then .ok (.minmax (w.extractLsb' 22 4) (w.extractLsb' 16 6) (w.extractLsb' 10 6) (w.extractLsb' 4 6) (w.extractLsb' 0 4)) else .error .extension) else .error .mustBeZero
  | 0x14 =>
    if w &&& 0xFC300000#32 == 0x50000000#32 then (if x.isNone then .ok (.cmp (w.extractLsb' 22 4) (w.extractLsb' 16 4) (w.extractLsb' 10 6) (w.extractLsb' 4 6) (w.extractLsb' 0 4)) else .error .extension) else .error .mustBeZero
  | 0x15 =>
    if w &&& 0xFC000000#32 == 0x54000000#32 then .ok (.cmpi (w.extractLsb' 22 4) (w.extractLsb' 20 2) (w.extractLsb' 16 4) (w.extractLsb' 10 6) (w.extractLsb' 0 10) x) else .error .mustBeZero
  | 0x16 =>
    if w &&& 0xFC000000#32 == 0x58000000#32 then (if x.isNone then .ok (.sel (w.extractLsb' 22 4) (w.extractLsb' 16 6) (w.extractLsb' 10 6) (w.extractLsb' 4 6) (w.extractLsb' 0 4)) else .error .extension) else .error .mustBeZero
  | 0x17 =>
    if w &&& 0xFC000000#32 == 0x5C000000#32 then .ok (.movi (w.extractLsb' 22 4) (w.extractLsb' 16 6) (w.extractLsb' 0 16) x) else .error .mustBeZero
  | 0x18 =>
    if w &&& 0xFC000000#32 == 0x60000000#32 then .ok (.movhi (w.extractLsb' 22 4) (w.extractLsb' 16 6) (w.extractLsb' 0 16) x) else .error .mustBeZero
  | 0x19 =>
    if w &&& 0xFC000000#32 == 0x64000000#32 then (if x.isNone then .ok (.lea (w.extractLsb' 22 4) (w.extractLsb' 16 6) (w.extractLsb' 10 6) (w.extractLsb' 4 6) (w.extractLsb' 0 4)) else .error .extension) else .error .mustBeZero
  | 0x1A =>
    if w &&& 0xFC30C300#32 == 0x68000000#32 then (if x.isNone then .ok (.plog (w.extractLsb' 22 4) (w.extractLsb' 16 4) (w.extractLsb' 10 4) (w.extractLsb' 4 4) (w.extractLsb' 0 4)) else .error .extension) else .error .mustBeZero
  | 0x1B =>
    if w &&& 0x0000000F#32 == 0x00000003#32 then
      (if w &&& 0xFC30000F#32 == 0x6C000003#32 then (if x.isNone then .ok (.bitcTest (w.extractLsb' 22 4) (w.extractLsb' 16 4) (w.extractLsb' 10 6) (w.extractLsb' 4 6)) else .error .extension) else .error .mustBeZero)
    else if w &&& 0xFC0003F0#32 == 0x6C000000#32 then (if x.isNone then .ok (.bitc (w.extractLsb' 22 4) (w.extractLsb' 16 6) (w.extractLsb' 10 6) (w.extractLsb' 0 4)) else .error .extension)
    else .error .mustBeZero
  | 0x1C =>
    if w &&& 0xFC000000#32 == 0x70000000#32 then .ok (.ldb (w.extractLsb' 22 4) (w.extractLsb' 16 6) (w.extractLsb' 10 6) (w.extractLsb' 0 10) x) else .error .mustBeZero
  | 0x1D =>
    if w &&& 0xFC000000#32 == 0x74000000#32 then .ok (.ldbu (w.extractLsb' 22 4) (w.extractLsb' 16 6) (w.extractLsb' 10 6) (w.extractLsb' 0 10) x) else .error .mustBeZero
  | 0x1E =>
    if w &&& 0xFC00000F#32 == 0x78000000#32 then .ok (.ldh (w.extractLsb' 22 4) (w.extractLsb' 16 6) (w.extractLsb' 10 6) (w.extractLsb' 4 6) x) else
    if w &&& 0xFC00000F#32 == 0x78000001#32 then .ok (.ldw (w.extractLsb' 22 4) (w.extractLsb' 16 6) (w.extractLsb' 10 6) (w.extractLsb' 4 6) x) else .error .mustBeZero
  | 0x1F =>
    if w &&& 0xFC00000F#32 == 0x7C000000#32 then .ok (.ldhu (w.extractLsb' 22 4) (w.extractLsb' 16 6) (w.extractLsb' 10 6) (w.extractLsb' 4 6) x) else
    if w &&& 0xFC00000F#32 == 0x7C000001#32 then .ok (.ldwu (w.extractLsb' 22 4) (w.extractLsb' 16 6) (w.extractLsb' 10 6) (w.extractLsb' 4 6) x) else .error .mustBeZero
  | 0x20 =>
    if w &&& 0xFC000000#32 == 0x80000000#32 then .ok (.ldd (w.extractLsb' 22 4) (w.extractLsb' 16 6) (w.extractLsb' 10 6) (w.extractLsb' 0 10) x) else .error .mustBeZero
  | 0x21 =>
    if w &&& 0xFC000000#32 == 0x84000000#32 then .ok (.stb (w.extractLsb' 22 4) (w.extractLsb' 16 6) (w.extractLsb' 10 6) (w.extractLsb' 0 10) x) else .error .mustBeZero
  | 0x22 =>
    if w &&& 0xFC000000#32 == 0x88000000#32 then .ok (.sth (w.extractLsb' 22 4) (w.extractLsb' 16 6) (w.extractLsb' 10 6) (w.extractLsb' 0 10) x) else .error .mustBeZero
  | 0x23 =>
    if w &&& 0xFC000000#32 == 0x8C000000#32 then .ok (.stw (w.extractLsb' 22 4) (w.extractLsb' 16 6) (w.extractLsb' 10 6) (w.extractLsb' 0 10) x) else .error .mustBeZero
  | 0x24 =>
    if w &&& 0xFC000000#32 == 0x90000000#32 then .ok (.std (w.extractLsb' 22 4) (w.extractLsb' 16 6) (w.extractLsb' 10 6) (w.extractLsb' 0 10) x) else .error .mustBeZero
  | 0x25 =>
    if w &&& 0xFC000000#32 == 0x94000000#32 then (if x.isNone then .ok (.atom (w.extractLsb' 22 4) (w.extractLsb' 16 6) (w.extractLsb' 10 6) (w.extractLsb' 4 6) (w.extractLsb' 0 4)) else .error .extension) else .error .mustBeZero
  | 0x26 =>
    if w &&& 0xFC00000F#32 == 0x98000000#32 then (if x.isNone then .ok (.acas (w.extractLsb' 22 4) (w.extractLsb' 16 6) (w.extractLsb' 10 6) (w.extractLsb' 4 6)) else .error .extension) else .error .mustBeZero
  | 0x27 =>
    if w &&& 0xFC00000F#32 == 0x9C000000#32 then (if x.isNone then .ok (.mfs (w.extractLsb' 22 4) (w.extractLsb' 16 6) (w.extractLsb' 4 12)) else .error .extension) else .error .mustBeZero
  | 0x28 =>
    if w &&& 0xFC00000F#32 == 0xA0000000#32 then (if x.isNone then .ok (.mts (w.extractLsb' 22 4) (w.extractLsb' 16 6) (w.extractLsb' 4 12)) else .error .extension) else .error .mustBeZero
  | 0x29 =>
    if w &&& 0xFC00FFFF#32 == 0xA4000000#32 then (if x.isNone then .ok (.rdcyc (w.extractLsb' 22 4) (w.extractLsb' 16 6)) else .error .extension) else .error .mustBeZero
  | 0x2A =>
    if w &&& 0xFC00FFFF#32 == 0xA8000000#32 then (if x.isNone then .ok (.rdgt (w.extractLsb' 22 4) (w.extractLsb' 16 6)) else .error .extension) else .error .mustBeZero
  | 0x2B =>
    if w &&& 0xFC000000#32 == 0xAC000000#32 then (if x.isNone then .ok (.ext (w.extractLsb' 22 4) (w.extractLsb' 16 6) (w.extractLsb' 10 6) (w.extractLsb' 4 6) (w.extractLsb' 0 4)) else .error .extension) else .error .mustBeZero
  | _ => .error .reservedOpcode

/-- The instruction of what slots 2 and 3 share (R93) that a word names by its opcode, with its extension word if its right neighbour is
surrendered. -/
def decodeV (w : BitVec 32) (x : Option (BitVec 32)) : Except DecodeError Instr :=
  match (w.extractLsb' 26 6).toNat with
  | 0x01 =>
    if w &&& 0xFC000000#32 == 0x04000000#32 then (if x.isNone then .ok (.vadd (w.extractLsb' 23 3) (w.extractLsb' 22 1) (w.extractLsb' 15 7) (w.extractLsb' 8 7) (w.extractLsb' 1 7) (w.extractLsb' 0 1)) else .error .extension) else .error .mustBeZero
  | 0x02 =>
    if w &&& 0xFC000000#32 == 0x08000000#32 then (if x.isNone then .ok (.vsub (w.extractLsb' 23 3) (w.extractLsb' 22 1) (w.extractLsb' 15 7) (w.extractLsb' 8 7) (w.extractLsb' 1 7) (w.extractLsb' 0 1)) else .error .extension) else .error .mustBeZero
  | 0x03 =>
    if w &&& 0xFC000000#32 == 0x0C000000#32 then (if x.isNone then .ok (.vmul (w.extractLsb' 23 3) (w.extractLsb' 22 1) (w.extractLsb' 15 7) (w.extractLsb' 8 7) (w.extractLsb' 1 7) (w.extractLsb' 0 1)) else .error .extension) else .error .mustBeZero
  | 0x04 =>
    if w &&& 0xFC000000#32 == 0x10000000#32 then (if x.isNone then .ok (.vfma (w.extractLsb' 23 3) (w.extractLsb' 22 1) (w.extractLsb' 15 7) (w.extractLsb' 8 7) (w.extractLsb' 1 7) (w.extractLsb' 0 1)) else .error .extension) else .error .mustBeZero
  | 0x05 =>
    if w &&& 0xFC000000#32 == 0x14000000#32 then (if x.isNone then .ok (.vfms (w.extractLsb' 23 3) (w.extractLsb' 22 1) (w.extractLsb' 15 7) (w.extractLsb' 8 7) (w.extractLsb' 1 7) (w.extractLsb' 0 1)) else .error .extension) else .error .mustBeZero
  | 0x06 =>
    if w &&& 0xFC000000#32 == 0x18000000#32 then (if x.isNone then .ok (.vmin (w.extractLsb' 23 3) (w.extractLsb' 22 1) (w.extractLsb' 15 7) (w.extractLsb' 8 7) (w.extractLsb' 1 7) (w.extractLsb' 0 1)) else .error .extension) else .error .mustBeZero
  | 0x07 =>
    if w &&& 0xFC000000#32 == 0x1C000000#32 then (if x.isNone then .ok (.vmax (w.extractLsb' 23 3) (w.extractLsb' 22 1) (w.extractLsb' 15 7) (w.extractLsb' 8 7) (w.extractLsb' 1 7) (w.extractLsb' 0 1)) else .error .extension) else .error .mustBeZero
  | 0x08 =>
    if w &&& 0xFC0000FF#32 == 0x20000000#32 then (if x.isNone then .ok (.vabs (w.extractLsb' 23 3) (w.extractLsb' 22 1) (w.extractLsb' 15 7) (w.extractLsb' 8 7)) else .error .extension) else .error .mustBeZero
  | 0x09 =>
    if w &&& 0xFC0000FF#32 == 0x24000000#32 then (if x.isNone then .ok (.vneg (w.extractLsb' 23 3) (w.extractLsb' 22 1) (w.extractLsb' 15 7) (w.extractLsb' 8 7)) else .error .extension) else .error .mustBeZero
  | 0x0A =>
    if w &&& 0xFC3C0000#32 == 0x28000000#32 then (if x.isNone then .ok (.vcmpeq (w.extractLsb' 23 3) (w.extractLsb' 22 1) (w.extractLsb' 15 3) (w.extractLsb' 8 7) (w.extractLsb' 1 7) (w.extractLsb' 0 1)) else .error .extension) else .error .mustBeZero
  | 0x0B =>
    if w &&& 0xFC3C0000#32 == 0x2C000000#32 then (if x.isNone then .ok (.vcmplt (w.extractLsb' 23 3) (w.extractLsb' 22 1) (w.extractLsb' 15 3) (w.extractLsb' 8 7) (w.extractLsb' 1 7) (w.extractLsb' 0 1)) else .error .extension) else .error .mustBeZero
  | 0x0C =>
    if w &&& 0xFC3C0000#32 == 0x30000000#32 then (if x.isNone then .ok (.vcmple (w.extractLsb' 23 3) (w.extractLsb' 22 1) (w.extractLsb' 15 3) (w.extractLsb' 8 7) (w.extractLsb' 1 7) (w.extractLsb' 0 1)) else .error .extension) else .error .mustBeZero
  | 0x0D =>
    if w &&& 0xFC3C0000#32 == 0x34000000#32 then (if x.isNone then .ok (.vcmpne (w.extractLsb' 23 3) (w.extractLsb' 22 1) (w.extractLsb' 15 3) (w.extractLsb' 8 7) (w.extractLsb' 1 7) (w.extractLsb' 0 1)) else .error .extension) else .error .mustBeZero
  | 0x0E =>
    if w &&& 0xFC000000#32 == 0x38000000#32 then (if x.isNone then .ok (.viadd (w.extractLsb' 23 3) (w.extractLsb' 22 1) (w.extractLsb' 15 7) (w.extractLsb' 8 7) (w.extractLsb' 7 1) (w.extractLsb' 1 6) (w.extractLsb' 0 1)) else .error .extension) else .error .mustBeZero
  | 0x0F =>
    if w &&& 0xFC000000#32 == 0x3C000000#32 then (if x.isNone then .ok (.visub (w.extractLsb' 23 3) (w.extractLsb' 22 1) (w.extractLsb' 15 7) (w.extractLsb' 8 7) (w.extractLsb' 7 1) (w.extractLsb' 1 6) (w.extractLsb' 0 1)) else .error .extension) else .error .mustBeZero
  | 0x10 =>
    if w &&& 0xFC000000#32 == 0x40000000#32 then (if x.isNone then .ok (.vimul (w.extractLsb' 23 3) (w.extractLsb' 22 1) (w.extractLsb' 15 7) (w.extractLsb' 8 7) (w.extractLsb' 7 1) (w.extractLsb' 1 6) (w.extractLsb' 0 1)) else .error .extension) else .error .mustBeZero
  | 0x11 =>
    if w &&& 0xFC000000#32 == 0x44000000#32 then (if x.isNone then .ok (.vand (w.extractLsb' 23 3) (w.extractLsb' 22 1) (w.extractLsb' 15 7) (w.extractLsb' 8 7) (w.extractLsb' 7 1) (w.extractLsb' 1 6) (w.extractLsb' 0 1)) else .error .extension) else .error .mustBeZero
  | 0x12 =>
    if w &&& 0xFC000000#32 == 0x48000000#32 then (if x.isNone then .ok (.vor (w.extractLsb' 23 3) (w.extractLsb' 22 1) (w.extractLsb' 15 7) (w.extractLsb' 8 7) (w.extractLsb' 7 1) (w.extractLsb' 1 6) (w.extractLsb' 0 1)) else .error .extension) else .error .mustBeZero
  | 0x13 =>
    if w &&& 0xFC000000#32 == 0x4C000000#32 then (if x.isNone then .ok (.vxor (w.extractLsb' 23 3) (w.extractLsb' 22 1) (w.extractLsb' 15 7) (w.extractLsb' 8 7) (w.extractLsb' 7 1) (w.extractLsb' 1 6) (w.extractLsb' 0 1)) else .error .extension) else .error .mustBeZero
  | 0x14 =>
    if w &&& 0xFC000000#32 == 0x50000000#32 then (if x.isNone then .ok (.vshl (w.extractLsb' 23 3) (w.extractLsb' 22 1) (w.extractLsb' 15 7) (w.extractLsb' 8 7) (w.extractLsb' 7 1) (w.extractLsb' 1 6) (w.extractLsb' 0 1)) else .error .extension) else .error .mustBeZero
  | 0x15 =>
    if w &&& 0xFC000000#32 == 0x54000000#32 then (if x.isNone then .ok (.vshr (w.extractLsb' 23 3) (w.extractLsb' 22 1) (w.extractLsb' 15 7) (w.extractLsb' 8 7) (w.extractLsb' 7 1) (w.extractLsb' 1 6) (w.extractLsb' 0 1)) else .error .extension) else .error .mustBeZero
  | 0x16 =>
    if w &&& 0xFC000000#32 == 0x58000000#32 then (if x.isNone then .ok (.vsar (w.extractLsb' 23 3) (w.extractLsb' 22 1) (w.extractLsb' 15 7) (w.extractLsb' 8 7) (w.extractLsb' 7 1) (w.extractLsb' 1 6) (w.extractLsb' 0 1)) else .error .extension) else .error .mustBeZero
  | 0x17 =>
    if w &&& 0xFC000000#32 == 0x5C000000#32 then (if x.isNone then .ok (.vimin (w.extractLsb' 23 3) (w.extractLsb' 22 1) (w.extractLsb' 15 7) (w.extractLsb' 8 7) (w.extractLsb' 7 1) (w.extractLsb' 1 6) (w.extractLsb' 0 1)) else .error .extension) else .error .mustBeZero
  | 0x18 =>
    if w &&& 0xFC000000#32 == 0x60000000#32 then (if x.isNone then .ok (.vimax (w.extractLsb' 23 3) (w.extractLsb' 22 1) (w.extractLsb' 15 7) (w.extractLsb' 8 7) (w.extractLsb' 7 1) (w.extractLsb' 1 6) (w.extractLsb' 0 1)) else .error .extension) else .error .mustBeZero
  | 0x19 =>
    if w &&& 0xFC3C0000#32 == 0x64000000#32 then (if x.isNone then .ok (.vicmpeq (w.extractLsb' 23 3) (w.extractLsb' 22 1) (w.extractLsb' 15 3) (w.extractLsb' 8 7) (w.extractLsb' 7 1) (w.extractLsb' 1 6) (w.extractLsb' 0 1)) else .error .extension) else .error .mustBeZero
  | 0x1A =>
    if w &&& 0xFC3C0000#32 == 0x68000000#32 then (if x.isNone then .ok (.vicmplt (w.extractLsb' 23 3) (w.extractLsb' 22 1) (w.extractLsb' 15 3) (w.extractLsb' 8 7) (w.extractLsb' 7 1) (w.extractLsb' 1 6) (w.extractLsb' 0 1)) else .error .extension) else .error .mustBeZero
  | 0x1B =>
    if w &&& 0xFC000000#32 == 0x6C000000#32 then (if x.isNone then .ok (.vsel (w.extractLsb' 23 3) (w.extractLsb' 22 1) (w.extractLsb' 15 7) (w.extractLsb' 8 7) (w.extractLsb' 7 1) (w.extractLsb' 1 6) (w.extractLsb' 0 1)) else .error .extension) else .error .mustBeZero
  | 0x1C =>
    if w &&& 0xFC000000#32 == 0x70000000#32 then (if x.isNone then .ok (.vcvt (w.extractLsb' 23 3) (w.extractLsb' 22 1) (w.extractLsb' 15 7) (w.extractLsb' 8 7) (w.extractLsb' 5 3) (w.extractLsb' 2 3) (w.extractLsb' 0 2)) else .error .extension) else .error .mustBeZero
  | 0x1D =>
    if w &&& 0xFC007C81#32 == 0x74000001#32 then (if x.isNone then .ok (.vbcast (w.extractLsb' 23 3) (w.extractLsb' 22 1) (w.extractLsb' 15 7) (w.extractLsb' 8 2) (w.extractLsb' 1 6)) else .error .extension) else
    if w &&& 0xFC007CFF#32 == 0x74000000#32 then (match x with | some e => .ok (.vbcastExt (w.extractLsb' 23 3) (w.extractLsb' 22 1) (w.extractLsb' 15 7) (w.extractLsb' 8 2) e) | none => .error .extension) else .error .mustBeZero
  | 0x1E =>
    if w &&& 0xFC000000#32 == 0x78000000#32 then (if x.isNone then .ok (.vperm (w.extractLsb' 23 3) (w.extractLsb' 22 1) (w.extractLsb' 15 7) (w.extractLsb' 8 7) (w.extractLsb' 7 1) (w.extractLsb' 1 6) (w.extractLsb' 0 1)) else .error .extension) else .error .mustBeZero
  | 0x1F =>
    if w &&& 0xFC000000#32 == 0x7C000000#32 then (if x.isNone then .ok (.vrot (w.extractLsb' 23 3) (w.extractLsb' 22 1) (w.extractLsb' 15 7) (w.extractLsb' 8 7) (w.extractLsb' 7 1) (w.extractLsb' 1 6) (w.extractLsb' 0 1)) else .error .extension) else .error .mustBeZero
  | 0x20 =>
    if w &&& 0xFC4000F1#32 == 0x80000000#32 then (if x.isNone then .ok (.vrsum (w.extractLsb' 23 3) (w.extractLsb' 15 7) (w.extractLsb' 8 7) (w.extractLsb' 3 1) (w.extractLsb' 1 2)) else .error .extension) else .error .mustBeZero
  | 0x21 =>
    if w &&& 0xFC4000F1#32 == 0x84000000#32 then (if x.isNone then .ok (.vrmax (w.extractLsb' 23 3) (w.extractLsb' 15 7) (w.extractLsb' 8 7) (w.extractLsb' 3 1) (w.extractLsb' 1 2)) else .error .extension) else .error .mustBeZero
  | 0x22 =>
    if w &&& 0xFC0000F9#32 == 0x88000000#32 then (if x.isNone then .ok (.vmov (w.extractLsb' 23 3) (w.extractLsb' 22 1) (w.extractLsb' 15 7) (w.extractLsb' 8 7) (w.extractLsb' 1 2)) else .error .extension) else .error .mustBeZero
  | 0x23 =>
    if w &&& 0xFC007C81#32 == 0x8C000001#32 then .ok (.vld (w.extractLsb' 23 3) (w.extractLsb' 22 1) (w.extractLsb' 15 7) (w.extractLsb' 8 2) (w.extractLsb' 1 6) x) else .error .mustBeZero
  | 0x24 =>
    if w &&& 0xFC407C81#32 == 0x90000001#32 then .ok (.vst (w.extractLsb' 23 3) (w.extractLsb' 15 7) (w.extractLsb' 8 2) (w.extractLsb' 1 6) x) else .error .mustBeZero
  | 0x25 =>
    if w &&& 0xFC000081#32 == 0x94000001#32 then (if x.isNone then .ok (.vgather (w.extractLsb' 23 3) (w.extractLsb' 22 1) (w.extractLsb' 15 7) (w.extractLsb' 8 7) (w.extractLsb' 1 6)) else .error .extension) else .error .mustBeZero
  | 0x26 =>
    if w &&& 0xFC400081#32 == 0x98000001#32 then (if x.isNone then .ok (.vscatter (w.extractLsb' 23 3) (w.extractLsb' 15 7) (w.extractLsb' 8 7) (w.extractLsb' 1 6)) else .error .extension) else .error .mustBeZero
  | 0x27 =>
    if w &&& 0xFC3C0080#32 == 0x9C000000#32 then (if x.isNone then .ok (.twrow (w.extractLsb' 23 3) (w.extractLsb' 22 1) (w.extractLsb' 15 3) (w.extractLsb' 8 7) (w.extractLsb' 1 6) (w.extractLsb' 0 1)) else .error .extension) else .error .mustBeZero
  | 0x28 =>
    if w &&& 0xFC007880#32 == 0xA0000000#32 then (if x.isNone then .ok (.trdcol (w.extractLsb' 23 3) (w.extractLsb' 22 1) (w.extractLsb' 15 7) (w.extractLsb' 8 3) (w.extractLsb' 1 6) (w.extractLsb' 0 1)) else .error .extension) else .error .mustBeZero
  | 0x29 =>
    if w &&& 0xFC4000FF#32 == 0xA4000000#32 then (if x.isNone then .ok (.vqnt (w.extractLsb' 23 3) (w.extractLsb' 15 7) (w.extractLsb' 8 7)) else .error .extension) else .error .mustBeZero
  | 0x2A =>
    if w &&& 0xFC007FFF#32 == 0xA8000000#32 then (if x.isNone then .ok (.vrng (w.extractLsb' 23 3) (w.extractLsb' 22 1) (w.extractLsb' 15 7)) else .error .extension) else .error .mustBeZero
  | 0x2B =>
    if w &&& 0xFC000000#32 == 0xAC000000#32 then (if x.isNone then .ok (.viadds (w.extractLsb' 23 3) (w.extractLsb' 22 1) (w.extractLsb' 15 7) (w.extractLsb' 8 7) (w.extractLsb' 7 1) (w.extractLsb' 1 6) (w.extractLsb' 0 1)) else .error .extension) else .error .mustBeZero
  | _ => .error .reservedOpcode

/-- The instruction of slot 2 alone (R93) that a word names by its opcode, with its extension word if its right neighbour is
surrendered. -/
def decode2 (w : BitVec 32) (x : Option (BitVec 32)) : Except DecodeError Instr :=
  match (w.extractLsb' 26 6).toNat with
  | 0x2C =>
    if w &&& 0xFC0000FF#32 == 0xB0000000#32 then (if x.isNone then .ok (.vrcp (w.extractLsb' 23 3) (w.extractLsb' 22 1) (w.extractLsb' 15 7) (w.extractLsb' 8 7)) else .error .extension) else .error .mustBeZero
  | 0x2D =>
    if w &&& 0xFC0000FF#32 == 0xB4000000#32 then (if x.isNone then .ok (.vrsq (w.extractLsb' 23 3) (w.extractLsb' 22 1) (w.extractLsb' 15 7) (w.extractLsb' 8 7)) else .error .extension) else .error .mustBeZero
  | 0x2E =>
    if w &&& 0xFC0000FF#32 == 0xB8000000#32 then (if x.isNone then .ok (.vexp2 (w.extractLsb' 23 3) (w.extractLsb' 22 1) (w.extractLsb' 15 7) (w.extractLsb' 8 7)) else .error .extension) else .error .mustBeZero
  | 0x2F =>
    if w &&& 0xFC0000FF#32 == 0xBC000000#32 then (if x.isNone then .ok (.vlog2 (w.extractLsb' 23 3) (w.extractLsb' 22 1) (w.extractLsb' 15 7) (w.extractLsb' 8 7)) else .error .extension) else .error .mustBeZero
  | 0x30 =>
    if w &&& 0xFC0000FF#32 == 0xC0000000#32 then (if x.isNone then .ok (.vsin (w.extractLsb' 23 3) (w.extractLsb' 22 1) (w.extractLsb' 15 7) (w.extractLsb' 8 7)) else .error .extension) else .error .mustBeZero
  | 0x31 =>
    if w &&& 0xFC0000FF#32 == 0xC4000000#32 then (if x.isNone then .ok (.vcos (w.extractLsb' 23 3) (w.extractLsb' 22 1) (w.extractLsb' 15 7) (w.extractLsb' 8 7)) else .error .extension) else .error .mustBeZero
  | 0x32 =>
    if w &&& 0xFC0000FF#32 == 0xC8000000#32 then (if x.isNone then .ok (.vtanh (w.extractLsb' 23 3) (w.extractLsb' 22 1) (w.extractLsb' 15 7) (w.extractLsb' 8 7)) else .error .extension) else .error .mustBeZero
  | 0x33 =>
    if w &&& 0xFFE07F81#32 == 0xCC000001#32 then (if x.isNone then .ok (.ascfg (w.extractLsb' 19 2) (w.extractLsb' 17 2) (w.extractLsb' 15 2) (w.extractLsb' 1 6)) else .error .extension) else .error .mustBeZero
  | 0x34 =>
    if w &&& 0xFFFC7FFF#32 == 0xD0000000#32 then (if x.isNone then .ok (.asclr (w.extractLsb' 17 1) (w.extractLsb' 15 2)) else .error .extension) else .error .mustBeZero
  | 0x35 =>
    if w &&& 0xFC7E00FF#32 == 0xD4000000#32 then (if x.isNone then .ok (.asqu (w.extractLsb' 23 3) (w.extractLsb' 15 2) (w.extractLsb' 8 7)) else .error .extension) else .error .mustBeZero
  | 0x36 =>
    if w &&& 0xFC7E0000#32 == 0xD8000000#32 then (if x.isNone then .ok (.ashh (w.extractLsb' 23 3) (w.extractLsb' 15 2) (w.extractLsb' 8 7) (w.extractLsb' 1 7) (w.extractLsb' 0 1)) else .error .extension) else .error .mustBeZero
  | 0x37 =>
    if w &&& 0xFC7E00FD#32 == 0xDC000000#32 then (if x.isNone then .ok (.asdc (w.extractLsb' 23 3) (w.extractLsb' 15 2) (w.extractLsb' 8 7) (w.extractLsb' 1 1)) else .error .extension) else .error .mustBeZero
  | 0x38 =>
    if w &&& 0xFFFE7F81#32 == 0xE0000001#32 then (if x.isNone then .ok (.asmrg (w.extractLsb' 15 2) (w.extractLsb' 1 6)) else .error .extension) else .error .mustBeZero
  | 0x39 =>
    if w &&& 0xFFFE7F81#32 == 0xE4000001#32 then (if x.isNone then .ok (.assv (w.extractLsb' 15 2) (w.extractLsb' 1 6)) else .error .extension) else .error .mustBeZero
  | 0x3A =>
    if w &&& 0xFC003C00#32 == 0xE8000000#32 then (if x.isNone then .ok (.asqry (w.extractLsb' 23 3) (w.extractLsb' 22 1) (w.extractLsb' 15 7) (w.extractLsb' 14 1) (w.extractLsb' 8 2) (w.extractLsb' 1 7) (w.extractLsb' 0 1)) else .error .extension) else .error .mustBeZero
  | 0x3B =>
    if w &&& 0xFFE07CFF#32 == 0xEC000000#32 then (if x.isNone then .ok (.asest (w.extractLsb' 15 6) (w.extractLsb' 8 2)) else .error .extension) else .error .mustBeZero
  | 0x3C =>
    if w &&& 0xFFC070FF#32 == 0xF0000000#32 then (if x.isNone then .ok (.astopk (w.extractLsb' 15 7) (w.extractLsb' 10 2) (w.extractLsb' 8 2)) else .error .extension) else .error .mustBeZero
  | _ => .error .reservedOpcode

/-- The instruction of slot 3 alone (R93) that a word names by its opcode, with its extension word if its right neighbour is
surrendered. -/
def decode3 (w : BitVec 32) (x : Option (BitVec 32)) : Except DecodeError Instr :=
  match (w.extractLsb' 26 6).toNat with
  | 0x33 =>
    if w &&& 0xFFFC7F81#32 == 0xCC000001#32 then (if x.isNone then .ok (.rhcfg (w.extractLsb' 15 3) (w.extractLsb' 1 6)) else .error .extension) else .error .mustBeZero
  | 0x34 =>
    if w &&& 0xFFFC4081#32 == 0xD0000001#32 then (if x.isNone then .ok (.rhsig (w.extractLsb' 15 3) (w.extractLsb' 8 6) (w.extractLsb' 1 6)) else .error .extension) else .error .mustBeZero
  | 0x35 =>
    if w &&& 0xFFFC40FF#32 == 0xD4000000#32 then (if x.isNone then .ok (.rhlist (w.extractLsb' 15 3) (w.extractLsb' 8 6)) else .error .extension) else .error .mustBeZero
  | 0x36 =>
    if w &&& 0xFFF800FF#32 == 0xD8000000#32 then (if x.isNone then .ok (.rhstep (w.extractLsb' 18 1) (w.extractLsb' 15 3) (w.extractLsb' 8 7)) else .error .extension) else .error .mustBeZero
  | 0x37 =>
    if w &&& 0xFFC040FF#32 == 0xDC000000#32 then (if x.isNone then .ok (.rhmap (w.extractLsb' 15 7) (w.extractLsb' 11 3) (w.extractLsb' 8 3)) else .error .extension) else .error .mustBeZero
  | _ => .error .reservedOpcode

/-- The instruction of slot 4 (R94) that a word names by its opcode, with its extension word if its right neighbour is
surrendered. -/
def decode4 (w : BitVec 32) (x : Option (BitVec 32)) : Except DecodeError Instr :=
  match (w.extractLsb' 26 6).toNat with
  | 0x01 =>
    if w &&& 0xFC000000#32 == 0x04000000#32 then (if x.isNone then .ok (.mma (w.extractLsb' 22 4) (w.extractLsb' 21 1) (w.extractLsb' 15 6) (w.extractLsb' 9 6) (w.extractLsb' 3 6) (w.extractLsb' 2 1) (w.extractLsb' 0 2)) else .error .extension) else .error .mustBeZero
  | 0x02 =>
    if w &&& 0xFC000003#32 == 0x08000000#32 then (if x.isNone then .ok (.mma3 (w.extractLsb' 22 4) (w.extractLsb' 21 1) (w.extractLsb' 15 6) (w.extractLsb' 9 6) (w.extractLsb' 3 6) (w.extractLsb' 2 1)) else .error .extension) else .error .mustBeZero
  | 0x03 =>
    if w &&& 0xFC1FFFFF#32 == 0x0C000000#32 then (if x.isNone then .ok (.mzero (w.extractLsb' 22 4) (w.extractLsb' 21 1)) else .error .extension) else .error .mustBeZero
  | 0x04 =>
    if w &&& 0xFC007FFF#32 == 0x10000000#32 then (if x.isNone then .ok (.mband (w.extractLsb' 22 4) (w.extractLsb' 21 1) (w.extractLsb' 15 6)) else .error .extension) else .error .mustBeZero
  | _ => .error .reservedOpcode

/-- The instruction of slots 5 and 6 (R94) that a word names by its opcode, with its extension word if its right neighbour is
surrendered. -/
def decode5 (w : BitVec 32) (x : Option (BitVec 32)) : Except DecodeError Instr :=
  match (w.extractLsb' 26 6).toNat with
  | 0x01 =>
    if w &&& 0xFC000008#32 == 0x04000000#32 then .ok (.tld (w.extractLsb' 22 4) (w.extractLsb' 16 6) (w.extractLsb' 10 6) (w.extractLsb' 4 6) (w.extractLsb' 0 3) x) else .error .mustBeZero
  | 0x02 =>
    if w &&& 0xFC000008#32 == 0x08000000#32 then .ok (.tst (w.extractLsb' 22 4) (w.extractLsb' 16 6) (w.extractLsb' 10 6) (w.extractLsb' 4 6) (w.extractLsb' 0 3) x) else .error .mustBeZero
  | 0x03 =>
    if w &&& 0xFC000008#32 == 0x0C000000#32 then .ok (.tstnt (w.extractLsb' 22 4) (w.extractLsb' 16 6) (w.extractLsb' 10 6) (w.extractLsb' 4 6) (w.extractLsb' 0 3) x) else .error .mustBeZero
  | 0x04 =>
    if w &&& 0xFC0003FF#32 == 0x10000000#32 then (if x.isNone then .ok (.scld (w.extractLsb' 22 4) (w.extractLsb' 16 6) (w.extractLsb' 10 6)) else .error .extension) else .error .mustBeZero
  | 0x05 =>
    if w &&& 0xFC00000F#32 == 0x14000000#32 then (if x.isNone then .ok (.pull (w.extractLsb' 22 4) (w.extractLsb' 16 6) (w.extractLsb' 10 6) (w.extractLsb' 4 6)) else .error .extension) else .error .mustBeZero
  | 0x06 =>
    if w &&& 0xFC00000F#32 == 0x18000000#32 then (if x.isNone then .ok (.push (w.extractLsb' 22 4) (w.extractLsb' 16 6) (w.extractLsb' 10 6) (w.extractLsb' 4 6)) else .error .extension) else .error .mustBeZero
  | 0x07 =>
    if w &&& 0xFC00000F#32 == 0x1C000000#32 then (if x.isNone then .ok (.cxsend (w.extractLsb' 22 4) (w.extractLsb' 16 6) (w.extractLsb' 10 6) (w.extractLsb' 4 6)) else .error .extension) else .error .mustBeZero
  | 0x08 =>
    if w &&& 0xFC00FC08#32 == 0x20000000#32 then (if x.isNone then .ok (.cxtile (w.extractLsb' 22 4) (w.extractLsb' 16 6) (w.extractLsb' 4 6) (w.extractLsb' 0 3)) else .error .extension) else .error .mustBeZero
  | 0x09 =>
    if w &&& 0xFC000008#32 == 0x24000000#32 then (if x.isNone then .ok (.gather (w.extractLsb' 22 4) (w.extractLsb' 16 6) (w.extractLsb' 10 6) (w.extractLsb' 4 6) (w.extractLsb' 0 3)) else .error .extension) else .error .mustBeZero
  | 0x0A =>
    if w &&& 0xFC00FE0F#32 == 0x28000000#32 then (if x.isNone then .ok (.rtset (w.extractLsb' 22 4) (w.extractLsb' 16 6) (w.extractLsb' 4 5)) else .error .extension) else .error .mustBeZero
  | 0x0B =>
    if w &&& 0xFC00FFE0#32 == 0x2C000000#32 then (if x.isNone then .ok (.mapset (w.extractLsb' 22 4) (w.extractLsb' 16 6) (w.extractLsb' 4 1) (w.extractLsb' 0 4)) else .error .extension) else .error .mustBeZero
  | 0x0C =>
    if w &&& 0xFC3FFFC0#32 == 0x30000000#32 then (if x.isNone then .ok (.mapret (w.extractLsb' 22 4) (w.extractLsb' 5 1) (w.extractLsb' 4 1) (w.extractLsb' 0 4)) else .error .extension) else .error .mustBeZero
  | 0x0D =>
    if w &&& 0xFC00FE00#32 == 0x34000000#32 then (if x.isNone then .ok (.mapswap (w.extractLsb' 22 4) (w.extractLsb' 16 6) (w.extractLsb' 5 4) (w.extractLsb' 4 1) (w.extractLsb' 0 4)) else .error .extension) else .error .mustBeZero
  | 0x0E =>
    if w &&& 0xFC3F03E0#32 == 0x38000000#32 then (if x.isNone then .ok (.mapq (w.extractLsb' 22 4) (w.extractLsb' 10 6) (w.extractLsb' 4 1) (w.extractLsb' 0 4)) else .error .extension) else .error .mustBeZero
  | 0x0F =>
    if w &&& 0xFC00000F#32 == 0x3C000000#32 then (if x.isNone then .ok (.straypop (w.extractLsb' 22 4) (w.extractLsb' 16 6) (w.extractLsb' 10 6) (w.extractLsb' 4 6)) else .error .extension) else .error .mustBeZero
  | _ => .error .reservedOpcode

/-- The instruction of slot 7 (R94) that a word names by its opcode, with its extension word if its right neighbour is
surrendered. -/
def decode7 (w : BitVec 32) (x : Option (BitVec 32)) : Except DecodeError Instr :=
  match (w.extractLsb' 26 6).toNat with
  | 0x01 =>
    if w &&& 0xFC0001FF#32 == 0x04000000#32 then (if x.isNone then .ok (.send (w.extractLsb' 22 4) (w.extractLsb' 15 7) (w.extractLsb' 9 6)) else .error .extension) else .error .mustBeZero
  | 0x02 =>
    if w &&& 0xFC0001FF#32 == 0x08000000#32 then (if x.isNone then .ok (.recv (w.extractLsb' 22 4) (w.extractLsb' 15 7) (w.extractLsb' 9 6)) else .error .extension) else .error .mustBeZero
  | 0x03 =>
    if w &&& 0xFC0001FC#32 == 0x0C000000#32 then (if x.isNone then .ok (.recvadd (w.extractLsb' 22 4) (w.extractLsb' 15 7) (w.extractLsb' 9 6) (w.extractLsb' 0 2)) else .error .extension) else .error .mustBeZero
  | 0x04 =>
    if w &&& 0xFC0001FC#32 == 0x10000000#32 then (if x.isNone then .ok (.recvmax (w.extractLsb' 22 4) (w.extractLsb' 15 7) (w.extractLsb' 9 6) (w.extractLsb' 0 2)) else .error .extension) else .error .mustBeZero
  | 0x05 =>
    if w &&& 0xFC3F81F8#32 == 0x14000000#32 then (if x.isNone then .ok (.grpset (w.extractLsb' 22 4) (w.extractLsb' 9 6) (w.extractLsb' 0 3)) else .error .extension) else .error .mustBeZero
  | 0x06 =>
    if w &&& 0xFC0001E0#32 == 0x18000000#32 then (if x.isNone then .ok (.mcldr (w.extractLsb' 22 4) (w.extractLsb' 15 7) (w.extractLsb' 9 6) (w.extractLsb' 3 2) (w.extractLsb' 0 3)) else .error .extension) else .error .mustBeZero
  | 0x07 =>
    if w &&& 0xFC3F8000#32 == 0x1C000000#32 then (if x.isNone then .ok (.wbrun (w.extractLsb' 22 4) (w.extractLsb' 9 6) (w.extractLsb' 0 9)) else .error .extension) else .error .mustBeZero
  | 0x08 =>
    if w &&& 0xFC3F8000#32 == 0x20000000#32 then (if x.isNone then .ok (.ttarm (w.extractLsb' 22 4) (w.extractLsb' 9 6) (w.extractLsb' 4 5) (w.extractLsb' 0 4)) else .error .extension) else .error .mustBeZero
  | 0x09 =>
    if w &&& 0xFC300000#32 == 0x24000000#32 then (if x.isNone then .ok (.ctarm (w.extractLsb' 22 4) (w.extractLsb' 15 5) (w.extractLsb' 9 6) (w.extractLsb' 4 5) (w.extractLsb' 0 4)) else .error .extension) else .error .mustBeZero
  | 0x0A =>
    if w &&& 0xFC3FFFF0#32 == 0x28000000#32 then (if x.isNone then .ok (.trdis (w.extractLsb' 22 4) (w.extractLsb' 0 4)) else .error .extension) else .error .mustBeZero
  | 0x0B =>
    if w &&& 0xFC3F8100#32 == 0x2C000000#32 then (if x.isNone then .ok (.ccinc (w.extractLsb' 22 4) (w.extractLsb' 9 6) (w.extractLsb' 5 3) (w.extractLsb' 0 5)) else .error .extension) else .error .mustBeZero
  | _ => .error .reservedOpcode

/-- The instruction a word of slot `k` names. A word of zeros is that slot's NOP (R74, R93, R94). -/
def decodeRaw (k : Nat) (w : BitVec 32) (x : Option (BitVec 32)) : Except DecodeError Instr :=
  if k = 0 then decode0 w x
  else if w = 0 then (if x.isNone then .ok (.nop 0) else .error .extension)
  else
    match k with
    | 1 => decode1 w x
    | 2 => if (w.extractLsb' 26 6).toNat < 0x2C then decodeV w x else decode2 w x
    | 3 => if (w.extractLsb' 26 6).toNat < 0x2C then decodeV w x else decode3 w x
    | 4 => decode4 w x
    | 5 => decode5 w x
    | 6 => decode5 w x
    | 7 => decode7 w x
    | _ => .error .noSlot

/-- The decoder of slot `k`: total on any word, and a reserved value is rejected by name (R95). -/
def decodeSlot (k : Nat) (w : BitVec 32) (x : Option (BitVec 32)) : Except DecodeError Instr :=
  match decodeRaw k w x with
  | .ok i => if i.wf then .ok i else .error .reservedValue
  | .error e => .error e

/-- Whether the opcode in a word of slot `k` takes an extension (R81). -/
def takesExtension (k : Nat) (w : BitVec 32) : Bool :=
  let op := (w.extractLsb' 26 6).toNat
  match k with
  | 0 => [0x01, 0x03, 0x05, 0x0A].contains (w.extractLsb' 19 6).toNat
  | 1 => [0x02, 0x0A, 0x0B, 0x0C, 0x10, 0x11, 0x12, 0x15, 0x17, 0x18].contains op || (0x1C ≤ op && op ≤ 0x24)
  | 2 => [0x1D, 0x23, 0x24].contains op
  | 3 => [0x1D, 0x23, 0x24].contains op
  | 5 => [0x01, 0x02, 0x03].contains op
  | 6 => [0x01, 0x02, 0x03].contains op
  | _ => false

/-- The words of an instruction: its slot word, then its extension word if it has one. An event has none. -/
def encode (i : Instr) : List (BitVec 32) :=
  match i with
  | .nop t => [t ++ 0#25]
  | .br t g o xw => [t ++ 1#6 ++ g ++ o] ++ xw.toList
  | .jmp t g a => [t ++ 2#6 ++ g ++ a ++ 0#9]
  | .call t g o xw => [t ++ 3#6 ++ g ++ o] ++ xw.toList
  | .ret t g a => [t ++ 4#6 ++ g ++ a ++ 0#9]
  | .loop t g a n b xw => [t ++ 5#6 ++ g ++ a ++ n ++ b] ++ xw.toList
  | .lexit t g => [t ++ 6#6 ++ g ++ 0#15]
  | .sync t n => [t ++ 458752#22 ++ n]
  | .bar t n => [t ++ 524288#22 ++ n]
  | .barns t n => [t ++ 589824#22 ++ n]
  | .waitt t g a xw => [t ++ 10#6 ++ g ++ a ++ 0#9] ++ xw.toList
  | .twait t g m => [t ++ 11#6 ++ g ++ 0#7 ++ m]
  | .ccwait t g a n => [t ++ 12#6 ++ g ++ a ++ 0#4 ++ n]
  | .uend t g => [t ++ 13#6 ++ g ++ 0#15]
  | .qpoint t g => [t ++ 14#6 ++ g ++ 0#15]
  | .ifence t g => [t ++ 15#6 ++ g ++ 0#15]
  | .bkacq t g s m => [t ++ 16#6 ++ g ++ 0#6 ++ s ++ m]
  | .bkrel t g s m => [t ++ 17#6 ++ g ++ 0#6 ++ s ++ m]
  | .drainnt t g => [t ++ 18#6 ++ g ++ 0#15]
  | .qfence t g => [t ++ 19#6 ++ g ++ 0#15]
  | .pack n => [8148#13 ++ n ++ 0#15]
  | .trap t g c => [t ++ 21#6 ++ g ++ 0#7 ++ c]
  | .brk t x => [t ++ 45056#17 ++ x]
  | .eret t a => [t ++ 368#10 ++ a ++ 0#9]
  | .snapst t a => [t ++ 384#10 ++ a ++ 0#9]
  | .snaprel t => [t ++ 13107200#25]
  | .ctxsave t a => [t ++ 416#10 ++ a ++ 0#9]
  | .ctxrest t a b m => [t ++ 432#10 ++ a ++ b ++ m ++ 0#1]
  | .lttld t a b => [t ++ 448#10 ++ a ++ b ++ 0#3]
  | .lttinv t a => [t ++ 464#10 ++ a ++ 0#9]
  | .add g d a b => [1#6 ++ g ++ d ++ a ++ b ++ 0#4]
  | .addi g d a i xw => [2#6 ++ g ++ d ++ a ++ i] ++ xw.toList
  | .sub g d a b => [3#6 ++ g ++ d ++ a ++ b ++ 0#4]
  | .mul g d a b => [4#6 ++ g ++ d ++ a ++ b ++ 0#4]
  | .mulh g d a b m => [5#6 ++ g ++ d ++ a ++ b ++ m]
  | .div g d a b m => [6#6 ++ g ++ d ++ a ++ b ++ m]
  | .and g d a b => [7#6 ++ g ++ d ++ a ++ b ++ 0#4]
  | .or g d a b => [8#6 ++ g ++ d ++ a ++ b ++ 0#4]
  | .xor g d a b => [9#6 ++ g ++ d ++ a ++ b ++ 0#4]
  | .andi g d a i xw => [10#6 ++ g ++ d ++ a ++ i] ++ xw.toList
  | .ori g d a i xw => [11#6 ++ g ++ d ++ a ++ i] ++ xw.toList
  | .xori g d a i xw => [12#6 ++ g ++ d ++ a ++ i] ++ xw.toList
  | .shl g d a b => [13#6 ++ g ++ d ++ a ++ b ++ 0#4]
  | .shr g d a b => [14#6 ++ g ++ d ++ a ++ b ++ 0#4]
  | .sar g d a b => [15#6 ++ g ++ d ++ a ++ b ++ 0#4]
  | .shli g d a i xw => [16#6 ++ g ++ d ++ a ++ i] ++ xw.toList
  | .shri g d a i xw => [17#6 ++ g ++ d ++ a ++ i] ++ xw.toList
  | .sari g d a i xw => [18#6 ++ g ++ d ++ a ++ i] ++ xw.toList
  | .minmax g d a b m => [19#6 ++ g ++ d ++ a ++ b ++ m]
  | .cmp g d a b m => [20#6 ++ g ++ 0#2 ++ d ++ a ++ b ++ m]
  | .cmpi g c d a i xw => [21#6 ++ g ++ c ++ d ++ a ++ i] ++ xw.toList
  | .sel g d a b m => [22#6 ++ g ++ d ++ a ++ b ++ m]
  | .movi g d i xw => [23#6 ++ g ++ d ++ i] ++ xw.toList
  | .movhi g d i xw => [24#6 ++ g ++ d ++ i] ++ xw.toList
  | .lea g d a b s => [25#6 ++ g ++ d ++ a ++ b ++ s]
  | .plog g d a b m => [26#6 ++ g ++ 0#2 ++ d ++ 0#2 ++ a ++ 0#2 ++ b ++ m]
  | .bitc g d a m => [27#6 ++ g ++ d ++ a ++ 0#6 ++ m]
  | .bitcTest g d a b => [27#6 ++ g ++ 0#2 ++ d ++ a ++ b ++ 3#4]
  | .ldb g d a i xw => [28#6 ++ g ++ d ++ a ++ i] ++ xw.toList
  | .ldbu g d a i xw => [29#6 ++ g ++ d ++ a ++ i] ++ xw.toList
  | .ldh g d a i xw => [30#6 ++ g ++ d ++ a ++ i ++ 0#4] ++ xw.toList
  | .ldw g d a i xw => [30#6 ++ g ++ d ++ a ++ i ++ 1#4] ++ xw.toList
  | .ldhu g d a i xw => [31#6 ++ g ++ d ++ a ++ i ++ 0#4] ++ xw.toList
  | .ldwu g d a i xw => [31#6 ++ g ++ d ++ a ++ i ++ 1#4] ++ xw.toList
  | .ldd g d a i xw => [32#6 ++ g ++ d ++ a ++ i] ++ xw.toList
  | .stb g d a i xw => [33#6 ++ g ++ d ++ a ++ i] ++ xw.toList
  | .sth g d a i xw => [34#6 ++ g ++ d ++ a ++ i] ++ xw.toList
  | .stw g d a i xw => [35#6 ++ g ++ d ++ a ++ i] ++ xw.toList
  | .std g d a i xw => [36#6 ++ g ++ d ++ a ++ i] ++ xw.toList
  | .atom g d a b m => [37#6 ++ g ++ d ++ a ++ b ++ m]
  | .acas g d a b => [38#6 ++ g ++ d ++ a ++ b ++ 0#4]
  | .mfs g d r => [39#6 ++ g ++ d ++ r ++ 0#4]
  | .mts g d r => [40#6 ++ g ++ d ++ r ++ 0#4]
  | .rdcyc g d => [41#6 ++ g ++ d ++ 0#16]
  | .rdgt g d => [42#6 ++ g ++ d ++ 0#16]
  | .ext g d a b m => [43#6 ++ g ++ d ++ a ++ b ++ m]
  | .vadd k z d a b s => [1#6 ++ k ++ z ++ d ++ a ++ b ++ s]
  | .vsub k z d a b s => [2#6 ++ k ++ z ++ d ++ a ++ b ++ s]
  | .vmul k z d a b s => [3#6 ++ k ++ z ++ d ++ a ++ b ++ s]
  | .vfma k z d a b s => [4#6 ++ k ++ z ++ d ++ a ++ b ++ s]
  | .vfms k z d a b s => [5#6 ++ k ++ z ++ d ++ a ++ b ++ s]
  | .vmin k z d a b s => [6#6 ++ k ++ z ++ d ++ a ++ b ++ s]
  | .vmax k z d a b s => [7#6 ++ k ++ z ++ d ++ a ++ b ++ s]
  | .vabs k z d a => [8#6 ++ k ++ z ++ d ++ a ++ 0#8]
  | .vneg k z d a => [9#6 ++ k ++ z ++ d ++ a ++ 0#8]
  | .vcmpeq k z d a b s => [10#6 ++ k ++ z ++ 0#4 ++ d ++ a ++ b ++ s]
  | .vcmplt k z d a b s => [11#6 ++ k ++ z ++ 0#4 ++ d ++ a ++ b ++ s]
  | .vcmple k z d a b s => [12#6 ++ k ++ z ++ 0#4 ++ d ++ a ++ b ++ s]
  | .vcmpne k z d a b s => [13#6 ++ k ++ z ++ 0#4 ++ d ++ a ++ b ++ s]
  | .viadd k z d a n b s => [14#6 ++ k ++ z ++ d ++ a ++ n ++ b ++ s]
  | .visub k z d a n b s => [15#6 ++ k ++ z ++ d ++ a ++ n ++ b ++ s]
  | .vimul k z d a n b s => [16#6 ++ k ++ z ++ d ++ a ++ n ++ b ++ s]
  | .vand k z d a n b s => [17#6 ++ k ++ z ++ d ++ a ++ n ++ b ++ s]
  | .vor k z d a n b s => [18#6 ++ k ++ z ++ d ++ a ++ n ++ b ++ s]
  | .vxor k z d a n b s => [19#6 ++ k ++ z ++ d ++ a ++ n ++ b ++ s]
  | .vshl k z d a n b s => [20#6 ++ k ++ z ++ d ++ a ++ n ++ b ++ s]
  | .vshr k z d a n b s => [21#6 ++ k ++ z ++ d ++ a ++ n ++ b ++ s]
  | .vsar k z d a n b s => [22#6 ++ k ++ z ++ d ++ a ++ n ++ b ++ s]
  | .vimin k z d a n b s => [23#6 ++ k ++ z ++ d ++ a ++ n ++ b ++ s]
  | .vimax k z d a n b s => [24#6 ++ k ++ z ++ d ++ a ++ n ++ b ++ s]
  | .vicmpeq k z d a n b s => [25#6 ++ k ++ z ++ 0#4 ++ d ++ a ++ n ++ b ++ s]
  | .vicmplt k z d a n b s => [26#6 ++ k ++ z ++ 0#4 ++ d ++ a ++ n ++ b ++ s]
  | .vsel k z d a n b s => [27#6 ++ k ++ z ++ d ++ a ++ n ++ b ++ s]
  | .vcvt k z d a t f p => [28#6 ++ k ++ z ++ d ++ a ++ t ++ f ++ p]
  | .vbcast k z d w b => [29#6 ++ k ++ z ++ d ++ 0#5 ++ w ++ 0#1 ++ b ++ 1#1]
  | .vbcastExt k z d w xw => [29#6 ++ k ++ z ++ d ++ 0#5 ++ w ++ 0#8] ++ [xw]
  | .vperm k z d a n b s => [30#6 ++ k ++ z ++ d ++ a ++ n ++ b ++ s]
  | .vrot k z d a n b s => [31#6 ++ k ++ z ++ d ++ a ++ n ++ b ++ s]
  | .vrsum k d a x f => [32#6 ++ k ++ 0#1 ++ d ++ a ++ 0#4 ++ x ++ f ++ 0#1]
  | .vrmax k d a x f => [33#6 ++ k ++ 0#1 ++ d ++ a ++ 0#4 ++ x ++ f ++ 0#1]
  | .vmov k z d a w => [34#6 ++ k ++ z ++ d ++ a ++ 0#5 ++ w ++ 0#1]
  | .vld k z d w b xw => [35#6 ++ k ++ z ++ d ++ 0#5 ++ w ++ 0#1 ++ b ++ 1#1] ++ xw.toList
  | .vst k d w b xw => [36#6 ++ k ++ 0#1 ++ d ++ 0#5 ++ w ++ 0#1 ++ b ++ 1#1] ++ xw.toList
  | .vgather k z d a b => [37#6 ++ k ++ z ++ d ++ a ++ 0#1 ++ b ++ 1#1]
  | .vscatter k d a b => [38#6 ++ k ++ 0#1 ++ d ++ a ++ 0#1 ++ b ++ 1#1]
  | .twrow k z d a b s => [39#6 ++ k ++ z ++ 0#4 ++ d ++ a ++ 0#1 ++ b ++ s]
  | .trdcol k z d a b s => [40#6 ++ k ++ z ++ d ++ 0#4 ++ a ++ 0#1 ++ b ++ s]
  | .vqnt k d a => [41#6 ++ k ++ 0#1 ++ d ++ a ++ 0#8]
  | .vrng k z d => [42#6 ++ k ++ z ++ d ++ 0#15]
  | .viadds k z d a n b s => [43#6 ++ k ++ z ++ d ++ a ++ n ++ b ++ s]
  | .vrcp k z d a => [44#6 ++ k ++ z ++ d ++ a ++ 0#8]
  | .vrsq k z d a => [45#6 ++ k ++ z ++ d ++ a ++ 0#8]
  | .vexp2 k z d a => [46#6 ++ k ++ z ++ d ++ a ++ 0#8]
  | .vlog2 k z d a => [47#6 ++ k ++ z ++ d ++ a ++ 0#8]
  | .vsin k z d a => [48#6 ++ k ++ z ++ d ++ a ++ 0#8]
  | .vcos k z d a => [49#6 ++ k ++ z ++ d ++ a ++ 0#8]
  | .vtanh k z d a => [50#6 ++ k ++ z ++ d ++ a ++ 0#8]
  | .ascfg o k c s => [1632#11 ++ o ++ k ++ c ++ 0#8 ++ s ++ 1#1]
  | .asclr f c => [13312#14 ++ f ++ c ++ 0#15]
  | .asqu k c a => [53#6 ++ k ++ 0#6 ++ c ++ a ++ 0#8]
  | .ashh k c a b s => [54#6 ++ k ++ 0#6 ++ c ++ a ++ b ++ s]
  | .asdc k c a w => [55#6 ++ k ++ 0#6 ++ c ++ a ++ 0#6 ++ w ++ 0#1]
  | .asmrg c b => [28672#15 ++ c ++ 0#8 ++ b ++ 1#1]
  | .assv c b => [29184#15 ++ c ++ 0#8 ++ b ++ 1#1]
  | .asqry k z d x c b s => [58#6 ++ k ++ z ++ d ++ x ++ 0#4 ++ c ++ b ++ s]
  | .asest d c => [1888#11 ++ d ++ 0#5 ++ c ++ 0#8]
  | .astopk d p c => [960#10 ++ d ++ 0#3 ++ p ++ c ++ 0#8]
  | .rhcfg r b => [13056#14 ++ r ++ 0#8 ++ b ++ 1#1]
  | .rhsig r a b => [13312#14 ++ r ++ 0#1 ++ a ++ 0#1 ++ b ++ 1#1]
  | .rhlist r a => [13568#14 ++ r ++ 0#1 ++ a ++ 0#8]
  | .rhstep f r a => [6912#13 ++ f ++ r ++ a ++ 0#8]
  | .rhmap d p r => [880#10 ++ d ++ 0#1 ++ p ++ r ++ 0#8]
  | .mma g c a b t z y => [1#6 ++ g ++ c ++ a ++ b ++ t ++ z ++ y]
  | .mma3 g c a b t z => [2#6 ++ g ++ c ++ a ++ b ++ t ++ z ++ 0#2]
  | .mzero g c => [3#6 ++ g ++ c ++ 0#21]
  | .mband g c a => [4#6 ++ g ++ c ++ a ++ 0#15]
  | .tld g x y w m xw => [1#6 ++ g ++ x ++ y ++ w ++ 0#1 ++ m] ++ xw.toList
  | .tst g x y w m xw => [2#6 ++ g ++ x ++ y ++ w ++ 0#1 ++ m] ++ xw.toList
  | .tstnt g x y w m xw => [3#6 ++ g ++ x ++ y ++ w ++ 0#1 ++ m] ++ xw.toList
  | .scld g x y => [4#6 ++ g ++ x ++ y ++ 0#10]
  | .pull g x y w => [5#6 ++ g ++ x ++ y ++ w ++ 0#4]
  | .push g x y w => [6#6 ++ g ++ x ++ y ++ w ++ 0#4]
  | .cxsend g x y w => [7#6 ++ g ++ x ++ y ++ w ++ 0#4]
  | .cxtile g x w m => [8#6 ++ g ++ x ++ 0#6 ++ w ++ 0#1 ++ m]
  | .gather g x y w m => [9#6 ++ g ++ x ++ y ++ w ++ 0#1 ++ m]
  | .rtset g x e => [10#6 ++ g ++ x ++ 0#7 ++ e ++ 0#4]
  | .mapset g x c m => [11#6 ++ g ++ x ++ 0#11 ++ c ++ m]
  | .mapret g n c m => [12#6 ++ g ++ 0#16 ++ n ++ c ++ m]
  | .mapswap g x o c m => [13#6 ++ g ++ x ++ 0#7 ++ o ++ c ++ m]
  | .mapq g y c m => [14#6 ++ g ++ 0#6 ++ y ++ 0#5 ++ c ++ m]
  | .straypop g x y w => [15#6 ++ g ++ x ++ y ++ w ++ 0#4]
  | .send g v s => [1#6 ++ g ++ v ++ s ++ 0#9]
  | .recv g v s => [2#6 ++ g ++ v ++ s ++ 0#9]
  | .recvadd g v s f => [3#6 ++ g ++ v ++ s ++ 0#7 ++ f]
  | .recvmax g v s f => [4#6 ++ g ++ v ++ s ++ 0#7 ++ f]
  | .grpset g s n => [5#6 ++ g ++ 0#7 ++ s ++ 0#6 ++ n]
  | .mcldr g v s o n => [6#6 ++ g ++ v ++ s ++ 0#4 ++ o ++ n]
  | .wbrun g s n => [7#6 ++ g ++ 0#7 ++ s ++ n]
  | .ttarm g s n t => [8#6 ++ g ++ 0#7 ++ s ++ n ++ t]
  | .ctarm g w s n t => [9#6 ++ g ++ 0#2 ++ w ++ s ++ n ++ t]
  | .trdis g t => [10#6 ++ g ++ 0#18 ++ t]
  | .ccinc g s o n => [11#6 ++ g ++ 0#7 ++ s ++ 0#1 ++ o ++ n]
  | .iterationBoundary _ => []
  | .dynamicWaitRelease _ => []
  | .barrierRelease _ _ => []
  | .groupStall _ => []
  | .groupResume _ => []
  | .pendingEvent _ => []
  | .forcedQuench _ => []
  | .watchdog _ => []
  | .debuggerHalt _ => []
  | .coordinatePacket _ _ => []
  | .directSend _ _ _ _ => []
  | .collectiveContribution _ _ _ _ => []
  | .collectiveResult _ _ => []
  | .waybillMemoryTransfer _ _ _ _ => []
  | .queuedRowPerform _ _ _ => []
  | .nonTemporalPerform _ _ _ => []
  | .counterIncrement _ => []
  | .timeTriggerFire _ _ => []
  | .counterInterrupt _ _ => []
  | .nestedWalk _ => []
  | .migrationRequest _ _ => []
  | .migrationCopy _ => []
  | .reKey _ _ => []
  | .patrolScrub _ _ => []
  | .launchRecord _ _ => []
  | .admission _ => []
  | .launchStart _ => []
  | .nodeStart _ _ => []
  | .handoverStart _ => []
  | .bankPass _ _ => []
  | .unitComplete _ => []
  | .completionIncrement _ _ => []
  | .cancelMark _ _ => []
  | .restoreStart _ => []
  | .partitionHalted _ => []
  | .emergencyStop _ _ _ => []
  | .powerGood _ _ _ _ _ _ _ => []
  | .measurementExtension _ _ _ => []
  | .firmwareLogRead _ => []
  | .pstateOnDelay _ => []
  | .sctFrame _ _ _ _ _ _ => []
  | .sctAcknowledgement _ _ => []
  | .cumulativeAcknowledgement _ => []
  | .retransmitTimeout _ => []
  | .rdmaWrite _ _ _ _ => []
  | .rdmaRead _ _ _ _ => []
  | .roceSendRequest _ _ => []
  | .roceAtomicRequest _ _ => []
  | .ptpEventMessage _ _ _ => []
  | .getVersion _ => []
  | .getCapabilities _ => []
  | .negotiateAlgorithms _ _ _ _ => []
  | .getDigests _ => []
  | .getCertificate _ _ _ => []
  | .challenge _ _ => []
  | .getMeasurements _ _ _ _ => []
  | .keyExchange _ _ _ => []
  | .finish _ _ _ => []
  | .endSession _ _ => []
  | .qset _ _ _ _ => []
  | .ccset _ _ _ _ _ => []
  | .cmdCancel _ _ _ => []
  | .cmdQuench _ _ _ => []
  | .cmdHold _ _ _ => []
  | .cmdUnhold _ _ _ => []
  | .qlimit _ _ _ => []
  | .msumap _ _ _ _ _ => []
  | .migq _ _ _ _ => []
  | .roots _ _ _ _ => []
  | .invtlb _ _ _ _ => []
  | .sctpeer _ _ _ _ => []
  | .pstate _ _ _ => []
  | .cmdReset _ _ => []
  | .harvest _ _ _ _ _ => []
  | .handler _ _ _ _ => []
  | .mtsCsw _ => []
  | .mtsVstat _ => []
  | .mtsRngpos _ => []
  | .mtsRngkey _ => []
  | .mtsWdog _ => []
  | .mtsRhstat _ => []
  | .mtsAsstat _ => []
  | .mtsMapstat _ => []
  | .mtsStrayn _ => []
  | .mtsCollide _ => []
  | .mtsGtadj _ => []
  | .dbgBreak _ _ => []
  | .dbgBreakAll _ => []
  | .dbgContinue => []
  | .dbgLaunch _ => []
  | .rt _ _ => []
  | .dbgFq _ => []
  | .dbgMtx _ => []
  | .dbgLtt _ _ _ => []
  | .dbgAssay _ _ => []
  | .landlog _ => []
  | .dbgRh _ _ => []
  | .efdbLoop _ => []
  | .dbgGroup _ _ => []
  | .redlog _ _ _ => []
  | .stackOffline _ => []
  | .powerRemoved => []
  | .partitionFormation _ _ _ _ _ => []
  | .compatibilityMode _ _ _ => []
  | .priorityFlowControl _ _ _ => []

/-- The slots a table word is tried in: slot 0 first, then 1 to 7. A word does not say its slot (R73); a slot-0 word has a
template of zeros, or is a packed line's. DEDUCED, log entry 12. -/
def tableSlots (w : Nat) : List Nat :=
  if w / 2 ^ 25 = 0 || w / 2 ^ 25 = 127 then [0, 1, 2, 3, 4, 5, 6, 7] else [1, 2, 3, 4, 5, 6, 7, 0]

/-- The first slot of a list in which a word is an instruction, with that instruction. The extension word, where the
instruction needs one, is a word of zeros. -/
def firstSlot (ks : List Nat) (w : BitVec 32) : Option (Nat × Instr) :=
  match ks with
  | [] => none
  | k :: r =>
    match decodeSlot k w none with
    | .ok i => some (k, i)
    | .error _ =>
      match (if takesExtension k w then decodeSlot k w (some 0) else .error .extension) with
      | .ok i => some (k, i)
      | .error _ => firstSlot r w

/-- The slot and instruction of a table word. -/
def tableSlot (w : Nat) : Option (Nat × Instr) := firstSlot (tableSlots w) (BitVec.ofNat 32 w)

/-- The instruction the decoder reads from a table word (bit 0 the least significant bit of the word). -/
def decodeTableWord (nbits w : Nat) : Option Instr :=
  if nbits = 32 && w < 2 ^ 32 then (tableSlot w).map Prod.snd else none

end Sys2Proof
end

