-- ==== Sys2Proof/Machine/State.lean ====
section
/-! DEFINITION. The state of one XN6 package as plain data: 768 cores, clusters, memories, the fabric in flight, the
scheduler's tables, firmware, and the model's own bookkeeping of one package cycle. Reset is `State.reset`.
INVENTORY.md lists every field with the rule that names it. -/

namespace Sys2Proof.Machine

/-! ## Memory -/

/-- All byte-addressed memory, listed in rising key order with no entry equal to what an unlisted byte reads as
(`unlisted`). Keys below 2^52 are system-physical addresses of device memory and cluster SRAM (R265); the scratchpad
halves, instruction scratchpads and pattern tables have keys above (Ops.lean). -/
abbrev Memory := List Host.Cell

/-- What a byte that memory does not list reads as. Scratchpads and cluster SRAM start at zero (R18, R264); device
memory: DESIGN CHOICE, log entry 3. -/
def unlisted : Byte := 0

/-- The canonical form: keys strictly rise, and no listed byte equals `unlisted`. -/
def Memory.wf (m : Memory) : Bool :=
  match m with
  | [] => true
  | (a, b) :: r => (b != unlisted) && (match r with | [] => true | (a', _) :: _ => decide (a < a')) && Memory.wf r

/-- A floating-point value: NaN, an infinity, or ± m × 2^e with the sign kept for zero (R34). -/
inductive Fv where
  | nan
  | inf (neg : Bool)
  | fin (neg : Bool) (m : Nat) (e : Int)
  deriving DecidableEq, Repr

/-! ## Traps -/

/-- What a trap reports (R244, R245): CAUSE.CODE, ORIG and LATE, FVAL and FELEM. -/
structure Trap where
  code  : Nat
  orig  : Nat
  late  : Bool
  fval  : Word
  felem : Word
  deriving DecidableEq, Repr

/-! ## Delay lines and macro-instructions of a core -/

/-- A dynamic wait (R105 to R108, R271). -/
inductive Wait where
  | time (until_ : Int)
  | tiles (mask : BitVec 8)
  | counter (cc : Nat) (v : Word)
  | banks (mask : BitVec 16)
  | barrier (g : Nat)
  | sync (g : Nat)
  | walk (va : Word) (trap : Trap)
  deriving DecidableEq, Repr

/-- An update of an assay context, with its operands as read at issue (R148, R149, R153, R155). -/
inductive AUpd where
  | cfg (kind coin : Nat) (seed : Word)
  | clr
  | free
  | qu (v : Vec) (m : BitVec 64) (rng : Vec)
  | hh (keys weights : Vec) (m : BitVec 64)
  | dc (v : Vec) (m : BitVec 64) (wide : Bool)
  deriving DecidableEq, Repr

/-- What an item of a delay line does when its schedule count comes (R4, R20, R232). Registers are physical entries
(R10); masks are bit masks. -/
inductive Act where
  | setS (r : Nat) (v : Word)
  | setP (r : Nat) (b : Bool)
  | setV (r : Nat) (v m : Vec)
  | setK (r : Nat) (v m : Mask)
  | tileRow (t r : Nat) (v m : Vec)
  | flags (f : BitVec 7)
  | load (ea : Word) (size : Nat) (signed : Bool) (d lat : Nat)
  | store (ea : Word) (size : Nat) (v : Word)
  | atom (ea : Word) (op : Option Nat) (b cmp : Word) (d lat : Nat)
  | vload (ea : Word) (d : Nat) (m z : Vec)
  | vstore (ea : Word) (v : Vec) (bytes : Mask)
  | mts (reg : Nat) (v : Word)
  | bkrel (mask : BitVec 16)
  | gatherList (uid : Nat) (ea : Word)
  | rtRead (e : Nat) (ea : Word)
  | rtPut (e : Nat) (raw : BitVec 256)
  | mapRead (m : Nat) (old : Option Nat) (cluster : Bool) (ea : Word)
  | mapPut (m : Nat) (old : Option Nat) (cluster : Bool) (raw : BitVec 512)
  | mapRet (m : Nat) (cluster now : Bool)
  | mapQ (y m : Nat) (cluster : Bool)
  | grpRead (g : Nat) (ea : Word)
  | grpPut (g : Nat) (raw : List Byte)
  | rhRead (r : Nat) (ea : Word)
  | rhPut (r : Nat) (raw : BitVec 512)
  | rhCount (r d : Nat)
  | rhStep (r : Nat) (f : Option Vec)
  | rhMap (d r part : Nat)
  | asMerge (c : Nat) (img : List Byte) (rng : Vec)
  | armTime (t : Nat) (at_ : Word) (cc : Nat)
  | armCounter (t w : Nat) (at_ : Word) (cc : Nat)
  | disarm (t : Nat)
  | mcRead (group : Nat) (ea : Word)
  | wbStore (ea : Word) (v : Vec)
  | wbAdd (ea : Word) (v : Vec)
  | snapSave (addr : Word)
  | ctxSave (addr : Word)
  | ctxRest (addr : Word) (mode : Nat) (page : Word)
  | snapRest (addr : Option Word)
  | snapRel
  | loopStart (count : Word) (n first len : Nat)
  | loopExit
  | lttInv (e n : Nat)
  | lttPut (i : Nat) (e : BitVec 128)
  | ctxDrain (addr : Word)
  deriving DecidableEq, Repr

/-- An item of a delay line: due at a schedule count, in issue order and slot order (R12, R118). `counts` items are
those R20 counts against the 64 of the flight queue; an `eoc` item acts at the end of its cycle (R200). -/
structure Item where
  due    : Nat
  seq    : Nat
  slot   : Nat
  counts : Bool
  eoc    : Bool
  uid    : Nat
  acts   : List Act
  deriving DecidableEq, Repr

/-- What the bundle under way has committed and what falls due at its end: slot 0's transfer, wait, end of the unit and
barrier arrival, the due software trap, and changes effective from the next cycle (R24). -/
structure Ctl where
  jump  : Option Word
  wait  : Option Wait
  uend  : Bool
  bar   : Option (Nat × Bool)
  soft  : Option Trap
  fin   : List Act
  deriving DecidableEq, Repr

/-- A bundle that has committed nothing. -/
def Ctl.none : Ctl := ⟨Option.none, Option.none, false, Option.none, Option.none, []⟩

/-- One packet a CXSEND or SCTPUT has still to send (R196, R197): its number in cut order, first flit, flits, destination, header fields. -/
structure Cut where
  num   : Nat
  first : Nat
  flits : Nat
  elem  : Nat
  count : Nat
  route : BitVec 256
  origin : Word
  deriving DecidableEq, Repr

/-- The work of a running macro-instruction (R19): operands as read at issue. A CXSEND keeps the fence epoch of its issue (R109); a waybill
the offsets of the last entry read and of the last step performed (R316). -/
inductive Work where
  | gather (base : Word) (offs : Vec) (mask : BitVec 64) (zero : Bool) (d : Nat) (cluster : Bool) (acc : Vec) (got : BitVec 64)
  | scatter (base : Word) (offs data : Vec) (mask : BitVec 64) (cluster : Bool)
  | assay (c : Nat) (u : AUpd) (draws : Nat)
  | assv (c : Nat) (addr : Word)
  | asmrg (c : Nat) (addr : Word) (img : List Byte) (rng : Vec)
  | rhsig (r t : Nat) (addr : Word) (sums : List Fv) (maxm : Fv) (rec_ : List (BitVec 32))
  | rhlist (r : Nat) (out : Word) (tiles : List Nat)
  | scld (addr : Word) (n : Nat) (read : List (List Byte))
  | pull (face cluster : Word) (n : Nat) (cls fmt : Nat) (read : List (Nat × List Byte))
  | push (face cluster : Word) (n : Nat) (cls fmt : Nat) (read : List (Nat × List Byte))
  | cxsend (addr : Word) (fmt : Nat) (tag : BitVec 16) (parity : Bool) (epoch : Nat) (cuts : List Cut) (data : List Byte)
  | sctput (addr : Word) (len peer : Nat) (fmt : Nat) (tag : BitVec 16) (parity : Bool) (cuts : List Cut) (data : List Byte)
  | cxtile (tile : Nat) (map : BitVec 512) (origin : Word) (rd cd fmt : Nat)
  | waybill (addr : Word) (n read last prev : Nat) (latched : List (BitVec 256))
  | lttld (addr : Word) (e n : Nat)
  deriving DecidableEq, Repr

/-- A running macro-instruction: slot, issue order, the schedule count its offsets count from, its next element and the
number of elements. -/
structure Macro where
  slot  : Nat
  seq   : Nat
  start : Nat
  next  : Nat
  total : Nat
  uid   : Nat
  work  : Work
  deriving DecidableEq, Repr

/-- A running or suspended MMA or MMA3 (R173, R181, R182), with its slot word. The base `tile` is empty until the predecessor `chain` has
finished. -/
structure MxRun where
  word   : BitVec 32
  seq    : Nat
  start  : Nat
  acc    : Nat
  three  : Bool
  y      : BitVec 2
  sA     : Word
  sB     : Word
  sT     : Word
  fA     : Nat
  fB     : Nat
  gA     : Nat
  gB     : Nat
  bandA  : BitVec 16
  bandB  : BitVec 16
  chain  : Option Nat
  tile   : List Vec
  next   : Nat
  total  : Nat
  flags  : BitVec 7
  opA    : Map (List (BitVec 32))
  opB    : Map (List (BitVec 32))
  deriving DecidableEq, Repr

/-- A pending matrix delivery: a tile, or a zero mark (R182). -/
structure MxPend where
  seq   : Nat
  start : Nat
  acc   : Nat
  due   : Nat
  tile  : Option (List Vec)
  flags : BitVec 7
  deriving DecidableEq, Repr

/-- The matrix engine (R178, R182): band pairs, running instructions, pending deliveries, the latest-issued matrix
instruction of each accumulator, and the hazard monitor's last issue and interval (R97). -/
structure Matrix where
  band0  : BitVec 32
  band1  : BitVec 32
  runs   : List MxRun
  pend   : List MxPend
  last0  : Option (Nat × Nat)
  last1  : Option (Nat × Nat)
  nextSeq : Nat
  busyTo : Nat
  deriving DecidableEq, Repr

/-- What a trap copies into the held snapshot and what ERET restores (R217, R219, R220): scalars, predicates, system
registers, the delay lines with the macro-instructions under way, and the matrix engine; with the schedule count. -/
structure Ctx where
  s      : Map Word
  p      : BitVec 16
  la     : Bool
  qreq   : Bool
  wre    : Bool
  pend   : Bool
  sres   : BitVec 3
  rskew  : BitVec 5
  pc     : Word
  rep    : BitVec 7
  mode   : BitVec 2
  broke  : Bool
  fence  : Bool
  ctl    : Ctl
  epc    : Word
  cause  : Word
  fval   : Word
  felem  : Word
  vrm    : BitVec 2
  vstat  : BitVec 7
  rngPos : Word
  rngKey : Word
  rngOld : Nat
  wdog   : Word
  progM  : BitVec 32
  progV2 : BitVec 32
  progV3 : BitVec 32
  progCA : BitVec 32
  progCB : BitVec 32
  progAS : BitVec 32
  progCm : BitVec 32
  lcnt   : Word
  lrot   : BitVec 5
  lN     : BitVec 5
  lQD    : Bool
  lSVhi  : BitVec 8
  lFirst : BitVec 17
  lLen   : BitVec 17
  badimg : BitVec 4
  hovf   : BitVec 4
  rhSteps : BitVec 56
  trim   : Bool
  trimCnt : BitVec 32
  mapstat : BitVec 33
  strayOvf : Bool
  collide : Bool
  clk    : Nat
  base   : Nat
  gs2    : Nat
  gs3    : Nat
  asBusy : Nat
  rhBusy : Nat
  copyA  : Nat
  copyB  : Nat
  wbAt   : Nat
  items  : List Item
  macros : List Macro
  mx     : Matrix
  deriving DecidableEq, Repr

/-! ## Engine tables of a core -/

/-- An assay context (R141): the fields of its header and its body. -/
structure Assay where
  kind  : Nat
  coin  : Nat
  t     : Nat
  alt   : BitVec 32
  n     : Nat
  nans  : Nat
  etop  : Nat
  lfsr  : Word
  seed  : Word
  cnt   : Map Nat
  lev   : Map (List (BitVec 32))
  valid : BitVec 64
  keys  : Map (BitVec 32 × Nat × Nat)
  regs  : Map Nat
  deriving DecidableEq, Repr

/-- An EMPTY context: all of it zero (R141). -/
def Assay.empty : Assay := ⟨0, 0, 0, 0, 0, 0, 0, 0, 0, [], [], 0, [], []⟩

/-- A reheat region (R161, R164, R165): descriptor, skip map, force flags, ages, and the held state of a stopped RHSIG. -/
structure Reheat where
  cfg   : Bool
  desc  : BitVec 512
  skip  : BitVec 1024
  force : BitVec 1024
  ages  : Map Nat
  sums  : List Fv
  maxm  : Fv
  rec_  : List (BitVec 32)
  deriving DecidableEq, Repr

/-- The state of a landing map (R198). -/
inductive MapSt where
  | free
  | active
  | draining
  deriving DecidableEq, Repr

/-- A landing map (R198): descriptor, state, remaining drain count, and the core that last set it (R350). -/
structure LMap where
  desc  : BitVec 512
  st    : MapSt
  drain : BitVec 16
  setter : Nat
  deriving DecidableEq, Repr

/-- A stray element (R205). -/
structure Stray where
  tag    : BitVec 16
  parity : Bool
  fmt    : BitVec 4
  src    : BitVec 16
  coord  : Word
  elem   : BitVec 32
  deriving DecidableEq, Repr

/-- A barrier group as its member sees it (R16, R106): member units, whether this core's arrival is counted, whether it issued
BAR, whether the barrier released while a QUENCH had this core away from it (R351), and whether the arrival is a SYNC's (R105). -/
structure BGroup where
  members : List Nat
  arrived : Bool
  bar     : Bool
  passed  : Bool
  sync    : Bool
  deriving DecidableEq, Repr

/-- An address group (R210): descriptor bytes, sequence number and poison. -/
structure AGroup where
  desc   : List Byte
  seq    : BitVec 16
  poison : Bool
  deriving DecidableEq, Repr

/-- What a queued entry does (R187, R189, R234). A store's `out` lists the rows
read out of the tile. -/
inductive QKind where
  | tld (tile : Nat) (ea : Word) (stride : Nat) (er ec fmt : Nat) (old : List Vec)
  | tst (tile : Nat) (ea : Word) (stride : Nat) (er ec fmt : Nat) (old out : List Vec)
  | gather (tile : Nat) (base : Word) (u er ec fmt : Nat) (listAt : Word) (idx : Option (List (BitVec 32))) (old : List Vec)
  | packet (pkt : Packet)
  deriving DecidableEq, Repr

/-- An entry of QA, QB or the non-temporal buffer: its kind, next row, fence epoch (R237) and number (R242); `drained`
is the epoch at which a DRAINNT marked a non-temporal entry; `faulted` holds a late fault not yet taken (R188), `held` marks an
entry whose fault was met while a handler ran, until its unit issues again, and `level` counts the contexts that stood interrupted at its issue
(R246). -/
structure QEntry where
  uid     : Nat
  slot    : Nat
  kind    : QKind
  row     : Nat
  epoch   : Nat
  drained : Option Nat
  faulted : Option Trap
  held    : Bool
  level   : Nat
  deriving DecidableEq, Repr

/-- A change of an LTT that the checks see from the next cycle on (R226): an entry written, one that a walk fills, P cleared in a run of valid
entries, or a whole table that a restore brings. -/
inductive LttWr where
  | put (i : Nat) (e : BitVec 128)
  | fill (i : Nat) (e : BitVec 128)
  | inv (e n : Nat)
  | all (t : Map (BitVec 128))
  deriving DecidableEq, Repr

/-- A transfer held by a landing stage (R32, R252): what lands, and the schedule count at which it lands; none waits in
the router's buffer behind the 32 slots. -/
structure Held where
  ev  : Instr
  due : Nat
  deriving DecidableEq, Repr

/-- A direct-send vector that arrived in this cycle (R209); `data` is none when its packet was discarded (R312). -/
structure Arrival where
  src  : Nat
  data : Option Vec
  deriving DecidableEq, Repr

/-- What a receive instruction or waybill step does with an arrival (R208, R317); a step's face accesses carry the issue of its WBRUN. -/
inductive Recv where
  | vec (d : Nat)
  | add (d fmt : Nat)
  | max (d fmt : Nat)
  | mem (ea : Word) (seq : Nat)
  | addMem (ea : Word) (seq : Nat)
  deriving DecidableEq, Repr

/-! ## A core -/

/-- What a core's sequencer does. `run` issues bundles; `stop` stands in a stall of its group; `wait` stands in its own
dynamic wait; `ready` has completed an ERET; `drain` has issued UEND; `dead` is in firmware mode. -/
inductive Run where
  | idle
  | run
  | wait (w : Wait)
  | stop
  | ready
  | drain
  | dead
  deriving DecidableEq, Repr

/-- A pending counter increment with its unit's launch and core and its coverage (R215, R242, R257, R298). -/
structure Incr where
  part  : Nat
  launch : Nat
  cc    : Nat
  amt   : Word
  scope : Nat
  core  : Nat
  cover : List Nat
  deriving DecidableEq, Repr

/-- What a core hands to the rest of the package at the end of the cycle: a transfer with its arrival tick and path, a
counter increment, its part in a collective, a launch-wide watchdog value, or the halt of its partition. -/
inductive Emit where
  | flight (due : Nat) (path : List (Nat × Nat)) (ev : Instr)
  | incr (i : Incr)
  | mcldr (group op : Nat) (seq : BitVec 16) (count : Nat) (desc : List Byte) (d sd : Nat)
  | sct (peer : Nat) (pkt : Packet)
  | wdog (v : Word)
  | halt
  | gtAdj (v : Word)
  | gtRate (v : Word)
  | fatalBase (v : Word)
  deriving DecidableEq, Repr

/-- One compute core (spec/01 R7, R16). `depth` counts the contexts that stand interrupted (R246). `tail` is work that a handler's bundles left
under way when its ERET completed, and `tailAt` the schedule count from which the resumed context's own issues come after it. `saved` counts the
held transfers that a completed CTXSAVE since the last trap wrote (R222, R257). `lttDue` holds the changes of the LTT in this cycle (R226), and
`walked` the cycle in which the last walk for a queued row of a stopped member ended (R271). -/
structure Core where
  ctx     : Ctx
  held    : Option Ctx
  tail    : Option Ctx
  tailAt  : Nat
  depth   : Nat
  mode    : BitVec 2
  tm      : Bool
  sh      : Bool
  v       : Map Vec
  k       : Map Mask
  tiles   : Map Vec
  tilePend : BitVec 8
  sq      : List (BitVec 640)
  unitId  : Word
  launchId : Word
  partId  : Word
  grpPos  : Word
  hvec    : Word
  lttBase : Word
  savePtr : Word
  owners  : BitVec 32
  assay   : Map Assay
  reheat  : Map Reheat
  landing : Map LMap
  strays  : List Stray
  strayIn : List Stray
  routes  : Map (BitVec 256)
  ltt     : Map (BitVec 128)
  lttDue  : List LttWr
  walked  : Option Nat
  owned   : BitVec 16
  parity  : Bool
  swapped : Bool
  bgroups : Map BGroup
  agroups : Map AGroup
  qa      : List QEntry
  qb      : List QEntry
  nt      : List QEntry
  epoch   : Nat
  nextUid : Nat
  launch  : Nat
  group   : Nat
  run     : Run
  sat     : Option Nat
  holdTo  : Nat
  stopAt  : Option Nat
  stopped : Option (Nat × Nat)
  restart : Option Nat
  fresh   : Bool
  events  : List Trap
  late    : Option Trap
  forced  : Bool
  xfers   : List Held
  arrived : List Arrival
  recv    : Option (Nat × Recv)
  saved   : Option Nat
  lazyPages : BitVec 64
  line    : Option Mask
  bound   : Bool
  pass    : Bool
  passing : BitVec 16
  emits   : List Emit
  deriving DecidableEq, Repr

/-! ## Clusters, partitions, launches -/

/-- A cluster (R264): the last job that ran on it, whether its router is harvested, and its landing table (R200). -/
structure Cluster where
  part    : Option Nat
  lastJob : Option (Nat × Nat)
  busy    : Option Nat
  dead    : Bool
  landing : Map LMap
  deriving DecidableEq, Repr

/-- A completion counter with its entry (R294) and the times of the interrupts due, one for each arming (R296). -/
structure Counter where
  value   : Word
  notify  : Word
  limit   : Word
  parentNo : Nat
  enabled : Bool
  cancelled : Bool
  armed   : Bool
  sent    : Bool
  window  : Nat
  hart    : Nat
  ident   : Nat
  dueAt   : List Nat
  deriving DecidableEq, Repr

/-- An armed trigger slot (R214). -/
inductive Trigger where
  | time (at_ : Word) (cc : Nat)
  | counter (w : Nat) (at_ : Word) (cc : Nat)
  deriving DecidableEq, Repr

/-- A launch queue (R288, R289): descriptor, records taken, the tail last seen, and the times records became visible. -/
structure Queue where
  desc    : Mask
  enabled : Bool
  taken   : Nat
  seen    : Nat
  times   : List Nat
  head    : Option (BitVec 512)
  stopped : Bool
  back    : List Nat
  deriving DecidableEq, Repr

/-- A partition (spec/14, spec/15, spec/16): its cluster grid, counters, triggers, queues, handler image, walk roots, peers and
power state; `ticks` counts its ungated cycles (R334). -/
structure Part where
  row     : Nat
  col     : Nat
  rows    : Nat
  cols    : Nat
  counters : Map Counter
  triggers : Map Trigger
  queues  : Map Queue
  handler : Option (Nat × List Byte)
  qlimit  : Option Nat
  guest   : Word
  system  : Word
  tlb     : Map (Nat × Nat × Word)
  peers   : Map (BitVec 256)
  migq    : Option (Nat × Nat)
  events  : Map (BitVec 32)
  pstate  : Nat
  onAt    : Option (Nat × Nat)
  ticks   : Nat
  gated   : Bool
  lastQ   : Nat
  nextId  : BitVec 32
  halted  : Option Nat
  marks   : List Nat
  deriving DecidableEq, Repr

/-- How far a launch has come (R290 to R302). -/
inductive LState where
  | waiting
  | loaded
  | resident
  | vacated
  | done
  | cancelled
  deriving DecidableEq, Repr

/-- A vacated unit: its timing group, its stop, and the transfers that arrived for it since its save area was written, in order, and the
events that it takes once it is back (R222, R252, R256, R260). -/
structure Away where
  group   : Nat
  stopped : Option (Nat × Nat)
  held    : List Held
  events  : List Trap
  deriving DecidableEq, Repr

/-- A launch (R290 to R298). `covers` holds, for each unit that has ended, its core and the accesses that its completion waits for
(R297); `landings` the cluster landing tables kept while the launch is vacated, and `away` what waits for
each vacated unit (R222, R260). `hand` is the handler image of its placement, with its base page (R76), and `quenched` a QUENCH that came
before its units started (R253). -/
structure Launch where
  lid     : BitVec 32
  part    : Nat
  queue   : Nat
  job     : Nat
  st      : LState
  record  : BitVec 512
  image   : Nat
  params  : Nat
  psize   : Nat
  row     : Nat
  col     : Nat
  rows    : Nat
  cols    : Nat
  cores   : Nat
  stitch  : Nat
  ccu     : Option Nat
  ccl     : Option Nat
  save    : Nat
  wdog    : Word
  wdogAt  : Nat
  units   : Nat
  doneUnits : List Nat
  vacatedUnits : List Nat
  counted : List Nat
  handover : Option Nat
  replay  : Option (Nat × Nat)
  hand    : Option (Nat × List Byte)
  startAt : Option Nat
  hold    : Bool
  quenched : Bool
  quenchAt : Option Nat
  shownAt : Nat
  covers  : Map (Nat × List Nat)
  landings : Map (Map LMap)
  away    : Map Away
  deriving DecidableEq, Repr

/-- A timing group (R30, R105, R209): members in node order, whether it stands stopped, whether a member has taken QUENCH in this stop (R253),
the halt of the debugger, absent members, and the cycle of the group resume that waits for its dynamic waits (R251). -/
structure Group where
  members : List Nat
  launch  : Nat
  stalled : Bool
  trap    : Bool
  quench  : Bool
  lastStop : Nat
  halt    : Bool
  due     : Option Nat
  absent  : List Nat
  resumed : Option Nat
  deriving DecidableEq, Repr

/-- A graph replay (R299 to R301); `slots` names each node's REGION slot. -/
structure Replay where
  part    : Nat
  graph   : Nat
  bankNo  : Nat
  ccl     : Option Nat
  wdog    : Nat
  launches : Map Nat
  slots   : Map Nat
  started : Nat
  job     : Nat
  queue   : Nat
  done    : Bool
  deriving DecidableEq, Repr

/-! ## Fabric, memory-side units, network -/

/-- A transfer in flight on the package (R197, R208, R211, R317): its launch, the tick of its partition at which it arrives, its path, what
arrives, and for each edge of the path the ticks at which its flits take it on lane 0 (R305). Within a timing group it is due at a
schedule count of its receiver (R32): `count` holds the receiving core and that count. -/
structure Flight where
  part : Nat
  launch : Nat
  due  : Nat
  path : List (Nat × Nat)
  sent : Nat
  count : Option (Nat × Nat)
  ev   : Instr
  cross : List (List Nat)
  deriving DecidableEq, Repr

/-- A collective under way (R211, R212, R315): its launch and timing group, its group number, issuing cores, the present members of any issuer's
copy by node, contributions by core, the cores whose contribution a wait for lane 0 made late, the source of a poisoned one, for each issuer its
destinations, its depth D and whether its copy marks a member absent, those that it has reached, and the deliveries that a save area has given
back (R224). -/
structure Coll where
  launch  : Nat
  tgroup  : Nat
  group   : Nat
  op      : Nat
  seq     : BitVec 16
  count   : Nat
  issuers : List Nat
  members : List Nat
  vals    : Map Vec
  late    : List Nat
  bad     : Option Nat
  order   : Bool
  dests   : Map (Nat × Nat × Nat × Bool)
  got     : List Nat
  given   : Map (Vec × Word)
  deriving DecidableEq, Repr

/-- A memory-side unit (R267, R281, R282, R284): landing tables by partition, hallmark, exception table, offline mark,
compatibility table, and whether a re-key runs. -/
structure Msu where
  landing  : Map LMap
  hallmark : Word
  exc      : List Nat
  offline  : Bool
  compat   : Map Nat
  deriving DecidableEq, Repr

/-- A migration under way (R274): its queue and record, or a move off an offline stack of partition `part`, which has no record (R309). -/
structure Mig where
  part  : Nat
  index : Option Nat
  gpa   : Nat
  old   : Nat
  size  : Nat
  dest  : Nat
  leafAt : Nat
  waits : List (Nat × Nat)
  deriving DecidableEq, Repr

/-- A sending SCT flow (R320): core, peer, frames not yet acknowledged, PSN, time of the last progress, timeouts. -/
structure TxFlow where
  core  : Nat
  part  : Nat
  peer  : Nat
  psn   : BitVec 32
  unacked : List (BitVec 32 × Packet)
  since : Nat
  tries : Nat
  failed : Bool
  senders : List (BitVec 32 × Nat)
  deriving DecidableEq, Repr

/-- A receiving SCT flow (R320): the next PSN, the frames accepted and not yet acknowledged, and the writes of its frames, by PSN, that device
memory held when they came (R282). -/
structure RxFlow where
  port  : Nat
  flow  : BitVec 16
  spkg  : Nat
  next  : BitVec 32
  since : Nat
  count : Nat
  held  : List (BitVec 32 × Nat × Nat × List Byte)
  deriving DecidableEq, Repr

/-- A registered RoCE v2 region of a queue pair (R322). -/
structure Region where
  part : Nat
  base : Nat
  len  : Nat
  deriving DecidableEq, Repr

/-- A reliable-connected RoCE v2 queue pair of a port (R322): its port, the priority of its replies, the next packet sequence number, and the
regions that the runtime has registered for it. -/
structure Qp where
  port : Nat
  prio : Nat
  psn  : BitVec 24
  regions : List Region
  deriving DecidableEq, Repr

/-- A command page (R326): the records of its ring by slot, CMDTAIL, CMDHEAD, and whether a tail too far ahead has stopped it (R289). The rest
of a page is a view of the partition's counters, queues and event identities. -/
structure CmdPage where
  ring : Map Mask
  tail : Word
  head : Word
  stopped : Bool
  deriving DecidableEq, Repr

/-- What comes to the package beside the rows of the table (R311, R320 to R322, R325, R333, R338; log entry 47): a store or a load of a drover
core at a system-physical address, in machine mode or not, a store with the partition of its virtual machine; a queue pair as the runtime sets
it up, registered regions and all; the address of SPDM over TCP; the bytes of a frame at a port; a RoCE v2 request with its packet sequence
number; what `efdb` loads, with the shape and save area that `launch` names; and an error that the fabric finds in a flit of a transfer on its
way, by its place among them: 1 uncorrectable in a body flit, 2 in a head flit, 3 corrected (R311). -/
inductive Feed where
  | store (machine : Bool) (part addr : Nat) (data : List Byte)
  | load (machine : Bool) (addr len : Nat)
  | queuePair (qp : Nat) (q : Qp)
  | spdmAddress (port : Nat) (addr : List Byte)
  | frame (port : Nat) (data : List Byte)
  | rdma (qp : Nat) (psn : BitVec 24) (ev : Instr)
  | image (part image rows cols cores save : Nat)
  | flitError (flight code : Nat)
  deriving DecidableEq, Repr

/-- A fabric or memory error-log entry (R337). -/
structure LogEntry where
  gt    : Word
  where_ : Nat
  kind  : Nat
  part  : Nat
  src   : Nat
  count : Nat
  deriving DecidableEq, Repr

/-- What the package gives to the outside (R296, R320, R322, R323, R325, R328, R333, R337, R340). An interrupt names the partition in whose
virtual machine's guest interrupt file it lands (R328). An SCT frame comes with its flow and its bytes; the replies of a RoCE v2 queue pair with
a packet sequence number. -/
inductive Output where
  | interrupt (part hart ident : Nat)
  | status (page : Option Nat) (code status : Nat)
  | loaded (addr : Nat) (data : List Byte)
  | frame (port flow : Nat) (bytes : List Byte)
  | ack (port flow : Nat) (bytes : List Byte)
  | rdma (qp : Nat) (psn : BitVec 24) (data : List Byte)
  | rdmaAck (qp : Nat) (psn : BitVec 24)
  | nak (qp : Nat) (psn : BitVec 24) (sequence : Bool)
  | congestion (qp : Nat)
  | timestamp (port seqId : Nat) (gt : Word) (oneStep : Bool)
  | spdm (tcp : Bool) (request : Nat) (data : List Byte)
  | log (memoryLog : Bool) (entries : List LogEntry)
  | display (request unit : Nat) (data : List Word)
  | powerOffRequest
  deriving DecidableEq, Repr

/-- Debugger state (R338, R341, R342, R348): breakpoints by unit or for all, the loaded image, the shape and save area that `launch` names, 0
for the image's own and none, and what its displays print. -/
structure Debug where
  points  : List (Option Nat × Nat)
  image   : Nat
  part    : Nat
  rows    : Nat
  cols    : Nat
  cores   : Nat
  save    : Nat
  lands   : Map (List (List Nat))
  reds    : List (Nat × Nat × Coll)
  deriving DecidableEq, Repr

/-- What an SPDM requester and the package have agreed on over one transport (R333): version, algorithms, ECDHE, the session and whether its
handshake has ended, and the transcript. -/
structure Spdm where
  ver     : Bool
  alg     : Bool
  dhe     : Bool
  session : Option Nat
  finished : Bool
  log     : List Byte
  deriving DecidableEq, Repr

/-- Boot and attestation (R331 to R333): the boot step reached, measurement registers, SPDM over MCTP and over TCP, the nonces drawn, and the port
and address of SPDM over TCP that the runtime has configured. -/
structure Boot where
  step    : Nat
  meas    : Map (List Byte)
  mctp    : Spdm
  tcp     : Spdm
  nonces  : Nat
  addr    : Option (Nat × List Byte)
  deriving DecidableEq, Repr

/-- What a SNAPST or a CTXSAVE wrote: the core it stood on with its number, the context of a SNAPST, and the increments that waited at a
CTXSAVE (R257). It holds the parts that the layouts of R219 and R223 give no bytes for; the bytes written tell which one a restore
takes (DESIGN CHOICE, log entry 13). -/
structure Saved where
  core : Nat × Core
  ctx  : Option Ctx
  incrs : List Incr
  deriving DecidableEq, Repr

/-- A write of one cycle, in the order of R118: core, issue order, slot; `atom` writes read the bytes left by the writes
before them, and `tail` marks one of the work that a handler left under way at its ERET. -/
structure Wr where
  core : Nat
  seq  : Nat
  slot : Nat
  key  : Nat
  data : List Byte
  atom : Option (Option Nat × Word × Word × Nat × Nat)
  collides : Bool
  tail : Bool
  deriving DecidableEq, Repr

/-- An input from outside the package, at a package cycle. -/
structure Stim where
  at_ : Nat
  ev  : Instr
  deriving DecidableEq, Repr

/-- Where a package cycle stands (R231): forced steps, arrivals and events, free steps, issue core by core, the end. -/
inductive Phase where
  | start
  | tick
  | free
  | issue (rest : List Nat)
  | finish
  deriving DecidableEq, Repr

/-! ## The package -/

/-- The state of the package. `undo` holds what scratchpad bytes written in this cycle held before (R316), and `heldWrites` the writes to device
memory, with partition and address, that wait for room in their unit's exception table (R282). `pages` holds the hypervisor's command page under
0 and partition p's under p + 1, `taking` says that the command under way is the head record of its page's ring (R326), and `feed` what comes to
the package at a package cycle beside `inbox`. -/
structure State where
  cyc     : Nat
  gt      : Nat
  gtFrac  : Nat
  gtRate  : Word
  gtAdj   : Word
  fatalBase : Word
  mem     : Memory
  undo    : List Host.Cell
  poison  : List Nat
  cores   : Map Core
  clusters : Map Cluster
  parts   : Map Part
  launches : Map Launch
  nextLaunch : Nat
  replays : Map Replay
  groups  : Map Group
  nextGroup : Nat
  flights : List Flight
  colls   : Map Coll
  nextColl : Nat
  incrs   : List Incr
  msus    : Map Msu
  sramMark : Word
  migs    : List Mig
  moves   : Map (List Nat)
  links   : List (Nat × Nat)
  txs     : List TxFlow
  rxs     : List RxFlow
  qps     : Map Qp
  pages   : Map CmdPage
  taking  : Bool
  feed    : List (Nat × Feed)
  heldWrites : List (Nat × Nat × List Byte)
  paused  : Map Byte
  pauseEnds : Map Nat
  portQueue : List (Nat × Nat × Output)
  boot    : Boot
  fabLog  : List LogEntry
  memLog  : List LogEntry
  dbg   : Debug
  saves   : List Saved
  phase   : Phase
  agenda  : List Instr
  cur     : Nat
  slot    : Nat
  wq      : List Wr
  oracle  : Nat
  inbox   : List Stim
  outbox  : List Output
  deriving DecidableEq, Repr

/-- Why a step ends in a fault. No instruction of the spec does: every trap of R244 is taken in a next state. -/
inductive Fault where
  /-- Raised by `step` alone, in a state that names a core the package does not have; no run reaches it. Safe: the model
  stops where the hardware has no such state. -/
  | noSuchCore
  deriving DecidableEq, Repr

/-- Why a step is refused. -/
inductive Refusal where
  /-- Raised by an arm of `exec` whose instruction has no meaning yet. Safe: the model stops where the hardware goes
  on. -/
  | notModelled (mnemonic : String)
  deriving DecidableEq, Repr

/-! ## Reset -/

/-- The matrix engine at unit start (R182). -/
def Matrix.reset : Matrix :=
  ⟨0x3F803F80, 0x3F803F80, [], [], none, none, 0, 0⟩

/-- The snapshot-able state of a core at unit start (R7, R10, R15, R19, R21, R23); DESIGN CHOICE, log entry 2 for WDOG. -/
def Ctx.reset : Ctx where
  s := []
  p := 1
  la := false
  qreq := false
  wre := false
  pend := false
  sres := 0
  rskew := 0
  pc := 0
  rep := 0
  mode := 0
  broke := false
  fence := false
  ctl := Ctl.none
  epc := 0
  cause := 0
  fval := 0
  felem := 0
  vrm := 0
  vstat := 0
  rngPos := 0
  rngKey := 0
  rngOld := 0
  wdog := 0
  progM := 0
  progV2 := 0
  progV3 := 0
  progCA := 0
  progCB := 0
  progAS := 0
  progCm := 0
  lcnt := 0
  lrot := 0
  lN := 0
  lQD := false
  lSVhi := 0
  lFirst := 0
  lLen := 0
  badimg := 0
  hovf := 0
  rhSteps := 0
  trim := false
  trimCnt := 0
  mapstat := 0
  strayOvf := false
  collide := false
  clk := 0
  base := 0
  gs2 := 0
  gs3 := 0
  asBusy := 0
  rhBusy := 0
  copyA := 0
  copyB := 0
  wbAt := 0
  items := []
  macros := []
  mx := Matrix.reset

/-- A core with no unit: its registers at their unit-start values (R7, R16); DESIGN CHOICE, log entry 2 for those the scheduler sets. -/
def Core.reset : Core where
  ctx := Ctx.reset
  held := none
  tail := none
  tailAt := 0
  depth := 0
  mode := 0
  tm := false
  sh := false
  v := []
  k := []
  tiles := []
  tilePend := 0
  sq := []
  unitId := 0
  launchId := 0
  partId := 0
  grpPos := 0
  hvec := 0
  lttBase := 0
  savePtr := 0
  owners := 0
  assay := []
  reheat := []
  landing := []
  strays := []
  strayIn := []
  routes := []
  ltt := []
  lttDue := []
  walked := none
  owned := 0xFFFF
  parity := false
  swapped := false
  bgroups := []
  agroups := []
  qa := []
  qb := []
  nt := []
  epoch := 0
  nextUid := 0
  launch := 0
  group := 0
  run := .idle
  sat := none
  holdTo := 0
  stopAt := none
  stopped := none
  restart := none
  fresh := false
  events := []
  late := none
  forced := false
  xfers := []
  arrived := []
  recv := none
  saved := none
  lazyPages := 0
  line := none
  bound := false
  pass := false
  passing := 0
  emits := []

/-- SPDM before a requester has agreed on anything. -/
def Spdm.reset : Spdm := ⟨false, false, false, none, false, []⟩

/-- The package right after power-good: cycle 0, no partition, no launch, memory listing nothing, and every register at
its reset value (R7, R23, R330, R332). DESIGN CHOICE, log entry 2 names the values the spec does not give. -/
def State.reset : State where
  cyc := 0
  gt := 0
  gtFrac := 0
  gtRate := 0x0000E8BA2E8BA2E8
  gtAdj := 0
  fatalBase := 0
  mem := []
  undo := []
  poison := []
  cores := []
  clusters := []
  parts := []
  launches := []
  nextLaunch := 1
  replays := []
  groups := []
  nextGroup := 0
  flights := []
  colls := []
  nextColl := 0
  incrs := []
  msus := []
  sramMark := 0
  migs := []
  moves := []
  links := []
  txs := []
  rxs := []
  qps := []
  pages := []
  taking := false
  feed := []
  heldWrites := []
  paused := []
  pauseEnds := []
  portQueue := []
  boot := ⟨0, [], Spdm.reset, Spdm.reset, 0, none⟩
  fabLog := []
  memLog := []
  dbg := ⟨[], 0, 0, 0, 0, 0, 0, [], []⟩
  saves := []
  phase := .start
  agenda := []
  cur := 0
  slot := 0
  wq := []
  oracle := 0
  inbox := []
  outbox := []

/-- Core `n` of the package; a core that the map does not list is as after reset. -/
def State.core (s : State) (n : Nat) : Core := Map.get s.cores n Core.reset

/-- The state with core `n` replaced. -/
def State.setCore (s : State) (n : Nat) (c : Core) : State := { s with cores := Map.put s.cores n c }

end Sys2Proof.Machine
end

