-- ==== Sys2Proof/Machine/Num.lean ====
section
/-! DEFINITION. Numbers: lanes, exact floating-point values, rounding, conversion (spec/02 R33 to R58). -/

namespace Sys2Proof.Machine

/-! ## Bits and lanes -/

/-- Lane `i` of `w` bits of a wide word, as a number (R7). -/
def laneNat {n : Nat} (v : BitVec n) (i w : Nat) : Nat := (v.toNat >>> (i * w)) % 2 ^ w

/-- Lane `i` of `w` bits of a wide word (R7). -/
def lane {n : Nat} (v : BitVec n) (i w : Nat) : BitVec w := v.extractLsb' (i * w) w

/-- The number whose lanes of `w` bits are `f 0`, `f 1`, … `f (n - 1)`. -/
def packNat (w : Nat) (n : Nat) (f : Nat → Nat) : Nat :=
  (List.range n).foldl (fun a i => a + (f i % 2 ^ w) <<< (i * w)) 0

/-- The vector whose `n` lanes of `w` bits are `f`. -/
def ofLanes (w n : Nat) (f : Nat → Nat) : Vec := BitVec.ofNat 2048 (packNat w n f)

/-- The bits of the lanes of `w` bits that a test selects. -/
def laneMask (w n : Nat) (f : Nat → Bool) : Vec := ofLanes w n fun i => if f i then 2 ^ w - 1 else 0

/-- A wide word in little-endian bytes (R3). -/
def toBytes (n v : Nat) : List Byte := (List.range n).map fun i => BitVec.ofNat 8 (v >>> (8 * i))

/-- The number that little-endian bytes hold (R3). -/
def ofBytes (l : List Byte) : Nat := l.foldr (fun b a => b.toNat + 256 * a) 0

/-- Bytes `[hi:lo]` of a descriptor, as a number. -/
def byteField {n : Nat} (v : BitVec n) (lo len : Nat) : Nat := (v.toNat >>> (8 * lo)) % 2 ^ (8 * len)

/-- A number read as a two's complement word of `w` bits (R33). -/
def signed (w n : Nat) : Int := if n % 2 ^ w < 2 ^ (w - 1) then (n % 2 ^ w : Nat) else (n % 2 ^ w : Nat) - (2 ^ w : Nat)

/-- An integer as a word of `w` bits, modulo 2^w (R33). -/
def wrapNat (w : Nat) (i : Int) : Nat := (i % (2 ^ w : Nat)).toNat

/-- An integer held to the range of a signed word of `w` bits (R33), and whether the clamp applied. -/
def satInt (w : Nat) (i : Int) : Int × Bool :=
  let hi : Int := (2 ^ (w - 1) : Nat) - 1
  let lo : Int := -(2 ^ (w - 1) : Nat)
  if hi < i then (hi, true) else if i < lo then (lo, true) else (i, false)

/-- The number of one bits. -/
def popcount (w n : Nat) : Nat := (List.range w).foldl (fun a i => if n.testBit i then a + 1 else a) 0

/-- Leading zeros of a word of `w` bits. -/
def leadingZeros (w n : Nat) : Nat := if n % 2 ^ w = 0 then w else w - 1 - Nat.log2 (n % 2 ^ w)

/-- Trailing zeros of a word of `w` bits. -/
def trailingZeros (w n : Nat) : Nat :=
  ((List.range w).find? fun i => n.testBit i).getD w

/-- The function `mix` of R43, modulo 2^64. -/
def mix (k : Word) (n : Nat) : Word :=
  let z : Word := BitVec.ofNat 64 n * 0xA3C59AC2D74F1B29 + k
  let z := z ^^^ (z >>> 32)
  let z := z * 0xE7B15C3D9F2084AD
  let z := z ^^^ (z >>> 29)
  let z := z * 0x8F3AD6C127E4B05D
  z ^^^ (z >>> 32)

/-- Position `n` of the random-bits queue under a key: 32 words of 64 bits (R15). -/
def rngVec (key : Word) (n : Nat) : Vec := ofLanes 64 32 fun j => (mix key (32 * n + j)).toNat

/-! ## Floating-point values -/

/-- The floating-point formats (R34). -/
inductive Fmt where
  | fp32
  | bf16
  | fp16
  | e5m2
  | e4m3
  | e2m1
  deriving DecidableEq, Repr

/-- Exponent bits, fraction bits, bias, largest finite code, and whether the format has infinities (R34). -/
def Fmt.params (f : Fmt) : Nat × Nat × Nat × Nat × Bool :=
  match f with
  | .fp32 => (8, 23, 127, 0x7F7FFFFF, true)
  | .bf16 => (8, 7, 127, 0x7F7F, true)
  | .fp16 => (5, 10, 15, 0x7BFF, true)
  | .e5m2 => (5, 2, 15, 0x7B, true)
  | .e4m3 => (4, 3, 7, 0x7E, false)
  | .e2m1 => (2, 1, 1, 0x7, false)

/-- The width of a format in bits. -/
def Fmt.width (f : Fmt) : Nat := 1 + f.params.1 + f.params.2.1

/-- The canonical NaN of a format; E2M1 has none (R34, R35). -/
def Fmt.canonNaN (f : Fmt) : Nat :=
  match f with
  | .fp32 => 0x7FC00000
  | .bf16 => 0x7FC0
  | .fp16 => 0x7E00
  | .e5m2 => 0x7E
  | .e4m3 => 0x7F
  | .e2m1 => 0

/-- The value a code has in a format (R34). -/
def Fmt.decode (f : Fmt) (c : Nat) : Fv :=
  let (eb, mb, bias, _, hasInf) := f.params
  let neg := c.testBit (eb + mb)
  let e := (c >>> mb) % 2 ^ eb
  let m := c % 2 ^ mb
  if hasInf && e == 2 ^ eb - 1 then (if m = 0 then .inf neg else .nan)
  else if f = .e4m3 && e == 15 && m == 7 then .nan
  else if e = 0 then .fin neg m (1 - (bias : Int) - mb)
  else .fin neg (2 ^ mb + m) ((e : Int) - bias - mb)

/-- A rounding mode: to nearest even, towards zero, or stochastic with a random word (R40 to R42). -/
inductive Rnd where
  | rne
  | rtz
  | sr (w : Nat)
  deriving DecidableEq, Repr

/-- m / 2^d as an integer by a rounding mode, and whether it is inexact. -/
def roundShift (r : Rnd) (m d : Nat) : Nat × Bool :=
  let q := m / 2 ^ d
  let rem := m % 2 ^ d
  if rem = 0 then (q, false)
  else
    match r with
    | .rtz => (q, true)
    | .rne => (if 2 * rem > 2 ^ d || (2 * rem == 2 ^ d && q % 2 == 1) then q + 1 else q, true)
    | .sr w => ((m * 2 ^ 32 + w * 2 ^ d) / (2 ^ d * 2 ^ 32), true)

/-- The flags of VSTAT, one bit each (R45). -/
def flNV : BitVec 7 := 1
/-- DZ (R45). -/
def flDZ : BitVec 7 := 2
/-- OF (R45). -/
def flOF : BitVec 7 := 4
/-- UF (R45). -/
def flUF : BitVec 7 := 8
/-- NX (R45). -/
def flNX : BitVec 7 := 16
/-- SAT (R45). -/
def flSAT : BitVec 7 := 32
/-- SCN (R45). -/
def flSCN : BitVec 7 := 64

/-- An exact value rounded once into a format, with the flags it sets (R41, R42, R44, R45). -/
def Fmt.round (f : Fmt) (r : Rnd) (x : Fv) : Nat × BitVec 7 :=
  let (eb, mb, bias, top, hasInf) := f.params
  let sgn (neg : Bool) : Nat := if neg then 2 ^ (eb + mb) else 0
  match x with
  | .nan => (f.canonNaN, if f = .e2m1 then flNV else 0)
  | .inf neg => if hasInf then (sgn neg + top + 1, 0) else (sgn neg + top, flOF)
  | .fin neg 0 _ => (sgn neg, 0)
  | .fin neg m e =>
    let ex : Int := e + Nat.log2 m
    let emin : Int := 1 - (bias : Int)
    let q : Int := max ex emin - mb
    let (sig, inexact) := if q ≤ e then (m * 2 ^ (e - q).toNat, false) else roundShift r m (q - e).toNat
    let l := Nat.log2 sig
    let code :=
      if sig < 2 ^ mb then sig
      else ((q + l + bias).toNat * 2 ^ mb) + (if l ≤ mb then sig else sig / 2 ^ (l - mb)) - 2 ^ mb
    if top < code then
      (if hasInf && r ≠ .rtz then sgn neg + top + 1 else sgn neg + top, flOF ||| flNX)
    else
      (sgn neg + code, if inexact then (if code < 2 ^ mb then flNX ||| flUF else flNX) else 0)

/-- The value of an FP32 code. -/
def fp32 (c : Nat) : Fv := Fmt.fp32.decode c

/-- RNE into FP32 (R5). -/
def rne32 (x : Fv) : Nat := (Fmt.fp32.round .rne x).1

/-- Whether a value is NaN. -/
def Fv.isNaN (x : Fv) : Bool := x = .nan

/-- The sign of a value other than NaN. -/
def Fv.neg? (x : Fv) : Bool :=
  match x with
  | .nan => false
  | .inf n => n
  | .fin n _ _ => n

/-- The value with its sign changed. -/
def Fv.negate (x : Fv) : Fv :=
  match x with
  | .nan => .nan
  | .inf n => .inf (!n)
  | .fin n m e => .fin (!n) m e

/-- The magnitude of a value. -/
def Fv.abs (x : Fv) : Fv :=
  match x with
  | .nan => .nan
  | .inf _ => .inf false
  | .fin _ m e => .fin false m e

/-- A signed mantissa. -/
def smant (n : Bool) (m : Nat) : Int := if n then -(m : Int) else m

/-- The exact sum, with the IEEE 754 sign of an exact zero (R41). -/
def Fv.add (x y : Fv) : Fv :=
  match x, y with
  | .nan, _ => .nan
  | _, .nan => .nan
  | .inf a, .inf b => if a = b then .inf a else .nan
  | .inf a, _ => .inf a
  | _, .inf b => .inf b
  | .fin a m e, .fin b n g =>
    if m = 0 && n = 0 then .fin (a && b) 0 0
    else
      let lo := min e g
      let t := smant a m * (2 ^ (e - lo).toNat : Nat) + smant b n * (2 ^ (g - lo).toNat : Nat)
      .fin (decide (t < 0)) t.natAbs lo

/-- The exact product (R41). -/
def Fv.mul (x y : Fv) : Fv :=
  match x, y with
  | .nan, _ => .nan
  | _, .nan => .nan
  | .inf a, .inf b => .inf (a != b)
  | .inf a, .fin b n _ => if n = 0 then .nan else .inf (a != b)
  | .fin a m _, .inf b => if m = 0 then .nan else .inf (a != b)
  | .fin a m e, .fin b n g => .fin (a != b) (m * n) (e + g)

/-- The invalid flag: NaN from operands none of which is NaN (R35, R45). -/
def nvOf (ops : List Fv) (r : Fv) : BitVec 7 := if r.isNaN && !(ops.any Fv.isNaN) then flNV else 0

/-- Numerical comparison of two values that are not NaN; −0 equals +0 (R47). -/
def Fv.lt (x y : Fv) : Bool :=
  match x, y with
  | .nan, _ => false
  | _, .nan => false
  | .inf a, .inf b => a && !b
  | .inf a, _ => a
  | _, .inf b => !b
  | .fin a m e, .fin b n g =>
    let lo := min e g
    decide (smant a m * (2 ^ (e - lo).toNat : Nat) < smant b n * (2 ^ (g - lo).toNat : Nat))

/-- Equality of values: −0 equals +0, NaN equals nothing (R47). -/
def Fv.eq (x y : Fv) : Bool := !x.isNaN && !y.isNaN && !x.lt y && !y.lt x

/-- The order of VMIN, VMAX and VRMAX: −0 below +0 (R47). -/
def Fv.below (x y : Fv) : Bool := x.lt y || (x.eq y && x.neg? && !y.neg?)

/-- The greater of two values by R47, NaN if either is NaN. -/
def Fv.max (x y : Fv) : Fv := if x.isNaN || y.isNaN then .nan else if x.below y then y else x

/-- The lesser of two values by R47, NaN if either is NaN. -/
def Fv.min (x y : Fv) : Fv := if x.isNaN || y.isNaN then .nan else if y.below x then y else x

/-- The FP32 total order key of a code that is not NaN: −0 below +0 (R149). -/
def totalKey (c : Nat) : Int := if c.testBit 31 then -1 - ((c % 2 ^ 31 : Nat) : Int) else (c % 2 ^ 31 : Nat)

/-- FP32 addition of codes by RNE (R54, R208). -/
def add32 (a b : Nat) : Nat := rne32 ((fp32 a).add (fp32 b))

/-- The greater of two FP32 codes by R47. -/
def max32 (a b : Nat) : Nat := rne32 ((fp32 a).max (fp32 b))

/-! ## Conversions -/

/-- The floating-point format of a conversion code (R130). -/
def cvtFmt (c : Nat) : Option Fmt :=
  match c with
  | 0 => some .fp32
  | 1 => some .bf16
  | 2 => some .fp16
  | 3 => some .e5m2
  | 4 => some .e4m3
  | _ => none

/-- The integer range of a conversion code: width and signedness (R130). -/
def cvtInt (c : Nat) : Nat × Bool :=
  match c with
  | 5 => (32, true)
  | 6 => (8, true)
  | _ => (8, false)

/-- The largest and the least value of an integer format (R33). -/
def intRange (w : Nat) (sg : Bool) : Int × Int :=
  if sg then (((2 ^ (w - 1) : Nat) : Int) - 1, -((2 ^ (w - 1) : Nat) : Int)) else ((2 ^ w : Nat) - 1, 0)

/-- A value converted into an integer format: NV beyond its range, by R44's table, and not R33's SAT: DEDUCED, log entry 69. -/
def toInt (w : Nat) (sg : Bool) (r : Rnd) (x : Fv) : Nat × BitVec 7 :=
  let (hi, lo) := intRange w sg
  match x with
  | .nan => (0, flNV)
  | .inf n => (wrapNat w (if n then lo else hi), flNV)
  | .fin n m e =>
    let (mag, inexact) := if 0 ≤ e then (m * 2 ^ e.toNat, false) else roundShift r m (-e).toNat
    let v : Int := smant n mag
    if hi < v then (wrapNat w hi, flNV)
    else if v < lo then (wrapNat w lo, flNV)
    else (wrapNat w v, if inexact then flNX else 0)

/-- One element of VCVT (R131, R44): code, source format code, destination format code. -/
def convert (r : Rnd) (fromC toC c : Nat) : Nat × BitVec 7 :=
  match cvtFmt fromC, cvtFmt toC with
  | some f, some t => t.round r (f.decode c)
  | some f, none => toInt (cvtInt toC).1 (cvtInt toC).2 r (f.decode c)
  | none, some t =>
    let (w, sg) := cvtInt fromC
    let i : Int := if sg then signed w c else (c % 2 ^ w : Nat)
    t.round r (.fin (decide (i < 0)) i.natAbs 0)
  | none, none =>
    let (w, sg) := cvtInt fromC
    let (tw, tsg) := cvtInt toC
    let i : Int := if sg then signed w c else (c % 2 ^ w : Nat)
    let (hi, lo) := intRange tw tsg
    if hi < i then (wrapNat tw hi, flSAT) else if i < lo then (wrapNat tw lo, flSAT) else (wrapNat tw i, 0)

/-- The value of an E5M5 block scale; none for the NaN scale (R36). -/
def e5m5 (c : Nat) : Fv :=
  let e := (c >>> 5) % 32
  let m := c % 32
  if e = 0 then .fin false m (-19)
  else if e = 31 && m = 31 then .nan
  else .fin false (32 + m) ((e : Int) - 20)

/-- m × 2^e of a finite value compared with another: whether |x| ≤ k × |y|, exactly. -/
def absLe (x y : Fv) (k : Nat) : Bool :=
  match x, y with
  | .fin _ m e, .fin _ n g =>
    let lo := min e g
    decide (m * 2 ^ (e - lo).toNat ≤ k * n * 2 ^ (g - lo).toNat)
  | _, _ => false


/-- The smallest E5M5 code by halving: codes below 2^k tested from the top bit down (codes rise with their values). -/
def scaleSearch (x : Fv) (k base : Nat) : Nat :=
  match k with
  | 0 => base
  | n + 1 =>
    let mid := base + 2 ^ n
    if mid ≤ 0x3FE && !(absLe x (e5m5 (mid - 1)) 6) then scaleSearch x n mid else scaleSearch x n base

/-- The quotient |x| / s rounded to nearest even into E2M1, saturating: its code without sign, and its flags (R56). -/
def quotE2M1 (x s : Fv) : Nat × BitVec 7 :=
  match x, s with
  | .fin _ m e, .fin _ n g =>
    if n = 0 then (0, 0)
    else
      -- |x|/s in units of 2^-20, with the low bit marking a remainder, decides every midpoint of E2M1
      let sh : Int := e - g + 20
      let num := if 0 ≤ sh then m * 2 ^ sh.toNat else m
      let den := if 0 ≤ sh then n else n * 2 ^ (-sh).toNat
      let q := num / den
      let t := 2 * q + (if num % den = 0 then 0 else 1)
      Fmt.e2m1.round .rne (.fin false t (-21))
  | .inf _, _ => (7, 0)
  | _, _ => (0, 0)

end Sys2Proof.Machine
end

