-- ==== Sys2Proof/Machine/Ops.lean ====
section
/-! DEFINITION. The named operations over memory, registers, tables and traps that every meaning uses. -/

namespace Sys2Proof.Machine

/-! ## Memory -/

/-- The byte at a key. -/
def memGet (m : Memory) (k : Nat) : Byte :=
  match m with
  | [] => unlisted
  | (j, b) :: r => if j = k then b else memGet r k

/-- Memory with one byte written; writing what an unlisted byte reads as removes the entry. -/
def memPut (m : Memory) (k : Nat) (b : Byte) : Memory :=
  match m with
  | [] => if b = unlisted then [] else [(k, b)]
  | (j, c) :: r =>
    if j < k then (j, c) :: memPut r k b
    else if j = k then (if b = unlisted then r else (k, b) :: r)
    else if b = unlisted then (j, c) :: r else (k, b) :: (j, c) :: r

/-- `n` bytes from a key on. -/
def memGetN (m : Memory) (k n : Nat) : List Byte := (List.range n).map fun i => memGet m (k + i)

/-- Bytes written from a key on, in rising order. -/
def memPutN (m : Memory) (k : Nat) (l : List Byte) : Memory :=
  match l with
  | [] => m
  | b :: r => memPutN (memPut m k b) (k + 1) r

/-- Memory with `n` bytes from a key on reading as unlisted. -/
def memClear (m : Memory) (k n : Nat) : Memory := m.filter fun x => x.1 < k || k + n ≤ x.1

/-- Listed bytes written one by one. -/
def memPutCells (m : Memory) (l : List Host.Cell) : Memory :=
  match l with
  | [] => m
  | (k, b) :: r => memPutCells (memPut m k b) r

/-- Memory with `n` bytes copied from `src` to `dst`. -/
def memCopy (m : Memory) (src dst n : Nat) : Memory :=
  memPutCells (memClear m dst n) ((m.filter fun x => src ≤ x.1 && x.1 < src + n).map fun x => (x.1 - src + dst, x.2))

/-- A little-endian number of `n` bytes (R3). -/
def memNat (m : Memory) (k n : Nat) : Nat := ofBytes (memGetN m k n)

/-- The core of the package that a core's number names. Numbers from 1,024 on hold, for core n − 1,024, a unit whose remaining copies
run on beside the unit that has taken its place (R302). -/
def hwCore (n : Nat) : Nat := n % 1024

/-- The key of a byte of a scratchpad half of core `n` (R262). -/
def padKey (n half off : Nat) : Nat := 2 ^ 52 + (2 * hwCore n + half) * 2 ^ 20 + off

/-- Which half of the scratchpad is the face (R106). -/
def Core.faceHalf (c : Core) : Nat := if c.swapped then 1 else 0

/-- Which half is the shadow (R106). -/
def Core.shadowHalf (c : Core) : Nat := if c.swapped then 0 else 1

/-- The key of a byte of the instruction scratchpad of core `n` (R75). -/
def codeKey (n off : Nat) : Nat := 2 ^ 53 + hwCore n * 2 ^ 18 + off

/-- The key of a byte of the pattern table of core `n` (R83). -/
def patKey (n off : Nat) : Nat := 2 ^ 54 + hwCore n * 2 ^ 14 + off

/-- The system-physical base of the face of core `n` (R265). -/
def faceSpa (n : Nat) : Nat := 0xF000100000000 + hwCore n * 0x100000

/-- The system-physical base of the SRAM of a cluster (R265). -/
def sramSpa (k : Nat) : Nat := 0xF000000000000 + k * 0x1000000

/-- The cluster of a core: eight cores each (R2). -/
def clusterOf (n : Nat) : Nat := hwCore n / 8

/-! ## Registers -/

/-- The physical entry of a scalar name (R10). -/
def Ctx.physS (x : Ctx) (r : Nat) : Nat := if r < 32 then r else 32 + (r - 32 + x.lrot.toNat) % 32

/-- The physical entry of a vector name (R10). -/
def Ctx.physV (x : Ctx) (r : Nat) : Nat := if r < 112 then r else 112 + (r - 112 + x.lrot.toNat) % 16

/-- A scalar as read at issue; s0 reads 0 (R8). -/
def Core.readS {w : Nat} (c : Core) (r : BitVec w) : Word :=
  if r.toNat = 0 then 0 else Map.get c.ctx.s (c.ctx.physS r.toNat) 0

/-- A predicate as read at issue; p0 reads 1 (R8). -/
def Core.readP (c : Core) (r : BitVec 4) : Bool := r == 0 || c.ctx.p.getLsbD r.toNat

/-- A vector as read at issue (R9, R10). -/
def Core.readV {w : Nat} (c : Core) (r : BitVec w) : Vec := Map.get c.v (c.ctx.physV r.toNat) 0

/-- A mask as read at issue; k0 reads all ones (R8). -/
def Core.readK (c : Core) (r : BitVec 3) : Mask := if r.toNat = 0 then BitVec.allOnes 256 else Map.get c.k r.toNat 0

/-- A scalar entry written; a write to s0 is discarded (R8). -/
def Ctx.putS (x : Ctx) (r : Nat) (v : Word) : Ctx := if r = 0 then x else { x with s := Map.put x.s r v }

/-- A predicate written; a write to p0 is discarded (R8). -/
def Ctx.putP (x : Ctx) (r : Nat) (b : Bool) : Ctx :=
  if r = 0 then x
  else { x with p := if b then x.p ||| (1#16 <<< r) else x.p &&& ~~~(1#16 <<< r) }

/-- A vector entry written under a bit mask (R120). -/
def Core.putV (c : Core) (r : Nat) (v m : Vec) : Core :=
  { c with v := Map.put c.v r ((Map.get c.v r 0 &&& ~~~m) ||| (v &&& m)) }

/-- A mask register written under a bit mask; a write to k0 is discarded (R8, R125). -/
def Core.putK (c : Core) (r : Nat) (v m : Mask) : Core :=
  if r = 0 then c else { c with k := Map.put c.k r ((Map.get c.k r 0 &&& ~~~m) ||| (v &&& m)) }

/-- A row of a tile (R13, R138). -/
def Core.tileRow (c : Core) (t r : Nat) : Vec := Map.get c.tiles (64 * t + r) 0

/-- A row of a tile written under a bit mask. -/
def Core.putTile (c : Core) (t r : Nat) (v m : Vec) : Core :=
  { c with tiles := Map.put c.tiles (64 * t + r) ((c.tileRow t r &&& ~~~m) ||| (v &&& m)) }

/-- All rows of a tile. -/
def Core.tile (c : Core) (t : Nat) : List Vec := (List.range 64).map (c.tileRow t)

/-- The rows of an accumulator (R9). -/
def Core.acc (c : Core) (a : Nat) : List Vec :=
  (List.range 64).map fun i => Map.get c.v (64 * a + i) 0

/-- The stage vector: bits 0 to 7 are p8 to p15 (R100). -/
def Ctx.sv (x : Ctx) : BitVec 16 := x.lSVhi ++ x.p.extractLsb' 8 8

/-- The stage vector written, p8 to p15 with it (R100). -/
def Ctx.setSV (x : Ctx) (v : BitVec 16) : Ctx :=
  { x with lSVhi := v.extractLsb' 8 8, p := v.extractLsb' 0 8 ++ x.p.extractLsb' 0 8 }

/-! ## Cause codes (R244) -/

/-- ILLEGAL. -/
def cILLEGAL : Nat := 0x01
/-- TEMPLATE. -/
def cTEMPLATE : Nat := 0x02
/-- PRIVILEGE. -/
def cPRIVILEGE : Nat := 0x03
/-- PAGE_ABSENT. -/
def cPAGE : Nat := 0x04
/-- OUT_OF_TABLE. -/
def cTABLE : Nat := 0x05
/-- PERMISSION. -/
def cPERM : Nat := 0x06
/-- FORMAT. -/
def cFORMAT : Nat := 0x07
/-- ALIGN. -/
def cALIGN : Nat := 0x08
/-- TIMING. -/
def cTIMING : Nat := 0x09
/-- II_VIOLATION. -/
def cII : Nat := 0x0A
/-- SCALE_QUEUE_IMBALANCE. -/
def cSCALE : Nat := 0x0B
/-- ORPHAN_WAIT. -/
def cORPHAN : Nat := 0x0C
/-- STRAY_ARRIVAL. -/
def cSTRAY : Nat := 0x0D
/-- COLLECTIVE_ORDER. -/
def cCOLL : Nat := 0x0E
/-- PEER_ABSENT. -/
def cPEER : Nat := 0x0F
/-- PAYLOAD_ERROR. -/
def cPAYLOAD : Nat := 0x10
/-- WATCHDOG. -/
def cWATCHDOG : Nat := 0x12
/-- QUENCH. -/
def cQUENCH : Nat := 0x13
/-- SOFTWARE. -/
def cSOFTWARE : Nat := 0x14
/-- BREAKPOINT. -/
def cBREAK : Nat := 0x15
/-- ADDRESS_CLASS. -/
def cCLASS : Nat := 0x16
/-- SAVE_AREA. -/
def cSAVE : Nat := 0x17
/-- ECC_UNCORRECTABLE. -/
def cECC : Nat := 0x18
/-- ROUTE. -/
def cROUTE : Nat := 0x19

/-! ## Translation -/

/-- The windows of a unit's address space (R26). -/
inductive Win where
  | face
  | cluster
  | device
  deriving DecidableEq, Repr

/-- The window of an address (R26). -/
def winOf (ea : Nat) : Option Win :=
  if ea < 0x100000 then some .face
  else if 0x1000000 ≤ ea && ea < 0x2000000 then some .cluster
  else if 0x100000000 ≤ ea && ea < 0x1000000000000 then some .device
  else none

/-- The LTT entries of a window (R26). -/
def Win.entries (w : Win) : Nat × Nat :=
  match w with
  | .face => (0, 64)
  | .cluster => (64, 128)
  | .device => (128, 1024)

/-- Fields of an LTT entry (R225). -/
def lttV (e : BitVec 128) : Bool := e.getLsbD 38
/-- P (R225). -/
def lttP (e : BitVec 128) : Bool := e.getLsbD 39
/-- PIN (R225). -/
def lttPIN (e : BitVec 128) : Bool := e.getLsbD 40
/-- RD (R225). -/
def lttRD (e : BitVec 128) : Bool := e.getLsbD 41
/-- WR (R225). -/
def lttWR (e : BitVec 128) : Bool := e.getLsbD 42
/-- CLASS (R225). -/
def lttCLASS (e : BitVec 128) : Nat := (e.extractLsb' 43 3).toNat
/-- GEOM (R225). -/
def lttGEOM (e : BitVec 128) : Nat := (e.extractLsb' 46 3).toNat
/-- FMT (R225). -/
def lttFMT (e : BitVec 128) : Nat := (e.extractLsb' 49 4).toNat
/-- The frame's system-physical base (R225). -/
def lttFRAME (e : BitVec 128) : Nat := (e.extractLsb' 53 38).toNat * 0x4000
/-- PSIZE (R225). -/
def lttPSIZE (e : BitVec 128) : Nat := (e.extractLsb' 91 3).toNat
/-- The page's virtual base (R225). -/
def lttVPN (e : BitVec 128) : Nat := (e.extractLsb' 94 34).toNat * 0x4000

/-- Bytes of a page size code (R72, R225). -/
def pageBytes (p : Nat) : Nat :=
  match p with
  | 0 => 2 ^ 14
  | 1 => 2 ^ 18
  | 2 => 2 ^ 22
  | 3 => 2 ^ 25
  | _ => 2 ^ 30

/-- The lowest valid entry of the address's window that covers it (R26, R226). -/
def Core.lookup (c : Core) (ea : Nat) : Option (Nat × BitVec 128) :=
  match winOf ea with
  | none => none
  | some w =>
    c.ltt.find? fun x =>
      w.entries.1 ≤ x.1 && x.1 < w.entries.2 && lttV x.2 &&
        decide (lttVPN x.2 ≤ ea) && decide (ea < lttVPN x.2 + pageBytes (lttPSIZE x.2))

/-- The system-physical base of the second tier (R265). -/
def tier2Base : Nat := 0x100000000000

/-- Whether a system-physical address lies in device memory: first tier, 1 TiB, or second tier, 12 TiB (R1, R265). -/
def inDevice (spa : Nat) : Bool := spa < 0x10000000000 || (tier2Base ≤ spa && spa < 0x1C0000000000)

/-- Whether a system-physical address lies in a range that the map does not reserve (R265). -/
def spaMapped (spa : Nat) : Bool :=
  inDevice spa || (0xF000000000000 ≤ spa && spa < 0xF000060000000) || (0xF000100000000 ≤ spa && spa < 0xF000130000000)

/-- Whether an entry's frame is of its window's own kind (R266). -/
def frameOk (n : Nat) (w : Win) (e : BitVec 128) : Bool :=
  let f := lttFRAME e
  match w with
  | .face => faceSpa n ≤ f && f < faceSpa n + 0x100000
  | .cluster => sramSpa (clusterOf n) ≤ f && f < sramSpa (clusterOf n) + 0x1000000
  | .device => inDevice f

/-- The memory key of an address through an entry: the face half of the moment, or the system-physical byte. -/
def Core.keyOf (n : Nat) (c : Core) (ea : Nat) : Nat :=
  match c.lookup ea with
  | none => 0
  | some (_, e) =>
    let spa := lttFRAME e + (ea - lttVPN e)
    if winOf ea = some .face then padKey n c.faceHalf (spa - faceSpa n) else spa

/-- The first byte of a range in each 16 KiB page it touches. -/
def pageStarts (ea len : Nat) : List Nat :=
  let first := (ea / 0x4000 + 1) * 0x4000
  ea :: ((List.range (len / 0x4000 + 1)).map fun i => first + i * 0x4000).filter fun a => decide (a < ea + len)

/-- The checks of R116 over a range, in their order, with the windows that the instruction reaches: the cause code and
the first failing address. Wrapping past 64 bits leaves the windows. Each check is made of every page that a misaligned range touches, before
the next check (DESIGN CHOICE, log entry 74). -/
def Core.check (n : Nat) (c : Core) (ea : Word) (len align : Nat) (rd wr : Bool) (wins : List Win) :
    Option (Nat × Word) :=
  let pages := (pageStarts ea.toNat len)
  let bad (p : Nat → Bool) : Option Word := (pages.find? p).map (BitVec.ofNat 64)
  match bad fun a => (c.lookup a).isNone with
  | some a => some (cTABLE, a)
  | none =>
    match bad fun a =>
        match winOf a, c.lookup a with
        | some w, some (_, e) => !(wins.contains w) || !(frameOk n w e)
        | _, _ => true with
    | some a => some (cCLASS, a)
    | none =>
      if ea.toNat % align ≠ 0 then some (cALIGN, ea)
      else
        match bad fun a => match c.lookup a with | some (_, e) => !(lttP e) | none => true with
        | some a => some (cPAGE, a)
        | none =>
          match bad fun a =>
              match c.lookup a with
              | some (_, e) =>
                (rd && !(lttRD e)) || (wr && !(lttWR e)) ||
                  (decide (winOf a = some .face) && !(c.owned.getLsbD (a / 0x20000)))
              | none => true with
          | some a => some (cPERM, a)
          | none => none

/-- Bytes at an address that the checks have passed, as memory stands. -/
def Core.loadBytes (m : Memory) (n : Nat) (c : Core) (ea : Word) (len : Nat) : List Byte :=
  (List.range len).map fun i => memGet m (c.keyOf n (ea.toNat + i))

/-- A little-endian number at an address that the checks have passed. -/
def Core.loadNat (m : Memory) (n : Nat) (c : Core) (ea : Word) (len : Nat) : Nat :=
  -- a range within one 16 KiB page is contiguous in its frame
  if ea.toNat % 0x4000 + len ≤ 0x4000 then memNat m (c.keyOf n ea.toNat) len else ofBytes (c.loadBytes m n ea len)

/-! ## The state of the moment -/

/-- The partition of a core, as it stands. -/
def State.partOf (s : State) (c : Core) : Option Part := Map.get? s.parts c.partId.toNat

/-- The current tick: ungated cycles of the core's partition (R334). -/
def State.tickOf (s : State) (c : Core) : Nat := ((s.partOf c).map Part.ticks).getD 0

/-- The state with the acting core changed, and nothing else. -/
def State.onCur (s : State) (f : Core → Core) : State := s.setCore s.cur (f (s.core s.cur))

/-- The state with one core changed, and nothing else. -/
def State.onCore (s : State) (n : Nat) (f : Core → Core) : State := s.setCore n (f (s.core n))

/-- A meaning that changes only the acting core. -/
def State.act (s : State) (f : Core → Core) : Host.Outcome State Fault Refusal := .next (s.onCur f)

/-! ## Progress registers (R19) -/

/-- The slot field that a macro-instruction's progress register belongs to: PROG_V2, PROG_V3, PROG_CA, PROG_CB,
PROG_AS or PROG_COMM by register number offset; 7 where it has none, as a waybill's SCTPUT, whose waybill has PROG_COMM (R19, R23). -/
def Macro.prog (m : Macro) : Nat :=
  match m.work with
  | .gather .. => if m.slot = 2 then 1 else 2
  | .scatter .. => if m.slot = 2 then 1 else 2
  | .rhsig .. => 2
  | .rhlist .. => 7
  | .assay _ (.cfg ..) _ => 7
  | .assay _ .clr _ => 7
  | .assay _ .free _ => 7
  | .assay .. => 5
  | .assv .. => 5
  | .asmrg .. => 5
  | .waybill .. => 6
  | .lttld .. => 7
  | .sctput .. => 7
  | _ => if m.slot = 5 then 3 else 4

/-- A progress register as last stored. -/
def Ctx.progStored (x : Ctx) (i : Nat) : BitVec 32 :=
  match i with
  | 0 => x.progM
  | 1 => x.progV2
  | 2 => x.progV3
  | 3 => x.progCA
  | 4 => x.progCB
  | 5 => x.progAS
  | 6 => x.progCm
  | _ => 0

/-- A progress register stored. -/
def Ctx.setProg (x : Ctx) (i : Nat) (v : BitVec 32) : Ctx :=
  match i with
  | 0 => { x with progM := v }
  | 1 => { x with progV2 := v }
  | 2 => { x with progV3 := v }
  | 3 => { x with progCA := v }
  | 4 => { x with progCB := v }
  | 5 => { x with progAS := v }
  | 6 => { x with progCm := v }
  | _ => x

/-- The low half of PROG_CA and PROG_CB is the timed instruction's; the high half is the queue head's (R185). -/
def progMerge (i : Nat) (old : BitVec 32) (v : Nat) : BitVec 32 :=
  if i = 3 || i = 4 then old.extractLsb' 20 12 ++ BitVec.ofNat 20 v else BitVec.ofNat 32 v

/-- The first element not yet performed: of CXSEND, the first element of the first packet whose flits have not all been read
(R19, R197). -/
def Macro.progress (m : Macro) : Nat :=
  match m.work with
  | .cxsend _ _ _ _ _ cuts _ => ((cuts.find? fun k => m.next < k.first + k.flits).map Cut.elem).getD 0
  | _ => m.next

/-- A macro-instruction continued from a value of its progress register. -/
def Macro.fromProgress (m : Macro) (v : Nat) : Macro :=
  if m.progress = v then m
  else
    match m.work with
    | .cxsend _ _ _ _ _ cuts _ => { m with next := ((cuts.find? fun k => v ≤ k.elem).map Cut.first).getD m.total }
    | .scld a n _ => { m with next := v, work := .scld a n [] }
    | _ => { m with next := v }

/-- The next element of the running macro-instruction that a progress register names, if one is under way (R19). -/
def Ctx.running (x : Ctx) (i : Nat) : Option Nat :=
  if i = 0 then x.mx.runs.head?.map MxRun.next
  else (x.macros.find? fun m => m.prog = i && decide (m.next < m.total)).map Macro.progress

/-- A progress register as read: the next element of the instruction under way, else what it last held (R19). -/
def Ctx.prog (x : Ctx) (i : Nat) : BitVec 32 :=
  match x.running i with
  | some e => progMerge i (x.progStored i) e
  | none => x.progStored i

/-- The element at which a macro-instruction issued now begins; one of the held context counts as earlier (R19). -/
def Core.startAt (c : Core) (i : Nat) : Nat :=
  if (c.ctx.running i).isSome || ((c.held.bind fun x => x.running i).isSome) then 0
  else if i = 3 || i = 4 then ((c.ctx.progStored i).extractLsb' 0 20).toNat else (c.ctx.progStored i).toNat

/-- The progress registers written with the first elements not yet performed, as a stop leaves them (R19). -/
def Ctx.storeProgs (x : Ctx) : Ctx :=
  (List.range 7).foldl (fun y i => y.setProg i (x.prog i)) x

/-- Macro-instructions continue from the progress registers that a restore brought back (R261). -/
def Ctx.loadProgs (x : Ctx) : Ctx :=
  let first (i : Nat) : Option Nat := (x.macros.find? fun m => m.prog = i && decide (m.next < m.total)).map Macro.seq
  { x with
    macros := x.macros.map fun m =>
      if first m.prog = some m.seq && decide (m.prog < 7) then
        m.fromProgress (if m.prog = 3 || m.prog = 4 then ((x.progStored m.prog).extractLsb' 0 20).toNat
                        else (x.progStored m.prog).toNat)
      else m
    mx := { x.mx with runs := match x.mx.runs with
      | r :: rs => { r with next := x.progM.toNat } :: rs
      | [] => [] } }

/-! ## The flight queue (R20) -/

/-- What a macro-instruction under way adds to the results and stores in flight: a gather, scatter or assay update one, RHLIST each
store not yet performed (R20). RHSIG, ASSV and ASMRG add one, and the other multi-cycle instructions none beside the results that they
hand to the delay lines: DESIGN CHOICE, log entry 56. -/
def Macro.weight (m : Macro) : Nat :=
  match m.work with
  | .gather .. => 1
  | .scatter .. => 1
  | .assay _ (.cfg ..) _ => 0
  | .assay _ .clr _ => 0
  | .assay _ .free _ => 0
  | .assay .. => 1
  | .rhsig .. => 1
  | .rhlist .. => m.total - m.next
  | .assv .. => 1
  | .asmrg .. => 1
  | _ => 0

/-- The entries of a stopped context's flight queue: results and stores in the delay lines, an MCLDR's read among them, and what its
macro-instructions have in flight (R20, R347). -/
def Ctx.queueLen (x : Ctx) : Nat := (x.items.filter Item.counts).length + (x.macros.map Macro.weight).sum

/-- The results that a running CXTILE or WBRUN may still add at once to those it has in flight: of a CXTILE two rows, and of a waybill three
receives, since a receive delivers up to three cycles after its step (R206, R208, R317; DESIGN CHOICE, log entry 56). -/
def Macro.reserve (x : Ctx) (m : Macro) : Nat :=
  match m.work with
  | .cxtile .. => min (m.total - m.next) (2 - (x.items.filter fun i => i.uid == m.uid).length)
  | .waybill .. => min (m.total - m.next) (3 - (x.items.filter fun i => i.counts && i.slot == 7).length)
  | _ => 0

/-- The results and stores in flight of the core's own instructions, with those that a running CXTILE or WBRUN may still add at once, so that no
step of one raises the number above 64 (R20). One that commits in this cycle has done so before the cycle's issue, and counts no more (DESIGN
CHOICE, log entries 56 and 71). -/
def Ctx.inFlight (x : Ctx) : Nat := x.queueLen + (x.macros.map (Macro.reserve x)).sum

/-- FQLEN: the entries of the flight queue of a stopped context (R20, R229). -/
def Core.fqLen (c : Core) : Nat :=
  match c.held with
  | some x => x.queueLen
  | none => if c.run = .run || c.run = .idle then 0 else c.ctx.queueLen

/-- An item joined to the delay lines, in issue order. -/
def Core.addItem (c : Core) (slot lat : Nat) (counts eoc : Bool) (acts : List Act) : Core :=
  { c with
    ctx := { c.ctx with items := c.ctx.items ++ [⟨c.ctx.clk + lat, c.ctx.clk, slot, counts, eoc, c.nextUid, acts⟩] }
    nextUid := c.nextUid + 1 }

/-- A macro-instruction joined to those running. -/
def Core.addMacro (c : Core) (slot first total : Nat) (w : Work) : Core :=
  { c with
    ctx := { c.ctx with macros := c.ctx.macros ++ [⟨slot, c.ctx.clk, c.ctx.clk, first, total, c.nextUid, w⟩] }
    nextUid := c.nextUid + 1 }

/-- A change effective for bundles issued from the next cycle on (R24). -/
def Core.addFin (c : Core) (a : Act) : Core :=
  { c with ctx := { c.ctx with ctl := { c.ctx.ctl with fin := c.ctx.ctl.fin ++ [a] } } }

/-! ## System registers -/

/-- The context whose system registers MFS and MTS reach: the held copy while SH = 1 (R217). -/
def Core.sysCtx (c : Core) : Ctx := if c.sh then c.held.getD c.ctx else c.ctx

/-- A progress register as MFS reads it: while SH = 1 the held copy, as the stop or an MTS left it (R19, R217). -/
def Core.sysProg (c : Core) (i : Nat) : BitVec 32 :=
  if c.sh && c.held.isSome then c.sysCtx.progStored i else c.ctx.prog i

/-- A change of the system registers that MFS and MTS reach (R217). -/
def Core.onSys (c : Core) (f : Ctx → Ctx) : Core :=
  if c.sh && c.held.isSome then { c with held := c.held.map f } else { c with ctx := f c.ctx }

/-- The CSW that a context and the live mode bits make (R21). -/
def Core.csw (c : Core) : Word :=
  let x := c.sysCtx
  BitVec.ofNat 64 (c.mode.toNat + (if c.tm then 4 else 0) + (if c.sh then 8 else 0) + x.sres.toNat * 16 +
    (if x.la then 0x80 else 0) + (if x.qreq then 0x100 else 0) + x.rskew.toNat * 0x200 + (if x.wre then 0x4000 else 0) +
    (if x.pend then 0x8000 else 0))

/-- MTS of CSW: the six fields other than MODE, TM and SH (R22, R217). -/
def Core.writeCsw (c : Core) (v : Word) : Core :=
  c.onSys fun x => { x with
    sres := v.extractLsb' 4 3
    la := v.getLsbD 7
    qreq := v.getLsbD 8
    rskew := v.extractLsb' 9 5
    wre := v.getLsbD 14
    pend := v.getLsbD 15 }

/-- The STEPS field of a region within RHSTAT's copy (R162). -/
def stepsOf (x : BitVec 56) (r : Nat) : BitVec 7 := x.extractLsb' (7 * r) 7

/-- RHSTAT: CFG mirrors the regions, STEPS the counts (R162). -/
def Core.rhstat (c : Core) : Word :=
  BitVec.ofNat 64 (packNat 8 8 fun r =>
    (stepsOf c.sysCtx.rhSteps r).toNat + (if ((Map.get? c.reheat r).map Reheat.cfg).getD false then 128 else 0))

/-- MTS of RHSTAT: every STEPS count; the CFG bits written are ignored (R162). -/
def Core.writeRhstat (c : Core) (v : Word) : Core :=
  c.onSys fun x => { x with rhSteps := BitVec.ofNat 56 (packNat 7 8 fun r => laneNat v r 8 % 128) }

/-- ASSTAT: kinds mirror the contexts; the flags are sticky (R142). A kind that ASCFG or ASCLR sets shows from their c + 6 on (DESIGN CHOICE, log
entry 76). -/
def Core.asstat (c : Core) : Word :=
  let kind (i : Nat) : Nat := ((Map.get? c.assay i).map Assay.kind).getD 0
  BitVec.ofNat 64 (packNat 2 4 kind + c.sysCtx.hovf.toNat * 256 + c.sysCtx.badimg.toNat * 4096)

/-- MTS of ASSTAT clears flags written as ones (R142). -/
def Core.writeAsstat (c : Core) (v : Word) : Core :=
  c.onSys fun x => { x with hovf := x.hovf &&& ~~~(v.extractLsb' 8 4), badimg := x.badimg &&& ~~~(v.extractLsb' 12 4) }

/-- MTS of VSTAT clears flags written as ones (R45). -/
def Core.writeVstat (c : Core) (v : Word) : Core :=
  c.onSys fun x => { x with vstat := x.vstat &&& ~~~(v.extractLsb' 0 7) }

/-- MTS of RNGPOS: the position, and the presented positions are discarded for seven cycles (R15). -/
def Core.writeRngpos (c : Core) (v : Word) : Core :=
  c.onSys fun x => { x with rngPos := v, rngOld := if c.sh then x.rngOld else x.clk + 8 }

/-- MTS of RNGKEY: the key, and the presented positions are discarded for seven cycles (R15). -/
def Core.writeRngkey (c : Core) (v : Word) : Core :=
  c.onSys fun x => { x with rngKey := v, rngOld := if c.sh then x.rngOld else x.clk + 8 }

/-- MTS of MAPSTAT clears bits written as ones (R205). -/
def Core.writeMapstat (c : Core) (v : Word) : Core :=
  c.onSys fun x => { x with mapstat := x.mapstat &&& ~~~(v.extractLsb' 0 33) }

/-- MTS of STRAYN clears OVF written as one (R205). -/
def Core.writeStrayn (c : Core) (v : Word) : Core :=
  c.onSys fun x => { x with strayOvf := x.strayOvf && !(v.getLsbD 3) }

/-- MTS of COLLIDE clears the flag written as one (R25). -/
def Core.writeCollide (c : Core) (v : Word) : Core :=
  c.onSys fun x => { x with collide := x.collide && !(v.getLsbD 0) }

/-- MTS of WDOG: this unit's value, and every unit of the launch from the end of the cycle (R255). -/
def Core.writeWdog (c : Core) (v : Word) : Core :=
  { c.onSys (fun x => { x with wdog := v }) with emits := c.emits ++ [.wdog v] }

/-- MTS of GTADJ: handed to the package's clock (R330). -/
def Core.writeGtadj (c : Core) (v : Word) : Core := { c with emits := c.emits ++ [.gtAdj v] }

/-- Firmware's MTS of SQDEPTH: the head entries stay, and entries added hold free values (R14, R23; DESIGN CHOICE, log entry 57). -/
def Core.writeSqdepth (c : Core) (v : Word) : Core :=
  let n := min v.toNat 128
  { c with sq := c.sq.take n ++ ((List.range (n - c.sq.length)).map fun i => Config.scaleEntry (128 * c.ctx.clk + i)) }

/-- LSTAGES (R100). -/
def Ctx.lstages (x : Ctx) : Word :=
  BitVec.ofNat 64 (x.lN.toNat + (if x.lQD then 0x100 else 0) + x.sv.toNat * 0x10000)

/-- A system register as MFS reads it, by number (R23); the package supplies GT and partition registers. -/
def Core.sysRead (s : State) (c : Core) (n : Nat) : Word :=
  let x := c.sysCtx
  match n with
  | 0x000 => c.csw
  | 0x001 => x.epc
  | 0x002 => x.cause
  | 0x003 => x.fval
  | 0x004 => x.felem
  | 0x006 => c.unitId
  | 0x007 => c.launchId
  | 0x008 => c.partId
  | 0x009 => c.grpPos
  | 0x00A => x.vrm.setWidth 64
  | 0x00B => x.vstat.setWidth 64
  | 0x00C => BitVec.ofNat 64 c.sq.length
  | 0x00D => x.rngPos
  | 0x00E => x.rngKey
  | 0x00F => x.wdog
  | 0x100 => (c.sysProg 0).setWidth 64
  | 0x101 => (c.sysProg 1).setWidth 64
  | 0x102 => (c.sysProg 2).setWidth 64
  | 0x103 => (c.sysProg 3).setWidth 64
  | 0x104 => (c.sysProg 4).setWidth 64
  | 0x105 => (c.sysProg 5).setWidth 64
  | 0x106 => (c.sysProg 6).setWidth 64
  | 0x200 => x.lcnt
  | 0x201 => x.lrot.setWidth 64
  | 0x202 => x.lstages
  | 0x203 => BitVec.ofNat 64 (x.lLen.toNat + x.lFirst.toNat * 2 ^ 32)
  | 0x300 => c.asstat
  | 0x301 => c.rhstat
  | 0x302 => BitVec.ofNat 64 (x.trimCnt.toNat + (if x.trim then 2 ^ 32 else 0))
  | 0x400 => x.mapstat.setWidth 64
  | 0x401 => BitVec.ofNat 64 (c.strays.length + (if x.strayOvf then 8 else 0))
  | 0x403 => if x.collide then 1 else 0
  | 0x800 => BitVec.ofNat 64 c.fqLen
  | 0x801 => c.hvec
  | 0x802 => c.lttBase
  | 0x803 => c.savePtr
  | 0xC00 => s.gtRate
  | 0xC01 => s.gtAdj
  | 0xC02 => s.fatalBase
  | 0xC03 => BitVec.ofNat 64 (((s.partOf c).map Part.pstate).getD 0)
  | _ => 0

/-- Who may reach a system register: 0 tenant and runtime, 1 runtime only for the write, 2 runtime only, 3 firmware only
(R23, R24); none for a number absent from the table. The second component: writable in no mode below firmware. -/
def sysAccess (n : Nat) : Option (Nat × Bool) :=
  if n < 5 then some (1, false)
  else if 6 ≤ n && n ≤ 9 then some (0, true)
  else if n = 0x00A || n = 0x00B || n = 0x00D || n = 0x00E then some (0, false)
  else if n = 0x00C then some (0, true)
  else if n = 0x00F then some (1, false)
  else if 0x100 ≤ n && n ≤ 0x106 then some (1, false)
  else if 0x200 ≤ n && n ≤ 0x203 then some (1, false)
  else if n = 0x300 || n = 0x302 || n = 0x400 || n = 0x401 || n = 0x403 then some (0, false)
  else if n = 0x301 then some (1, false)
  else if n = 0x800 then some (2, true)
  else if 0x801 ≤ n && n ≤ 0x803 then some (2, false)
  else if 0xC00 ≤ n && n ≤ 0xFFF then some (3, false)
  else none

/-- Registers that firmware mode has, by number (R229, R330). -/
def firmwareDefines (n : Nat) : Bool := n < 0xC04

/-- The access check of MFS (R24): the cause code it raises, if any. -/
def mfsCheck (mode : BitVec 2) (n : Nat) : Option Nat :=
  match sysAccess n with
  | none => some cILLEGAL
  | some (a, _) =>
    if mode.toNat < 2 then
      if a = 3 || (a = 2 && mode = 0) then some cPRIVILEGE else none
    else if firmwareDefines n then none else some cILLEGAL

/-- The bits of a value that a register's layout fixes at zero, or a reserved value: true when the value may be written
(R21, R23, R24, R40, R45, R77, R100, R142, R193, R205, R229, R245, R330). `owners` names runtime pages (HVEC). -/
def layoutOk (owners : BitVec 32) (n : Nat) (v : Word) : Bool :=
  match n with
  | 0x000 => v.toNat < 2 ^ 16
  | 0x001 => v.toNat < 2 ^ 42
  | 0x002 => v.toNat < 2 ^ 13 && (v.extractLsb' 8 4).toNat < 11
  | 0x00A => v.toNat < 3
  | 0x00B => v.toNat < 2 ^ 7
  | 0x100 => v.toNat < 2 ^ 32
  | 0x101 => v.toNat < 2 ^ 32
  | 0x102 => v.toNat < 2 ^ 32
  | 0x103 => v.toNat < 2 ^ 32
  | 0x104 => v.toNat < 2 ^ 32
  | 0x105 => v.toNat < 2 ^ 32
  | 0x106 => v.toNat < 2 ^ 32
  | 0x201 => v.toNat < 32
  | 0x202 => v.toNat < 2 ^ 32 && v.extractLsb' 9 7 == 0 && v.extractLsb' 5 3 == 0 && decide ((v.extractLsb' 0 5).toNat ≤ 16)
  | 0x203 => v.toNat < 2 ^ 49 && v.extractLsb' 17 15 == 0 && v.extractLsb' 0 17 != 0
  | 0x300 => v.toNat < 2 ^ 16
  | 0x302 => v.toNat < 2 ^ 33
  | 0x400 => v.toNat < 2 ^ 33
  | 0x401 => v.toNat < 2 ^ 4
  | 0x403 => v.toNat < 2
  | 0x801 => v.toNat < 2 ^ 17 && v.extractLsb' 0 4 == 0 && owners.getLsbD (v.extractLsb' 12 5).toNat
  | 0x802 => v.toNat < 2 ^ 52 && v.extractLsb' 0 12 == 0
  | 0x803 => v.toNat < 2 ^ 52 && v.extractLsb' 0 12 == 0
  | 0x006 => true
  | 0x007 => v.toNat < 2 ^ 32
  | 0x008 => v.toNat < 2 ^ 6
  | 0x009 => v.toNat < 2 ^ 32 && v.extractLsb' 3 5 == 0
  | 0xC02 => v.toNat < 2 ^ 52 && v.extractLsb' 0 12 == 0
  | _ => true

/-- The checks of MTS on the register that its word names (R24, 1 to 4), in their order: the cause code it raises, if any. -/
def mtsAccess (mode : BitVec 2) (n : Nat) : Option Nat :=
  match sysAccess n with
  | none => some cILLEGAL
  | some (a, ro) =>
    if mode.toNat < 2 then
      if a = 3 || (a = 2 && mode = 0) then some cPRIVILEGE
      else if ro then some cILLEGAL
      else if a = 1 && mode = 0 then some cPRIVILEGE
      else none
    else if !(firmwareDefines n) || n = 0x800 || n = 0xC03 then some cILLEGAL
    else none

/-- The access check of MTS (R24), in its order, the value written included: the cause code it raises, if any. -/
def mtsCheck (mode : BitVec 2) (owners : BitVec 32) (n : Nat) (v : Word) : Option Nat :=
  match mtsAccess mode n with
  | some code => some code
  | none => if layoutOk owners n v then none else some cILLEGAL

/-- The effect of an MTS that its checks let pass (R22 to R24, R217). -/
def Core.sysWrite (c : Core) (n : Nat) (v : Word) : Core :=
  match n with
  | 0x000 => c.writeCsw v
  | 0x001 => c.onSys fun x => { x with epc := v }
  | 0x002 => c.onSys fun x => { x with cause := v }
  | 0x003 => c.onSys fun x => { x with fval := v }
  | 0x004 => c.onSys fun x => { x with felem := v }
  | 0x006 => { c with unitId := v }
  | 0x007 => { c with launchId := v }
  | 0x008 => { c with partId := v }
  | 0x009 => { c with grpPos := v }
  | 0x00A => c.onSys fun x => { x with vrm := v.extractLsb' 0 2 }
  | 0x00B => c.writeVstat v
  | 0x00C => c.writeSqdepth v
  | 0x00D => c.writeRngpos v
  | 0x00E => c.writeRngkey v
  | 0x00F => c.writeWdog v
  | 0x200 => c.onSys fun x => { x with lcnt := v }
  | 0x201 => c.onSys fun x => { x with lrot := v.extractLsb' 0 5 }
  | 0x202 => c.onSys fun x =>
      { x with lN := v.extractLsb' 0 5, lQD := v.getLsbD 8 }.setSV (v.extractLsb' 16 16)
  | 0x203 => c.onSys fun x => { x with lLen := v.extractLsb' 0 17, lFirst := v.extractLsb' 32 17 }
  | 0x300 => c.writeAsstat v
  | 0x301 => c.writeRhstat v
  | 0x302 => c.onSys fun x => { x with trimCnt := v.extractLsb' 0 32, trim := v.getLsbD 32 }
  | 0x400 => c.writeMapstat v
  | 0x401 => c.writeStrayn v
  | 0x403 => c.writeCollide v
  | 0x801 => { c with hvec := v }
  | 0x802 => { c with lttBase := v }
  | 0x803 => { c with savePtr := v }
  | 0xC00 => { c with emits := c.emits ++ [.gtRate v] }
  | 0xC01 => c.writeGtadj v
  | 0xC02 => { c with emits := c.emits ++ [.fatalBase v] }
  | _ => if 0x100 ≤ n && n ≤ 0x106 then c.onSys fun x => x.setProg (n - 0x100) (v.extractLsb' 0 32) else c

/-! ## Taking an exception and returning from one (R247, R248, R220) -/

/-- EPC from an issue address, the issues of its word completed, and a committed slot-0 transfer (R77). A LEXIT, and a LOOP with a count of
0, are recorded as transfers too: DESIGN CHOICE, log entry 60. -/
def epcOf (pc : Word) (rep : BitVec 7) (jump : Option Word) : Word :=
  BitVec.ofNat 64 (pc.toNat % 2 ^ 17 + rep.toNat * 2 ^ 17 +
    (match jump with | some t => 2 ^ 24 + t.toNat % 2 ^ 17 * 2 ^ 25 | none => 0))

/-- CAUSE from a trap (R245). -/
def causeOf (t : Trap) : Word := BitVec.ofNat 64 (t.code + t.orig * 256 + (if t.late then 4096 else 0))

/-- Ends what the bundle under way leaves due at its end, without the changes themselves: MTS, LOOP and LEXIT effects
(R24, R101, R104). SNAPREL and ERET are applied where their own instruction ends. -/
def Core.applyFin (c : Core) : Core :=
  let fin := c.ctx.ctl.fin
  let c := { c with ctx := { c.ctx with ctl := { c.ctx.ctl with fin := [] } } }
  fin.foldl (fun c a =>
    match a with
    | .mts n v => c.sysWrite n v
    | .loopStart count n first len =>
      { c with ctx :=
        ({ c.ctx with lcnt := count, lrot := 0, lN := BitVec.ofNat 5 n, lQD := false, lFirst := BitVec.ofNat 17 first,
                      lLen := BitVec.ofNat 17 len, la := count != 0 }).setSV (if count = 0 then 0 else 1) }
    | .loopExit => { c with ctx := ({ c.ctx with la := false }).setSV 0 }
    | .snapRel =>
      -- a quench that the held context still has pending stays pending (R218)
      { c with tm := false, sh := false, held := none, ctx := { c.ctx with qreq := c.ctx.qreq || c.held.any Ctx.qreq } }
    | .lttInv e n => { c with lttDue := c.lttDue ++ [.inv e n] }
    | _ => c) c

/-- The partial sums, the greatest magnitude and the record of a stopped RHSIG, held with its region (R165). -/
def Core.holdReheat (c : Core) : Core :=
  c.ctx.macros.foldl (fun c m =>
    match m.work with
    | .rhsig r _ _ sums mx rec_ =>
      match Map.get? c.reheat r with
      | some g => { c with reheat := Map.put c.reheat r { g with sums := sums, maxm := mx, rec_ := rec_ } }
      | none => c
    | _ => c) c

/-- Takes a trap (R247) at stop cycle `tick`, with the schedule count `clk` at which the interrupted context stands, the
first uncommitted slot, and the bundle that EPC names. With TM = 1 it is DOUBLE_FAULT: no handler runs and the partition
halts (R246, R248). Otherwise the delay lines stand in the flight queue of the held snapshot, the saved registers are
written there, and the handler issues from HVEC four cycles after the stop cycle. -/
def Core.takeTrap (tick clk sres : Nat) (t : Trap) (pc : Word) (rep : BitVec 7) (c : Core) : Core :=
  if c.tm then
    { c with run := .dead, mode := 2, line := none, emits := c.emits ++ [.halt] }
  else
    let x := { c.ctx with
      cause := causeOf t, fval := t.fval, felem := t.felem
      epc := epcOf pc rep c.ctx.ctl.jump
      sres := BitVec.ofNat 3 sres
      qreq := c.ctx.qreq && t.code != cQUENCH
      clk := clk, pc := pc, rep := rep, mode := c.mode }.storeProgs
    { c.holdReheat with
      held := some x
      ctx := { x with
        items := [], macros := [], mx := { x.mx with runs := [], pend := [] }, ctl := Ctl.none
        pc := BitVec.ofNat 64 (c.hvec.toNat % 2 ^ 17), rep := 0, broke := false, fence := false, sres := 0, wre := false, pend := false, qreq := false }
      mode := 1, tm := true, sh := true, depth := c.depth + 1, saved := none, line := none
      forced := c.forced && t.code != cQUENCH
      run := .run, holdTo := tick + 4, sat := none, restart := none
      fresh := c.fresh || c.mode = 0
      stopped := if c.mode = 0 then (match c.stopped with | some y => some y | none => some (clk - c.ctx.base, tick)) else c.stopped }

/-- Whether a due software trap is one that PEND records: a TRAP's, or a QPOINT's (R21, R110). -/
def Trap.pends (t : Trap) : Bool := t.code == cSOFTWARE || t.fval == 1

/-- The bundle under way without the SNAPREL it holds, whose effect is of the next cycle: a fault of a later slot is taken while TM
stands (R218, R246). -/
def Core.dropRelease (c : Core) : Core :=
  if c.tm then
    { c with ctx := { c.ctx with ctl := { c.ctx.ctl with fin := c.ctx.ctl.fin.filter fun a => match a with | .snapRel => false | _ => true } } }
  else c

/-- The bundle under way with a CTXSAVE of it, which has committed, in its delay line: it goes on when the context resumes (R95, R222). -/
def Core.keepDrain (c : Core) : Core :=
  match c.ctx.ctl.fin.findSome? fun a => match a with | .ctxDrain p => some p | _ => none with
  | none => c
  | some p => c.addItem 0 1 false false [.ctxDrain p]

/-- Raises an issue fault at a slot of the bundle under way (R95): the slots before it have committed, the stop cycle is
the next cycle, and the bundle's cycle counts in the schedule (R29). -/
def Core.raise (tick slot : Nat) (code : Nat) (fval felem : Word) (c : Core) : Core :=
  let c := c.dropRelease.keepDrain.applyFin
  let c := { c with ctx := { c.ctx with pend := c.ctx.pend || c.ctx.ctl.soft.any Trap.pends } }
  c.takeTrap (tick + 1) (c.ctx.clk + 1) slot ⟨code, slot, false, fval, felem⟩ c.ctx.pc c.ctx.rep

/-- A fault of the acting core at the acting slot, with FVAL and FELEM; WRE fell when the wait issued again (R351). -/
def State.fault (s : State) (code : Nat) (fval felem : Word) (c : Core) : Core :=
  Core.raise (s.tickOf c) s.slot code fval felem { c with ctx := { c.ctx with wre := false } }

/-- ILLEGAL at the acting slot (R95). -/
def State.illegal (s : State) (c : Core) : Core := s.fault cILLEGAL (BitVec.ofNat 64 s.slot) 0 c

/-- PRIVILEGE at the acting slot (R95). -/
def State.privilege (s : State) (c : Core) : Core := s.fault cPRIVILEGE (BitVec.ofNat 64 s.slot) 0 c

/-- II_VIOLATION at the acting slot (R95). -/
def State.iiViolation (s : State) (c : Core) : Core := s.fault cII (BitVec.ofNat 64 s.slot) 0 c

/-- A loop that a quench drained refills when its context resumes at FIRST (R103); line × 16 and line × 16 + 1 name one word (R75). -/
def Ctx.refill (x : Ctx) : Ctx :=
  if x.lQD && (x.pc == x.lFirst.setWidth 64 || (x.lFirst.extractLsb' 0 4 == 0 && x.pc == x.lFirst.setWidth 64 + 1)) then
    { x with lQD := false }.setSV (if x.lcnt = 0 then 0 else 1)
  else x

/-- The items and macro-instructions of a context, counted from another schedule count. -/
def Ctx.countedFrom (x : Ctx) (k : Nat) : List Item × List Macro :=
  (x.items.map fun i => { i with due := i.due + k - x.clk, seq := i.seq + k - x.clk },
   x.macros.map fun m => { m with start := m.start + k - x.clk, seq := m.seq + k - x.clk })

/-- The work that a handler's bundles have under way when its ERET completes: it runs on, and its scalar results, which ERET replaces, are
lost (DESIGN CHOICE, log entry 58). -/
def Core.leaving (c : Core) : Option Ctx :=
  if c.ctx.items.isEmpty && c.ctx.macros.isEmpty then c.tail
  else
    let old := (c.tail.map fun t => t.countedFrom c.ctx.clk).getD ([], [])
    some { c.ctx with
      ctl := Ctl.none, mx := { c.ctx.mx with runs := [], pend := [] }
      items := old.1 ++ c.ctx.items, macros := old.2 ++ c.ctx.macros }

/-- The high half of PROG_CA or PROG_CB: the row of the slot's oldest entry (R185). -/
def Ctx.headRow (x : Ctx) (slot : Nat) : Nat := ((x.progStored (slot - 2)).extractLsb' 20 12).toNat

/-- A change of the LTT applied (R226). -/
def LttWr.apply (t : Map (BitVec 128)) (w : LttWr) : Map (BitVec 128) :=
  match w with
  | .put i e => if e = 0 then Map.del t i else Map.put t i e
  | .fill i e => Map.put t i e
  | .inv e n => t.map fun x => if e ≤ x.1 && x.1 < e + n && lttV x.2 then (x.1, x.2 &&& ~~~(1#128 <<< 39)) else x
  | .all u => u

/-- Whether a change of the LTT is an LTTINV's, which applies last (R226). -/
def LttWr.isInv (w : LttWr) : Bool := match w with | .inv .. => true | _ => false

/-- The LTT with the changes of a cycle, an LTTINV's last (R226). -/
def Core.lttNext (c : Core) : Map (BitVec 128) :=
  (c.lttDue.filter LttWr.isInv).foldl LttWr.apply ((c.lttDue.filter fun w => !w.isInv).foldl LttWr.apply c.ltt)

/-- An entry whose late fault was met while a handler ran performs nothing until its unit issues again (R246). -/
def QEntry.park (e : QEntry) : QEntry := if e.faulted.isSome then { e with faulted := none, held := true } else e

/-- Resumes an interrupted context (R220): its registers, delay lines and matrix state are restored, MODE comes from the
restored CSW, TM and SH are cleared, and the core waits, ready, for its group. The bundle at EPC issues again from SRES,
and a committed transfer stands (R77); the SOFTWARE or QUENCH that PEND records is that of the word at EPC (R110). -/
def Core.eret (mode : BitVec 2) (c : Core) (x : Ctx) : Core :=
  let jump : Option Word := if x.epc.getLsbD 24 then some ((x.epc.extractLsb' 25 17).setWidth 64) else none
  let y := Ctx.refill { x with
    pc := (x.epc.extractLsb' 0 17).setWidth 64
    rep := x.epc.extractLsb' 17 7
    ctl := { x.ctl with jump := jump, fin := [], soft := x.ctl.soft.filter fun t => !t.pends } }.loadProgs
  let park (e : QEntry) : QEntry := if mode = 0 then e.park else e
  { c with
    ctx := y, held := none, tail := c.leaving, tailAt := y.clk, mode := mode, tm := false, sh := false
    depth := if mode = 0 then 0 else c.depth - 1
    qa := c.qa.map park, qb := c.qb.map park, nt := c.nt.map park
    events := if mode = 0 && !y.qreq then c.events.filter fun t => t.code != cQUENCH else c.events
    run := .ready, saved := none }

end Sys2Proof.Machine
end

