-- ==== Sys2Proof/Machine/Operands.lean ====
section
/-! DEFINITION. Operand forms: guards, immediates with and without an extension word, vector operands, lane masks, and
how an instruction hands its result to its slot's delay line (spec/04 R79 to R90, spec/05 R112, R115, spec/06 R120 to R122). -/

namespace Sys2Proof.Machine

/-! ## Guards and checks -/

/-- An instruction under a guard: a false guard performs nothing (R90). -/
def State.guarded (s : State) (g : BitVec 4) (f : Core → Core) : Host.Outcome State Fault Refusal :=
  s.act fun c => if c.readP g then f c else c

/-- An instruction whose word holds no reserved value; otherwise ILLEGAL, whatever the guard holds (R90, R95). -/
def State.checked (s : State) (ok : Bool) (k : Host.Outcome State Fault Refusal) : Host.Outcome State Fault Refusal :=
  if ok then k else s.act s.illegal

/-- A runtime-only instruction: PRIVILEGE in tenant mode (R22, R95). -/
def State.runtime (s : State) (f : Core → Core) : Host.Outcome State Fault Refusal :=
  s.act fun c => if c.mode = 0 then s.privilege c else f c

/-- An instruction that adds one result or store to those in flight: II_VIOLATION beyond 64 (R20), checked before the
instruction's own checks (R95). -/
def State.room (s : State) (f : Core → Core) (c : Core) : Core :=
  if 64 ≤ c.ctx.inFlight then s.iiViolation c else f c

/-- The same for an instruction that adds `k` results and stores. -/
def State.roomFor (s : State) (k : Nat) (f : Core → Core) (c : Core) : Core :=
  if 64 < c.ctx.inFlight + k then s.iiViolation c else f c

/-- A result that joins the delay line of the acting slot (R4, R20). -/
def State.deliver (s : State) (lat : Nat) (acts : List Act) (c : Core) : Core :=
  s.room (fun c => c.addItem s.slot lat true false acts) c

/-- A check of the acting instruction's own: the fault it raises, or the rest of the instruction. -/
def State.unless (s : State) (chk : Option (Nat × Word)) (fval : Word) (f : Core → Core) (c : Core) : Core :=
  match chk with
  | some (code, _) => s.fault code fval 0 c
  | none => f c

/-- A check that names the address which its fault reports (R221). -/
def State.unlessAt (s : State) (chk : Option (Nat × Word)) (f : Core → Core) (c : Core) : Core :=
  match chk with
  | some (code, at_) => s.fault code at_ 0 c
  | none => f c

/-! ## Immediates (R57, R64, R81, R99, R115) -/

/-- I10, or the 42-bit immediate of the long form, sign-extended. -/
def imm10 (i : BitVec 10) (xw : Option (BitVec 32)) : Word :=
  match xw with
  | none => i.signExtend 64
  | some e => (e ++ i).signExtend 64

/-- The offset of opcodes 0x1E and 0x1F: I10 with its low four bits read as 0 (R115). -/
def imm6 (i : BitVec 6) (xw : Option (BitVec 32)) : Word := imm10 (i ++ 0#4) xw

/-- I16, or the 48-bit immediate of the long form, sign-extended. -/
def imm16 (i : BitVec 16) (xw : Option (BitVec 32)) : Word :=
  match xw with
  | none => i.signExtend 64
  | some e => (e ++ i).signExtend 64

/-- OFF of BR and CALL: 15 bits, or 47 in the long form (R99). -/
def branchOff (o : BitVec 15) (xw : Option (BitVec 32)) : Word :=
  match xw with
  | none => o.signExtend 64
  | some e => (e ++ o).signExtend 64

/-- The byte offset that an extension adds to an address (R81, R135, R187). -/
def off32 (xw : Option (BitVec 32)) : Word :=
  match xw with
  | none => 0
  | some e => e.signExtend 64

/-! ## Vector operands (R120, R121) -/

/-- opb(i) of a float operand: lane i of a vector, or the low 32 bits of a scalar (R121). -/
def Core.floatB (c : Core) (b : BitVec 7) (sc : BitVec 1) (i : Nat) : Nat :=
  if sc = 1 then (c.readS (b.extractLsb' 0 6)).toNat % 2 ^ 32 else laneNat (c.readV b) i 32

/-- The lane width of an integer operand's bit N (R121). -/
def intWidth (n : BitVec 1) : Nat := if n = 1 then 8 else 32

/-- opb(i) of an integer operand: lane i of one of v0 to v63, or the low bits of a scalar (R121). -/
def Core.intB (c : Core) (n : BitVec 1) (b : BitVec 6) (sc : BitVec 1) (i : Nat) : Nat :=
  let w := intWidth n
  if sc = 1 then (c.readS b).toNat % 2 ^ w else laneNat (c.readV b) i w

/-- The lane width of a W2 code (R122). -/
def w2Width (w : BitVec 2) : Nat := if w = 0 then 32 else if w = 1 then 16 else 8

/-- The bits of v[D] that a lane-wise instruction writes: unmasked lanes, and every lane when Z = 1 (R120). -/
def writeMask (w : Nat) (k : Mask) (z : BitVec 1) : Vec :=
  if z = 1 then BitVec.allOnes 2048 else laneMask w (2048 / w) fun i => k.getLsbD i

/-- A lane-wise result and its bit mask (R120): unmasked lanes hold `f`, masked lanes 0. -/
def laneResult (w : Nat) (k : Mask) (f : Nat → Nat) : Vec :=
  ofLanes w (2048 / w) fun i => if k.getLsbD i then f i else 0

/-- A lane-wise vector instruction's delivery of v[D] (R120). -/
def State.deliverV (s : State) (lat w : Nat) (d : BitVec 7) (k : Mask) (z : BitVec 1) (f : Nat → Nat)
    (fl : BitVec 7) (c : Core) : Core :=
  s.deliver lat [.setV (c.ctx.physV d.toNat) (laneResult w k f) (writeMask w k z), .flags fl] c

/-- A compare's delivery of mask k[D]: unmasked lanes hold `f`, masked lanes 0 or their value, and the bits above the
lanes are cleared (R9, R125, R127). -/
def State.deliverK (s : State) (lat n : Nat) (d : BitVec 3) (k : Mask) (z : BitVec 1) (f : Nat → Bool) (c : Core) : Core :=
  let val := BitVec.ofNat 256 (packNat 1 n fun i => if k.getLsbD i && f i then 1 else 0)
  let keep := BitVec.ofNat 256 (packNat 1 n fun i => if !(k.getLsbD i) && z == 0 then 1 else 0)
  s.deliver lat [.setK d.toNat val (~~~keep)] c

/-- The row or column of TWROW and TRDCOL: the immediate, or bits [5:0] of a scalar (R138). -/
def Core.tileIndex (c : Core) (b : BitVec 6) (sc : BitVec 1) : Nat :=
  if sc = 1 then (c.readS b).toNat % 64 else b.toNat

/-- The bank mask of BKACQ and BKREL over the sixteen ownership bits (R98, R262). -/
def bankMask (shadow : BitVec 1) (m : BitVec 8) : BitVec 16 :=
  if shadow = 1 then m ++ 0#8 else 0#8 ++ m

end Sys2Proof.Machine
end

