-- ==== Sys2Proof/Machine/Flags.lean ====
section
/-! DEFINITION. Flag computations: VSTAT for floating-point, conversion, saturation and special functions (spec/02 R35, R44
to R46; spec/06 R124, R126, R131, R139), and the sticky registers' events. -/

namespace Sys2Proof.Machine

/-- The flags of lanes ORed together over the unmasked lanes (R46, R120). -/
def orFlags (n : Nat) (k : Mask) (f : Nat → BitVec 7) : BitVec 7 :=
  (List.range n).foldl (fun a i => if k.getLsbD i then a ||| f i else a) 0

/-- The rounding mode of vector arithmetic by VRM: SR rounds by RNE except in VCVT (R40, R124). -/
def vrmArith (m : BitVec 2) : Rnd := if m = 1 then .rtz else .rne

/-- A floating-point operation on exact values: its result code and flags (R35, R41, R45). -/
def fpResult (r : Rnd) (ops : List Fv) (x : Fv) : Nat × BitVec 7 :=
  let (c, f) := Fmt.fp32.round r x
  (c, f ||| nvOf ops x)

/-- VADD (R124). -/
def fAdd (r : Rnd) (a b : Nat) : Nat × BitVec 7 := fpResult r [fp32 a, fp32 b] ((fp32 a).add (fp32 b))

/-- VSUB (R124). -/
def fSub (r : Rnd) (a b : Nat) : Nat × BitVec 7 := fpResult r [fp32 a, fp32 b] ((fp32 a).add (fp32 b).negate)

/-- VMUL (R124). -/
def fMul (r : Rnd) (a b : Nat) : Nat × BitVec 7 := fpResult r [fp32 a, fp32 b] ((fp32 a).mul (fp32 b))

/-- VFMA: a × b + d rounded once (R124). -/
def fFma (r : Rnd) (a b d : Nat) : Nat × BitVec 7 :=
  fpResult r [fp32 a, fp32 b, fp32 d] (((fp32 a).mul (fp32 b)).add (fp32 d))

/-- VFMS: a × b − d rounded once (R124). -/
def fFms (r : Rnd) (a b d : Nat) : Nat × BitVec 7 :=
  fpResult r [fp32 a, fp32 b, fp32 d] (((fp32 a).mul (fp32 b)).add (fp32 d).negate)

/-- VIADDS of one lane: the saturated sum, and SAT when the clamp applies (R126). -/
def satAdd (w a b : Nat) : Nat × BitVec 7 :=
  let (v, t) := satInt w (signed w a + signed w b)
  (wrapNat w v, if t then flSAT else 0)

/-- Sticky flags joined to VSTAT (R45). -/
def Ctx.orVstat (x : Ctx) (f : BitVec 7) : Ctx := { x with vstat := x.vstat ||| f }

/-- A retire event of a core-table slot, in MAPSTAT.RET (R205). -/
def Ctx.setRet (x : Ctx) (m : Nat) : Ctx := { x with mapstat := x.mapstat ||| (1#33 <<< m) }

/-- A retire event of a cluster-table slot, in MAPSTAT.CRET (R205). -/
def Ctx.setCret (x : Ctx) (m : Nat) : Ctx := { x with mapstat := x.mapstat ||| (1#33 <<< (16 + m)) }

/-- OVERLAP of MAPSTAT (R202, R350). -/
def Ctx.setOverlap (x : Ctx) : Ctx := { x with mapstat := x.mapstat ||| (1#33 <<< 32) }

/-- A trimmed block counted in TRIMCNT, saturating, and its TRIM bit (R193). -/
def Ctx.countTrim (x : Ctx) : Ctx :=
  { x with trim := true, trimCnt := if x.trimCnt = 0xFFFFFFFF then x.trimCnt else x.trimCnt + 1 }

end Sys2Proof.Machine
end

