-- ==== Sys2Proof/Machine/Scalar.lean ====
section
/-! DEFINITION. Slot 1: arithmetic and logic, compares and predicates, constants, memory, atomics, system registers and
clocks (spec/05 R112 to R119). -/

namespace Sys2Proof.Machine

open Sys2Proof

/-- The outcome type of a meaning. -/
abbrev Out := Host.Outcome State Fault Refusal

/-! ## Arithmetic and logic (R112) -/

/-- One result of the two-operand family. -/
def aluOp (s : State) (g : BitVec 4) (d : BitVec 6) (lat : Nat) (f : Core → Word) : Out :=
  s.guarded g fun c => s.deliver lat [.setS (c.ctx.physS d.toNat) (f c)] c

/-- a << b, 0 from 64 on (R57, R112). -/
def shl64 (a b : Word) : Word := if 64 ≤ b.toNat then 0 else a <<< b.toNat
/-- Logical a >> b, 0 from 64 on. -/
def shr64 (a b : Word) : Word := if 64 ≤ b.toNat then 0 else a >>> b.toNat
/-- Arithmetic a >> b, sign fill from 64 on. -/
def sar64 (a b : Word) : Word := if 64 ≤ b.toNat then (if a.msb then BitVec.allOnes 64 else 0) else a.sshiftRight b.toNat

/-- Division (R58): 0 signed quotient, 1 unsigned quotient, 2 signed remainder, 3 unsigned remainder. -/
def div64 (m : Nat) (a b : Word) : Word :=
  match m with
  | 0 => if b = 0 then BitVec.allOnes 64 else BitVec.ofInt 64 (a.toInt.tdiv b.toInt)
  | 1 => if b = 0 then BitVec.allOnes 64 else a / b
  | 2 => if b = 0 then a else BitVec.ofInt 64 (a.toInt.tmod b.toInt)
  | _ => if b = 0 then a else a % b

/-- The high 64 bits of a product: 0 signed × signed, 1 unsigned × unsigned, 2 signed × unsigned. -/
def mulh64 (m : Nat) (a b : Word) : Word :=
  match m with
  | 0 => BitVec.ofInt 64 (a.toInt * b.toInt / 2 ^ 64)
  | 1 => BitVec.ofNat 64 (a.toNat * b.toNat / 2 ^ 64)
  | _ => BitVec.ofInt 64 (a.toInt * (b.toNat : Int) / 2 ^ 64)

/-- MINMAX: 0 smin, 1 smax, 2 umin, 3 umax. -/
def minmax64 (m : Nat) (a b : Word) : Word :=
  match m with
  | 0 => if b.slt a then b else a
  | 1 => if a.slt b then b else a
  | 2 => if b < a then b else a
  | _ => if a < b then b else a

/-- ADD (R112). -/
def execAdd (g : BitVec 4) (d a b : BitVec 6) (s : State) : Out := aluOp s g d 1 fun c => c.readS a + c.readS b
/-- ADDI (R112). -/
def execAddi (g : BitVec 4) (d a : BitVec 6) (i : BitVec 10) (xw : Option (BitVec 32)) (s : State) : Out :=
  aluOp s g d 1 fun c => c.readS a + imm10 i xw
/-- SUB (R112). -/
def execSub (g : BitVec 4) (d a b : BitVec 6) (s : State) : Out := aluOp s g d 1 fun c => c.readS a - c.readS b
/-- MUL (R112). -/
def execMul (g : BitVec 4) (d a b : BitVec 6) (s : State) : Out := aluOp s g d 3 fun c => c.readS a * c.readS b
/-- MULH (R112). -/
def execMulh (g : BitVec 4) (d a b : BitVec 6) (m : BitVec 4) (s : State) : Out :=
  s.checked (decide (m.toNat < 3)) (aluOp s g d 3 fun c => mulh64 m.toNat (c.readS a) (c.readS b))
/-- DIV (R58, R112). -/
def execDiv (g : BitVec 4) (d a b : BitVec 6) (m : BitVec 4) (s : State) : Out :=
  s.checked (decide (m.toNat < 4)) (aluOp s g d 12 fun c => div64 m.toNat (c.readS a) (c.readS b))
/-- AND (R112). -/
def execAnd (g : BitVec 4) (d a b : BitVec 6) (s : State) : Out := aluOp s g d 1 fun c => c.readS a &&& c.readS b
/-- OR (R112). -/
def execOr (g : BitVec 4) (d a b : BitVec 6) (s : State) : Out := aluOp s g d 1 fun c => c.readS a ||| c.readS b
/-- XOR (R112). -/
def execXor (g : BitVec 4) (d a b : BitVec 6) (s : State) : Out := aluOp s g d 1 fun c => c.readS a ^^^ c.readS b
/-- ANDI (R112). -/
def execAndi (g : BitVec 4) (d a : BitVec 6) (i : BitVec 10) (xw : Option (BitVec 32)) (s : State) : Out :=
  aluOp s g d 1 fun c => c.readS a &&& imm10 i xw
/-- ORI (R112). -/
def execOri (g : BitVec 4) (d a : BitVec 6) (i : BitVec 10) (xw : Option (BitVec 32)) (s : State) : Out :=
  aluOp s g d 1 fun c => c.readS a ||| imm10 i xw
/-- XORI (R112). -/
def execXori (g : BitVec 4) (d a : BitVec 6) (i : BitVec 10) (xw : Option (BitVec 32)) (s : State) : Out :=
  aluOp s g d 1 fun c => c.readS a ^^^ imm10 i xw
/-- SHL (R57, R112). -/
def execShl (g : BitVec 4) (d a b : BitVec 6) (s : State) : Out := aluOp s g d 1 fun c => shl64 (c.readS a) (c.readS b)
/-- SHR (R57, R112). -/
def execShr (g : BitVec 4) (d a b : BitVec 6) (s : State) : Out := aluOp s g d 1 fun c => shr64 (c.readS a) (c.readS b)
/-- SAR (R57, R112). -/
def execSar (g : BitVec 4) (d a b : BitVec 6) (s : State) : Out := aluOp s g d 1 fun c => sar64 (c.readS a) (c.readS b)
/-- SHLI (R57, R112). -/
def execShli (g : BitVec 4) (d a : BitVec 6) (i : BitVec 10) (xw : Option (BitVec 32)) (s : State) : Out :=
  aluOp s g d 1 fun c => shl64 (c.readS a) (imm10 i xw)
/-- SHRI (R57, R112). -/
def execShri (g : BitVec 4) (d a : BitVec 6) (i : BitVec 10) (xw : Option (BitVec 32)) (s : State) : Out :=
  aluOp s g d 1 fun c => shr64 (c.readS a) (imm10 i xw)
/-- SARI (R57, R112). -/
def execSari (g : BitVec 4) (d a : BitVec 6) (i : BitVec 10) (xw : Option (BitVec 32)) (s : State) : Out :=
  aluOp s g d 1 fun c => sar64 (c.readS a) (imm10 i xw)
/-- MINMAX (R112). -/
def execMinmax (g : BitVec 4) (d a b : BitVec 6) (m : BitVec 4) (s : State) : Out :=
  s.checked (decide (m.toNat < 4)) (aluOp s g d 1 fun c => minmax64 m.toNat (c.readS a) (c.readS b))
/-- LEA (R112). -/
def execLea (g : BitVec 4) (d a b : BitVec 6) (sh : BitVec 4) (s : State) : Out :=
  aluOp s g d 1 fun c => c.readS a + (c.readS b <<< sh.toNat)

/-! ## Compares, predicates, bits (R113) -/

/-- A condition: 0 eq, 1 ne, 2 lt signed, 3 ge signed, 4 ltu, 5 geu. -/
def cond64 (m : Nat) (a b : Word) : Bool :=
  match m with
  | 0 => a == b
  | 1 => a != b
  | 2 => a.slt b
  | 3 => !(a.slt b)
  | 4 => decide (a < b)
  | _ => !decide (a < b)

/-- The conditions of CMPI in their order: eq, ne, lt, ltu. -/
def cmpiCond (c : BitVec 2) : Nat := if c = 3 then 4 else c.toNat

/-- A predicate result. -/
def predOp (s : State) (g d : BitVec 4) (f : Core → Bool) : Out :=
  s.guarded g fun c => s.deliver 1 [.setP d.toNat (f c)] c

/-- CMP (R113). -/
def execCmp (g d : BitVec 4) (a b : BitVec 6) (m : BitVec 4) (s : State) : Out :=
  s.checked (decide (m.toNat < 6)) (predOp s g d fun c => cond64 m.toNat (c.readS a) (c.readS b))
/-- CMPI (R113). -/
def execCmpi (g : BitVec 4) (cc : BitVec 2) (d : BitVec 4) (a : BitVec 6) (i : BitVec 10) (xw : Option (BitVec 32)) (s : State) : Out :=
  predOp s g d fun c => cond64 (cmpiCond cc) (c.readS a) (imm10 i xw)
/-- SEL (R113). -/
def execSel (g : BitVec 4) (d a b : BitVec 6) (m : BitVec 4) (s : State) : Out :=
  aluOp s g d 1 fun c => if c.readP m then c.readS a else c.readS b
/-- MOVI (R114). -/
def execMovi (g : BitVec 4) (d : BitVec 6) (i : BitVec 16) (xw : Option (BitVec 32)) (s : State) : Out :=
  aluOp s g d 1 fun _ => imm16 i xw
/-- MOVHI (R114). -/
def execMovhi (g : BitVec 4) (d : BitVec 6) (i : BitVec 16) (xw : Option (BitVec 32)) (s : State) : Out :=
  aluOp s g d 1 fun c =>
    match xw with
    | none => i ++ (c.readS d).extractLsb' 0 48
    | some e => (e ++ i) ++ (c.readS d).extractLsb' 0 16
/-- PLOG: a truth table over two predicates (R113). -/
def execPlog (g d a b m : BitVec 4) (s : State) : Out :=
  predOp s g d fun c => m.getLsbD ((if c.readP a then 2 else 0) + (if c.readP b then 1 else 0))
/-- The count of BITC: 0 population, 1 leading zeros, 2 trailing zeros. -/
def bitCount (m : Nat) (a : Word) : Word :=
  BitVec.ofNat 64 (match m with
    | 0 => popcount 64 a.toNat
    | 1 => leadingZeros 64 a.toNat
    | _ => trailingZeros 64 a.toNat)
/-- BITC popc, clz, ctz (R113). -/
def execBitc (g : BitVec 4) (d a : BitVec 6) (m : BitVec 4) (s : State) : Out :=
  s.checked (decide (m.toNat < 3)) (aluOp s g d 1 fun c => bitCount m.toNat (c.readS a))
/-- BITC test (R113). -/
def execBitcTest (g d : BitVec 4) (a b : BitVec 6) (s : State) : Out :=
  predOp s g d fun c => (c.readS a).getLsbD (c.readS b).toNat
/-- The field EXT takes (R113). -/
def extract64 (sx : Bool) (a b : Word) : Word :=
  let pos := b.toNat % 128
  let w := min ((b.toNat >>> 8) % 128) 64
  let f := (a.toNat >>> pos) % 2 ^ w
  if w = 0 then 0 else if sx then BitVec.ofInt 64 (signed w f) else BitVec.ofNat 64 f
/-- EXT (R113). -/
def execExt (g : BitVec 4) (d a b : BitVec 6) (m : BitVec 4) (s : State) : Out :=
  s.checked (decide (m.toNat < 2)) (aluOp s g d 1 fun c => extract64 (m == 1) (c.readS a) (c.readS b))

/-! ## Memory (R115 to R118) -/

/-- The cycle offset at which a scalar access performs, and that at which a value read is delivered (R115, R117). -/
def scalarTiming (ea : Word) : Nat × Nat := if winOf ea.toNat = some .face then (2, 4) else (10, 14)

/-- A scalar load (R115, R116). -/
def loadOp (s : State) (g : BitVec 4) (d a : BitVec 6) (off : Word) (size : Nat) (sg : Bool) : Out :=
  s.guarded g <| s.room fun c =>
    let ea := c.readS a + off
    s.unless (c.check s.cur ea size size true false [.face, .cluster]) ea
      (fun c => c.addItem s.slot (scalarTiming ea).1 true false
        [.load ea size sg (c.ctx.physS d.toNat) ((scalarTiming ea).2 - (scalarTiming ea).1)]) c

/-- A scalar store (R115, R116). -/
def storeOp (s : State) (g : BitVec 4) (d a : BitVec 6) (off : Word) (size : Nat) : Out :=
  s.guarded g <| s.room fun c =>
    let ea := c.readS a + off
    s.unless (c.check s.cur ea size size false true [.face, .cluster]) ea
      (fun c => c.addItem s.slot (scalarTiming ea).1 true false [.store ea size (c.readS d)]) c

/-- LDB (R115). -/
def execLdb (g : BitVec 4) (d a : BitVec 6) (i : BitVec 10) (xw : Option (BitVec 32)) (s : State) : Out :=
  loadOp s g d a (imm10 i xw) 1 true
/-- LDBU (R115). -/
def execLdbu (g : BitVec 4) (d a : BitVec 6) (i : BitVec 10) (xw : Option (BitVec 32)) (s : State) : Out :=
  loadOp s g d a (imm10 i xw) 1 false
/-- LDH (R115). -/
def execLdh (g : BitVec 4) (d a i : BitVec 6) (xw : Option (BitVec 32)) (s : State) : Out := loadOp s g d a (imm6 i xw) 2 true
/-- LDW (R115). -/
def execLdw (g : BitVec 4) (d a i : BitVec 6) (xw : Option (BitVec 32)) (s : State) : Out := loadOp s g d a (imm6 i xw) 4 true
/-- LDHU (R115). -/
def execLdhu (g : BitVec 4) (d a i : BitVec 6) (xw : Option (BitVec 32)) (s : State) : Out := loadOp s g d a (imm6 i xw) 2 false
/-- LDWU (R115). -/
def execLdwu (g : BitVec 4) (d a i : BitVec 6) (xw : Option (BitVec 32)) (s : State) : Out := loadOp s g d a (imm6 i xw) 4 false
/-- LDD (R115). -/
def execLdd (g : BitVec 4) (d a : BitVec 6) (i : BitVec 10) (xw : Option (BitVec 32)) (s : State) : Out :=
  loadOp s g d a (imm10 i xw) 8 false
/-- STB (R115). -/
def execStb (g : BitVec 4) (d a : BitVec 6) (i : BitVec 10) (xw : Option (BitVec 32)) (s : State) : Out :=
  storeOp s g d a (imm10 i xw) 1
/-- STH (R115). -/
def execSth (g : BitVec 4) (d a : BitVec 6) (i : BitVec 10) (xw : Option (BitVec 32)) (s : State) : Out :=
  storeOp s g d a (imm10 i xw) 2
/-- STW (R115). -/
def execStw (g : BitVec 4) (d a : BitVec 6) (i : BitVec 10) (xw : Option (BitVec 32)) (s : State) : Out :=
  storeOp s g d a (imm10 i xw) 4
/-- STD (R115). -/
def execStd (g : BitVec 4) (d a : BitVec 6) (i : BitVec 10) (xw : Option (BitVec 32)) (s : State) : Out :=
  storeOp s g d a (imm10 i xw) 8

/-- The new word of an atomic (R117): 0 add, 1 and, 2 or, 3 xor, 4 smin, 5 smax, 6 umin, 7 umax, 8 swap. -/
def atomicNew (m : Nat) (old b : Word) : Word :=
  match m with
  | 0 => old + b
  | 1 => old &&& b
  | 2 => old ||| b
  | 3 => old ^^^ b
  | 4 => minmax64 0 old b
  | 5 => minmax64 1 old b
  | 6 => minmax64 2 old b
  | 7 => minmax64 3 old b
  | _ => b

/-- An atomic read-modify-write of a 64-bit word (R116, R117). -/
def atomOp (s : State) (g : BitVec 4) (d a b : BitVec 6) (op : Option Nat) : Out :=
  s.guarded g <| s.room fun c =>
    let ea := c.readS a
    s.unless (c.check s.cur ea 8 8 true true [.face, .cluster]) ea
      (fun c => c.addItem s.slot (scalarTiming ea).1 true false
        [.atom ea op (c.readS b) (c.readS d) (c.ctx.physS d.toNat) ((scalarTiming ea).2 - (scalarTiming ea).1)]) c

/-- ATOM (R117). -/
def execAtom (g : BitVec 4) (d a b : BitVec 6) (m : BitVec 4) (s : State) : Out :=
  s.checked (decide (m.toNat < 9)) (atomOp s g d a b (some m.toNat))
/-- ACAS (R117). -/
def execAcas (g : BitVec 4) (d a b : BitVec 6) (s : State) : Out := atomOp s g d a b none

/-! ## System registers and clocks (R24, R119) -/

/-- MFS (R24, R119). Its checks are made whatever the guard holds (R90). -/
def execMfs (g : BitVec 4) (d : BitVec 6) (r : BitVec 12) (s : State) : Out :=
  s.act fun c =>
    match mfsCheck c.mode r.toNat with
    | some code => s.fault code (BitVec.ofNat 64 s.slot) 0 c
    | none => if c.readP g then s.deliver 1 [.setS (c.ctx.physS d.toNat) (c.sysRead s r.toNat)] c else c

/-- MTS (R24, R119): effective for bundles issued from the next cycle on. The checks of the register that it names are made whatever the
guard holds (R90), that of the value with a true guard. -/
def execMts (g : BitVec 4) (d : BitVec 6) (r : BitVec 12) (s : State) : Out :=
  s.act fun c =>
    match (if c.readP g then mtsCheck c.mode c.owners r.toNat (c.readS d) else mtsAccess c.mode r.toNat) with
    | some code => s.fault code (BitVec.ofNat 64 s.slot) 0 c
    | none => if c.readP g then c.addFin (.mts r.toNat (c.readS d)) else c

/-- RDCYC (R119). -/
def execRdcyc (g : BitVec 4) (d : BitVec 6) (s : State) : Out := aluOp s g d 1 fun _ => BitVec.ofNat 64 s.cyc
/-- RDGT (R119). -/
def execRdgt (g : BitVec 4) (d : BitVec 6) (s : State) : Out := aluOp s g d 1 fun _ => BitVec.ofNat 64 s.gt

end Sys2Proof.Machine
end

