-- ==== Sys2Proof/Machine/Control.lean ====
section
/-! DEFINITION. Slot 0 in tenant mode: fetching a line, packed lines, branches, the loop engine, barriers, dynamic waits,
fences, traps and the end of a unit (spec/04 R75 to R84, spec/05 R98 to R111). -/

namespace Sys2Proof.Machine

open Sys2Proof

/-! ## Lines and issue addresses (R73, R75, R77, R82) -/

/-- A line of a core's instruction scratchpad (R73). -/
def lineAt (m : Memory) (n line : Nat) : Mask := BitVec.ofNat 256 (memNat m (codeKey n (32 * line)) 32)

/-- The word of slot `k` of a line (R73). -/
def slotWord (l : Mask) (k : Nat) : BitVec 32 := l.extractLsb' (32 * k) 32

/-- Whether a line is a packed line: TPL all ones and OP = PACK (R82). -/
def isPacked (l : Mask) : Bool := l.extractLsb' 19 13 == 0b1111111010100#13

/-- The count N of a packed line's words (R82). -/
def packCount (l : Mask) : Nat := (l.extractLsb' 15 4).toNat

/-- Pattern word `j` of a packed line (R82). -/
def packWord (l : Mask) (j : Nat) : BitVec 16 := l.extractLsb' (32 + 16 * (j - 1)) 16

/-- The pattern word that an issue address names: both line × 16 and line × 16 + 1 name word 1 (R75). -/
def wordOf (pc : Word) : Nat := if pc.toNat % 16 = 0 then 1 else pc.toNat % 16

/-- The issue address by which EPC, CALL and BR name a bundle (R75). -/
def normalPc (l : Mask) (pc : Word) : Word := if isPacked l && pc.toNat % 16 == 0 then pc + 1 else pc

/-- The name of an issue address as the lines stand (R75); beyond 17 bits there is no line. -/
def normAt (m : Memory) (n : Nat) (pc : Word) : Word := if pc.toNat < 2 ^ 17 then normalPc (lineAt m n (pc.toNat / 16)) pc else pc

/-- The next sequential issue address after the whole of a bundle's line or pattern word (R75, R84). -/
def seqNext (m : Memory) (n : Nat) (pc : Word) : Word :=
  let l := lineAt m n (pc.toNat / 16)
  if isPacked l && decide (wordOf pc < packCount l) then BitVec.ofNat 64 (pc.toNat / 16 * 16 + wordOf pc + 1)
  else BitVec.ofNat 64 ((pc.toNat / 16 + 1) * 16)

/-- The issues a bundle's address stands for: the repeat count of its word, or one (R82). -/
def issuesOf (m : Memory) (n : Nat) (pc : Word) : Nat :=
  let l := lineAt m n (pc.toNat / 16)
  if isPacked l then ((packWord l (wordOf pc)).extractLsb' 0 7).toNat + 1 else 1

/-- Why an issue address cannot be fetched (R75, R76, R77): a target beyond 17 bits, a page of the other owner, a word that
exists on no line, or a repeat beyond the word's issues. An address of a page of the other owner that exists on no line is PRIVILEGE, and on
a packed line whose N is 0 or 15 no word is checked, so that R82 decides, while with another N these faults go before what PACK raises (R76,
R82): DESIGN CHOICE, log entry 59. -/
def fetchFault (m : Memory) (n : Nat) (c : Core) : Option Nat :=
  let pc := c.ctx.pc
  if 0x1FFFF < pc.toNat then some cILLEGAL
  else if c.mode.toNat < 2 && c.owners.getLsbD (pc.toNat / 4096) == (c.mode == 0) then some cPRIVILEGE
  else
    let l := lineAt m n (pc.toNat / 16)
    let w := pc.toNat % 16
    if isPacked l then
      (if 0 < packCount l && packCount l < 15 && (decide (packCount l < w) || decide (issuesOf m n pc ≤ c.ctx.rep.toNat))
       then some cILLEGAL else none)
    else if w ≠ 0 || 0 < c.ctx.rep.toNat then some cILLEGAL
    else none

/-- The entry of a core's pattern table that a packed line's issue address names (R82, R83). -/
def patternOf (l : Mask) (pc : Word) : Nat := ((packWord l (wordOf pc)).extractLsb' 7 9).toNat

/-- The bundle at an issue address: its line, or the pattern-table entry that its word names (R75, R83). -/
def bundleAt (m : Memory) (n : Nat) (pc : Word) : Mask :=
  let l := lineAt m n (pc.toNat / 16)
  if isPacked l then BitVec.ofNat 256 (memNat m (patKey n (32 * patternOf l pc)) 32) else l

/-- Walks `k` body positions from an issue address (R69, R101): the address after them. -/
def walkPositions (m : Memory) (n : Nat) (k : Nat) (pc : Word) : Word :=
  match k with
  | 0 => pc
  | j + 1 => walkPositions m n j (seqNext m n pc)

/-- PACK: a packed line issues the table's bundle at the index of the word that the issue address names (R82 to R84). It is
ILLEGAL at slot 0 in a pattern entry, in runtime mode (R76), with N = 0 or 15, with a non-zero word beyond the N-th, or when the
entry is itself a packed line. -/
def execPack (n : BitVec 4) (s : State) : Out :=
  s.checked (n != 0 && n != 15) <| s.act fun c =>
    let l := lineAt s.mem s.cur (c.ctx.pc.toNat / 16)
    let entry := BitVec.ofNat 256 (memNat s.mem (patKey s.cur (32 * patternOf l c.ctx.pc)) 32)
    if c.line.isSome || !(isPacked l) || c.mode != 0 || l.toNat >>> (32 + 16 * n.toNat) ≠ 0 || isPacked entry then s.illegal c
    else { c with line := some entry }

/-- NOP: its engine starts nothing (R74, R91). -/
def execNop (_t : BitVec 7) (s : State) : Out := .next s

/-! ## Branches (R99) -/

/-- A taken transfer: the target issues next (R99). -/
def Core.jumpTo (c : Core) (t : Word) : Core := { c with ctx := { c.ctx with ctl := { c.ctx.ctl with jump := some t } } }

/-- BR (R99). -/
def execBr (_t : BitVec 7) (g : BitVec 4) (o : BitVec 15) (xw : Option (BitVec 32)) (s : State) : Out :=
  s.guarded g fun c => c.jumpTo (c.ctx.pc + branchOff o xw)
/-- JMP (R99). -/
def execJmp (_t : BitVec 7) (g : BitVec 4) (a : BitVec 6) (s : State) : Out :=
  s.guarded g fun c => c.jumpTo (c.readS a)
/-- CALL: s31 receives the next sequential issue address, by the name that R75 gives it (R84, R99). -/
def execCall (_t : BitVec 7) (g : BitVec 4) (o : BitVec 15) (xw : Option (BitVec 32)) (s : State) : Out :=
  s.guarded g <| s.room fun c =>
    (c.addItem 0 1 true false [.setS 31 (normAt s.mem s.cur (seqNext s.mem s.cur c.ctx.pc))]).jumpTo (c.ctx.pc + branchOff o xw)
/-- RET (R99). -/
def execRet (_t : BitVec 7) (g : BitVec 4) (a : BitVec 6) (s : State) : Out :=
  s.guarded g fun c => c.jumpTo (c.readS a)

/-! ## The loop engine (R100 to R104) -/

/-- The due software trap of the bundle under way (R110). -/
def Core.due (c : Core) (t : Trap) : Core := { c with ctx := { c.ctx with ctl := { c.ctx.ctl with soft := some t } } }

/-- The body length of LOOP: BLEN, or the extension's (R101). -/
def loopLen (b : BitVec 5) (xw : Option (BitVec 32)) : Nat :=
  match xw with
  | none => b.toNat
  | some e => (e.extractLsb' 0 17).toNat

/-- LOOP (R101, R103): sets the loop engine from the next cycle on; with a count of 0 issue continues after the body. A quench
requested when LOOP issues starts no iteration. A LOOP in an active loop is ILLEGAL whatever the guard holds (R90). -/
def execLoop (t : BitVec 7) (g : BitVec 4) (a : BitVec 6) (n : BitVec 4) (b : BitVec 5) (xw : Option (BitVec 32)) (s : State) : Out :=
  s.checked (Instr.loop t g a n b xw).wf <| s.act fun c =>
    if c.ctx.la then s.illegal c
    else if !(c.readP g) then c
    else
      let first := seqNext s.mem s.cur c.ctx.pc
      let c1 := c.addFin (.loopStart (c.readS a) (n.toNat + 1) first.toNat (loopLen b xw))
      if c.readS a = 0 then c1.jumpTo (walkPositions s.mem s.cur (loopLen b xw) first)
      else if c.ctx.qreq && c.mode == 0 then c1.due ⟨cQUENCH, 0, false, 0, 0⟩
      else c1

/-- LEXIT: leaves an active loop at the position after the body (R104). -/
def execLexit (_t : BitVec 7) (g : BitVec 4) (s : State) : Out :=
  s.guarded g fun c =>
    if c.ctx.la then
      (c.addFin .loopExit).jumpTo (walkPositions s.mem s.cur c.ctx.lLen.toNat (c.ctx.lFirst.setWidth 64))
    else c

/-! ## Timing groups and barriers (R105, R106) -/

/-- The bundle under way ends in a dynamic wait. -/
def Core.waitFor (c : Core) (w : Wait) : Core := { c with ctx := { c.ctx with ctl := { c.ctx.ctl with wait := some w } } }

/-- An arrival at a barrier or SYNC: ORPHAN_WAIT when the group is unused or does not have this unit as a member (R105).
Under WRE the arrival made before the QUENCH stands (R351). `lazy_` is a face page that a BAR would find unrestored (R224). -/
def arriveAt (s : State) (g : BitVec 3) (bar sync : Bool) (w : Nat → Wait) (lazy_ : Option Word) (c : Core) : Core :=
  match Map.get? c.bgroups g.toNat with
  | none => s.fault cORPHAN (g.setWidth 64) 0 c
  | some b =>
    if !(b.members.contains c.unitId.toNat) then s.fault cORPHAN (g.setWidth 64) 0 c
    else
      match lazy_ with
      | some a => s.fault cPAGE a 0 c
      | none =>
        if c.ctx.wre then
          (if b.passed then { c with bgroups := Map.put c.bgroups g.toNat { b with passed := false } } else c.waitFor (w g.toNat))
        else
          { c with bgroups := Map.put c.bgroups g.toNat { b with arrived := true, bar := bar, sync := sync } }.waitFor (w g.toNat)

/-- SYNC (R105). -/
def execSync (_t : BitVec 7) (n : BitVec 3) (s : State) : Out := s.act (arriveAt s n false true .sync none)

/-- The lowest face address of a page that a lazy restore has not brought in (R224). -/
def Core.lazyLowest (c : Core) : Option Word :=
  ((List.range 64).filterMap fun i =>
    if c.lazyPages.getLsbD i then (Map.get? c.ltt i).map lttVPN else none).min?.map (BitVec.ofNat 64)

/-- BAR: a barrier at whose release the face and shadow banks swap (R106); PAGE_ABSENT while a face page is unrestored
(R224). -/
def execBar (_t : BitVec 7) (n : BitVec 3) (s : State) : Out :=
  s.act fun c => arriveAt s n true false .barrier c.lazyLowest c

/-- BARNS: a barrier with no swap (R106). -/
def execBarns (_t : BitVec 7) (n : BitVec 3) (s : State) : Out := s.act (arriveAt s n false false .barrier none)

/-! ## Dynamic waits (R107, R108) -/

/-- Whether a queued or in-flight operation targets a tile (R107). -/
def Core.tileTargeted (c : Core) (t : Nat) : Bool :=
  (c.qa ++ c.qb ++ c.nt).any fun e =>
    match e.kind with
    | .tld k .. => k == t
    | .tst k .. => k == t
    | .gather k .. => k == t
    | .packet .. => false

/-- The value of a completion counter of a core's partition, and whether it is cancelled (R294). -/
def State.counterOf (s : State) (c : Core) (cc : Nat) : Word × Bool :=
  match (s.partOf c).bind fun p => Map.get? p.counters cc with
  | some k => (k.value, k.cancelled)
  | none => (0, false)

/-- Whether a dynamic wait's condition holds (R107, R108). Barriers, SYNC and walks are decided by their own events. -/
def State.holds (s : State) (c : Core) (w : Wait) : Bool :=
  match w with
  | .time t => decide (t ≤ (s.gt : Int))
  | .tiles m => c.tilePend &&& m == 0
  | .counter cc v => decide (v ≤ (s.counterOf c cc).1) && !(s.counterOf c cc).2
  | .banks m => c.owned &&& m == m
  | _ => false

/-- A wait whose condition holds costs no cycle; otherwise the bundle ends in it (R107). -/
def State.waitUnless (s : State) (w : Wait) (c : Core) : Core := if s.holds c w then c else c.waitFor w

/-- WAITT: global time (R107). -/
def execWaitt (_t : BitVec 7) (g : BitVec 4) (a : BitVec 6) (xw : Option (BitVec 32)) (s : State) : Out :=
  s.guarded g fun c =>
    let off : Int := match xw with | none => 0 | some e => e.toInt * 65536
    s.waitUnless (.time ((c.readS a).toNat + off)) c
/-- TWAIT: the pending bits of tiles; ORPHAN_WAIT on a pending tile that nothing targets (R107). -/
def execTwait (_t : BitVec 7) (g : BitVec 4) (m : BitVec 8) (s : State) : Out :=
  s.checked (m != 0) <| s.guarded g fun c =>
    if (List.range 8).any fun t => m.getLsbD t && c.tilePend.getLsbD t && !(c.tileTargeted t) then
      s.fault cORPHAN (m.setWidth 64) 0 c
    else s.waitUnless (.tiles m) c
/-- CCWAIT: a completion counter (R107). -/
def execCcwait (_t : BitVec 7) (g : BitVec 4) (a : BitVec 6) (n : BitVec 5) (s : State) : Out :=
  s.guarded g fun c => s.waitUnless (.counter n.toNat (c.readS a)) c
/-- BKACQ: bank ownership; ORPHAN_WAIT on a bank that neither this unit nor a preceding launch holds (R108). -/
def execBkacq (_t : BitVec 7) (g : BitVec 4) (sh : BitVec 1) (m : BitVec 8) (s : State) : Out :=
  s.checked (m != 0) <| s.guarded g fun c =>
    if bankMask sh m &&& ~~~(c.owned ||| c.passing) != 0 then s.fault cORPHAN (m.setWidth 64) 0 c
    else s.waitUnless (.banks (bankMask sh m)) c
/-- BKREL: releases the banks that the unit owns at issue, at c+4 or after the last access to them (R108). -/
def execBkrel (_t : BitVec 7) (g : BitVec 4) (sh : BitVec 1) (m : BitVec 8) (s : State) : Out :=
  s.checked (m != 0) <| s.guarded g fun c => c.addItem 0 4 false false [.bkrel (bankMask sh m &&& c.owned)]

/-! ## Fences, quench points and ends (R109 to R111) -/

/-- UEND: nothing issues after its bundle (R111). -/
def execUend (_t : BitVec 7) (g : BitVec 4) (s : State) : Out :=
  s.guarded g fun c => { c with ctx := { c.ctx with ctl := { c.ctx.ctl with uend := true } } }
/-- QPOINT: QUENCH after its bundle when one is requested (R110). -/
def execQpoint (_t : BitVec 7) (g : BitVec 4) (s : State) : Out :=
  s.guarded g fun c => if c.ctx.qreq && c.mode == 0 then c.due ⟨cQUENCH, 0, false, 1, 0⟩ else c
/-- IFENCE: holds issue until the delay lines and the macro-instructions of slots 2 to 6 are done (R109). -/
def execIfence (_t : BitVec 7) (g : BitVec 4) (s : State) : Out :=
  s.guarded g fun c => { c with ctx := { c.ctx with fence := true } }
/-- DRAINNT: every TSTNT issued before it comes into release ordering, none of its own bundle (R109, R236; DESIGN CHOICE, log entry 81). -/
def execDrainnt (_t : BitVec 7) (g : BitVec 4) (s : State) : Out :=
  s.guarded g fun c => { c with nt := c.nt.map fun e => if e.drained.isNone then { e with drained := some c.epoch } else e }
/-- QFENCE: entries issued after it, those of its own bundle among them, stand behind those issued before it (R109, R237; DESIGN CHOICE, log
entry 81). -/
def execQfence (_t : BitVec 7) (g : BitVec 4) (s : State) : Out :=
  s.guarded g fun c => { c with epoch := c.epoch + 1 }
/-- TRAP: SOFTWARE after its bundle (R110). -/
def execTrap (_t : BitVec 7) (g : BitVec 4) (code : BitVec 8) (s : State) : Out :=
  s.guarded g fun c => c.due ⟨cSOFTWARE, 0, false, code.setWidth 64, 0⟩
/-- BRK: BREAKPOINT before any slot of its bundle commits (R110). -/
def execBrk (_t : BitVec 7) (x : BitVec 8) (s : State) : Out := s.act (s.fault cBREAK (x.setWidth 64) 0)

/-! ## The iteration boundary (R102, R103) -/

/-- Predicate results that commit in the coming cycle are committed first, so that the shift applies after them (R11, R102). -/
def Ctx.flushPreds (x : Ctx) : Ctx :=
  x.items.foldl (fun y i =>
    if i.due = x.clk then i.acts.foldl (fun y a => match a with | .setP r b => y.putP r b | _ => y) y else y)
    { x with items := x.items.map fun i =>
        if i.due = x.clk then { i with acts := i.acts.filter fun a => match a with | .setP .. => false | _ => true } else i }

/-- The boundary of R102: registers rotate, stages shift, the count falls unless a quench is requested; then the loop goes on,
ends, or takes QUENCH. The last component is the QUENCH. `quench` is QREQ, as a tenant's loop sees it (R103, R246). -/
def loopBoundary (m : Memory) (n : Nat) (quench : Bool) (x : Ctx) : Ctx × Bool :=
  let x := x.flushPreds
  let lrot := x.lrot - 1
  let sv : BitVec 16 := BitVec.ofNat 16 ((x.sv.toNat * 2) % 2 ^ x.lN.toNat)
  let lcnt := if quench then x.lcnt else if x.lcnt = 0 then 0 else x.lcnt - 1
  let first := !quench && lcnt != 0
  let sv := if first then sv ||| 1 else sv &&& ~~~1#16
  let x := { x with lrot := lrot, lcnt := lcnt }.setSV sv
  if sv = 0 then
    if quench && lcnt != 0 then ({ x with lQD := true, pc := normAt m n (x.lFirst.setWidth 64) }, true)
    else ({ x with la := false, pc := normAt m n (walkPositions m n x.lLen.toNat (x.lFirst.setWidth 64)) }, false)
  else ({ x with pc := normAt m n (x.lFirst.setWidth 64) }, false)

/-- Whether the bundle at an issue address is the last body position of the active loop (R102). -/
def lastPosition (m : Memory) (n : Nat) (x : Ctx) (pc : Word) : Bool :=
  x.la && 0 < x.lLen.toNat &&
    (let l := walkPositions m n (x.lLen.toNat - 1) (x.lFirst.setWidth 64)
     normalPc (lineAt m n (l.toNat / 16)) l == normalPc (lineAt m n (pc.toNat / 16)) pc)

/-- The stop cycle of a trap taken now: this cycle before it issues, else the next (R247). -/
def State.stopTick (s : State) (c : Core) : Nat :=
  match s.phase with
  | .start => s.tickOf c
  | .tick => s.tickOf c
  | _ => s.tickOf c + 1

/-- ITERATION_BOUNDARY: the loop engine of a core whose last body position has issued in full (R102, R103). A due trap of the bundle
goes before the QUENCH, and so does an event that waits; the QUENCH then waits behind it (R246). -/
def execIterationBoundary (n : Nat) (s : State) : Out :=
  .next (s.onCore n fun c =>
    if !c.ctx.la then c
    else
      let (x, q) := loopBoundary s.mem n (c.ctx.qreq && c.mode == 0) c.ctx
      let c1 := { c with ctx := x }
      let t : Trap := ⟨cQUENCH, 0, false, 0, 0⟩
      if !q then c1
      else if x.ctl.soft.isSome || !c1.events.isEmpty then { c1 with events := c1.events ++ [t] }
      else c1.takeTrap (s.stopTick c) x.clk 0 t x.pc 0)

end Sys2Proof.Machine
end

