-- ==== Sys2Proof/Machine/Translate.lean ====
section
/-! DEFINITION. Page tables, the nested walk and what the scheduler reads through a partition's tables (spec/13 R265 to R272). -/

namespace Sys2Proof.Machine

/-- Fields of a page-table entry (R268). -/
def pteV (e : Word) : Bool := e.getLsbD 0
/-- P (R268). -/
def pteP (e : Word) : Bool := e.getLsbD 1
/-- LEAF (R268). -/
def pteLeaf (e : Word) : Bool := e.getLsbD 2
/-- RD (R268). -/
def pteRD (e : Word) : Bool := e.getLsbD 3
/-- WR (R268). -/
def pteWR (e : Word) : Bool := e.getLsbD 4
/-- PIN (R268). -/
def ptePIN (e : Word) : Bool := e.getLsbD 5
/-- MV (R268). -/
def pteMV (e : Word) : Bool := e.getLsbD 6
/-- SHR (R268). -/
def pteSHR (e : Word) : Bool := e.getLsbD 7
/-- ADDR (R268). -/
def pteADDR (e : Word) : Nat := (e.extractLsb' 14 38).toNat * 0x4000
/-- SPAN (R268). -/
def pteSPAN (e : Word) : Nat := (e.extractLsb' 52 2).toNat
/-- CLASS (R268). -/
def pteCLASS (e : Word) : Nat := (e.extractLsb' 54 3).toNat
/-- GEOM (R268). -/
def pteGEOM (e : Word) : Nat := (e.extractLsb' 57 3).toNat
/-- FMT (R268). -/
def pteFMT (e : Word) : Nat := (e.extractLsb' 60 4).toNat

/-- The index of an address at a level (R269). -/
def ptIndex (level va : Nat) : Nat :=
  match level with
  | 3 => (va >>> 47) % 2
  | 2 => (va >>> 36) % 2048
  | 1 => (va >>> 25) % 2048
  | _ => (va >>> 14) % 2048

/-- The bytes a leaf maps at a level, by its SPAN; 0 where the SPAN is not allowed (R269). -/
def leafBytes (level span : Nat) : Nat :=
  match level, span with
  | 2, 0 => 2 ^ 36
  | 1, 0 => 2 ^ 25
  | 1, 3 => 2 ^ 30
  | 0, 0 => 2 ^ 14
  | 0, 1 => 2 ^ 18
  | 0, 2 => 2 ^ 22
  | _, _ => 0

/-- How a walk ends (R270). -/
inductive Walked where
  | ok (addr : Nat) (leaf : Word) (size at_ : Nat)
  | absent
  | format
  | moving
  deriving DecidableEq, Repr

/-- Whether an entry breaks its layout at a level, valid or not (R268 to R270); `guest` leaves alone carry FMT, GEOM and CLASS, and a
system ADDR must lie in no reserved range (R265). A valid entry at level 0 that is no leaf ends no walk either: DEDUCED, log entry 16. -/
def pteBad (guest : Bool) (level : Nat) (e : Word) : Bool :=
  e.extractLsb' 8 6 != 0 ||
    (if pteLeaf e then leafBytes level (pteSPAN e) == 0 else pteSPAN e != 0) ||
    (!(guest && pteLeaf e) && e.extractLsb' 54 10 != 0) ||
    (!guest && !(spaMapped (pteADDR e)))

/-- A walk of the system tables from a table on (R270), by level downwards. -/
def sysWalkFrom (m : Memory) (level table x : Nat) : Walked :=
  let at_ := table + 8 * ptIndex level x
  let e : Word := BitVec.ofNat 64 (memNat m at_ 8)
  if pteBad false level e then .format
  else if !(pteV e) then .absent
  else if pteLeaf e then
    let sz := leafBytes level (pteSPAN e)
    if !(pteP e) then .absent
    else if pteMV e then .moving
    else .ok (pteADDR e + x % sz) e sz at_
  else
    match level with
    | 0 => .format
    | l + 1 => sysWalkFrom m l (pteADDR e) x

/-- The core die that a core lies on (R303). -/
def dieOf (n : Nat) : Nat := 4 * (clusterOf n / 12 / 4) + clusterOf n % 12 / 3

/-- What a key of the nested TLBs counts in: the die above it, the guest-physical page's first address below. -/
def tlbDie : Nat := 2 ^ 52

/-- The system walk spa(x), served from the nested TLB of die `hit` when it holds x and is taken from it (R270). -/
def sysWalk (m : Memory) (p : Part) (hit : Option Nat) (x : Nat) : Walked :=
  match hit.bind fun d => p.tlb.find? fun t => t.1 / tlbDie == d && decide (t.1 % tlbDie ≤ x) && decide (x < t.1 % tlbDie + t.2.2.1) with
  | some (key, spa, sz, leaf) => .ok (spa + (x - key % tlbDie)) leaf sz 0
  | none => sysWalkFrom m 3 p.system.toNat x

/-- A walk of the guest tables from a table on; every table is read through the system walk (R270). -/
def guestWalkFrom (m : Memory) (p : Part) (hit : Option Nat) (level gtable va : Nat) : Walked :=
  match sysWalk m p hit (gtable + 8 * ptIndex level va) with
  | .ok at_ _ _ _ =>
    let e : Word := BitVec.ofNat 64 (memNat m at_ 8)
    if pteBad true level e then .format
    else if !(pteV e) then .absent
    else if pteLeaf e then
      let sz := leafBytes level (pteSPAN e)
      if !(pteP e) then .absent else .ok (pteADDR e + va % sz) e sz at_
    else
      match level with
      | 0 => .format
      | l + 1 => guestWalkFrom m p hit l (pteADDR e) va
  | w => w

/-- The result of a nested walk for an LTT entry (R270): the entry with its frame and rights filled and P = 1. -/
inductive Filled where
  | fill (e : BitVec 128)
  | absent
  | format
  | moving
  deriving DecidableEq, Repr

/-- An LTT entry with FRAME, RD, WR and P set (R225, R270). -/
def lttFill (e : BitVec 128) (frame : Nat) (rd wr : Bool) : BitVec 128 :=
  let cleared := e &&& ~~~((BitVec.ofNat 128 (2 ^ 38 - 1) <<< 53) ||| (0b111#128 <<< 40 <<< 1) ||| (1#128 <<< 39))
  cleared ||| (BitVec.ofNat 128 (frame / 0x4000) <<< 53) ||| (if rd then 1#128 <<< 41 else 0) |||
    (if wr then 1#128 <<< 42 else 0) ||| (1#128 <<< 39) ||| (e &&& (0b111#128 <<< 43))

/-- The nested walk for a virtual address under an LTT entry (R270). -/
def nestedWalk (m : Memory) (p : Part) (hit : Option Nat) (e : BitVec 128) (va : Nat) : Filled :=
  match guestWalkFrom m p hit 3 p.guest.toNat va with
  | .absent => .absent
  | .format => .format
  | .moving => .moving
  | .ok gpa ge gsz _ =>
    match sysWalk m p hit gpa with
    | .absent => .absent
    | .format => .format
    | .moving => .moving
    | .ok spa se ssz _ =>
      let page := pageBytes (lttPSIZE e)
      if gsz < page || ssz < page then .format
      else if pteFMT ge ≠ lttFMT e || pteGEOM ge ≠ lttGEOM e || pteCLASS ge ≠ lttCLASS e then .format
      else .fill (lttFill e (spa - va % page) (pteRD ge && pteRD se) (pteWR ge && pteWR se))

/-- The nested TLB that serves a walk of a core, if one does: that of its die (R270, R272; DESIGN CHOICE, log entry 14). -/
def State.tlbServes (s : State) (n : Nat) : Option Nat := if Config.tlbHit s.oracle then some (dieOf n) else none

/-- The entries of a partition's that a die's nested TLB holds. -/
def Part.tlbOf (p : Part) (die : Nat) : List Nat := (p.tlb.filter fun t => t.1 / tlbDie == die).map Prod.fst

/-- A die's nested TLB with the system leaf of a guest-physical address, at the leaf's size. It holds 8,192 entries, those of every partition:
where it is full the new one takes the place of a free one of its partition's, or is not kept (R270; DESIGN CHOICE, log entry 14). -/
def State.tlbPut (s : State) (part die x : Nat) : State :=
  match Map.get? s.parts part with
  | none => s
  | some p =>
    match sysWalkFrom s.mem 3 p.system.toNat x with
    | .ok a leaf z _ =>
      let key := die * tlbDie + (x - x % z)
      let room := (Map.get? p.tlb key).isSome || decide ((s.parts.map fun y => (y.2.tlbOf die).length).sum < 8192)
      let old := if room then none else (p.tlbOf die)[Config.freeChoice s.oracle % max 1 (p.tlbOf die).length]?
      if !room && old.isNone then s
      else
        let kept := match old with | some k => Map.del p.tlb k | none => p.tlb
        { s with parts := Map.put s.parts part { p with tlb := Map.put kept key (a - x % z, z, leaf) } }
    | _ => s

/-- A guest-physical address of a partition as the scheduler translates it (R290). What it names lies in device memory; a frame of another
kind cannot be read (DESIGN CHOICE, log entry 16). -/
def gpaOf (m : Memory) (p : Part) (x : Nat) : Option Nat :=
  match sysWalkFrom m 3 p.system.toNat x with
  | .ok a _ _ _ => if inDevice a then some a else none
  | _ => none

/-- `n` bytes at a guest-physical address, page by page through the system tables (R290); none where a page is not
readable. -/
def gpaBytes (m : Memory) (p : Part) (x n : Nat) : Option (List Byte) :=
  if ((pageStarts x n).all fun a => (gpaOf m p a).isSome) then
    some ((List.range n).map fun i => match gpaOf m p (x + i) with | some a => memGet m a | none => 0)
  else none

/-- The system leaf that maps a system-physical address, searched from a table on (R221, R268). -/
def leafOver (m : Memory) (level table spa : Nat) : Option Word :=
  (List.range (if level = 3 then 2 else 2048)).findSome? fun i =>
    let e : Word := BitVec.ofNat 64 (memNat m (table + 8 * i) 8)
    if !(pteV e) then none
    else if pteLeaf e then
      (if pteADDR e ≤ spa && decide (spa < pteADDR e + leafBytes level (pteSPAN e)) then some e else none)
    else
      match level with
      | 0 => none
      | l + 1 => leafOver m l (pteADDR e) spa

/-- The memory-side unit of a device address: stacks 0 to 15, links 16 to 39 (R265). -/
def msuOf (spa : Nat) : Nat :=
  if spa < 0x10000000000 then spa / 0x1000000000 else 16 + (spa - tier2Base) / 0x8000000000

/-- The memory-side unit's state. -/
def State.msu (s : State) (u : Nat) : Msu := Map.get s.msus u ⟨[], s.sramMark, [], false, []⟩

/-- The checks of R221 on an address in system-physical memory and its range: ALIGN, then SAVE_AREA on a page outside the
partition's device memory, on an offline stack, or unpinned. -/
def saveCheck (s : State) (c : Core) (a : Word) (len : Nat) : Option (Nat × Word) :=
  if a.extractLsb' 52 12 != 0 || a.extractLsb' 0 12 != 0 then some (cALIGN, a)
  else
    match s.partOf c with
    | none => some (cSAVE, a)
    | some p =>
      (((pageStarts a.toNat len).find? fun x =>
        !(inDevice x) || (s.msu (msuOf x)).offline ||
          (match leafOver s.mem 3 p.system.toNat x with | some e => !(ptePIN e) | none => true)).map
        fun x => (cSAVE, BitVec.ofNat 64 x))

end Sys2Proof.Machine
end

