-- ==== Sys2Proof/Machine/System.lean ====
section
/-! DEFINITION. Slot 0 in runtime mode: snapshot, context save and restore, translation table (spec/10 R216 to R229). -/

namespace Sys2Proof.Machine

open Sys2Proof

/-- The first `n` bytes of a list, padded with zeros. -/
def fit (n : Nat) (l : List Byte) : List Byte := (l ++ List.replicate (n - l.length) 0).take n

/-- Whether an image has its MAGIC and VERSION (R220, R224). -/
def imageMagic (m : Memory) (a : Nat) : Bool := memNat m a 4 == 0x58504E53 && memNat m (a + 4) 2 == 1

/-! ## The instructions (R216 to R228) -/

/-- Holds issue of the handler for `n` cycles: the next bundle follows at x + n (R216). -/
def State.holdFor (s : State) (n : Nat) (c : Core) : Core := { c with holdTo := s.tickOf c + n }

/-- ERET: resumes from the held snapshot, or from the image at s[A], which takes 384 cycles (R220, R221, R251). -/
def execEret (_t : BitVec 7) (a : BitVec 6) (s : State) : Out :=
  s.runtime fun c =>
    if c.sh then
      (if a != 0 then s.illegal c else c.addFin (.snapRest none))
    else if a == 0 then s.illegal c
    else
      let p := c.readS a
      s.unlessAt (saveCheck s c p 0x18000) (fun c =>
        let csw := memNat s.mem (p.toNat + 0x100) 8
        if !(imageMagic s.mem p.toNat) || 2 ≤ csw % 4 || 64 < memNat s.mem (p.toNat + 6) 1 then s.fault cFORMAT p 0 c
        else s.holdFor 385 (c.addItem 0 384 false false [.snapRest (some p)])) c

/-- SNAPST: writes the held snapshot's image in 384 cycles (R218). -/
def execSnapst (_t : BitVec 7) (a : BitVec 6) (s : State) : Out :=
  s.checked (a != 0) <| s.runtime fun c =>
    if !c.sh then s.illegal c
    else
      let p := c.readS a
      s.unlessAt (saveCheck s c p 0x18000) (fun c => s.holdFor 384 (c.addItem 0 383 false false [.snapSave p])) c

/-- SNAPREL: clears TM and SH at c+1 and discards the held snapshot (R218). -/
def execSnaprel (_t : BitVec 7) (s : State) : Out := s.runtime fun c => c.addFin .snapRel

/-- The first schedule count, no earlier than `first`, at which all that a context has in its delay lines and its matrix engine has drained;
none while a macro-instruction or a product runs. -/
def Ctx.drainedAt (x : Ctx) (first : Nat) : Option Nat :=
  if x.macros.isEmpty && x.mx.runs.isEmpty then
    some (x.mx.pend.foldl (fun a d => max a (d.due + 1)) (x.items.foldl (fun a i => max a (i.due + 1)) first))
  else none

/-- CTXSAVE once it has issued: from the schedule count at which the handler's delay lines have drained it writes for 10,384 cycles; while a
macro-instruction runs it looks again in the next cycle (R222). -/
def State.ctxDrain (s : State) (n : Nat) (p : Word) (first : Nat) : State :=
  let c := s.core n
  let put (due hold : Nat) (a : Act) : State :=
    s.setCore n { c with
      ctx := { c.ctx with items := c.ctx.items ++ [⟨due, c.ctx.clk, 0, false, false, c.nextUid, [a]⟩] }
      nextUid := c.nextUid + 1, holdTo := s.tickOf c + hold }
  match (if c.tail.isSome then none else c.ctx.drainedAt first) with
  | some y => put (y + 10383) (y - c.ctx.clk + 10384) (.ctxSave p)
  | none => put (c.ctx.clk + 1) 2 (.ctxDrain p)

/-- CTXSAVE: holds issue until the handler's delay lines have drained, the rest of its own bundle's among them, and writes the unit's save
area in 10,384 cycles (R222). -/
def execCtxsave (_t : BitVec 7) (a : BitVec 6) (s : State) : Out :=
  s.checked (a != 0) <| s.runtime fun c =>
    let p := c.readS a
    s.unlessAt (saveCheck s c p 0x2A1000) (fun c => c.addFin (.ctxDrain p)) c

/-- CTXREST: full in 10,384 cycles, lazy in 6,288, one face page in 64 (R224, R259). -/
def execCtxrest (_t : BitVec 7) (a b : BitVec 6) (m : BitVec 2) (s : State) : Out :=
  s.checked (a != 0 && m != 3 && (m == 2 || b == 0)) <| s.runtime fun c =>
    let p := c.readS a
    s.unlessAt (saveCheck s c p 0x2A1000) (fun c =>
      if !(imageMagic s.mem p.toNat) then s.fault cFORMAT p 0 c
      else if m == 2 && (winOf (c.readS b).toNat != some .face || (c.lookup (c.readS b).toNat).isNone) then
        s.fault cTABLE (c.readS b) 0 c
      else
        let n := if m = 0 then 10384 else if m = 1 then 6288 else 64
        s.holdFor n (c.addItem 0 (n - 1) false false [.ctxRest p m.toNat (c.readS b)])) c

/-- Entry and count of LTTLD and LTTINV, if they keep within the table (R227). -/
def lttRange (v : Word) : Option (Nat × Nat) :=
  let e := (v.extractLsb' 0 10).toNat
  let n := (v.extractLsb' 16 11).toNat
  if 1 ≤ n && n ≤ 1024 && e + n ≤ 1024 then some (e, n) else none

/-- LTTLD: copies entries four per cycle from c+2, and holds issue until the last has been written (R216, R227; DEDUCED, log entry 38). -/
def execLttld (_t : BitVec 7) (a b : BitVec 6) (s : State) : Out :=
  s.runtime fun c =>
    match lttRange (c.readS b) with
    | none => s.fault cFORMAT (c.readS b) 0 c
    | some (e, n) =>
      if (c.readS a).toNat % 16 ≠ 0 then s.fault cALIGN (c.readS a) 0 c
      else s.holdFor (2 + (n + 3) / 4) (c.addMacro 0 0 n (.lttld (c.readS a) e n))

/-- LTTINV: clears P in the valid entries named, at c+1 (R228). -/
def execLttinv (_t : BitVec 7) (a : BitVec 6) (s : State) : Out :=
  s.runtime fun c =>
    match lttRange (c.readS a) with
    | none => s.fault cFORMAT (c.readS a) 0 c
    | some (e, n) => c.addFin (.lttInv e n)

/-! ## MTS effects by register (R15, R22, R25, R45, R142, R162, R205, R255, R330) -/

/-- The effect of an MTS to CSW on the acting core (R22, R217). -/
def execMtsCsw (v : Word) (s : State) : Out := s.act fun c => c.writeCsw v
/-- The effect of an MTS to VSTAT (R45). -/
def execMtsVstat (v : Word) (s : State) : Out := s.act fun c => c.writeVstat v
/-- The effect of an MTS to RNGPOS (R15). -/
def execMtsRngpos (v : Word) (s : State) : Out := s.act fun c => c.writeRngpos v
/-- The effect of an MTS to RNGKEY (R15). -/
def execMtsRngkey (v : Word) (s : State) : Out := s.act fun c => c.writeRngkey v
/-- The effect of an MTS to WDOG (R255). -/
def execMtsWdog (v : Word) (s : State) : Out := s.act fun c => c.writeWdog v
/-- The effect of an MTS to RHSTAT (R162). -/
def execMtsRhstat (v : Word) (s : State) : Out := s.act fun c => c.writeRhstat v
/-- The effect of an MTS to ASSTAT (R142). -/
def execMtsAsstat (v : Word) (s : State) : Out := s.act fun c => c.writeAsstat v
/-- The effect of an MTS to MAPSTAT (R205). -/
def execMtsMapstat (v : Word) (s : State) : Out := s.act fun c => c.writeMapstat v
/-- The effect of an MTS to STRAYN (R205). -/
def execMtsStrayn (v : Word) (s : State) : Out := s.act fun c => c.writeStrayn v
/-- The effect of an MTS to COLLIDE (R25). -/
def execMtsCollide (v : Word) (s : State) : Out := s.act fun c => c.writeCollide v
/-- The effect of an MTS to GTADJ in firmware mode (R330). -/
def execMtsGtadj (v : Word) (s : State) : Out := s.act fun c => c.writeGtadj v

end Sys2Proof.Machine
end

