-- ==== Sys2Proof/Machine/Vector.lean ====
section
/-! DEFINITION. Vector arithmetic, lane moves, conversion and reductions in slots 2 and 3 (spec/06 R120 to R134). -/

namespace Sys2Proof.Machine

open Sys2Proof

/-! ## Floating point (R124, R125) -/

/-- A lane-wise instruction on 64 FP32 lanes with a float operand: `f` of rounding mode, a, b and the old lane of v[D]. -/
def floatOp (s : State) (k : BitVec 3) (z : BitVec 1) (d a b : BitVec 7) (sc : BitVec 1)
    (f : Rnd → Nat → Nat → Nat → Nat × BitVec 7) : Out :=
  s.checked (sc == 0 || b.getLsbD 6 == false) <| s.act fun c =>
    let m := c.readK k
    let g (i : Nat) := f (vrmArith c.ctx.vrm) (laneNat (c.readV a) i 32) (c.floatB b sc i) (laneNat (c.readV d) i 32)
    s.deliverV 4 32 d m z (fun i => (g i).1) (orFlags 64 m fun i => (g i).2) c

/-- A floating-point compare into mask k[D] (R125). -/
def floatCmp (s : State) (k : BitVec 3) (z : BitVec 1) (d : BitVec 3) (a b : BitVec 7) (sc : BitVec 1)
    (f : Fv → Fv → Bool) : Out :=
  s.checked (sc == 0 || b.getLsbD 6 == false) <| s.act fun c =>
    s.deliverK 4 64 d (c.readK k) z (fun i => f (fp32 (laneNat (c.readV a) i 32)) (fp32 (c.floatB b sc i))) c

/-- The lesser of two FP32 codes by R47. -/
def min32 (a b : Nat) : Nat := rne32 ((fp32 a).min (fp32 b))
/-- VADD (R124). -/
def execVadd (k : BitVec 3) (z : BitVec 1) (d a b : BitVec 7) (s_ : BitVec 1) (s : State) : Out :=
  floatOp s k z d a b s_ fun r a b _ => fAdd r a b
/-- VSUB (R124). -/
def execVsub (k : BitVec 3) (z : BitVec 1) (d a b : BitVec 7) (s_ : BitVec 1) (s : State) : Out :=
  floatOp s k z d a b s_ fun r a b _ => fSub r a b
/-- VMUL (R124). -/
def execVmul (k : BitVec 3) (z : BitVec 1) (d a b : BitVec 7) (s_ : BitVec 1) (s : State) : Out :=
  floatOp s k z d a b s_ fun r a b _ => fMul r a b
/-- VFMA (R124). -/
def execVfma (k : BitVec 3) (z : BitVec 1) (d a b : BitVec 7) (s_ : BitVec 1) (s : State) : Out :=
  floatOp s k z d a b s_ fFma
/-- VFMS (R124). -/
def execVfms (k : BitVec 3) (z : BitVec 1) (d a b : BitVec 7) (s_ : BitVec 1) (s : State) : Out :=
  floatOp s k z d a b s_ fFms
/-- VMIN (R124). -/
def execVmin (k : BitVec 3) (z : BitVec 1) (d a b : BitVec 7) (s_ : BitVec 1) (s : State) : Out :=
  floatOp s k z d a b s_ fun _ a b _ => (min32 a b, 0)
/-- VMAX (R124). -/
def execVmax (k : BitVec 3) (z : BitVec 1) (d a b : BitVec 7) (s_ : BitVec 1) (s : State) : Out :=
  floatOp s k z d a b s_ fun _ a b _ => (max32 a b, 0)
/-- VABS: exact; NaN gives the canonical NaN (R124). -/
def execVabs (k : BitVec 3) (z : BitVec 1) (d a : BitVec 7) (s : State) : Out :=
  s.act fun c => s.deliverV 4 32 d (c.readK k) z (fun i => rne32 (Fv.abs (fp32 (laneNat (c.readV a) i 32)))) 0 c
/-- VNEG: exact; NaN gives the canonical NaN (R124). -/
def execVneg (k : BitVec 3) (z : BitVec 1) (d a : BitVec 7) (s : State) : Out :=
  s.act fun c => s.deliverV 4 32 d (c.readK k) z (fun i => rne32 (Fv.negate (fp32 (laneNat (c.readV a) i 32)))) 0 c
/-- VCMPEQ (R47, R125). -/
def execVcmpeq (k : BitVec 3) (z : BitVec 1) (d : BitVec 3) (a b : BitVec 7) (s_ : BitVec 1) (s : State) : Out :=
  floatCmp s k z d a b s_ Fv.eq
/-- VCMPLT (R47, R125). -/
def execVcmplt (k : BitVec 3) (z : BitVec 1) (d : BitVec 3) (a b : BitVec 7) (s_ : BitVec 1) (s : State) : Out :=
  floatCmp s k z d a b s_ Fv.lt
/-- VCMPLE (R47, R125). -/
def execVcmple (k : BitVec 3) (z : BitVec 1) (d : BitVec 3) (a b : BitVec 7) (s_ : BitVec 1) (s : State) : Out :=
  floatCmp s k z d a b s_ fun a b => a.lt b || a.eq b
/-- VCMPNE (R47, R125). -/
def execVcmpne (k : BitVec 3) (z : BitVec 1) (d : BitVec 3) (a b : BitVec 7) (s_ : BitVec 1) (s : State) : Out :=
  floatCmp s k z d a b s_ fun a b => !(a.eq b)

/-! ## Integers, logic and shifts (R126, R127) -/

/-- A lane-wise instruction with an integer operand: `f` of the width, a and b. -/
def intOp (s : State) (k : BitVec 3) (z : BitVec 1) (d a : BitVec 7) (n : BitVec 1) (b : BitVec 6) (sc : BitVec 1)
    (f : Nat → Nat → Nat → Nat) : Out :=
  s.act fun c =>
    let w := intWidth n
    s.deliverV 2 w d (c.readK k) z (fun i => f w (laneNat (c.readV a) i w) (c.intB n b sc i)) 0 c

/-- An integer compare into mask k[D] (R127). -/
def intCmp (s : State) (k : BitVec 3) (z : BitVec 1) (d : BitVec 3) (a : BitVec 7) (n : BitVec 1) (b : BitVec 6)
    (sc : BitVec 1) (f : Int → Int → Bool) : Out :=
  s.act fun c =>
    let w := intWidth n
    s.deliverK 2 (2048 / w) d (c.readK k) z
      (fun i => f (signed w (laneNat (c.readV a) i w)) (signed w (c.intB n b sc i))) c

/-- The lane-wise exclusive or of two numbers. -/
def xorNat (w a b : Nat) : Nat := (BitVec.ofNat w a ^^^ BitVec.ofNat w b).toNat
/-- Arithmetic right shift of a lane, sign fill from w on (R57). -/
def sarLane (w a b : Nat) : Nat := wrapNat w (signed w a / (2 ^ (min b w) : Nat))
/-- The lesser of two signed lanes. -/
def sminLane (w a b : Nat) : Nat := if signed w b < signed w a then b else a
/-- The greater of two signed lanes. -/
def smaxLane (w a b : Nat) : Nat := if signed w a < signed w b then b else a
/-- VIADD (R126). -/
def execViadd (k : BitVec 3) (z : BitVec 1) (d a : BitVec 7) (n : BitVec 1) (b : BitVec 6) (s_ : BitVec 1) (s : State) : Out :=
  intOp s k z d a n b s_ fun _ a b => a + b
/-- VISUB (R126). -/
def execVisub (k : BitVec 3) (z : BitVec 1) (d a : BitVec 7) (n : BitVec 1) (b : BitVec 6) (s_ : BitVec 1) (s : State) : Out :=
  intOp s k z d a n b s_ fun w a b => a + 2 ^ w - b
/-- VIMUL (R126). -/
def execVimul (k : BitVec 3) (z : BitVec 1) (d a : BitVec 7) (n : BitVec 1) (b : BitVec 6) (s_ : BitVec 1) (s : State) : Out :=
  intOp s k z d a n b s_ fun _ a b => a * b
/-- VAND (R126). -/
def execVand (k : BitVec 3) (z : BitVec 1) (d a : BitVec 7) (n : BitVec 1) (b : BitVec 6) (s_ : BitVec 1) (s : State) : Out :=
  intOp s k z d a n b s_ fun w a b => (BitVec.ofNat w a &&& BitVec.ofNat w b).toNat
/-- VOR (R126). -/
def execVor (k : BitVec 3) (z : BitVec 1) (d a : BitVec 7) (n : BitVec 1) (b : BitVec 6) (s_ : BitVec 1) (s : State) : Out :=
  intOp s k z d a n b s_ fun w a b => (BitVec.ofNat w a ||| BitVec.ofNat w b).toNat
/-- VXOR (R126). -/
def execVxor (k : BitVec 3) (z : BitVec 1) (d a : BitVec 7) (n : BitVec 1) (b : BitVec 6) (s_ : BitVec 1) (s : State) : Out :=
  intOp s k z d a n b s_ xorNat
/-- VSHL (R126). -/
def execVshl (k : BitVec 3) (z : BitVec 1) (d a : BitVec 7) (n : BitVec 1) (b : BitVec 6) (s_ : BitVec 1) (s : State) : Out :=
  intOp s k z d a n b s_ fun w a b => if w ≤ b then 0 else a * 2 ^ b
/-- VSHR (R126). -/
def execVshr (k : BitVec 3) (z : BitVec 1) (d a : BitVec 7) (n : BitVec 1) (b : BitVec 6) (s_ : BitVec 1) (s : State) : Out :=
  intOp s k z d a n b s_ fun w a b => if w ≤ b then 0 else a / 2 ^ b
/-- VSAR (R126). -/
def execVsar (k : BitVec 3) (z : BitVec 1) (d a : BitVec 7) (n : BitVec 1) (b : BitVec 6) (s_ : BitVec 1) (s : State) : Out :=
  intOp s k z d a n b s_ sarLane
/-- VIMIN (R126). -/
def execVimin (k : BitVec 3) (z : BitVec 1) (d a : BitVec 7) (n : BitVec 1) (b : BitVec 6) (s_ : BitVec 1) (s : State) : Out :=
  intOp s k z d a n b s_ sminLane
/-- VIMAX (R126). -/
def execVimax (k : BitVec 3) (z : BitVec 1) (d a : BitVec 7) (n : BitVec 1) (b : BitVec 6) (s_ : BitVec 1) (s : State) : Out :=
  intOp s k z d a n b s_ smaxLane
/-- VIADDS: the saturated sum, and SAT (R126). -/
def execViadds (k : BitVec 3) (z : BitVec 1) (d a : BitVec 7) (n : BitVec 1) (b : BitVec 6) (s_ : BitVec 1) (s : State) : Out :=
  s.act fun c =>
    let w := intWidth n
    let m := c.readK k
    let g (i : Nat) := satAdd w (laneNat (c.readV a) i w) (c.intB n b s_ i)
    s.deliverV 2 w d m z (fun i => (g i).1) (orFlags (2048 / w) m fun i => (g i).2) c
/-- VICMPEQ (R127). -/
def execVicmpeq (k : BitVec 3) (z : BitVec 1) (d : BitVec 3) (a : BitVec 7) (n : BitVec 1) (b : BitVec 6) (s_ : BitVec 1)
    (s : State) : Out :=
  intCmp s k z d a n b s_ fun x y => x == y
/-- VICMPLT (R127). -/
def execVicmplt (k : BitVec 3) (z : BitVec 1) (d : BitVec 3) (a : BitVec 7) (n : BitVec 1) (b : BitVec 6) (s_ : BitVec 1)
    (s : State) : Out :=
  intCmp s k z d a n b s_ fun x y => decide (x < y)

/-! ## Moving lanes (R128, R129) -/
/-- VSEL: K selects between v[A] and the operand; it masks nothing (R128). -/
def execVsel (k : BitVec 3) (z : BitVec 1) (d a : BitVec 7) (n : BitVec 1) (b : BitVec 6) (s_ : BitVec 1) (s : State) : Out :=
  s.checked (z == 0) <| s.act fun c =>
    let w := intWidth n
    let m := c.readK k
    s.deliverV 2 w d (BitVec.allOnes 256) 0
      (fun i => if m.getLsbD i then laneNat (c.readV a) i w else c.intB n b s_ i) 0 c
/-- VPERM: lane i receives the lane that the operand names, or 0 (R128). -/
def execVperm (k : BitVec 3) (z : BitVec 1) (d a : BitVec 7) (n : BitVec 1) (b : BitVec 6) (s_ : BitVec 1) (s : State) : Out :=
  s.act fun c =>
    let w := intWidth n
    s.deliverV 2 w d (c.readK k) z
      (fun i => let x := c.intB n b s_ i; if x < 2048 / w then laneNat (c.readV a) x w else 0) 0 c
/-- VROT: lanes move towards lane 0 (R128). -/
def execVrot (k : BitVec 3) (z : BitVec 1) (d a : BitVec 7) (n : BitVec 1) (b : BitVec 6) (s_ : BitVec 1) (s : State) : Out :=
  s.act fun c =>
    let w := intWidth n
    let r := if s_ = 1 then (c.readS b).toNat else b.toNat
    s.deliverV 2 w d (c.readK k) z (fun i => laneNat (c.readV a) ((i + r) % (2048 / w)) w) 0 c
/-- VMOV (R129). -/
def execVmov (k : BitVec 3) (z : BitVec 1) (d a : BitVec 7) (w : BitVec 2) (s : State) : Out :=
  s.checked (w != 3) <| s.act fun c =>
    s.deliverV 2 (w2Width w) d (c.readK k) z (fun i => laneNat (c.readV a) i (w2Width w)) 0 c
/-- VBCAST of a scalar (R129). -/
def execVbcast (k : BitVec 3) (z : BitVec 1) (d : BitVec 7) (w : BitVec 2) (b : BitVec 6) (s : State) : Out :=
  s.checked (w != 3) <| s.act fun c =>
    s.deliverV 2 (w2Width w) d (c.readK k) z (fun _ => (c.readS b).toNat) 0 c
/-- VBCAST of the extension word (R129). -/
def execVbcastExt (k : BitVec 3) (z : BitVec 1) (d : BitVec 7) (w : BitVec 2) (xw : BitVec 32) (s : State) : Out :=
  s.checked (w != 3) <| s.act fun c => s.deliverV 2 (w2Width w) d (c.readK k) z (fun _ => xw.toNat) 0 c

/-! ## Conversion, quantisation, random bits (R130 to R133, R42, R56) -/

/-- The key and the position that a consumer of the random-bits queue sees at position offset `j` (R15). -/
def Core.rngAt (c : Core) (j : Nat) : Vec :=
  if c.ctx.clk < c.ctx.rngOld then rngVec 0 0 else rngVec c.ctx.rngKey (c.ctx.rngPos.toNat + j)

/-- RNGPOS advanced by the positions taken (R15). -/
def Core.rngTake (c : Core) (n : Nat) : Core :=
  { c with ctx := { c.ctx with rngPos := c.ctx.rngPos + BitVec.ofNat 64 n } }
/-- VCVT (R130, R131). -/
def execVcvt (k : BitVec 3) (z : BitVec 1) (d a : BitVec 7) (t f : BitVec 3) (p : BitVec 2) (s : State) : Out :=
  s.checked (t != f && decide (p.toNat < cvtRatio t f)) <| s.act <| s.room fun c =>
    let ws := cvtWidth f
    let wd := cvtWidth t
    let n := 2048 / max ws wd
    let m := c.readK k
    let srcAt (i : Nat) := if wd ≤ ws then i else p.toNat * n + i
    let dst0 := if wd ≤ ws then p.toNat * n else 0
    let sr := c.ctx.vrm == 2
    let rnd (i : Nat) : Rnd :=
      if sr then .sr (laneNat (c.rngAt (i / 64)) (i % 64) 32) else if c.ctx.vrm = 1 then .rtz else .rne
    let g (i : Nat) := convert (rnd i) f.toNat t.toNat (laneNat (c.readV a) (srcAt i) ws)
    let val := packNat wd n fun i => if m.getLsbD i then (g i).1 else 0
    let msk := packNat wd n fun i => if m.getLsbD i || z == 1 then 2 ^ wd - 1 else 0
    let at_ (x : Nat) : Vec := BitVec.ofNat 2048 (x <<< (dst0 * wd))
    let c1 := if sr then c.rngTake ((n + 63) / 64) else c
    c1.addItem s.slot 4 true false
      [.setV (c.ctx.physV d.toNat) (at_ val) (at_ msk), .flags (orFlags n m fun i => (g i).2)]

/-- One block of VQNT: the block word, the scale code and the flags (R56). -/
def quantBlock (x : Nat → Nat) (use : Nat → Bool) : Nat × Nat × BitVec 7 :=
  let v (j : Nat) : Fv := if use j then fp32 (x j) else .fin false 0 0
  let vs := (List.range 8).map v
  if vs.any Fv.isNaN then (0, 0x3FF, flNV)
  else
    let mx := vs.foldl (fun a b => a.max b.abs) (.fin false 0 0)
    let big := !(absLe mx (e5m5 0x3FE) 6)
    let sc := if big then 0x3FE else if mx.eq (.fin false 0 0) then 1 else scaleSearch mx 10 1
    let q (j : Nat) := quotE2M1 (v j) (e5m5 sc)
    (packNat 4 8 fun j => if use j then (q j).1 + (if (v j).neg? then 8 else 0) else 0, sc,
      (List.range 8).foldl (fun f j => if use j then f ||| (q j).2 else f) (if big then flOF else 0))
/-- VQNT: eight FP4 blocks and their packed scales (R132). -/
def execVqnt (k : BitVec 3) (d a : BitVec 7) (s : State) : Out :=
  s.act fun c =>
    let m := c.readK k
    let blk (b : Nat) := quantBlock (fun j => laneNat (c.readV a) (8 * b + j) 32) (fun j => m.getLsbD (8 * b + j))
    let scale (i : Nat) := (List.range 3).foldl (fun x f => if 3 * i + f < 8 then x + (blk (3 * i + f)).2.1 <<< (10 * f) else x) 0
    s.deliver 4 [.setV (c.ctx.physV d.toNat)
      (ofLanes 32 64 fun i => if i < 8 then (blk i).1 else if i < 11 then scale (i - 8) else 0) (BitVec.allOnes 2048),
      .flags ((List.range 8).foldl (fun f b => f ||| (blk b).2.2) 0)] c
/-- VRNG (R133). -/
def execVrng (k : BitVec 3) (z : BitVec 1) (d : BitVec 7) (s : State) : Out :=
  s.act <| s.room fun c =>
    s.deliverV 2 32 d (c.readK k) z (fun i => laneNat (c.rngAt 0) i 32) 0 (c.rngTake 1)

/-! ## Reductions (R54, R55, R134) -/

/-- The lanes that a reduction format names, widened to FP32 (R134). -/
def reduceLanes (f : BitVec 2) (v : Vec) : List Nat :=
  if f = 0 then (List.range 64).map fun i => laneNat v i 32
  else (List.range 128).map fun i => rne32 ((if f = 1 then Fmt.bf16 else Fmt.fp16).decode (laneNat v i 16))

/-- One level of the pairwise tree (R54). -/
def pairwise (l : List Nat) : List Nat :=
  match l with
  | a :: b :: r => add32 a b :: pairwise r
  | l => l

/-- The pairwise tree of seven levels, of which the lanes need at most all (R54). -/
def treeSum (l : List Nat) : Nat := ((List.range 7).foldl (fun l _ => pairwise l) l).headD 0x80000000

/-- The delivery of a reduction into a vector or a scalar (R134). -/
def reduceOp (s : State) (k : BitVec 3) (d a : BitVec 7) (x : BitVec 1) (f : BitVec 2) (g : Mask → List Nat → Nat) : Out :=
  s.checked (f != 3 && (x == 0 || d.getLsbD 6 == false)) <| s.act fun c =>
    let r := g (c.readK k) (reduceLanes f (c.readV a))
    s.deliver 6 [if x = 1 then .setS (c.ctx.physS (d.extractLsb' 0 6).toNat) (BitVec.ofNat 64 r)
      else .setV (c.ctx.physV d.toNat) (BitVec.ofNat 2048 r) (BitVec.allOnes 2048)] c
/-- VRSUM (R54, R134). -/
def execVrsum (k : BitVec 3) (d a : BitVec 7) (x : BitVec 1) (f : BitVec 2) (s : State) : Out :=
  reduceOp s k d a x f fun m l => treeSum (l.zipIdx.map fun y => if m.getLsbD y.2 then y.1 else 0x80000000)
/-- VRMAX (R55, R134). -/
def execVrmax (k : BitVec 3) (d a : BitVec 7) (x : BitVec 1) (f : BitVec 2) (s : State) : Out :=
  reduceOp s k d a x f fun m l => l.zipIdx.foldl (fun r y => if m.getLsbD y.2 then max32 r y.1 else r) 0xFF800000

end Sys2Proof.Machine
end

