-- ==== Sys2Proof/Machine/VecMem.lean ====
section
/-! DEFINITION. Vector memory and tiles: VLD, VST, VGATHER, VSCATTER, TWROW, TRDCOL (spec/06 R135 to R138). -/

namespace Sys2Proof.Machine

open Sys2Proof

/-- VLD: reads the face at c+3, delivers at c+5 (R135). -/
def execVld (k : BitVec 3) (z : BitVec 1) (d : BitVec 7) (w : BitVec 2) (b : BitVec 6) (xw : Option (BitVec 32))
    (s : State) : Out :=
  s.checked (w != 3) <| s.act <| s.room fun c =>
    let ea := c.readS b + off32 xw
    s.unless (c.check s.cur ea 256 256 true false [.face]) ea (fun c =>
      let m := laneMask (w2Width w) (2048 / w2Width w) fun i => (c.readK k).getLsbD i
      c.addItem s.slot 3 true false [.vload ea (c.ctx.physV d.toNat) m (if z = 1 then ~~~m else 0)]) c

/-- VST: writes the bytes of the unmasked lanes at c+3 (R135). -/
def execVst (k : BitVec 3) (d : BitVec 7) (w : BitVec 2) (b : BitVec 6) (xw : Option (BitVec 32)) (s : State) : Out :=
  s.checked (w != 3) <| s.act <| s.room fun c =>
    let ea := c.readS b + off32 xw
    s.unless (c.check s.cur ea 256 256 false true [.face]) ea (fun c =>
      let bytes := BitVec.ofNat 256 (packNat 1 256 fun i => if (c.readK k).getLsbD (8 * i / w2Width w) then 1 else 0)
      c.addItem s.slot 3 true false [.vstore ea (c.readV d) bytes]) c

/-- The hazard count of gathers and scatters of a slot: the first schedule count at which another may issue (R136). -/
def Ctx.gatherFree (x : Ctx) (slot : Nat) : Nat := if slot = 2 then x.gs2 else x.gs3

/-- The hazard count renewed by a gather or scatter issued now. -/
def Core.gatherIssued (c : Core) (slot : Nat) : Core :=
  { c with ctx := if slot = 2 then { c.ctx with gs2 := c.ctx.clk + 16 } else { c.ctx with gs3 := c.ctx.clk + 16 } }

/-- The checks of VGATHER and VSCATTER at issue: II_VIOLATION, then the window of the base (R136, R137). -/
def gatherIssue (s : State) (b : BitVec 6) (f : Bool → Core → Core) : Core → Core :=
  s.room fun c =>
    if c.ctx.clk < c.ctx.gatherFree s.slot then s.iiViolation c
    else
      match winOf (c.readS b).toNat with
      | none => s.fault cTABLE (c.readS b) 0 c
      | some .device => s.fault cCLASS (c.readS b) 0 c
      | some .face => f false (c.gatherIssued s.slot)
      | some .cluster => f true (c.gatherIssued s.slot)

/-- The progress register of the acting vector slot (R19). -/
def State.vecProg (s : State) : Nat := if s.slot = 2 then 1 else 2

/-- VGATHER: 64 elements, four per cycle, delivered at c+20 or c+30 (R136, R137). -/
def execVgather (k : BitVec 3) (z : BitVec 1) (d a : BitVec 7) (b : BitVec 6) (s : State) : Out :=
  s.act <| gatherIssue s b fun cl c =>
    c.addMacro s.slot (c.startAt s.vecProg) 64
      (.gather (c.readS b) (c.readV a) ((c.readK k).extractLsb' 0 64) (z == 1) (c.ctx.physV d.toNat) cl 0 0)

/-- VSCATTER: 64 elements, four per cycle (R136, R137). -/
def execVscatter (k : BitVec 3) (d a : BitVec 7) (b : BitVec 6) (s : State) : Out :=
  s.act <| gatherIssue s b fun cl c =>
    c.addMacro s.slot (c.startAt s.vecProg) 64
      (.scatter (c.readS b) (c.readV a) (c.readV d) ((c.readK k).extractLsb' 0 64) cl)

/-- TWROW: a row of a tile from a vector at c+3 (R138). -/
def execTwrow (k : BitVec 3) (z : BitVec 1) (d : BitVec 3) (a : BitVec 7) (b : BitVec 6) (s_ : BitVec 1) (s : State) : Out :=
  s.act fun c =>
    let m := c.readK k
    s.deliver 3 [.tileRow d.toNat (c.tileIndex b s_) (laneResult 32 m fun i => laneNat (c.readV a) i 32)
      (writeMask 32 m z)] c

/-- The rows of a tile before the load under way on it, with the row at which the load stands (R13). -/
def Core.tileBefore (c : Core) (t : Nat) : Option (Nat × List Vec) :=
  (c.qa ++ c.qb ++ c.nt).findSome? fun e =>
    match e.kind with
    | .tld k _ _ _ _ _ old => if k = t then some (e.row, old) else none
    | .gather k _ _ _ _ _ _ _ old => if k = t then some (e.row, old) else none
    | _ => none

/-- A cell as TRDCOL reads it: of a pending tile, a cell the load has written reads old or new, cell by cell (R13). The
choice is free: DESIGN CHOICE, log entry 7. -/
def Core.tileCell (c : Core) (choice t i q : Nat) : Nat :=
  match c.tileBefore t with
  | some (r, old) =>
    if i < r && Config.pendingCell (choice + i) then laneNat (old.getD i 0) q 32 else laneNat (c.tileRow t i) q 32
  | none => laneNat (c.tileRow t i) q 32

/-- TRDCOL: a column of a tile read at issue, delivered at c+3 (R13, R138). -/
def execTrdcol (k : BitVec 3) (z : BitVec 1) (d : BitVec 7) (a : BitVec 3) (b : BitVec 6) (s_ : BitVec 1) (s : State) : Out :=
  s.act fun c =>
    s.deliverV 3 32 d (c.readK k) z
      (fun i => c.tileCell (((s.cyc * 768 + s.cur) * 8 + s.slot) * 64) a.toNat i (c.tileIndex b s_)) 0 c

end Sys2Proof.Machine
end

