-- ==== Sys2Proof/Machine/Special.lean ====
section
/-! DEFINITION. The special functions of slot 2 (spec/06 R139, R140): exact and special cases as the table gives them; any
other result is a free value held to the bound of R140 around an enclosure of the exact value. DESIGN CHOICE, log entry 8. -/

namespace Sys2Proof.Machine

open Sys2Proof

/-! ## Enclosures -/

/-- An exact value enclosed: sign, and bounds `lo` ≤ |y| ≤ `hi` in units of 2^e. -/
structure Encl where
  neg : Bool
  lo  : Nat
  hi  : Nat
  e   : Int
  deriving DecidableEq, Repr

/-- ln 2 in units of 2^-96, rounded down. -/
def ln2C : Nat := 54916777467707473351141471128
/-- log2 e in units of 2^-96, rounded down. -/
def log2eC : Nat := 114302077158074026402637675936
/-- π in units of 2^-96, rounded down. -/
def piC : Nat := 248902613312231085230521944622

/-- The unit in the last place of FP32 at a magnitude (R139). -/
def ulpAt (m : Nat) (e : Int) : Fv := .fin false 1 (max (e + Nat.log2 m) (-126) - 23)

/-- e^y for 0 ≤ y < 1, y and result in units of 2^-96: 40 terms of its series. -/
def expSeries (y : Nat) : Nat :=
  ((List.range 40).foldl (fun (acc : Nat × Nat) k =>
    let t := acc.2 * y / (2 ^ 96 * (k + 1))
    (acc.1 + t, t)) (2 ^ 96, 2 ^ 96)).1

/-- sin y for 0 ≤ y ≤ 2, y and result in units of 2^-96: 20 terms of its series. -/
def sinSeries (y : Nat) : Int :=
  ((List.range 20).foldl (fun (acc : Int × Nat) k =>
    let t : Nat := acc.2 * y / 2 ^ 96 * y / (2 ^ 96 * ((2 * k + 2) * (2 * k + 3)))
    (if k % 2 = 0 then acc.1 - t else acc.1 + t, t)) ((y : Int), y)).1

/-- A dyadic value in units of 2^-96, rounded down. -/
def fix96 (neg : Bool) (m : Nat) (e : Int) : Int :=
  if 0 ≤ e + 96 then smant neg m * (2 ^ (e + 96).toNat : Nat) else smant neg m / (2 ^ (-(e + 96)).toNat : Nat)

/-- 2^x enclosed for an x that is no integer, in units of 2^-96 rounded down: it stays within its binade. -/
def exp2Encl (x : Int) : Encl :=
  let n := x / (2 ^ 96 : Nat)
  let f := (x % (2 ^ 96 : Nat)).toNat
  let v := expSeries (f * ln2C / 2 ^ 96)
  ⟨false, max (v - 2 ^ 10) (2 ^ 96), min (v + 2 ^ 10) (2 ^ 97), n - 96⟩

/-- 1 / x enclosed. -/
def rcpEncl (neg : Bool) (m : Nat) (e : Int) : Encl :=
  ⟨neg, 2 ^ 80 / m, (2 ^ 80 + m - 1) / m, -80 - e⟩

/-- The integer square root by bits from `k` down. -/
def isqrt (n k r : Nat) : Nat :=
  match k with
  | 0 => r
  | j + 1 => if (r + 2 ^ j) * (r + 2 ^ j) ≤ n then isqrt n j (r + 2 ^ j) else isqrt n j r

/-- 1 / √x enclosed. -/
def rsqEncl (m : Nat) (e : Int) : Encl :=
  let (m, e) := if e % 2 = 0 then (m, e) else (2 * m, e - 1)
  let r := isqrt (2 ^ 160 / m) 81 0
  ⟨false, r, r + 2, -80 - e / 2⟩

/-- The binary digits of log2 of y / 2^128 in [1, 2): `k` of them. -/
def log2Digits (y k acc : Nat) : Nat :=
  match k with
  | 0 => acc
  | j + 1 =>
    let q := y * y / 2 ^ 128
    if 2 ^ 129 ≤ q then log2Digits (q / 2) j (2 * acc + 1) else log2Digits q j (2 * acc)

/-- log2 x enclosed. -/
def log2Encl (m : Nat) (e : Int) : Encl :=
  let l := Nat.log2 m
  let v : Int := (e + l) * (2 ^ 80 : Nat) + log2Digits (m * 2 ^ (128 - l)) 80 0
  if 0 ≤ v then ⟨false, v.toNat - 1, v.toNat + 2, -80⟩ else ⟨true, v.natAbs - 2, v.natAbs + 1, -80⟩

/-- sin(π·t) enclosed, t in units of 2^-96; its magnitude does not exceed 1. -/
def sinPiEncl (t : Int) : Encl :=
  let r := (t % (2 ^ 97 : Nat)).toNat
  let neg := decide (2 ^ 96 ≤ r)
  let h := r % 2 ^ 96
  let q := if 2 ^ 95 < h then 2 ^ 96 - h else h
  let v := (sinSeries (q * piC / 2 ^ 96)).toNat
  ⟨neg, min (v - 2 ^ 10) (2 ^ 96), min (v + 2 ^ 10) (2 ^ 96), -96⟩

/-- n × 2^k rounded down. -/
def shiftNat (n : Nat) (k : Int) : Nat := if 0 ≤ k then n * 2 ^ k.toNat else n / 2 ^ (-k).toNat

/-- tanh x enclosed: for a small x between the partial sums of x − x³/3 + 2x⁵/15 − 17x⁷/315, else from e^(2x). -/
def tanhEncl (neg : Bool) (m : Nat) (e : Int) : Encl :=
  if e + Nat.log2 m < -12 then
    let x := m * 2 ^ 100
    let t3 := shiftNat (m ^ 3) (2 * e + 100) / 3
    let t5 := shiftNat (2 * m ^ 5) (4 * e + 100) / 15
    let t7 := shiftNat (17 * m ^ 7) (6 * e + 100) / 315
    ⟨neg, x - (t3 + 1) + t5 - (t7 + 1), min x (x - t3 + (t5 + 1)), e - 100⟩
  else
    let z := fix96 false (m * log2eC) (e + 1 - 96)
    let g := exp2Encl z
    let big := g.lo * 2 ^ (g.e + 96).toNat
    let t := (big - 2 ^ 96) * 2 ^ 96 / (big + 2 ^ 96)
    ⟨neg, t - 2 ^ 12, t + 2 ^ 12, -96⟩

/-! ## The bounded result -/

/-- The numeric value of a candidate; an infinity stands for the power of two past the largest finite value. -/
def candValue (c : Nat) : Fv :=
  match fp32 c with
  | .inf n => .fin n 1 128
  | v => v

/-- A result within `n` ulp, or within 2^`abs` if larger, of an enclosed value: the free value where it lies within the
bound of every value enclosed, the ulp being that of the magnitude; else the enclosure's own rounding (R139, R140). -/
def boundedResult (op : Nat) (x : Nat) (n : Nat) (abs : Option Int) (y : Encl) : Nat :=
  let cand := (Config.sfu op (BitVec.ofNat 32 x)).toNat
  let ulp := (Fv.fin false n 0).mul (ulpAt y.lo y.e)
  let tol := match abs with | none => ulp | some a => ulp.max (.fin false 1 a)
  let mag : Fv := if y.neg then (candValue cand).negate else candValue cand
  let ok := !mag.isNaN && !(mag.lt ((Fv.fin false y.hi y.e).add tol.negate)) && !(((Fv.fin false y.lo y.e).add tol).lt mag) &&
    !(cand % 2 ^ 31 == 0 && cand.testBit 31 != y.neg)
  if ok then cand else (if y.neg then 2 ^ 31 else 0) + rne32 (.fin false y.lo y.e)

/-- The flags of a result that differs from the exact value (R45, R140). -/
def inexactFlags (c : Nat) : BitVec 7 :=
  if c % 2 ^ 31 = 0x7F800000 then flOF ||| flNX else if c % 2 ^ 31 < 0x00800000 then flUF ||| flNX else flNX

/-- A free result of an inexact function. -/
def inexact (op x n : Nat) (abs : Option Int) (y : Encl) : Nat × BitVec 7 :=
  let c := boundedResult op x n abs y
  (c, inexactFlags c)

/-- An exact result. -/
def exactly (x : Fv) : Nat × BitVec 7 := (rne32 x, 0)

/-- The canonical NaN with NV. -/
def invalid : Nat × BitVec 7 := (0x7FC00000, flNV)

/-- Whether a mantissa is a power of two. -/
def isPow2 (m : Nat) : Bool := m = 2 ^ Nat.log2 m

/-- 1/x: a free result where x is no power of two or the result is not normal; its flags follow from the result. -/
def rcpFree (x : Nat) (neg : Bool) (m : Nat) (e : Int) : Nat × BitVec 7 :=
  let c := boundedResult 0x2C x 1 none (rcpEncl neg m e)
  if ((candValue c).mul (.fin neg m e)).eq (.fin false 1 0) && c % 2 ^ 31 < 0x7F800000 then (c, 0) else (c, inexactFlags c)

/-- VRCP (R140). -/
def sfRcp (x : Nat) : Nat × BitVec 7 :=
  match fp32 x with
  | .nan => (0x7FC00000, 0)
  | .inf n => ((if n then 2 ^ 31 else 0), 0)
  | .fin n 0 _ => ((if n then 0xFF800000 else 0x7F800000), flDZ)
  | .fin n m e =>
    let l := e + Nat.log2 m
    if l < -128 then ((if n then 0xFF800000 else 0x7F800000), flOF ||| flNX)
    else if isPow2 m && decide (-127 ≤ l) && decide (l ≤ 126) then exactly (.fin n 1 (-l))
    else rcpFree x n m e

/-- VRSQ (R140). -/
def sfRsq (x : Nat) : Nat × BitVec 7 :=
  match fp32 x with
  | .nan => (0x7FC00000, 0)
  | .fin n 0 _ => ((if n then 0xFF800000 else 0x7F800000), flDZ)
  | .inf false => (0, 0)
  | .inf true => invalid
  | .fin true _ _ => invalid
  | .fin false m e =>
    let l := e + Nat.log2 m
    if isPow2 m && l % 2 == 0 then exactly (.fin false 1 (-(l / 2))) else inexact 0x2D x 1 none (rsqEncl m e)

/-- Whether a dyadic value is an integer, and its value. -/
def dyadicInt (n : Bool) (m : Nat) (e : Int) : Option Int :=
  if 0 ≤ e then some (smant n (m * 2 ^ e.toNat))
  else if m % 2 ^ (-e).toNat = 0 then some (smant n (m / 2 ^ (-e).toNat)) else none

/-- VEXP2 (R140). -/
def sfExp2 (x : Nat) : Nat × BitVec 7 :=
  match fp32 x with
  | .nan => (0x7FC00000, 0)
  | .inf false => (0x7F800000, 0)
  | .inf true => (0, 0)
  | .fin n m e =>
    let v : Fv := .fin n m e
    if !(v.lt (.fin false 128 0)) then (0x7F800000, flOF ||| flNX)
    else if v.lt (.fin true 150 0) then (0, flUF ||| flNX)
    else
      match dyadicInt n m e with
      | some i => if -149 ≤ i then exactly (.fin false 1 i) else inexact 0x2E x 2 none ⟨false, 1, 1, i⟩
      | none => inexact 0x2E x 2 none (exp2Encl (fix96 n m e))

/-- VLOG2 (R140). -/
def sfLog2 (x : Nat) : Nat × BitVec 7 :=
  match fp32 x with
  | .nan => (0x7FC00000, 0)
  | .fin _ 0 _ => (0xFF800000, flDZ)
  | .inf false => (0x7F800000, 0)
  | .inf true => invalid
  | .fin true _ _ => invalid
  | .fin false m e =>
    if isPow2 m then
      let l := e + Nat.log2 m
      exactly (.fin (decide (l < 0)) l.natAbs 0)
    else inexact 0x2F x 2 (some (-31)) (log2Encl m e)

/-- VSIN and VCOS of a finite input: the value sin(π·(x + h/2)), with its exact cases (R140). -/
def sfTrig (op : Nat) (cos : Bool) (x : Nat) : Nat × BitVec 7 :=
  match fp32 x with
  | .nan => (0x7FC00000, 0)
  | .inf _ => invalid
  | .fin n 0 _ => if cos then (0x3F800000, 0) else ((if n then 2 ^ 31 else 0), 0)
  | .fin n m e =>
    let sign (i : Int) : Nat := if i % 2 = 0 then 0x3F800000 else 0xBF800000
    match dyadicInt n m e, dyadicInt n m (e + 1) with
    | some i, _ => if cos then (sign i, 0) else ((if n then 2 ^ 31 else 0), 0)
    | none, some j => if cos then (0, 0) else (sign ((j - 1) / 2), 0)
    | none, none =>
      inexact op x 2 (some (-30)) (sinPiEncl (fix96 n m e + (if cos then (2 ^ 95 : Nat) else (0 : Nat))))

/-- VTANH (R140). -/
def sfTanh (x : Nat) : Nat × BitVec 7 :=
  match fp32 x with
  | .nan => (0x7FC00000, 0)
  | .inf n => ((if n then 0xBF800000 else 0x3F800000), 0)
  | .fin n 0 _ => ((if n then 2 ^ 31 else 0), 0)
  | .fin n m e =>
    if !((Fv.fin false (10 * m) e).lt (.fin false 91 0)) then ((if n then 0xBF800000 else 0x3F800000), flNX)
    else inexact 0x32 x 2 none (tanhEncl n m e)

/-- A special function over 64 lanes, delivered at c+8 (R139). -/
def sfuOp (s : State) (k : BitVec 3) (z : BitVec 1) (d a : BitVec 7) (f : Nat → Nat × BitVec 7) : Out :=
  s.act fun c =>
    let m := c.readK k
    let g (i : Nat) := f (laneNat (c.readV a) i 32)
    s.deliverV 8 32 d m z (fun i => (g i).1) (orFlags 64 m fun i => (g i).2) c

/-- VRCP (R140). -/
def execVrcp (k : BitVec 3) (z : BitVec 1) (d a : BitVec 7) (s : State) : Out := sfuOp s k z d a sfRcp
/-- VRSQ (R140). -/
def execVrsq (k : BitVec 3) (z : BitVec 1) (d a : BitVec 7) (s : State) : Out := sfuOp s k z d a sfRsq
/-- VEXP2 (R140). -/
def execVexp2 (k : BitVec 3) (z : BitVec 1) (d a : BitVec 7) (s : State) : Out := sfuOp s k z d a sfExp2
/-- VLOG2 (R140). -/
def execVlog2 (k : BitVec 3) (z : BitVec 1) (d a : BitVec 7) (s : State) : Out := sfuOp s k z d a sfLog2
/-- VSIN (R140). -/
def execVsin (k : BitVec 3) (z : BitVec 1) (d a : BitVec 7) (s : State) : Out := sfuOp s k z d a (sfTrig 0x30 false)
/-- VCOS (R140). -/
def execVcos (k : BitVec 3) (z : BitVec 1) (d a : BitVec 7) (s : State) : Out := sfuOp s k z d a (sfTrig 0x31 true)
/-- VTANH (R140). -/
def execVtanh (k : BitVec 3) (z : BitVec 1) (d a : BitVec 7) (s : State) : Out := sfuOp s k z d a sfTanh

end Sys2Proof.Machine
end

