-- ==== Sys2Proof/Machine/Assay.lean ====
section
/-! DEFINITION. The assay unit of slot 2: contexts, sketches, heavy hitters, distinct counts, images and merges
(spec/07 R141 to R160). -/

namespace Sys2Proof.Machine

open Sys2Proof

/-! ## An update under way -/

/-- A context while an instruction applies to it: its position of the random-bits queue, the draws taken from it, and
whether a count saturated (R142, R147). -/
structure AWork where
  a   : Assay
  rng : Vec
  j   : Nat
  ovf : Bool
  deriving DecidableEq, Repr

/-- A value saturated at 2^64 − 1 (R150). -/
def sat64 (n : Nat) : Nat := min n (2 ^ 64 - 1)

/-- A count saturated at 2^32 − 1, and whether it was clamped (R150, R153). -/
def sat32 (n : Nat) : Nat × Bool := if 2 ^ 32 - 1 < n then (2 ^ 32 - 1, true) else (n, false)

/-- One bit of the LFSR coin (R147). -/
def lfsrBit (l : Word) : Bool × Word :=
  let fb := (l.getLsbD 63).xor ((l.getLsbD 62).xor ((l.getLsbD 60).xor (l.getLsbD 59)))
  (fb, (l <<< 1) ||| (if fb then 1 else 0))

/-- `n` bits of the LFSR coin, the first the least significant. -/
def lfsrBits (n i : Nat) (l : Word) (acc : Nat) : Nat × Word :=
  match n with
  | 0 => (acc, l)
  | k + 1 =>
    let (b, l) := lfsrBit l
    lfsrBits k (i + 1) l (if b then acc + 2 ^ i else acc)

/-- A draw of `d` bits from the context's coin source (R147). -/
def AWork.draw (w : AWork) (d : Nat) : Nat × AWork :=
  let d := min d 32
  match w.a.coin with
  | 0 =>
    let (v, l) := lfsrBits d 0 w.a.lfsr 0
    (v, { w with a := { w.a with lfsr := l } })
  | 1 => (laneNat w.rng (w.j % 64) 32 % 2 ^ d, { w with j := w.j + 1 })
  | _ => (w.a.alt.toNat % 2 ^ d, { w with a := { w.a with alt := w.a.alt + 1 } })

/-! ## The quantile sketch (R149, R150) -/

/-- An entry put into a list sorted by FP32 total order. -/
def insertSorted (x : BitVec 32) (l : List (BitVec 32)) : List (BitVec 32) :=
  match l with
  | [] => [x]
  | y :: r => if totalKey x.toNat ≤ totalKey y.toNat then x :: y :: r else y :: insertSorted x r

/-- A level sorted by FP32 total order. -/
def sortLevel (l : List (BitVec 32)) : List (BitVec 32) := l.foldr insertSorted []

/-- The entries at positions `p` with p mod s = o. -/
def everyNth (l : List (BitVec 32)) (s o : Nat) : List (BitVec 32) :=
  (l.zipIdx.filter fun x => x.2 % s = o).map Prod.fst

/-- Level `h` of a context. -/
def Assay.level (a : Assay) (h : Nat) : List (BitVec 32) := Map.get a.lev h []

/-- Level `h` replaced. -/
def AWork.setLevel (w : AWork) (h : Nat) (l : List (BitVec 32)) : AWork :=
  { w with a := { w.a with lev := if l.isEmpty then Map.del w.a.lev h else Map.put w.a.lev h l } }

/-- CNT[h] raised, saturating (R150). -/
def AWork.addCnt (w : AWork) (h n : Nat) : AWork :=
  let (v, o) := sat32 (Map.get w.a.cnt h 0 + n)
  { w with a := { w.a with cnt := Map.put w.a.cnt h v }, ovf := w.ovf || o }

/-- Sampling of sorted entries of weight 2^x with stride 2^d (R150). -/
def AWork.sample (w : AWork) (l : List (BitVec 32)) (x d : Nat) : List (BitVec 32) × AWork :=
  let (o, w) := w.draw d
  (everyNth l (2 ^ d) o, { w with a := { w.a with etop := sat64 (w.a.etop + (2 ^ d - 1) * 2 ^ x) } })

/-- One entry appended to level 15 − k; a level that reaches 64 entries compacts at once, and so may the levels above it
(R149, R150). -/
def AWork.append (k : Nat) (w : AWork) (e : BitVec 32) : AWork :=
  match k with
  | 0 =>
    let l := w.a.level 15 ++ [e]
    if l.length < 64 then w.setLevel 15 l
    else
      let (b, w) := w.draw 1
      let w := w.setLevel 15 (everyNth (sortLevel l) 2 b)
      { w with a := { w.a with etop := sat64 (w.a.etop + 2 ^ w.a.t), t := min 63 (w.a.t + 1) } }
  | j + 1 =>
    let h := 14 - j
    let l := w.a.level h ++ [e]
    if l.length < 64 then w.setLevel h l
    else
      let (b, w) := w.draw 1
      let kept := everyNth (sortLevel l) 2 b
      let w := (w.setLevel h []).addCnt h 1
      let (kept, w) := if j = 0 && 15 < w.a.t then w.sample kept 15 (w.a.t - 15) else (kept, w)
      kept.foldl (AWork.append j) w

/-- One lane of ASQU (R149); NANS stays at 2^64 − 1 (DESIGN CHOICE, log entry 77). -/
def AWork.quLane (w : AWork) (x : Nat) : AWork :=
  if (fp32 x).isNaN then { w with a := { w.a with nans := sat64 (w.a.nans + 1) } }
  else AWork.append 15 { w with a := { w.a with n := sat64 (w.a.n + 1) } } (BitVec.ofNat 32 x)

/-! ## Heavy hitters and distinct counts (R153, R155) -/

/-- Counter `j` of a heavy-hitter list: key, count, error. -/
def Assay.counter (a : Assay) (j : Nat) : BitVec 32 × Nat × Nat := Map.get a.keys j (0, 0, 0)

/-- The counter that a new key takes: the lowest invalid, else the least count, lowest index on ties (R153). -/
def Assay.victim (a : Assay) : Nat :=
  match (List.range 64).find? fun j => !(a.valid.getLsbD j) with
  | some j => j
  | none => (List.range 64).foldl (fun b j => if (a.counter j).2.1 < (a.counter b).2.1 then j else b) 0

/-- One lane of ASHH (R153); N stays at 2^64 − 1 (DESIGN CHOICE, log entry 77). -/
def AWork.hhLane (w : AWork) (x wt : Nat) : AWork :=
  if wt = 0 then w
  else
    let a := { w.a with n := sat64 (w.a.n + wt) }
    match (List.range 64).find? fun j => a.valid.getLsbD j && (a.counter j).1 == BitVec.ofNat 32 x with
    | some j =>
      let (_, c, e) := a.counter j
      let (v, o) := sat32 (c + wt)
      { w with a := { a with keys := Map.put a.keys j (BitVec.ofNat 32 x, v, e) }, ovf := w.ovf || o }
    | none =>
      let j := a.victim
      let m := if a.valid.getLsbD j then (a.counter j).2.1 else 0
      let (v, o) := sat32 (m + wt)
      { w with
        a := { a with keys := Map.put a.keys j (BitVec.ofNat 32 x, v, m), valid := a.valid ||| (1#64 <<< j) }
        ovf := w.ovf || o }

/-- One element of ASDC (R155). -/
def AWork.dcLane (w : AWork) (x : Word) : AWork :=
  let h := x * 0x9B1F52C73A64E8D5
  let h := h ^^^ (h >>> 31)
  let h := h * 0xC2B74E91D05A3F6B
  let h := h ^^^ (h >>> 29)
  let j := (h.extractLsb' 52 12).toNat
  let rho := leadingZeros 52 (h.extractLsb' 0 52).toNat + 1
  { w with a := { w.a with regs := Map.put w.a.regs j (max (Map.get w.a.regs j 0) rho), n := (w.a.n + 1) % 2 ^ 64 } }

/-! ## Applying updates by lanes (R145, R148) -/

/-- A configured context: all counters zero, T = 15, the coin from the seed (R148). -/
def Assay.fresh (kind coin : Nat) (seed : Word) : Assay :=
  if kind = 0 then Assay.empty else { Assay.empty with kind := kind, coin := coin, t := 15, seed := seed, lfsr := seed }

/-- Lane `i` of an update applied; ASCFG and ASCLR have one element, and a 64-bit element of ASDC stands at its even lane
(R145, R155): one below an odd PROG_AS is not applied (R146; DESIGN CHOICE, log entry 76). -/
def AWork.lane (u : AUpd) (i : Nat) (w : AWork) : AWork :=
  match u with
  | .cfg k co sd => { w with a := Assay.fresh k co sd }
  | .clr => { w with a := Assay.fresh w.a.kind w.a.coin w.a.seed }
  | .free => { w with a := Assay.empty }
  | .qu v m _ => if m.getLsbD i then w.quLane (laneNat v i 32) else w
  | .hh k wt m => if m.getLsbD i then w.hhLane (laneNat k i 32) (laneNat wt i 32) else w
  | .dc v m wide =>
    if wide then (if i % 2 = 0 && m.getLsbD (i / 2) then w.dcLane (Sys2Proof.Machine.lane v (i / 2) 64) else w)
    else if m.getLsbD i then w.dcLane (BitVec.ofNat 64 (laneNat v i 32)) else w

/-- The lanes of an update, from one on up to another. -/
def applyLanes (u : AUpd) (lo hi : Nat) (w : AWork) : AWork :=
  (List.range (hi - lo)).foldl (fun w i => w.lane u (lo + i)) w

/-- The position of the random-bits queue that an update draws from. -/
def AUpd.rng (u : AUpd) : Vec :=
  match u with
  | .qu _ _ r => r
  | _ => 0

/-- A context as stored. -/
def Core.assayStored (c : Core) (i : Nat) : Assay := Map.get c.assay i Assay.empty

/-- A context as left by every update, ASCFG and ASCLR issued before, even one not yet applied (R145). -/
def Core.assayView (c : Core) (i : Nat) : Assay :=
  let pending := ((c.held.map Ctx.macros).getD [] ++ c.ctx.macros)
  pending.foldl (fun a m =>
    match m.work with
    | .assay k u d => if k = i then (applyLanes u m.next m.total ⟨a, u.rng, d, false⟩).a else a
    | _ => a) (c.assayStored i)

/-! ## Images (R141, R157, R158) -/

/-- A context's image of 4,224 bytes (R141). -/
def Assay.image (a : Assay) : List Byte :=
  match a.kind with
  | 1 =>
    [(1 : Byte), BitVec.ofNat 8 a.coin, BitVec.ofNat 8 a.t, 0] ++ toBytes 4 a.alt.toNat ++ toBytes 8 a.n ++ toBytes 8 a.nans ++
      toBytes 8 a.etop ++ toBytes 8 a.lfsr.toNat ++ toBytes 8 a.seed.toNat ++
      (List.range 16).map (fun h => BitVec.ofNat 8 (a.level h).length) ++
      (List.range 15).flatMap (fun h => toBytes 4 (Map.get a.cnt h 0)) ++ toBytes 4 0 ++
      (List.range 16).flatMap fun h => fit 256 ((a.level h).flatMap fun e => toBytes 4 e.toNat)
  | 2 =>
    [(2 : Byte)] ++ toBytes 7 0 ++ toBytes 8 a.n ++ toBytes 8 a.valid.toNat ++ toBytes 104 0 ++
      fit 4096 ((List.range 64).flatMap fun j =>
        let (k, c, e) := a.counter j
        toBytes 4 k.toNat ++ toBytes 4 c ++ toBytes 4 e)
  | 3 =>
    [(3 : Byte)] ++ toBytes 7 0 ++ toBytes 8 a.n ++ toBytes 112 0 ++
      (List.range 4096).map fun j => BitVec.ofNat 8 (Map.get a.regs j 0)
  | _ => List.replicate 4224 0

/-- A little-endian field of an image. -/
def imgField (l : List Byte) (o n : Nat) : Nat := ofBytes ((l.drop o).take n)

/-- Whether the header bytes of an image that the kind's layout does not list are zero (R141, R158). -/
def headerClean (k : Nat) (l : List Byte) : Bool :=
  let used (o : Nat) : Bool :=
    match k with
    | 1 => o < 3 || (4 ≤ o && o < 0x7C)
    | 2 => o < 1 || (8 ≤ o && o < 0x18)
    | 3 => o < 1 || (8 ≤ o && o < 0x10)
    | _ => false
  ((l.take 128).zipIdx).all fun b => used b.2 || b.1 == 0

/-- The context an image holds; none when a check of R158 on the image itself fails. Body bytes beyond the valid entries are no part of it (DESIGN
CHOICE, log entry 77). -/
def parseImage (l : List Byte) : Option Assay :=
  let k := imgField l 0 1
  if 3 < k || !(headerClean k l) then none
  else
    match k with
    | 0 => some Assay.empty
    | 1 =>
      let fill (h : Nat) := imgField l (0x30 + h) 1
      if imgField l 2 1 < 15 || 63 < imgField l 2 1 || 2 < imgField l 1 1 || imgField l 0x28 8 = 0 ||
          (List.range 16).any (fun h => decide (63 < fill h)) then none
      else
        some { Assay.empty with
          kind := 1, coin := imgField l 1 1, t := imgField l 2 1, alt := BitVec.ofNat 32 (imgField l 4 4)
          n := imgField l 8 8, nans := imgField l 0x10 8, etop := imgField l 0x18 8
          lfsr := BitVec.ofNat 64 (imgField l 0x20 8), seed := BitVec.ofNat 64 (imgField l 0x28 8)
          cnt := (List.range 15).map fun h => (h, imgField l (0x40 + 4 * h) 4)
          lev := ((List.range 16).filter fun h => fill h != 0).map fun h =>
            (h, (List.range (fill h)).map fun e => BitVec.ofNat 32 (imgField l (128 + 256 * h + 4 * e) 4)) }
    | 2 =>
      some { Assay.empty with
        kind := 2, n := imgField l 8 8, valid := BitVec.ofNat 64 (imgField l 0x10 8)
        keys := (List.range 64).map fun j =>
          (j, BitVec.ofNat 32 (imgField l (128 + 12 * j) 4), imgField l (132 + 12 * j) 4, imgField l (136 + 12 * j) 4) }
    | _ =>
      if (l.drop 128).any (fun b => decide (53 < b.toNat)) then none
      else some { Assay.empty with
        kind := 3, n := imgField l 8 8
        regs := ((List.range 4096).filter fun j => imgField l (128 + j) 1 != 0).map fun j => (j, imgField l (128 + j) 1) }

/-! ## Merges (R159) -/

/-- The merge of two sketches: `b` is the image's. -/
def mergeQsk (w : AWork) (b : Assay) : AWork :=
  let w :=
    if w.a.t < b.t then
      let (l, w1) := w.sample (sortLevel (w.a.level 15)) w.a.t (b.t - w.a.t)
      let w2 := w1.setLevel 15 l
      { w2 with a := { w2.a with t := b.t } }
    else w
  let w := (List.range 15).foldl (fun w h => (b.level h).foldl (AWork.append (15 - h)) w) w
  let (l, w) := if b.t < w.a.t then w.sample (sortLevel (b.level 15)) b.t (w.a.t - b.t) else (b.level 15, w)
  let w := l.foldl (AWork.append 0) w
  let w := (List.range 15).foldl (fun w h => w.addCnt h (Map.get b.cnt h 0)) w
  { w with a := { w.a with n := sat64 (w.a.n + b.n), nans := sat64 (w.a.nans + b.nans), etop := sat64 (w.a.etop + b.etop) } }

/-- The valid counters of a side: index, key, count, error. -/
def Assay.counters (a : Assay) : List (Nat × BitVec 32 × Nat × Nat) :=
  ((List.range 64).filter fun j => a.valid.getLsbD j).map fun j => (j, a.counter j)

/-- The least count of a side with 64 valid counters, and 0 otherwise (R159). -/
def Assay.least (a : Assay) : Nat :=
  if a.counters.length < 64 then 0 else ((a.counters.map fun x => x.2.2.1).min?).getD 0

/-- An entry put into a list sorted by descending count, after those of an equal count. -/
def insertByCount (x : Nat × BitVec 32 × Nat × Nat) (l : List (Nat × BitVec 32 × Nat × Nat)) :
    List (Nat × BitVec 32 × Nat × Nat) :=
  match l with
  | [] => [x]
  | y :: r => if y.2.2.1 < x.2.2.1 then x :: y :: r else y :: insertByCount x r

/-- The merge of two heavy-hitter lists (R159). Counters at or above 64 in the ranking are the image's. Image keys fill the free counters in the
order of their image counters, N stays at 2^64 − 1, and of an image with a key in two counters the first alone is summed with the context's
(DESIGN CHOICE, log entry 77). -/
def mergeHhl (w : AWork) (b : Assay) : AWork :=
  let ca := w.a.counters
  let cb := b.counters
  let find (l : List (Nat × BitVec 32 × Nat × Nat)) (k : BitVec 32) := l.find? fun x => x.2.1 == k
  let mine := ca.map fun x =>
    match find cb x.2.1 with
    | some y => (x.1, x.2.1, x.2.2.1 + y.2.2.1, x.2.2.2 + y.2.2.2)
    | none => (x.1, x.2.1, x.2.2.1 + b.least, x.2.2.2 + b.least)
  let theirs := (cb.filter fun y => (find ca y.2.1).isNone).map fun y =>
    (64 + y.1, y.2.1, y.2.2.1 + w.a.least, y.2.2.2 + w.a.least)
  let all := (mine ++ theirs).map fun x => (x.1, x.2.1, (sat32 x.2.2.1).1, (sat32 x.2.2.2).1)
  let ovf := (mine ++ theirs).any fun x => (sat32 x.2.2.1).2 || (sat32 x.2.2.2).2
  let top := (all.foldl (fun l x => insertByCount x l) []).take 64
  let kept := (all.filter fun x => x.1 < 64 && top.contains x)
  let new := (all.filter fun x => 64 ≤ x.1 && top.contains x)
  let free := (List.range 64).filter fun j => !(kept.any fun x => x.1 == j)
  let put := kept ++ (free.zip new).map fun x => (x.1, x.2.2)
  { w with
    a := { w.a with
      n := sat64 (w.a.n + b.n)
      keys := put.foldl (fun m x => Map.put m x.1 x.2) []
      valid := put.foldl (fun m x => m ||| (1#64 <<< x.1)) 0 }
    ovf := w.ovf || ovf }

/-- The merge of two register sets (R159); N is modulo 2^64, as R155 has it for the kind (DESIGN CHOICE, log entry 77). -/
def mergeDcr (w : AWork) (b : Assay) : AWork :=
  { w with a := { w.a with
      regs := b.regs.foldl (fun m x => Map.put m x.1 (max (Map.get m x.1 0) x.2)) w.a.regs
      n := (w.a.n + b.n) % 2 ^ 64 } }

/-- A context after an image, or none when the image is refused (R158, R159). -/
def mergeImage (w : AWork) (img : List Byte) : Option AWork :=
  match parseImage img with
  | none => none
  | some b =>
    if b.kind = 0 then some w
    else if w.a.kind = 0 then some { w with a := b }
    else if b.kind ≠ w.a.kind then none
    else if b.kind = 1 then some (mergeQsk w b)
    else if b.kind = 2 then some (mergeHhl w b)
    else some (mergeDcr w b)

/-! ## Queries (R151, R152, R154, R156) -/

/-- The bound B of a sketch (R152). -/
def Assay.bound (a : Assay) : Nat :=
  sat64 ((List.range 15).foldl (fun b h => b + Map.get a.cnt h 0 * 2 ^ h) 0 + a.etop)

/-- The stored entries with their weights, in ascending total order. -/
def Assay.entries (a : Assay) : List (BitVec 32 × Nat) :=
  let all := (List.range 16).flatMap fun h => (a.level h).map fun e => (e, if h = 15 then 2 ^ a.t else 2 ^ h)
  (sortLevel (all.map Prod.fst)).dedup.map fun e =>
    (e, ((all.filter fun x => x.1 == e).map Prod.snd).sum)

/-- The first entry whose weighted rank reaches a target, else the last. -/
def firstAtRank (t : Fv) (rank : Nat) (last : BitVec 32) (l : List (BitVec 32 × Nat)) : BitVec 32 :=
  match l with
  | [] => last
  | (e, w) :: r => if (Fv.fin false (rank + w) 0).lt t then firstAtRank t (rank + w) e r else e

/-- The answer of ASQRY for one φ over sorted entries (R151): a rank is at least ⌈φ × N⌉ exactly when it is at least φ × N. -/
def quantileOf (es : List (BitVec 32 × Nat)) (n : Nat) (phi : Nat) : Nat :=
  if (fp32 phi).isNaN || es.isEmpty then 0x7FC00000
  else
    let t := (fp32 phi).mul (.fin false n 0)
    if t.isNaN then (Config.quantileOfNone (BitVec.ofNat 32 phi)).toNat else (firstAtRank t 0 0 es).toNat

/-- a / b rounded to the nearest integer, ties to even, saturated at 2^64 − 1. -/
def roundDiv (a b : Nat) : Nat :=
  let q := a / b
  let r := a % b
  sat64 (if 2 * r > b || (2 * r == b && q % 2 == 1) then q + 1 else q)

/-- The distinct-count estimate (R156): α·m²/Σ 2^−reg with α = 0.7213 / (1 + 1.079 / m), or m·ln(m / V), whose value in units
of 2^-60 decides its rounding for every V. -/
def Assay.estimate (a : Assay) : Nat :=
  let sum := (List.range 4096).foldl (fun x j => x + 2 ^ (53 - Map.get a.regs j 0)) 0
  let num := 7213 * 4096000 * 2 ^ 24 * 2 ^ 53
  let den := 10000 * 4097079 * sum
  let v := ((List.range 4096).filter fun j => Map.get a.regs j 0 = 0).length
  if num ≤ 10240 * den && 0 < v then
    let lg := Nat.log2 v * 2 ^ 60 + log2Digits (v * 2 ^ (128 - Nat.log2 v)) 60 0
    roundDiv (4096 * (12 * 2 ^ 60 - lg) * ln2C / 2 ^ 96) (2 ^ 60)
  else roundDiv num den

/-- The counters of a heavy-hitter list by descending count (R154). -/
def Assay.ranked (a : Assay) : List (Nat × BitVec 32 × Nat × Nat) := a.counters.foldl (fun l x => insertByCount x l) []

/-! ## The instructions (R143 to R157) -/

/-- The assay unit's checks: II_VIOLATION within a busy period, then the kind (R144, R145). `need` is the kind wanted, none for
any; 0 wants any kind but EMPTY. -/
def assayGate (s : State) (busy : Bool) (ctx : BitVec 2) (need : Option Nat) (f : Core → Core) (c : Core) : Core :=
  if busy && decide (c.ctx.clk < c.ctx.asBusy) then s.iiViolation c
  else
    let k := (c.assayView ctx.toNat).kind
    let ok := match need with | none => true | some 0 => k != 0 | some n => k == n
    if !ok then s.fault cFORMAT (ctx.setWidth 64) 0 c
    else f c

/-- The assay unit busy for `n` cycles from this issue on (R145). -/
def Core.assayBusy (n : Nat) (c : Core) : Core := { c with ctx := { c.ctx with asBusy := c.ctx.clk + n } }

/-- A position taken from the random-bits queue when the context's coin is that queue (R147). -/
def Core.coinTake (c : Core) (ctx : Nat) : Vec × Core :=
  if (c.assayView ctx).coin = 1 then (c.rngAt 0, c.rngTake 1) else (0, c)

/-- ASCFG (R148). -/
def execAscfg (o k c : BitVec 2) (s_ : BitVec 6) (s : State) : Out :=
  s.checked (k != 0 && o != 3 && (k == 1 || o == 0)) <| s.act <| assayGate s true c none fun x =>
    let seed := if x.readS s_ = 0 then 1 else x.readS s_
    (Core.assayBusy 4) <| x.addMacro s.slot 0 1 (.assay c.toNat (.cfg k.toNat o.toNat seed) 0)

/-- ASCLR (R148). -/
def execAsclr (f : BitVec 1) (c : BitVec 2) (s : State) : Out :=
  s.act <| assayGate s true c none fun x =>
    (Core.assayBusy 4) <| x.addMacro s.slot 0 1 (.assay c.toNat (if f = 1 then .free else .clr) 0)

/-- ASQU: appends lanes to a quantile sketch (R149). -/
def execAsqu (k : BitVec 3) (c : BitVec 2) (a : BitVec 7) (s : State) : Out :=
  s.act <| s.room <| assayGate s true c (some 1) fun x =>
    let (r, y) := x.coinTake c.toNat
    (Core.assayBusy 4) <| y.addMacro s.slot (x.startAt 5) 64 (.assay c.toNat (.qu (x.readV a) ((x.readK k).extractLsb' 0 64) r) 0)

/-- ASHH: applies weighted keys to a heavy-hitter list (R153). -/
def execAshh (k : BitVec 3) (c : BitVec 2) (a b : BitVec 7) (s_ : BitVec 1) (s : State) : Out :=
  s.checked (s_ == 0 || b.getLsbD 6 == false) <| s.act <| s.room <| assayGate s true c (some 2) fun x =>
    let wt := ofLanes 32 64 fun i => x.floatB b s_ i
    (Core.assayBusy 4) <| x.addMacro s.slot (x.startAt 5) 64 (.assay c.toNat (.hh (x.readV a) wt ((x.readK k).extractLsb' 0 64)) 0)

/-- ASDC: hashes elements into distinct-count registers (R155). -/
def execAsdc (k : BitVec 3) (c : BitVec 2) (a : BitVec 7) (w : BitVec 1) (s : State) : Out :=
  s.act <| s.room <| assayGate s true c (some 3) fun x =>
    (Core.assayBusy 4) <| x.addMacro s.slot (x.startAt 5) 64 (.assay c.toNat (.dc (x.readV a) ((x.readK k).extractLsb' 0 64) (w == 1)) 0)

/-- ASMRG: merges an image from the face at c+40 (R157 to R159). -/
def execAsmrg (c : BitVec 2) (b : BitVec 6) (s : State) : Out :=
  s.act <| s.room <| assayGate s true c none fun x =>
    let p := x.readS b
    s.unless (x.check s.cur p 4224 128 true false [.face]) p (fun x =>
      let (r, y) := x.coinTake c.toNat
      (Core.assayBusy 40) <| y.addMacro s.slot (x.startAt 5) 17 (.asmrg c.toNat p (List.replicate 4224 0) r)) x

/-- ASSV: writes an image to the face (R157). -/
def execAssv (c : BitVec 2) (b : BitVec 6) (s : State) : Out :=
  s.act <| s.room <| assayGate s true c none fun x =>
    let p := x.readS b
    s.unless (x.check s.cur p 4224 128 false true [.face]) p (fun x =>
      (Core.assayBusy 20) <| x.addMacro s.slot (x.startAt 5) 17 (.assv c.toNat p)) x

/-- ASQRY: answers a quantile per lane, or one for a scalar, where the mask and Z must be zero (R143, R151). -/
def execAsqry (k : BitVec 3) (z : BitVec 1) (d : BitVec 7) (x : BitVec 1) (c : BitVec 2) (b : BitVec 7) (s_ : BitVec 1)
    (s : State) : Out :=
  s.checked ((x == 0 || (s_ == 1 && k == 0 && z == 0 && d.getLsbD 6 == false)) && (s_ == 0 || b.getLsbD 6 == false)) <|
    s.act <| s.room <| assayGate s false c (some 1) fun y =>
      let a := y.assayView c.toNat
      let es := a.entries
      let ans (i : Nat) := quantileOf es a.n (y.floatB b s_ i)
      if x = 1 then s.deliver 20 [.setS (y.ctx.physS (d.extractLsb' 0 6).toNat) (BitVec.ofNat 64 (ans 0))] y
      else s.deliverV 20 32 d (y.readK k) z ans 0 y

/-- ASEST: the bound, the total weight, or the distinct-count estimate (R152, R154, R156). -/
def execAsest (d : BitVec 6) (c : BitVec 2) (s : State) : Out :=
  s.act <| s.room <| assayGate s false c (some 0) fun y =>
    let a := y.assayView c.toNat
    let v := match a.kind with | 1 => a.bound | 2 => a.n | _ => a.estimate
    s.deliver 20 [.setS (y.ctx.physS d.toNat) (BitVec.ofNat 64 v)] y

/-- ASTOPK: keys, counts or errors by rank (R154). -/
def execAstopk (d : BitVec 7) (p c : BitVec 2) (s : State) : Out :=
  s.checked (p != 3) <| s.act <| s.room <| assayGate s false c (some 2) fun y =>
    let l := (y.assayView c.toNat).ranked
    let f (i : Nat) : Nat :=
      match l[i]? with
      | none => 0
      | some (_, k, n, e) => if p = 0 then k.toNat else if p = 1 then n else e
    s.deliver 20 [.setV (y.ctx.physV d.toNat) (ofLanes 32 64 f) (BitVec.allOnes 2048)] y

end Sys2Proof.Machine
end

