-- ==== Sys2Proof/Machine/Reheat.lean ====
section
/-! DEFINITION. The reheat sequencer of slot 3: regions, signatures, skip decisions, lists, steps and maps
(spec/07 R161 to R168). -/

namespace Sys2Proof.Machine

open Sys2Proof

/-! ## Descriptors (R161, R164) -/

/-- TILES. -/
def rhTILES (d : BitVec 512) : Nat := byteField d 0 2
/-- REFRESH. -/
def rhREFRESH (d : BitVec 512) : Nat := byteField d 2 1
/-- FMT. -/
def rhFMT (d : BitVec 512) : Nat := byteField d 3 1
/-- THETA. -/
def rhTHETA (d : BitVec 512) : Nat := byteField d 4 4
/-- STRIDE. -/
def rhSTRIDE (d : BitVec 512) : Nat := byteField d 8 4
/-- SIG. -/
def rhSIG (d : BitVec 512) : Nat := byteField d 16 8
/-- OUT. -/
def rhOUT (d : BitVec 512) : Nat := byteField d 24 8

/-- The first bad byte of a descriptor, if any (R164). -/
def rhBad (d : BitVec 512) : Option Nat :=
  let reserved := (List.range 4).map (fun i => 12 + i) ++ (List.range 32).map fun i => 32 + i
  let tests : List (Nat × Bool) :=
    [(0, rhTILES d = 0 || 1024 < rhTILES d), (3, 2 < rhFMT d),
     (0x10, rhSIG d % 8 ≠ 0 || (winOf (rhSIG d) ≠ some .face && winOf (rhSIG d) ≠ some .cluster)),
     (0x18, rhOUT d % 2 ≠ 0 || winOf (rhOUT d) ≠ some .face)]
  ((tests.filter Prod.snd).map Prod.fst ++ reserved.filter fun o => byteField d o 1 != 0).min?

/-- A region configured from a sound descriptor (R164). -/
def rhConfigured (d : BitVec 512) : Reheat :=
  ⟨true, d, 0, BitVec.ofNat 1024 (2 ^ rhTILES d - 1), [], List.replicate 16 (.fin false 0 0), .fin false 0 0,
    List.replicate 17 0⟩

/-- The STEPS count of a region replaced in RHSTAT's copy (R162). -/
def setSteps (x : BitVec 56) (r n : Nat) : BitVec 56 :=
  (x &&& ~~~(0x7F#56 <<< (7 * r))) ||| (BitVec.ofNat 56 (n % 128) <<< (7 * r))

/-- RHCFG's effect at c+6: the region and its STEPS (R164). -/
def Core.rhPut (c : Core) (r : Nat) (d : BitVec 512) : Core :=
  { c with reheat := Map.put c.reheat r (rhConfigured d) }.onSys fun x => { x with rhSteps := setSteps x.rhSteps r 0 }

/-! ## Signatures and decisions (R165) -/

/-- The floating-point format and bytes of a region's elements (R161). -/
def rhElem (d : BitVec 512) : Fmt × Nat :=
  match rhFMT d with
  | 0 => (.fp32, 4)
  | 1 => (.bf16, 2)
  | _ => (.fp16, 2)

/-- The sums and the greatest magnitude after one row of 64 elements (R165). -/
def rhRow (d : BitVec 512) (row : Nat) (bytes : List Byte) (sums : List Fv) (mx : Fv) : List Fv × Fv :=
  let (f, n) := rhElem d
  let el (i : Nat) : Fv := f.decode (ofBytes ((bytes.drop (n * i)).take n))
  (sums.zipIdx.map fun x =>
      if x.2 / 4 = row / 16 then (List.range 16).foldl (fun a i => a.add (el (16 * (x.2 % 4) + i))) x.1 else x.1,
    (List.range 64).foldl (fun a i => a.max (el i).abs) mx)

/-- The seventeen values of a signature (R165). -/
def rhSignature (sums : List Fv) (mx : Fv) : List (BitVec 32) :=
  (sums.map fun s => BitVec.ofNat 32 (rne32 s)) ++ [BitVec.ofNat 32 (rne32 mx)]

/-- The decision on tile `t`: whether it is skipped (R165); a difference or limit that is no number gives no skip (DESIGN CHOICE, log entry 80).
-/
def rhSkip (g : Reheat) (t : Nat) (sg old : List (BitVec 32)) : Bool :=
  let v (l : List (BitVec 32)) (i : Nat) : Fv := fp32 (l.getD i 0).toNat
  let th := fp32 (rhTHETA g.desc)
  let lim := (th.mul (.fin false 256 0)).mul ((v old 16).max (.fin false 1 (-20)))
  let near (i : Nat) : Bool :=
    let dlt := ((v sg i).add (v old i).negate).abs
    !dlt.isNaN && !lim.isNaN && !lim.lt dlt
  !(g.force.getLsbD t) && decide (Map.get g.ages t 0 < rhREFRESH g.desc) && !th.isNaN &&
    (List.range 17).all (fun i => !(v sg i).isNaN && !(v old i).isNaN && near i)

/-- The 72 bytes of a record (R161, R165). -/
def rhRecord (sg : List (BitVec 32)) : List Byte := sg.flatMap (fun x => toBytes 4 x.toNat) ++ toBytes 4 0

/-- The skip bit of a tile set. -/
def Reheat.setSkip (g : Reheat) (t : Nat) (b : Bool) : Reheat :=
  { g with skip := if b then g.skip ||| (1#1024 <<< t) else g.skip &&& ~~~(1#1024 <<< t) }

/-! ## Steps, lists and maps (R166 to R168) -/

/-- RHSTEP's effect at c+3 (R167). -/
def Core.rhStep (c : Core) (r : Nat) (f : Option Vec) : Core :=
  match Map.get? c.reheat r with
  | none => c
  | some g =>
    let n := rhTILES g.desc
    let age (t : Nat) : Nat := if g.skip.getLsbD t then min (Map.get g.ages t 0 + 1) 255 else 1
    { c with
      reheat := Map.put c.reheat r { g with
        ages := (List.range n).map fun t => (t, age t)
        force := match f with | none => 0 | some v => BitVec.ofNat 1024 (v.toNat % 2 ^ n) } }.onSys fun x =>
          { x with rhSteps := setSteps x.rhSteps r ((stepsOf x.rhSteps r).toNat + 1) }

/-- The tiles of the output list: those whose skip bit is 0, ascending (R166). -/
def rhTiles (g : Reheat) : List Nat := (List.range (rhTILES g.desc)).filter fun t => !(g.skip.getLsbD t)

/-- A part of RHMAP (R168). -/
def Core.rhMap (c : Core) (r part : Nat) : Vec :=
  match Map.get? c.reheat r with
  | none => 0
  | some g =>
    let n := rhTILES g.desc
    if part = 0 then g.force ++ BitVec.ofNat 1024 (g.skip.toNat % 2 ^ n)
    else ofLanes 8 256 fun i => if 256 * (part - 1) + i < n then Map.get g.ages (256 * (part - 1) + i) 0 else 0

/-! ## The instructions -/

/-- The reheat engine's check: II_VIOLATION within a busy period (R163). -/
def reheatGate (s : State) (f : Core → Core) (c : Core) : Core :=
  if c.ctx.clk < c.ctx.rhBusy then s.iiViolation c else f c

/-- The reheat engine busy for `n` cycles from this issue on (R163). -/
def Core.reheatBusy (n : Nat) (c : Core) : Core := { c with ctx := { c.ctx with rhBusy := c.ctx.clk + n } }

/-- FORMAT for a region that is not configured (R165 to R167). -/
def State.regionFormat (s : State) (r : BitVec 3) (felem : Word) (c : Core) : Core :=
  s.fault cFORMAT (r.setWidth 64) felem c

/-- RHCFG: reads a descriptor at c+3, configures at c+6 (R164). -/
def execRhcfg (r : BitVec 3) (b : BitVec 6) (s : State) : Out :=
  s.act <| reheatGate s fun c =>
    let p := c.readS b
    match c.check s.cur p 64 64 true false [.face, .cluster] with
    | some (code, _) => s.fault code p 0 c
    | none => Core.reheatBusy 6 (c.addItem s.slot 3 false false [.rhRead r.toNat p])

/-- The first fault of the rows and the record of RHSIG, in the order rows then record, with the row's or the record's address (R116, R165).
Rows below the one it begins at are not checked (DESIGN CHOICE, log entry 80). -/
def rhSigCheck (n : Nat) (c : Core) (d : BitVec 512) (t start : Nat) (base : Word) : Option (Nat × Word) :=
  let e := (rhElem d).2
  match (List.range (64 - start)).findSome? fun i =>
      let row := base + BitVec.ofNat 64 ((start + i) * rhSTRIDE d)
      (c.check n row (64 * e) e true false [.face]).map fun x => (x.1, row) with
  | some x => some x
  | none =>
    let record := BitVec.ofNat 64 (rhSIG d + 72 * t)
    (c.check n record 72 8 true true [.face, .cluster]).map fun x => (x.1, record)

/-- RHSIG: signs a tile, row by row, and decides at c+70 (R165). -/
def execRhsig (r : BitVec 3) (a b : BitVec 6) (s : State) : Out :=
  s.act <| s.room <| reheatGate s fun c =>
    let t := (c.readS a).toNat
    match Map.get? c.reheat r.toNat with
    | none => s.regionFormat r (c.readS a) c
    | some g =>
      if rhTILES g.desc ≤ t then s.regionFormat r (c.readS a) c
      else
        let start := c.startAt 2
        match rhSigCheck s.cur c g.desc t start (c.readS b) with
        | some (code, x) => s.fault code x 0 c
        | none =>
          let w : Work := if start = 0
            then .rhsig r.toNat t (c.readS b) (List.replicate 16 (.fin true 0 0)) (.fin false 0 0) (List.replicate 17 0)
            else .rhsig r.toNat t (c.readS b) g.sums g.maxm g.rec_
          Core.reheatBusy 68 (c.addMacro s.slot start 65 w)

/-- RHLIST: writes the tiles to compute, and their count; with the count, each store counts toward the results in flight (R20, R166). -/
def execRhlist (r : BitVec 3) (a : BitVec 6) (s : State) : Out :=
  s.act fun c =>
    let n := ((Map.get? c.reheat r.toNat).map fun g => rhTILES g.desc).getD 0
    s.roomFor (1 + (n + 127) / 128) (reheatGate s fun c =>
      match Map.get? c.reheat r.toNat with
      | none => s.regionFormat r 0 c
      | some g =>
        let out := BitVec.ofNat 64 (rhOUT g.desc)
        s.unless (c.check s.cur out (2 * n) 2 false true [.face]) out (fun c =>
          Core.reheatBusy 12 ((c.addItem s.slot 3 true false [.rhCount r.toNat (c.ctx.physS a.toNat)]).addMacro s.slot 0
            ((n + 127) / 128) (.rhlist r.toNat out []))) c) c

/-- RHSTEP: commits a step at c+3 (R167). -/
def execRhstep (f : BitVec 1) (r : BitVec 3) (a : BitVec 7) (s : State) : Out :=
  s.checked (f == 1 || a == 0) <| s.act <| reheatGate s fun c =>
    if (Map.get? c.reheat r.toNat).isNone then s.regionFormat r 0 c
    else Core.reheatBusy 4 (c.addItem s.slot 3 false false [.rhStep r.toNat (if f = 1 then some (c.readV a) else none)])

/-- RHMAP: the skip map and force flags, or ages, read at c+3 and delivered at c+5 (R168). -/
def execRhmap (d : BitVec 7) (p r : BitVec 3) (s : State) : Out :=
  s.checked (decide (p.toNat < 5)) <| s.act fun c =>
    s.deliver 3 [.rhMap (c.ctx.physV d.toNat) r.toNat p.toNat] c

end Sys2Proof.Machine
end

