-- ==== Sys2Proof/Machine/Matrix.lean ====
section
/-! DEFINITION. The matrix engine of slot 4: MMA, MMA3, MZERO, MBAND, their steps and deliveries (spec/08 R169 to R184,
spec/02 R36 to R39, R48 to R53). -/

namespace Sys2Proof.Machine

open Sys2Proof

/-! ## Shapes (R170, R171) -/

/-- What a pair of page formats makes of a product: K per beat, scale entries per step, bytes of a whole A row and of a step
within it, B rows (or FP4 block rows) per step and bytes of one. -/
structure MxShape where
  kb    : Nat
  ents  : Nat
  rowA  : Nat
  stepA : Nat
  rowsB : Nat
  rowB  : Nat
  deriving DecidableEq, Repr

/-- Whether a page attribute is an FP4 format, whose geometry is read (R170). -/
def isFp4 (f : Nat) : Bool := f = 5 || f = 10 || f = 11

/-- Whether A's page appears in the A column of some row of the table (R170). -/
def mxAOk (fa ga : Nat) : Bool :=
  [1, 2, 3, 4, 6, 7, 8, 12].contains fa || (isFp4 fa && ga == 1)

/-- Whether the pages and Y make a row of the table that the instruction takes, for an A page of its A column (R170). -/
def mxBOk (three : Bool) (fa fb gb : Nat) (y : BitVec 2) : Bool :=
  if three || fa == 8 then three && fa == 8 && fb == 8
  else if fa = 1 || fa = 2 then (fb = 1 || fb = 2) && y == 1
  else y != 1 &&
    (if isFp4 fa then fb = 5 && gb == 2
     else if fa = 3 || fa = 4 || fa = 12 then fb = 3 || fb = 4
     else fb = fa)

/-- The shape that A's format gives (R170, R171). -/
def mxShape (fa : Nat) : MxShape :=
  match fa with
  | 5 => ⟨16, 4, 64, 8, 2, 256⟩
  | 10 => ⟨32, 8, 96, 12, 4, 256⟩
  | 11 => ⟨32, 8, 64, 8, 4, 256⟩
  | 12 => ⟨16, 0, 80, 10, 16, 64⟩
  | 6 => ⟨4, 0, 64, 8, 4, 128⟩
  | 7 => ⟨4, 0, 64, 8, 4, 128⟩
  | 8 => ⟨4, 0, 128, 16, 4, 256⟩
  | _ => ⟨8, 0, 64, 8, 8, 64⟩

/-- The lane width of an accumulator type (R172). -/
def yWidth (y : BitVec 2) : Nat := if y = 2 || y = 3 then 16 else 32

/-- The steps of an instruction (R170). -/
def mxSteps (three : Bool) : Nat := if three then 48 else 8

/-! ## Operands of a step (R171) -/

/-- Stride SA of A rows. -/
def MxRun.SA (r : MxRun) : Nat := (r.sT.extractLsb' 0 32).toNat
/-- Stride SB of B rows. -/
def MxRun.SB (r : MxRun) : Nat := (r.sT.extractLsb' 32 32).toNat

/-- The byte ranges that step `b` reads of A: start and length by row. -/
def MxRun.rangesA (r : MxRun) (b : Nat) : List (Nat × Nat) :=
  let sh := mxShape r.fA
  (List.range 64).map fun i => (r.sA.toNat + i * r.SA + b * sh.stepA, sh.stepA)

/-- The byte ranges that step `b` reads of B. -/
def MxRun.rangesB (r : MxRun) (b : Nat) : List (Nat × Nat) :=
  let sh := mxShape r.fA
  (List.range sh.rowsB).map fun k => (r.sB.toNat + (b * sh.rowsB + k) * r.SB, sh.rowB)

/-- The lowest address of a range in each page it touches, over all ranges. -/
def touched (l : List (Nat × Nat)) : List Nat := (l.flatMap fun x => pageStarts x.1 x.2).dedup

/-- A sparse block's bytes, stored values and bits per value (R39). -/
def sparseShape (f : Nat) : Nat × Nat × Nat :=
  match f with
  | 10 => (3, 4, 4)
  | 11 => (2, 2, 4)
  | _ => (5, 4, 8)

/-- The positions of the set bits of a mask, ascending. -/
def setBits (m : Nat) : List Nat := (List.range 8).filter fun i => m.testBit i

/-- A block of a sparse row: its stored values in order, and its mask. -/
def sparseBlock (f : Nat) (l : List Byte) : List Nat × Nat :=
  let (n, v, w) := sparseShape f
  let x := ofBytes (l.take (n - 1))
  ((List.range v).map fun q => (x >>> (w * q)) % 2 ^ w, ((l.getD (n - 1) 0).toNat))

/-- The first sparse block of a step whose mask does not have N bits: row and block within the step (R175). -/
def badBlock (f : Nat) (rows : List (List Byte)) : Option (Nat × Nat) :=
  let (n, v, _) := sparseShape f
  rows.zipIdx.findSome? fun r =>
    ((List.range (r.1.length / n)).find? fun g =>
      (setBits (sparseBlock f (r.1.drop (g * n))).2).length ≠ v).map fun g => (r.2, g)

/-- An element's value by page format; none for an integer format. -/
def elemFmt (f : Nat) : Option Fmt :=
  match f with
  | 3 => some .e4m3
  | 4 => some .e5m2
  | 5 => some .e2m1
  | 6 => some .bf16
  | 7 => some .fp16
  | 8 => some .fp32
  | 10 => some .e2m1
  | 11 => some .e2m1
  | 12 => some .e4m3
  | _ => none

/-- The bits of an element by page format. -/
def elemBits (f : Nat) : Nat :=
  match f with
  | 5 => 4
  | 10 => 4
  | 11 => 4
  | 6 => 16
  | 7 => 16
  | 8 => 32
  | _ => 8

/-- Row i of A within a step: K position and element, stored positions only (R39). -/
def stepRowA (f : Nat) (l : List Byte) : List (Nat × Nat) :=
  if f = 10 || f = 11 || f = 12 then
    let (n, _, _) := sparseShape f
    (List.range (l.length / n)).flatMap fun g =>
      let (vs, m) := sparseBlock f (l.drop (g * n))
      (setBits m).zip vs |>.map fun x => (8 * g + x.1, x.2)
  else
    let w := elemBits f
    (List.range (8 * l.length / w)).map fun k => (k, (ofBytes l >>> (w * k)) % 2 ^ w)

/-- Column j of B within a step: the element at each K position (R171). -/
def stepColB (f : Nat) (rows : List (List Byte)) (j : Nat) : List Nat :=
  if f = 5 then rows.flatMap fun r => (List.range 8).map fun e => (ofBytes ((r.drop (4 * j)).take 4) >>> (4 * e)) % 16
  else
    let n := elemBits f / 8
    rows.map fun r => ofBytes ((r.drop (n * j)).take n)

/-! ## One beat (R48 to R52) -/

/-- The exact product sum of one output: blocks of eight with their scales, stored positions only (R36, R48). `sc` gives the two
scale codes of a block, none without block scales. -/
def beatSum (fa fb : Fmt) (a : List (Nat × Nat)) (b : List Nat) (sc : Nat → Option (Nat × Nat)) : Fv :=
  let blocks := (a.map fun x => x.1 / 8).dedup
  blocks.foldl (fun t g =>
    let inner := (a.filter fun x => x.1 / 8 = g).foldl
      (fun u x => u.add ((fa.decode x.2).mul (fb.decode (b.getD x.1 0)))) (.fin false 0 0)
    t.add (match sc g with
      | none => inner
      | some (p, q) => ((e5m5 p).mul (e5m5 q)).mul inner)) (.fin false 0 0)

/-- Flags that MMA and MMA3 set: NV and OF of a rounding, from an exact value and the operands it came from (R45). Where a beat holds
a NaN operand beside an invalid product or opposing infinities, NV is not set: DESIGN CHOICE, log entry 55. -/
def mxFlags (f : BitVec 7) (nanIn : Bool) (x : Fv) : BitVec 7 :=
  (f &&& flOF) ||| (if x.isNaN && !nanIn then flNV else 0)

/-- The accumulator format of a floating-point Y (R172). -/
def yFmt (y : BitVec 2) : Fmt := if y = 2 then .bf16 else if y = 3 then .fp16 else .fp32

/-- The three roundings of R48 and R50: from t, the bands and the accumulator's code to its new code, with flags. -/
def beatUpdate (y : BitVec 2) (t : Fv) (nanIn : Bool) (bandA bandB : BitVec 16) (acc : Nat) : Nat × BitVec 7 :=
  let (t32, f1) := Fmt.fp32.round .rne t
  let ba := Fmt.bf16.decode bandA.toNat
  let bb := Fmt.bf16.decode bandB.toNat
  let ux := ((fp32 t32).mul ba).mul bb
  let (u, f2) := Fmt.fp32.round .rne ux
  let f := yFmt y
  let old := f.decode acc
  let ax := old.add (fp32 u)
  let (r, f3) := f.round .rne ax
  (r, mxFlags f1 nanIn t ||| mxFlags f2 ((fp32 t32).isNaN || ba.isNaN || bb.isNaN) ux |||
    mxFlags f3 (old.isNaN || (fp32 u).isNaN) ax)

/-- Whether any operand of one output's beat is NaN. -/
def beatNaN (fa fb : Fmt) (a : List (Nat × Nat)) (b : List Nat) : Bool :=
  a.any fun x => (fa.decode x.2).isNaN || (fb.decode (b.getD x.1 0)).isNaN

/-- An integer element by page format (R49). -/
def intElem (f c : Nat) : Int := if f = 1 then signed 8 c else (c % 256 : Nat)

/-- The exact integer sum of one output's beat (R49). -/
def beatInt (fa fb : Nat) (a : List (Nat × Nat)) (b : List Nat) : Int :=
  a.foldl (fun t x => t + intElem fa x.2 * intElem fb (b.getD x.1 0)) 0

/-- One lane of a beat: its new code and flags, by Y and formats (R48 to R50). -/
def mxLane (r : MxRun) (a : List (Nat × Nat)) (b : List Nat) (sc : Nat → Option (Nat × Nat)) (acc : Nat) : Nat × BitVec 7 :=
  match elemFmt r.fA, elemFmt r.fB with
  | some fa, some fb =>
    let t := beatSum fa fb a b sc
    beatUpdate r.y t (beatNaN fa fb a b) r.bandA r.bandB acc
  | _, _ =>
    let (v, s) := satInt 32 (signed 32 acc + beatInt r.fA r.fB a b)
    (wrapNat 32 v, if s then flSAT else 0)

/-- BF16 by RNE, saturating to the largest finite value instead of overflowing (R51). -/
def bf16Sat (x : Fv) : Fv :=
  match Fmt.bf16.decode (Fmt.bf16.round .rne x).1 with
  | .inf n => Fmt.bf16.decode (if n then 0xFF7F else 0x7F7F)
  | v => v

/-- BF16 by RNE as an exact value (R51). -/
def bf16Of (x : Fv) : Fv := Fmt.bf16.decode (Fmt.bf16.round .rne x).1

/-- Part `p` of the split of a finite FP32 value: 0 h, 1 m, 2 l (R51). -/
def splitPart (x : Fv) (p : Nat) : Fv :=
  let h := bf16Sat x
  let m := bf16Of (x.add h.negate)
  let l := bf16Of ((x.add h.negate).add m.negate)
  if p = 0 then h else if p = 1 then m else l

/-- The parts that a pass multiplies, in the order of R52. -/
def passParts (p : Nat) : Nat × Nat :=
  match p with
  | 0 => (0, 0)
  | 1 => (0, 1)
  | 2 => (1, 0)
  | 3 => (0, 2)
  | 4 => (2, 0)
  | _ => (1, 1)

/-- The sum of one output's beat in a pass of MMA3: the named cross products, or the exact FP32 products where an operand is
infinite or NaN (R51, R52). -/
def beat3 (p : Nat) (a b : List (BitVec 32)) : Fv :=
  let va := a.map fun x => fp32 x.toNat
  let vb := b.map fun x => fp32 x.toNat
  let finite (x : Fv) : Bool := match x with | .fin .. => true | _ => false
  let (pa, pb) := passParts p
  (va.zip vb).foldl (fun t x =>
    t.add (if (va ++ vb).all finite then (splitPart x.1 pa).mul (splitPart x.2 pb) else x.1.mul x.2)) (.fin false 0 0)

/-! ## Steps (R173, R175, R176, R181) -/

/-- A late fault of the matrix engine at step `b`. -/
def mxTrap (code : Nat) (fval felem : Nat) : Trap := ⟨code, 4, true, BitVec.ofNat 64 fval, BitVec.ofNat 64 felem⟩

/-- The checks of R175 before step `b` reads, in their order. -/
def mxCheck (m : Memory) (n : Nat) (c : Core) (r : MxRun) (b : Nat) : Option Trap :=
  let pa := touched (r.rangesA b)
  let pb := touched (r.rangesB b)
  let all := pa ++ pb
  let low (l : List Nat) (bad : Nat → Bool) : Option Nat := (l.filter bad).min?
  let entry (a : Nat) := (c.lookup a).map Prod.snd
  let differs (f g : Nat) (a : Nat) : Bool :=
    match entry a with
    | some e => lttFMT e != f || (isFp4 f && lttGEOM e != g)
    | none => false
  match low all fun a => winOf a != some .face || (entry a).isNone with
  | some a => some (mxTrap cTABLE a b)
  | none =>
    match low all fun a => match entry a with | some e => !(lttP e) | none => false with
    | some a => some (mxTrap cPAGE a b)
    | none =>
      match low (pa.filter (differs r.fA r.gA) ++ pb.filter (differs r.fB r.gB)) fun _ => true with
      | some a => some (mxTrap cFORMAT a b)
      | none =>
        match low all fun a => match entry a with
          | some e => !(frameOk n .face e)
          | none => false with
        | some a => some (mxTrap cCLASS a b)
        | none =>
          match low all fun a => match entry a with
            | some e => !(lttRD e) || !(c.owned.getLsbD (a / 0x20000))
            | none => false with
          | some a => some (mxTrap cPERM a b)
          | none =>
            let sh := mxShape r.fA
            if c.sq.length < sh.ents then some (mxTrap cSCALE c.sq.length b)
            else if r.fA = 10 || r.fA = 11 || r.fA = 12 then
              let rows := (r.rangesA b).map fun x => c.loadBytes m n (BitVec.ofNat 64 x.1) x.2
              (badBlock r.fA rows).map fun g =>
                mxTrap cFORMAT (r.sA.toNat + g.1 * r.SA + b * sh.stepA + g.2 * (sparseShape r.fA).1) (b * sh.kb + 8 * g.2)
            else none

/-- Scale `i` of a queue entry (R14). -/
def scaleAt (e : BitVec 640) (i : Nat) : Nat := (e.extractLsb' (10 * i) 10).toNat

/-- A row of the tile after a beat, with its flags. -/
def mxRow (w : Nat) (f : Nat → Nat → Nat × BitVec 7) (row : Vec) : Vec × BitVec 7 :=
  let l := (List.range 64).map fun j => f j (laneNat row j w)
  (ofLanes w 64 fun j => (l.getD j (0, 0)).1, l.foldl (fun a x => a ||| x.2) 0)

/-- A reading step of an MMA: the run one step on, and the entries it leaves in the scale queue. -/
def mmaStep (m : Memory) (n : Nat) (c : Core) (r : MxRun) (b : Nat) : MxRun × List (BitVec 640) :=
  let sh := mxShape r.fA
  let rowsA := (r.rangesA b).map fun x => stepRowA r.fA (c.loadBytes m n (BitVec.ofNat 64 x.1) x.2)
  let rowsB := (r.rangesB b).map fun x => c.loadBytes m n (BitVec.ofNat 64 x.1) x.2
  let cols := (List.range 64).map (stepColB r.fB rowsB)
  let taken := c.sq.take sh.ents
  let h := sh.ents / 2
  let sc (i j g : Nat) : Option (Nat × Nat) :=
    if sh.ents = 0 then none else some (scaleAt (taken.getD g 0) i, scaleAt (taken.getD (h + g) 0) j)
  let scn : BitVec 7 := if taken.any fun e => (List.range 64).any fun i => scaleAt e i = 0x3FF then flSCN else 0
  let out := (r.tile.zip rowsA).zipIdx.map fun x =>
    mxRow (yWidth r.y) (fun j acc => mxLane r x.1.2 (cols.getD j []) (sc x.2 j) acc) x.1.1
  ({ r with tile := out.map Prod.fst, next := b + 1, flags := out.foldl (fun a x => a ||| x.2) (r.flags ||| scn) },
    c.sq.drop sh.ents)

/-- A step of an MMA3: steps 0 to 7 read and hold their beat's operands; every step applies its pass (R52, R181). -/
def mma3Step (m : Memory) (n : Nat) (c : Core) (r : MxRun) (s : Nat) : MxRun :=
  let b := s % 8
  let word (l : List Byte) (k : Nat) : BitVec 32 := BitVec.ofNat 32 (ofBytes ((l.drop (4 * k)).take 4))
  let r :=
    if s < 8 then
      let rowsA := (r.rangesA b).map fun x => c.loadBytes m n (BitVec.ofNat 64 x.1) x.2
      let rowsB := (r.rangesB b).map fun x => c.loadBytes m n (BitVec.ofNat 64 x.1) x.2
      { r with opA := Map.put r.opA b (rowsA.flatMap fun l => (List.range 4).map (word l)),
               opB := Map.put r.opB b (rowsB.flatMap fun l => (List.range 64).map (word l)) }
    else r
  let a := Map.get r.opA b []
  let bb := Map.get r.opB b []
  let out := r.tile.zipIdx.map fun x =>
    let ra := (a.drop (4 * x.2)).take 4
    mxRow 32 (fun j acc =>
      let cb := (List.range 4).map fun k => bb.getD (64 * k + j) 0
      beatUpdate 0 (beat3 (s / 8) ra cb) ((ra ++ cb).any fun z => (fp32 z.toNat).isNaN) r.bandA r.bandB acc) x.1
  { r with tile := out.map Prod.fst, next := s + 1, flags := out.foldl (fun f x => f ||| x.2) r.flags }

/-- The tile that a finished instruction delivers joins the pending deliveries, and the instructions chained on it take it as
their base (R173). -/
def Matrix.finish (mx : Matrix) (r : MxRun) : Matrix :=
  { mx with
    runs := (mx.runs.filter fun q => q.seq != r.seq).map fun q =>
      if q.chain = some r.seq then { q with chain := none, tile := r.tile } else q
    pend := mx.pend ++ [⟨r.seq, r.start, r.acc, r.start + (if r.three then 64 else 24), some r.tile, r.flags⟩] }

/-- The run that has a step due at a schedule count, and the step. -/
def Matrix.due (mx : Matrix) (clk : Nat) : Option MxRun :=
  mx.runs.find? fun r => decide (r.next < r.total) && decide (r.start + 2 + r.next ≤ clk)

/-- The matrix engine's step of this cycle: a late fault, or the core after it (R173, R175, R183). -/
def Core.mxStep (m : Memory) (n : Nat) (c : Core) : Core × Option Trap :=
  match c.ctx.mx.due c.ctx.clk with
  | none => (c, none)
  | some r =>
    match (if r.three && decide (8 ≤ r.next) then none else mxCheck m n c r r.next) with
    | some t => (c, some t)
    | none =>
      let (r1, sq) := if r.three then (mma3Step m n c r r.next, c.sq) else mmaStep m n c r r.next
      let mx :=
        if r1.next < r1.total then { c.ctx.mx with runs := c.ctx.mx.runs.map fun q => if q.seq = r1.seq then r1 else q }
        else c.ctx.mx.finish r1
      ({ c with sq := sq, ctx := { (if r1.next < r1.total then c.ctx else c.ctx.setProg 0 0) with mx := mx } }, none)

/-- The rows of an accumulator written. -/
def Core.putAcc (c : Core) (a : Nat) (rows : List Vec) : Core :=
  rows.zipIdx.foldl (fun c x => { c with v := Map.put c.v (64 * a + x.2) x.1 }) c

/-- A matrix delivery, with its flags (R173, R179, R180). -/
def Core.mxDeliver (c : Core) (d : MxPend) : Core :=
  { c.putAcc d.acc (d.tile.getD (List.replicate 64 0)) with
    ctx := { c.ctx.orVstat d.flags with mx := { c.ctx.mx with pend := c.ctx.mx.pend.filter fun x => x.seq != d.seq } } }

/-! ## Issue (R97, R169, R173, R174) -/

/-- The latest-issued matrix instruction of an accumulator. -/
def Matrix.last (mx : Matrix) (a : Nat) : Option (Nat × Nat) := if a = 0 then mx.last0 else mx.last1

/-- The latest-issued matrix instruction of an accumulator set. -/
def Matrix.setLast (mx : Matrix) (a : Nat) (v : Nat × Nat) : Matrix :=
  if a = 0 then { mx with last0 := some v } else { mx with last1 := some v }

/-- What a product issued now begins from: the instruction it chains on, or the base rows (R173). -/
def Core.mxBase (c : Core) (a : Nat) (z : Bool) : Option Nat × List Vec :=
  if z then (none, List.replicate 64 0)
  else
    let pend := c.ctx.mx.pend ++ (c.held.map fun x => x.mx.pend).getD []
    match c.ctx.mx.last a with
    | none => (none, c.acc a)
    | some (seq, _) =>
      if c.ctx.mx.runs.any fun r => r.seq = seq then (some seq, [])
      else
        match pend.find? fun d => d.seq = seq with
        | some d => (none, d.tile.getD (List.replicate 64 0))
        | none => (none, c.acc a)

/-- Scale entries landed, and those that issued SCLDs have still to land (R177, R191). -/
def Core.sqTotal (c : Core) : Nat :=
  let pending (x : Ctx) := (x.macros.map fun m => match m.work with | .scld .. => m.total - m.next | _ => 0).sum
  c.sq.length + pending c.ctx + ((c.held.map pending).getD 0)

/-- The checks of R174 in their order: the cause code and FVAL. -/
def mxIssueCheck (n : Nat) (c : Core) (three : Bool) (y : BitVec 2) (sA sB sT : Word) (start : Nat) : Option (Nat × Word) :=
  let SA := (sT.extractLsb' 0 32).toNat
  let SB := (sT.extractLsb' 32 32).toNat
  match c.lookup sA.toNat, c.lookup sB.toNat with
  | none, _ => some (cTABLE, sA)
  | some _, none => some (cTABLE, sB)
  | some (_, ea), some (_, eb) =>
    if winOf sA.toNat != some .face || !(frameOk n .face ea) then some (cCLASS, sA)
    else if winOf sB.toNat != some .face || !(frameOk n .face eb) then some (cCLASS, sB)
    else if !(mxAOk (lttFMT ea) (lttGEOM ea)) then some (cFORMAT, sA)
    else if !(mxBOk three (lttFMT ea) (lttFMT eb) (lttGEOM eb) y) then some (cFORMAT, sB)
    else
      let sh := mxShape (lttFMT ea)
      if 0x100000 < sA.toNat + 63 * SA + sh.rowA then some (cCLASS, sA)
      else if 0x100000 < sB.toNat + (8 * sh.rowsB - 1) * SB + sh.rowB then some (cCLASS, sB)
      else
        match [sA, sB, BitVec.ofNat 64 SA, BitVec.ofNat 64 SB].find? fun v => v.toNat % 16 ≠ 0 with
        | some v => some (cALIGN, v)
        | none =>
          if c.sqTotal < sh.ents * (8 - start) then some (cSCALE, BitVec.ofNat 64 c.sqTotal) else none

/-- A run as it stands at issue. -/
def mxRun (c : Core) (word : BitVec 32) (acc : Nat) (three : Bool) (y : BitVec 2) (sA sB sT : Word) (z : Bool) (start : Nat) : MxRun :=
  let e (a : Word) : BitVec 128 := ((c.lookup a.toNat).map Prod.snd).getD 0
  let band := if acc = 0 then c.ctx.mx.band0 else c.ctx.mx.band1
  let (chain, tile) := c.mxBase acc z
  { word := word, seq := c.ctx.mx.nextSeq, start := c.ctx.clk, acc := acc, three := three, y := y, sA := sA, sB := sB, sT := sT
    fA := lttFMT (e sA), fB := lttFMT (e sB), gA := lttGEOM (e sA), gB := lttGEOM (e sB)
    bandA := band.extractLsb' 0 16, bandB := band.extractLsb' 16 16, chain := chain, tile := tile
    next := start, total := mxSteps three, flags := 0, opA := [], opB := [] }

/-- MMA and MMA3 at issue: ILLEGAL while an instruction is suspended or PROG_M is past the steps, whatever the guard holds (R90); then
II_VIOLATION of the hazard monitor and the checks of R174 (R97, R169). -/
def mxIssue (s : State) (word : BitVec 32) (g : BitVec 4) (acc : BitVec 1) (a b t : BitVec 6) (z : BitVec 1) (y : BitVec 2) (three : Bool) : Out :=
  s.act fun c =>
    let start := c.startAt 0
    if ((c.held.map fun x => !x.mx.runs.isEmpty).getD false) || decide (mxSteps three ≤ start) then s.illegal c
    else if !(c.readP g) then c
    else if c.ctx.clk < c.ctx.mx.busyTo then s.iiViolation c
    else
      match mxIssueCheck s.cur c three y (c.readS a) (c.readS b) (c.readS t) start with
      | some (code, v) => s.fault code v 0 c
      | none =>
        let r := mxRun c word acc.toNat three y (c.readS a) (c.readS b) (c.readS t) (z == 1) start
        let mx := c.ctx.mx
        { c with ctx := { c.ctx with mx := { mx with
            runs := mx.runs ++ [r], nextSeq := mx.nextSeq + 1
            busyTo := c.ctx.clk + mxSteps three }.setLast acc.toNat (r.seq, r.start + (if three then 64 else 24)) } }

/-- MMA (R173). -/
def execMma (g : BitVec 4) (c : BitVec 1) (a b t : BitVec 6) (z : BitVec 1) (y : BitVec 2) (s : State) : Out :=
  mxIssue s ((encode (.mma g c a b t z y)).headD 0) g c a b t z y false

/-- MMA3 (R181). -/
def execMma3 (g : BitVec 4) (c : BitVec 1) (a b t : BitVec 6) (z : BitVec 1) (s : State) : Out :=
  mxIssue s ((encode (.mma3 g c a b t z)).headD 0) g c a b t z 0 true

/-- MZERO: delivers +0 into every bit of the accumulator at c+24 (R179). -/
def execMzero (g : BitVec 4) (c : BitVec 1) (s : State) : Out :=
  s.guarded g fun x =>
    let mx := x.ctx.mx
    let d : MxPend := ⟨mx.nextSeq, x.ctx.clk, c.toNat, x.ctx.clk + 24, none, 0⟩
    { x with ctx := { x.ctx with mx := { mx with pend := mx.pend ++ [d], nextSeq := mx.nextSeq + 1 }.setLast c.toNat (mx.nextSeq, x.ctx.clk + 24) } }

/-- MBAND: the band pair of an accumulator, for instructions issued from c+1 on (R178). -/
def execMband (g : BitVec 4) (c : BitVec 1) (a : BitVec 6) (s : State) : Out :=
  s.guarded g fun x =>
    let v := (x.readS a).extractLsb' 0 32
    { x with ctx := { x.ctx with mx :=
        if c = 0 then { x.ctx.mx with band0 := v } else { x.ctx.mx with band1 := v } } }

end Sys2Proof.Machine
end

