-- ==== Sys2Proof/Machine/Fabric.lean ====
section
/-! DEFINITION. Nodes and regions, stitched paths and trees, lane contention, packets and the error logs
(spec/09 R195, spec/15 R303 to R311, spec/16 R337). -/

namespace Sys2Proof.Machine

open Sys2Proof

/-! ## Nodes (R195, R292) -/

/-- The cluster of the mesh at an index of a region (R292). -/
def Launch.cluster (l : Launch) (x : Nat) : Nat := (l.row + x / l.cols) * 12 + l.col + x % l.cols

/-- The core of a group-relative node (R195). -/
def Launch.coreOf (l : Launch) (node : Nat) : Nat := 8 * l.cluster (node / 8) + node % 8

/-- The clusters of a region. -/
def Launch.area (l : Launch) : Nat := l.rows * l.cols

/-- Whether a node lies in the region (R195). -/
def Launch.inside (l : Launch) (node : Nat) : Bool := node / 8 < l.area

/-- The cores that run units of a launch, by ascending node (R292). -/
def Launch.members (l : Launch) : List Nat :=
  (List.range l.area).flatMap fun x => (List.range l.cores).map fun k => 8 * l.cluster x + k

/-- The launch whose unit a core runs. -/
def State.launchOf (s : State) (c : Core) : Option Launch := Map.get? s.launches c.launch

/-- The group-relative node of a core's unit, from GRPPOS (R292). -/
def Core.node (c : Core) : Nat := (c.grpPos.extractLsb' 16 16).toNat

/-- Whether a core runs a unit of a partition. -/
def Core.runsIn (c : Core) (part : Nat) : Bool := c.run != .idle && c.launch != 0 && c.partId.toNat == part

/-! ## Stitched paths (R306 to R308) -/

/-- The steps from `a` to `b` along a line of `n` places, with wrap where `wrap` holds: the places passed, `a` first. On a tie
the way of ascending index (R308). -/
def linePath (wrap : Bool) (n a b : Nat) : List Nat :=
  if wrap && decide (2 < n) then
    let up := (b + n - a) % n
    let down := (a + n - b) % n
    if up ≤ down then (List.range (up + 1)).map fun i => (a + i) % n
    else (List.range (down + 1)).map fun i => (a + n - i) % n
  else if a ≤ b then (List.range (b - a + 1)).map fun i => a + i
  else (List.range (a - b + 1)).map fun i => a - i

/-- The serpentine position of a cluster, and the cluster at a position: the same map both ways (R306). -/
def serpentine (cols x : Nat) : Nat := if (x / cols) % 2 = 0 then x else x / cols * cols + (cols - 1 - x % cols)

/-- The parent of cluster `x` in the k-ary tree over `a … b` (R307); `fuel` bounds the depth. -/
def treeParent (fuel k a b x : Nat) : Option Nat :=
  match fuel with
  | 0 => none
  | f + 1 =>
    if x ≤ a || b < x then none
    else
      let m := b - a
      let size (j : Nat) := (m + j) / k
      let first (j : Nat) := a + 1 + ((List.range j).map size).sum
      match (List.range k).find? fun j => decide (first j ≤ x) && decide (x < first j + size j) with
      | none => none
      | some j => if x = first j then some a else treeParent f k (first j) (first j + size j - 1) x

/-- The tree's k of a stitching mode: its own in the tree modes, 2 in the others (R315). -/
def treeK (stitch : Nat) : Nat := if stitch = 3 then 4 else 2

/-- The clusters from `x` up to the root of the tree of `n` clusters, `x` first. -/
def toRoot (fuel k n x : Nat) : List Nat :=
  match fuel with
  | 0 => [x]
  | f + 1 =>
    match treeParent n k 0 (n - 1) x with
    | none => [x]
    | some p => x :: toRoot f k n p

/-- The clusters passed from `a` to `b` in the tree: up to the nearest common ancestor and down (R308). -/
def treePath (k n a b : Nat) : List Nat :=
  let ua := toRoot n k n a
  let ub := toRoot n k n b
  let up := ua.takeWhile fun x => !(ub.contains x)
  let down := ub.takeWhile fun x => !(ua.contains x)
  let top := (ua.find? fun x => ub.contains x).toList
  up ++ top ++ down.reverse

/-- The clusters that a transfer between clusters of a region passes, in a stitching mode (R308). -/
def stitchPath (stitch rows cols a b : Nat) : List Nat :=
  match stitch with
  | 1 => (linePath true (rows * cols) (serpentine cols a) (serpentine cols b)).map (serpentine cols)
  | 2 => treePath 2 (rows * cols) a b
  | 3 => treePath 4 (rows * cols) a b
  | m =>
    let across := (linePath (m == 4) cols (a % cols) (b % cols)).map fun q => a / cols * cols + q
    let along := (linePath (m == 4) rows (a / cols) (b / cols)).map fun r => r * cols + b % cols
    across ++ along.drop 1

/-- The path between two clusters of a launch as stitched edges between clusters of the mesh; its length is h (R308). -/
def Launch.path (l : Launch) (a b : Nat) : List (Nat × Nat) :=
  let p := (stitchPath l.stitch l.rows l.cols a b).map l.cluster
  p.zip (p.drop 1)

/-- The hops between two clusters of a launch (R308). -/
def Launch.hops (l : Launch) (a b : Nat) : Nat := (l.path a b).length

/-- The hops from the root of the reduction tree down to a cluster, along the tree (R315). -/
def Launch.treeDepth (l : Launch) (x : Nat) : Nat :=
  let up := toRoot l.area (treeK l.stitch) l.area x
  ((up.zip (up.drop 1)).map fun e => l.hops e.2 e.1).sum

/-- The children of a cluster in the reduction tree, ascending (R307, R315). -/
def Launch.children (l : Launch) (x : Nat) : List Nat :=
  (List.range l.area).filter fun y => treeParent l.area (treeK l.stitch) 0 (l.area - 1) y == some x

/-! ## Links and routers that work (R309) -/

/-- The neighbour of a router through a port: 0 north, 1 east, 2 south, 3 west (R303, R327). -/
def neighbour (x port : Nat) : Option Nat :=
  match port with
  | 0 => if 12 ≤ x then some (x - 12) else none
  | 1 => if x % 12 < 11 then some (x + 1) else none
  | 2 => if x + 12 < 96 then some (x + 12) else none
  | 3 => if 0 < x % 12 then some (x - 1) else none
  | _ => none

/-- The mesh links that a stitched edge runs over: the column first, then the row (R306). -/
def meshLinks (a b : Nat) : List (Nat × Nat) :=
  let p := stitchPath 0 8 12 a b
  p.zip (p.drop 1)

/-- Whether a mesh link works in both directions. -/
def State.linkWorks (s : State) (e : Nat × Nat) : Bool := !(s.links.contains e) && !(s.links.contains (e.2, e.1))

/-- Whether a router works. -/
def State.routerWorks (s : State) (x : Nat) : Bool := !((Map.get? s.clusters x).map Cluster.dead).getD false

/-- The stitched edges of a mode on a region, as pairs of cluster indices (R306). -/
def stitchEdges (stitch rows cols : Nat) : List (Nat × Nat) :=
  let n := rows * cols
  let mesh := (List.range n).flatMap fun x =>
    (if x % cols + 1 < cols then [(x, x + 1)] else []) ++ (if x + cols < n then [(x, x + cols)] else [])
  match stitch with
  | 1 => if n < 2 then [] else (List.range n).map fun i => (serpentine cols i, serpentine cols ((i + 1) % n))
  | 2 => (List.range n).filterMap fun x => (treeParent n 2 0 (n - 1) x).map fun p => (p, x)
  | 3 => (List.range n).filterMap fun x => (treeParent n 4 0 (n - 1) x).map fun p => (p, x)
  | 4 => mesh ++ (if 2 < cols then (List.range rows).map fun r => (r * cols, r * cols + cols - 1) else []) ++
      (if 2 < rows then (List.range cols).map fun q => (q, (rows - 1) * cols + q) else [])
  | _ => mesh

/-- Whether a stitching can be formed with its region's first cluster at a place of the mesh (R309). -/
def State.canStitch (s : State) (stitch row col rows cols : Nat) : Bool :=
  let at_ (x : Nat) : Nat := (row + x / cols) * 12 + col + x % cols
  ((List.range (rows * cols)).all fun x => s.routerWorks (at_ x)) &&
    (stitchEdges stitch rows cols).all fun e =>
      let l := meshLinks (at_ e.1) (at_ e.2)
      l.all fun k => s.linkWorks k && s.routerWorks k.1 && s.routerWorks k.2

/-! ## Error logs (R337) -/

/-- Whether two log entries are of one kind within 1 ms and of the same source, which `source` gives (R337). -/
def LogEntry.like (source : LogEntry → List Nat) (a b : LogEntry) : Bool :=
  a.kind == b.kind && source a == source b && decide (b.gt.toNat - a.gt.toNat < 1000000 * 65536)

/-- The source of an event of the fabric error log: router, partition and source node, and the port where the kind does not leave it free
(R337; DESIGN CHOICE, log entry 11). -/
def LogEntry.fabSource (e : LogEntry) : List Nat := [if 1 ≤ e.kind && e.kind ≤ 3 then e.where_ % 256 else e.where_, e.part, e.src]

/-- The source of an event of the memory error log: its memory and address, not the syndrome (R337; DESIGN CHOICE, log entry 11). -/
def LogEntry.memSource (e : LogEntry) : List Nat := [e.where_, e.part]

/-- A log with an entry added; like events within 1 ms are merged (R337). -/
def logAdd (source : LogEntry → List Nat) (l : List LogEntry) (e : LogEntry) : List LogEntry :=
  match l with
  | [] => [e]
  | x :: r => if x.like source e then { x with count := x.count + e.count } :: r else x :: logAdd source r e

/-- An event of the fabric error log: kind, router and port, partition and source node. The port of an error in a flit, of kinds 1 to 3, is
free: any of the router's may have met it (R311, R337; DESIGN CHOICE, log entry 20). -/
def State.logFabric (s : State) (kind where_ part src : Nat) : State :=
  let at_ := if 1 ≤ kind && kind ≤ 3 then where_ % 256 + 256 * (Config.errorPort s.oracle % 16) else where_
  { s with fabLog := logAdd LogEntry.fabSource s.fabLog ⟨BitVec.ofNat 64 s.gt, at_, kind, part, src, 1⟩, oracle := s.oracle + 1 }

/-- The memory that an address of the system-physical map lies in: 0 scratchpad, 1 cluster SRAM, 2 first tier, 3 second
tier (R337). -/
def memoryKind (a : Nat) : Nat :=
  if a < 0x10000000000 then 2
  else if a < 0xF000000000000 then 3
  else if a < 0xF000100000000 then 1 else 0

/-- An event of the memory error log; the syndrome is a free value (R337; DESIGN CHOICE, log entry 11). -/
def State.logMemory (s : State) (kind a : Nat) : State :=
  { s with
    memLog := logAdd LogEntry.memSource s.memLog ⟨BitVec.ofNat 64 s.gt, a, kind, memoryKind a, (Config.syndrome s.oracle).toNat, 1⟩
    oracle := s.oracle + 1 }

/-- An event raised at a core: a pending event of its next boundary (R246). -/
def Core.addEvent (t : Trap) (c : Core) : Core := { c with events := c.events ++ [t] }

/-- An event raised at the units that a launch has vacated: they take it once they are back (R256, R260). -/
def Launch.eventAway (l : Launch) (t : Trap) : Launch :=
  { l with away := l.away.map fun u => (u.1, { u.2 with events := u.2.events ++ [t] }) }

/-! ## Timed traffic and lane 0 (R304, R305) -/

/-- The class of a timed transfer: 0 coordinate packets, 1 direct sends and waybill transfers, 2 collectives (R304). -/
def laneClass (ev : Instr) : Nat :=
  match ev with
  | .coordinatePacket .. => 0
  | .collectiveContribution .. => 2
  | .collectiveResult .. => 2
  | _ => 1

/-- The flits of a timed transfer: a head flit and the body flits, 4 but for coordinate packets (R310). -/
def laneFlits (ev : Instr) : Nat :=
  match ev with
  | .coordinatePacket _ p => 1 + (p.payload.length + 63) / 64
  | _ => 5

/-- The cycles of a hop (R197, R208, R211). -/
def laneHop (ev : Instr) : Nat := if laneClass ev = 1 then 2 else 4

/-- The cycles from a transfer's last link to its arrival: a free value of its class, small enough that no flit leaves before it is read
(R197, R208, R211; DESIGN CHOICE, log entry 9). -/
def laneGap (ev : Instr) : Nat :=
  Config.laneGap (laneClass ev) % (match laneClass ev with | 0 => 16 | 1 => 2 | _ => 1)

/-- A flight with the ticks at which its flits take each edge of its path while none of them waits (R197, R208). -/
def Flight.timed (f : Flight) : Flight :=
  let n := laneFlits f.ev
  { f with cross := (List.range f.path.length).map fun j => (List.range n).map fun i =>
      f.due - laneGap f.ev - laneHop f.ev * (f.path.length - j) - (n - 1 - i) }

/-- A timed flight sent. -/
def State.sendFlight (s : State) (f : Flight) : State := { s with flights := s.flights ++ [f.timed] }

/-- The rank of the port by which a flit enters router `x`: 0 the cluster port, then north, east, south, west (R305). -/
def entryRank (x : Nat) (from_ : Option Nat) : Nat :=
  match (List.range 4).find? fun k => from_.isSome && neighbour x k == from_ with
  | some k => k + 1
  | none => 0

/-- The mesh links of a path in order: the path's edge, the link, and the rank of the port by which a flit enters the router before it. -/
def pathLinks (path : List (Nat × Nat)) : List (Nat × (Nat × Nat) × Nat) :=
  let all := path.zipIdx.flatMap fun e => (meshLinks e.1.1 e.1.2).map fun l => (e.2, l)
  all.zipIdx.map fun x => (x.1.1, x.1.2, entryRank x.1.2.1 (if x.2 = 0 then none else (all[x.2 - 1]?).map fun y => y.2.1))

/-- A flit that would take a link in a cycle: flight, edge, flit, link, and rank of its entry port. -/
structure LaneUse where
  flight : Nat
  edge   : Nat
  flit   : Nat
  link   : Nat × Nat
  port   : Nat
  deriving DecidableEq, Repr

/-- The links that a flight's flits would take at a tick. -/
def Flight.uses (f : Flight) (k tick : Nat) : List LaneUse :=
  (pathLinks f.path).filterMap fun l =>
    let row := f.cross.getD l.1 []
    if row.contains tick then some ⟨k, l.1, row.idxOf tick, l.2.1, l.2.2⟩ else none

/-- Whether two flights carry one transfer: copies of one packet, which part at a router, or the parts of one collective (R308, R211). -/
def sameTransfer (f g : Flight) : Bool :=
  match f.ev, g.ev with
  | .coordinatePacket _ p, .coordinatePacket _ q => p.sent.isSome && p.sent == q.sent && p.origin == q.origin
  | .collectiveContribution i .., .collectiveContribution j .. => i == j
  | .collectiveResult p _, .collectiveResult q _ => p.coll == q.coll
  | _, _ => false

/-- The ticks of one edge's flits, none before `low` nor before the flit ahead of it has gone. -/
def pushRow (row low : List Nat) : List Nat :=
  (row.zip low).foldl (fun a x => a ++ [max (max x.1 x.2) ((a.getLast?.map (· + 1)).getD 0)]) []

/-- The ticks of the edges that follow one. -/
def pushRows (hop : Nat) (before : List Nat) (rows : List (List Nat)) : List (List Nat) :=
  match rows with
  | [] => []
  | r :: t => let r1 := pushRow r (before.map (· + hop)); r1 :: pushRows hop r1 t

/-- A flit waits one cycle for an edge; what follows it waits as long as it must, and the arrival with the last flit (R305). -/
def Flight.delay (f : Flight) (edge flit : Nat) : Flight :=
  match f.cross.drop edge with
  | [] => f
  | r :: t =>
    let r1 := r.zipIdx.map fun x => if x.2 = flit then x.1 + 1 else x.1
    let r2 := pushRow r1 r1
    let new := f.cross.take edge ++ r2 :: pushRows (laneHop f.ev) r2 t
    let last (l : List (List Nat)) : Nat := (l.getLast?.bind List.getLast?).getD 0
    let w := last new - last f.cross
    { f with cross := new, due := f.due + w, count := f.count.map fun x => (x.1, x.2 + w) }

/-- The source node of a timed transfer. -/
def State.laneSource (s : State) (ev : Instr) : Nat :=
  match ev with
  | .coordinatePacket _ p => p.src
  | .directSend _ src .. => src
  | .waybillMemoryTransfer _ src .. => src
  | .collectiveContribution _ n .. => (s.core n).node
  | _ => 0

/-- The waits of a tick, each once: a flit that waits for several links of an edge waits one cycle, and the copies of one transfer that share
a link are one flit there (R305, R306). -/
def State.laneWaits (s : State) (l : List LaneUse) : List LaneUse :=
  let one (q r : LaneUse) : Bool :=
    q.flit == r.flit && ((q.flight == r.flight && q.edge == r.edge) ||
      (q.link == r.link && match s.flights[q.flight]?, s.flights[r.flight]? with | some f, some g => sameTransfer f g | _, _ => false))
  l.foldl (fun a r => if a.any fun q => one q r then a else a ++ [r]) []

/-- Lane 0 in one tick of a partition: of the flits that need one link the one that entered by the lower-numbered port goes on, and each
other waits a cycle, which the fabric error log counts once at its router and port. A contribution that has waited is missing at its node's
scheduled cycle (R211, R305). Between flits that entered by one port the choice is free (DESIGN CHOICE, log entry 9). -/
def State.lanes (s : State) (part tick : Nat) : State :=
  let all := s.flights.zipIdx.flatMap fun x => if x.1.part = part then x.1.uses x.2 tick else []
  let apart (i j : Nat) : Bool :=
    match s.flights[i]?, s.flights[j]? with
    | some f, some g => i != j && !(sameTransfer f g)
    | _, _ => false
  let first (q r : LaneUse) : Bool :=
    decide (q.port < r.port) ||
      (q.port == r.port && (if Config.laneWait s.oracle % 2 = 0 then decide (q.flight < r.flight) else decide (r.flight < q.flight)))
  let lost := all.filter fun r => all.any fun q => q.link == r.link && apart q.flight r.flight && first q r
  let waits := (lost.map fun r => (r.flight, r.edge, r.flit)).eraseDups
  if lost.isEmpty then s
  else
    let s1 := (s.laneWaits lost).foldl (fun s r => s.logFabric 4 (r.link.1 + 256 * ((r.port + 4) % 5)) part
      (((s.flights[r.flight]?).map fun f => s.laneSource f.ev).getD 0)) s
    let tardy (id : Nat) : List Nat := waits.filterMap fun w =>
      match (s.flights[w.1]?).map Flight.ev with
      | some (.collectiveContribution i n ..) => if i = id then some n else none
      | _ => none
    { s1 with
      flights := s.flights.zipIdx.map fun x => waits.foldl (fun f w => if w.1 = x.2 then f.delay w.2.1 w.2.2 else f) x.1
      colls := s.colls.map fun k => (k.1, { k.2 with late := k.2.late ++ tardy k.1 })
      oracle := s.oracle + 1 }

/-! ## Packets (R196, R310) -/

/-- The bytes of an element by format attribute (R196); 0 for a format that CXSEND refuses. -/
def elemBytes (fmt : Nat) : Nat :=
  if fmt ≤ 4 then 1 else if fmt = 6 || fmt = 7 then 2 else if fmt = 8 || fmt = 9 then 4 else 0

/-- The coordinate in dimension d of a packed coordinate word (R195). -/
def coordOf (x : Word) (d : Nat) : Nat := laneNat x d 16

/-- The coordinates of element `n` of a packet (R310). -/
def pktCoord (p : Packet) (n : Nat) : Word :=
  (p.origin &&& ~~~0xFFFF#64) ||| BitVec.ofNat 64 ((coordOf p.origin 0 + n) % 2 ^ 16)

/-- The node that a copy of a packet is for: of a multicast copy, the one its mask still names, counted from MBASE (R195, R308). -/
def pktNode (p : Packet) : Nat :=
  if p.dkind = 4 then p.dest + (((List.range 64).find? fun i => p.mask.getLsbD i).getD 0) else p.dest

/-- The body flits of a packet (R310). -/
def pktFlits (p : Packet) : Nat := (p.payload.length + 63) / 64

/-- The route class of a coordinate packet: 0 timed, 1 device memory, 2 SCT (R304, R310). -/
def pktClass (p : Packet) : Nat := if p.spkg != 0 then 2 else if p.dkind = 3 then 1 else 0

/-- The 64 bytes of a packet's header in its head flit (R310): TYPE, SEQ and route class beside the packet's own fields. -/
def pktHeader (p : Packet) (type cls seq : Nat) : BitVec 512 :=
  let put (o v : Nat) : Nat := v * 2 ^ (8 * o)
  BitVec.ofNat 512 (put 0 (type % 256) + put 1 (p.part % 256) + put 2 p.ctx.toNat + put 4 p.tag.toNat +
    put 6 (p.fmt.toNat + (if p.parity then 16 else 0) + cls % 8 * 32) + put 7 (p.dkind % 256) + put 8 (p.src % 2 ^ 16) +
    put 0xA (p.dest % 2 ^ 16) + put 0xC (seq % 2 ^ 32) + put 0x10 p.origin.toNat + put 0x18 p.mask.toNat + put 0x20 (p.count % 2 ^ 16) +
    put 0x22 (pktFlits p % 256) + put 0x24 (p.spkg % 2 ^ 32))

/-- A header's byte field. -/
def hdField (h : BitVec 512) (o n : Nat) : Nat := (h.toNat / 2 ^ (8 * o)) % 2 ^ (8 * n)

/-- Whether a header holds a reserved value: it counts as an uncorrectable header error; format attributes 13 to 15 are reserved (R72, R225, R310,
R311). A count or a number of flits outside
its range counts as reserved (DESIGN CHOICE, log entry 20). -/
def headerReserved (h : BitVec 512) : Bool :=
  let type := hdField h 0 1
  type = 0 || 5 < type || 64 ≤ hdField h 1 1 || 4 ≤ hdField h 6 1 / 32 ||
    (if type = 1 then 13 ≤ hdField h 6 1 % 16 || hdField h 7 1 = 0 || 4 < hdField h 7 1 || hdField h 0x20 2 = 0 || 1024 < hdField h 0x20 2
     else hdField h 7 1 ≠ 0 || hdField h 4 2 ≠ 0 || hdField h 0x20 2 ≠ 0) ||
    hdField h 0x22 1 = 0 || 16 < hdField h 0x22 1 || hdField h 0x23 1 ≠ 0 || hdField h 0x28 24 ≠ 0 ||
    (if type = 3 || type = 4 then 2 ^ 21 ≤ hdField h 0xC 4 else hdField h 0xC 4 ≠ 0)

/-- The header of a transfer other than a coordinate packet: TYPE by what it is, the nodes of the launch, and 4 body flits; SEQ of a
collective (R310). -/
def State.transferHeader (s : State) (f : Flight) : BitVec 512 :=
  let l := Map.get? s.launches f.launch
  let ctx := ((l.map fun x => x.lid.extractLsb' 0 16).getD 0)
  let base : Packet := ⟨f.part, ctx, 0, 0, false, 0, s.laneSource f.ev, 0, 0, 0, 0, 0, List.replicate 256 0, 0, none, 0, none⟩
  let seq (id : Nat) : Nat := ((Map.get? s.colls id).map fun k => k.seq.toNat + k.op * 2 ^ 16 + k.group * 2 ^ 18).getD 0
  match f.ev with
  | .coordinatePacket _ p => pktHeader p 1 (pktClass p) 0
  | .directSend n .. => pktHeader { base with dest := (s.core n).node } 2 0 0
  | .collectiveContribution id .. => pktHeader base 3 0 (seq id)
  | .collectiveResult p n => pktHeader { base with dest := (s.core n).node } 4 0 (seq p.coll)
  | .waybillMemoryTransfer n .. => pktHeader { base with dest := (s.core n).node } 5 0 0
  | _ => 0

/-- A coordinate packet as its receiver finds it: a reserved value in its header makes it a header error (R311). -/
def pktChecked (p : Packet) : Packet :=
  if p.bad != 2 && headerReserved (pktHeader p 1 (pktClass p) 0) then { p with bad := 2 } else p

/-- The bits of element `n` of a packet. -/
def pktElem (p : Packet) (n : Nat) : Nat :=
  let e := elemBytes p.fmt.toNat
  ofBytes ((p.payload.drop (e * n)).take e)

end Sys2Proof.Machine
end

