-- ==== Sys2Proof/Machine/Landing.lean ====
section
/-! DEFINITION. Writes to memory with poison and hallmark, landing maps and their decision, strays, and the arrival of a coordinate
packet (spec/09 R198 to R205, R350; spec/13 R267, R281 to R286; spec/15 R312, R313). -/

namespace Sys2Proof.Machine

open Sys2Proof

/-- The key of a byte by its system-physical address: a scratchpad's face of the moment (R265). -/
def State.spaKey (s : State) (a : Nat) : Nat :=
  if 0xF000100000000 ≤ a && decide (a < 0xF000130000000) then
    let n := (a - 0xF000100000000) / 0x100000
    padKey n (s.core n).faceHalf ((a - 0xF000100000000) % 0x100000)
  else a

/-! ## Poison (R285, R286) -/

/-- The protected unit that holds a byte: a 64-byte granule of device memory, else a 64-bit word (R285). -/
def granule (k : Nat) : Nat × Nat := if inDevice k then (k / 64 * 64, 64) else (k / 8 * 8, 8)

/-- Poison after a write of `n` bytes: whole words and granules are cleared (R286). -/
def clearPoison (l : List Nat) (k n : Nat) : List Nat :=
  l.filter fun p => !(decide (k ≤ p) && decide (p + (granule p).2 ≤ k + n))

/-- Whether any of `n` bytes is poisoned. -/
def State.poisoned (s : State) (k n : Nat) : Bool :=
  s.poison.any fun p => decide (p < k + n) && decide (k < p + (granule p).2)

/-- What bytes from a key on hold, kept for readers of the start of this cycle: scratchpad bytes alone, which waybill entries lie in (R316). -/
def State.kept (s : State) (k n : Nat) : List Host.Cell :=
  if k < 2 ^ 52 then s.undo else s.undo ++ (List.range n).map fun i => (k + i, memGet s.mem (k + i))

/-- Bytes put by key as whole words, as the scheduler loads them: no other effect but on poison (R286). -/
def State.putKey (s : State) (k : Nat) (l : List Byte) : State :=
  { s with mem := memPutN s.mem k l, poison := clearPoison s.poison k l.length }

/-- Bytes written by key in a cycle of a core; no other effect but on poison, and on what the cycle keeps. -/
def State.writeKey (s : State) (k : Nat) (l : List Byte) : State := { s.putKey k l with undo := s.kept k l.length }

/-- Bytes from a key on set to zero as whole words, which clears their poison (R286). -/
def State.clearKey (s : State) (k n : Nat) : State := { s with mem := memClear s.mem k n, poison := clearPoison s.poison k n }

/-- A byte as it stood at the start of this cycle (R316). -/
def State.startByte (s : State) (k : Nat) : Byte := ((s.undo.find? fun x => x.1 == k).map Prod.snd).getD (memGet s.mem k)

/-! ## The hallmark of device memory (R281 to R284) -/

/-- The first address of a memory-side unit's range (R265). -/
def msuBase (u : Nat) : Nat := if u < 16 then u * 0x1000000000 else tier2Base + (u - 16) * 0x8000000000

/-- The bytes of a memory-side unit's range (R265): every link has 512 GiB installed (R1; DESIGN CHOICE, log entry 64). -/
def msuBytes (u : Nat) : Nat := if u < 16 then 0x1000000000 else 0x8000000000

/-- The unit's state replaced. -/
def State.setMsu (s : State) (u : Nat) (m : Msu) : State := { s with msus := Map.put s.msus u m }

/-- The summary bit of an address in a partition's region table of the compatibility mode: byte and bit (R284). -/
def summaryBit (table u a : Nat) : Nat × Nat :=
  let r := (a - msuBase u) / 0x10000
  (table + r / 8, r % 8)

/-- Whether the compatibility mode of a partition marks an address's region all-uncompressed (R284). -/
def State.regionRaw (s : State) (part a : Nat) : Bool :=
  let u := msuOf a
  match Map.get? (s.msu u).compat part with
  | none => false
  | some t => let (b, i) := summaryBit t u a; (memGet s.mem b).getLsbD i

/-- The frames of 4 KiB that a range of bytes touches. -/
def framesOf (a n : Nat) : List Nat :=
  if n = 0 then [] else (List.range ((a + n - 1) / 0x1000 - a / 0x1000 + 1)).map fun i => (a / 0x1000 + i) * 0x1000

/-- Whether a frame's word at 0xFF8 reads as the hallmark of its unit. -/
def State.hasHallmark (s : State) (f : Nat) : Bool := memNat s.mem (f + 0xFF8) 8 == (s.msu (msuOf f)).hallmark.toNat

/-- Whether a frame of device memory is compressed (R281). -/
def State.compressed (s : State) (f : Nat) : Bool := s.hasHallmark f && !((s.msu (msuOf f)).exc.contains f)

/-- The poison of the words and granules of some bytes copied to another place goes with them (R285, R286). -/
def movePoison (l : List Nat) (old new z : Nat) : List Nat :=
  clearPoison l new z ++ (l.filter fun p => decide (old ≤ p) && decide (p < old + z)).map fun p => p - old + new

/-- Bytes copied from one place to another by no access of a core, poison and all (R286). -/
def State.moveBytes (s : State) (old new z : Nat) : State :=
  { s with mem := memCopy s.mem old new z, poison := if s.poison.isEmpty then [] else movePoison s.poison old new z }

/-- A partition replaced. -/
def State.setPart (s : State) (part : Nat) (p : Part) : State := { s with parts := Map.put s.parts part p }

/-- An event of a partition: an MSI with its identity to its drover core, as its entry in the command page says; an identity of 0 sends nothing.
In the entry of HALLMARK_FULL the scheduler first writes byte 3, the memory-side unit (R328). -/
def State.sendEvent (s : State) (part offset unit : Nat) : State :=
  match Map.get? s.parts part with
  | none => s
  | some p =>
    let old := (Map.get p.events offset 0).toNat
    let e := if offset = 0x504 then old % 2 ^ 24 + unit * 2 ^ 24 else old
    let s1 := if offset = 0x504 then s.setPart part { p with events := Map.put p.events offset (BitVec.ofNat 32 e) } else s
    if e % 2 ^ 16 = 0 then s1 else { s1 with outbox := s1.outbox ++ [.interrupt part (e / 2 ^ 16 % 256) (e % 2 ^ 16)] }

/-- The exception table after an unmarked write to a frame; at 224 entries HALLMARK_FULL goes to the runtime (R282). -/
def State.checkHallmark (part : Nat) (s : State) (f : Nat) : State :=
  let u := msuOf f
  let m := s.msu u
  if !(inDevice f) then s
  else if s.hasHallmark f && !(s.regionRaw part f) then
    if m.exc.contains f then s
    else
      let s1 := s.setMsu u { m with exc := m.exc ++ [f] }
      if m.exc.length + 1 = 224 then s1.sendEvent part 0x504 u else s1
  else s.setMsu u { m with exc := m.exc.filter fun x => x != f }

/-- Whether a write must be held: it would need an entry while all 256 of its unit are in use, or its frame has a write that is held
(R282). -/
def State.writeHeld (s : State) (part a : Nat) (l : List Byte) : Bool :=
  let s1 := s.writeKey a l
  (framesOf a l.length).any fun f =>
    let m := s.msu (msuOf f)
    (s1.hasHallmark f && !(s.regionRaw part f) && !(m.exc.contains f) && decide (256 ≤ m.exc.length)) ||
      s.heldWrites.any fun w => (framesOf w.2.1 w.2.2.length).contains f

/-- An unmarked write to device memory by a partition, in one step; one that must be held waits (R235, R282). -/
def State.devWrite (s : State) (part a : Nat) (l : List Byte) : State :=
  if s.writeHeld part a l then { s with heldWrites := s.heldWrites ++ [(part, a, l)] }
  else (framesOf a l.length).foldl (State.checkHallmark part) (s.writeKey a l)

/-- The held writes that now have room, performed in their order (R282). -/
def State.releaseWrites (s : State) : State :=
  s.heldWrites.foldl (fun s w => s.devWrite w.1 w.2.1 w.2.2) { s with heldWrites := [] }

/-! ## Landing descriptors (R198, R199) -/

/-- TAG. -/
def lmTAG (d : BitVec 512) : Nat := byteField d 0 2
/-- DIMS. -/
def lmDIMS (d : BitVec 512) : Nat := byteField d 2 1
/-- FMT. -/
def lmFMT (d : BitVec 512) : Nat := byteField d 3 1
/-- PRIO. -/
def lmPRIO (d : BitVec 512) : Nat := byteField d 4 1 % 4
/-- Whether MODE accepts a parity. -/
def lmAccepts (d : BitVec 512) (parity : Bool) : Bool := (byteField d 4 1).testBit (if parity then 5 else 4)
/-- DRAIN. -/
def lmDRAIN (d : BitVec 512) : Nat := byteField d 6 2
/-- LO of a dimension. -/
def lmLO (d : BitVec 512) (i : Nat) : Nat := byteField d (8 + 2 * i) 2
/-- HI of a dimension. -/
def lmHI (d : BitVec 512) (i : Nat) : Nat := byteField d (0x10 + 2 * i) 2
/-- BASE. -/
def lmBASE (d : BitVec 512) : Nat := byteField d 0x18 8
/-- STRIDE of a dimension. -/
def lmSTRIDE (d : BitVec 512) (i : Nat) : Int := signed 32 (byteField d (0x20 + 4 * i) 4)

/-- The first bad byte of a landing descriptor, if any (R200). -/
def lmBad (d : BitVec 512) : Option Nat :=
  let tests : List (Nat × Bool) :=
    [(2, lmDIMS d = 0 || 4 < lmDIMS d), (3, 7 < lmFMT d), (4, byteField d 4 1 % 16 / 4 ≠ 0 || byteField d 4 1 / 64 ≠ 0),
     (5, byteField d 5 1 ≠ 0)]
  ((tests.filter Prod.snd).map Prod.fst ++
    ((List.range 16).map fun i => 0x30 + i).filter fun o => byteField d o 1 != 0).min?

/-- Whether a landing format accepts an element format (R199). -/
def landAccepts (lf f : Nat) : Bool :=
  match lf with
  | 0 => true
  | 1 => f == 3
  | 2 => f == 4
  | 3 => f == 6
  | 4 => f == 7
  | 5 => f == 1
  | 6 => f == 2
  | 7 => f == 3
  | _ => false

/-- What a landing format writes for an element: its bits and its bytes (R199). -/
def landValue (lf f v : Nat) : Nat × Nat :=
  match lf with
  | 1 => ((Fmt.bf16.round .rne (Fmt.e4m3.decode v)).1, 2)
  | 2 => ((Fmt.bf16.round .rne (Fmt.e5m2.decode v)).1, 2)
  | 3 => (rne32 (Fmt.bf16.decode v), 4)
  | 4 => (rne32 (Fmt.fp16.decode v), 4)
  | 5 => (wrapNat 32 (signed 8 v), 4)
  | 6 => (v % 256, 4)
  | 7 => (rne32 (Fmt.e4m3.decode v), 4)
  | _ => (v, elemBytes f)

/-- The format attribute and size of what a map has written, for a reader of its window: FMT 0 keeps what was sent, which the
page's own attribute names (R199, R206). -/
def landWritten (lf page : Nat) : Nat :=
  match lf with
  | 0 => page
  | 1 => 6
  | 2 => 6
  | 5 => 9
  | 6 => 9
  | _ => 8

/-- The address R204 gives to coordinates, relative to LO; `esz` is the size written. -/
def lmAddress (d : BitVec 512) (esz : Nat) (x : Word) : Int :=
  (List.range (lmDIMS d)).foldl (fun a i => a + esz * lmSTRIDE d i * ((coordOf x i : Int) - lmLO d i)) (lmBASE d)

/-- Whether a map is a candidate for an element (R202). -/
def lmCandidate (m : LMap) (tag : Nat) (parity : Bool) (fmt : Nat) (x : Word) : Bool :=
  let d := m.desc
  m.st != .free && lmTAG d == tag && lmAccepts d parity && landAccepts (lmFMT d) fmt &&
    (List.range 4).all fun i =>
      if i < lmDIMS d then decide (lmLO d i ≤ coordOf x i) && decide (coordOf x i ≤ lmHI d i) else coordOf x i == 0

/-- The landing decision: the slot that takes an element, and whether slot number decided it (R202). -/
def landDecide (t : Map LMap) (tag : Nat) (parity : Bool) (fmt : Nat) (x : Word) : Option (Nat × Bool) :=
  let c := t.filter fun m => lmCandidate m.2 tag parity fmt x
  let top := c.foldl (fun a m => max a (lmPRIO m.2.desc)) 0
  let c := c.filter fun m => lmPRIO m.2.desc == top
  let dr := c.filter fun m => m.2.st == .draining
  let c := if dr.isEmpty then c else dr
  match c with
  | [] => none
  | m :: r => some (m.1, !r.isEmpty)

/-- A chosen map after one landing: a DRAINING map counts down, and at 0 becomes FREE with a retire event (R202). -/
def LMap.landed (m : LMap) : LMap × Bool :=
  if m.st == .draining then
    (if m.drain ≤ 1 then ({ m with st := .free, drain := 0 }, true) else ({ m with drain := m.drain - 1 }, false))
  else (m, false)

/-! ## Receiving memories (R204, R205, R267, R350) -/

/-- A receiving memory: a core's shadow, a cluster's SRAM, or a memory-side unit for a partition. -/
inductive Dest where
  | core (n : Nat)
  | cluster (k : Nat)
  | msu (u part : Nat)
  deriving DecidableEq, Repr

/-- A cluster; one that the map does not list is as after reset. -/
def State.cluster (s : State) (k : Nat) : Cluster := Map.get s.clusters k ⟨none, none, none, false, []⟩

/-- The landing table of a receiving memory; a memory-side unit keeps 16 slots for each partition (R267). -/
def State.landTable (s : State) (d : Dest) : Map LMap :=
  match d with
  | .core n => (s.core n).landing
  | .cluster k => (s.cluster k).landing
  | .msu u p => ((s.msu u).landing.filter fun x => x.1 / 16 == p).map fun x => (x.1 % 16, x.2)

/-- A slot of a landing table replaced. -/
def State.putSlot (s : State) (d : Dest) (slot : Nat) (m : LMap) : State :=
  match d with
  | .core n => s.onCore n fun c => { c with landing := Map.put c.landing slot m }
  | .cluster k => { s with clusters := Map.put s.clusters k { s.cluster k with landing := Map.put (s.cluster k).landing slot m } }
  | .msu u p => s.setMsu u { s.msu u with landing := Map.put (s.msu u).landing (16 * p + slot) m }

/-- The retire event of a slot: RET of the core, or CRET of the core that last set a cluster slot (R205). -/
def State.retire (s : State) (d : Dest) (slot setter : Nat) : State :=
  match d with
  | .core n => s.onCore n fun c => c.onSys fun x => x.setRet slot
  | .cluster _ => s.onCore setter fun c => c.onSys fun x => x.setCret slot
  | .msu .. => s

/-- The lowest-numbered core of a cluster that runs a unit of a partition. -/
def State.lowestIn (s : State) (k part : Nat) : Option Nat :=
  (List.range 8).findSome? fun i => if (s.core (8 * k + i)).runsIn part then some (8 * k + i) else none

/-- OVERLAP set in the core that R350 names. -/
def State.overlap (s : State) (d : Dest) (setter part : Nat) : State :=
  let set (n : Nat) : State := s.onCore n fun c => c.onSys Ctx.setOverlap
  match d with
  | .core n => set n
  | .cluster k => if (s.core setter).runsIn part then set setter else match s.lowestIn k part with | some n => set n | none => s
  | .msu .. => s

/-- A stray element goes to the core R205 names, or is discarded and counted with kind 6. It enters the buffer at the end of
the cycle, after the removals of that cycle. -/
def State.stray (s : State) (d : Dest) (p : Packet) (x : Word) (v : Nat) : State :=
  let e : Stray := ⟨p.tag, p.parity, p.fmt, BitVec.ofNat 16 p.src, x, BitVec.ofNat 32 v⟩
  let give (n : Nat) : State := s.onCore n fun c => { c with strayIn := c.strayIn ++ [e] }
  let sender : State :=
    match p.sent with
    | some (n, _) => if p.spkg == 0 && (s.core n).runsIn p.part then give n else s.logFabric 6 (clusterOf n) p.part p.src
    | none => s.logFabric 6 0 p.part p.src
  match d with
  | .core n => give n
  | .cluster k => match s.lowestIn k p.part with | some n => give n | none => sender
  | .msu .. => sender

/-- An element written at A, if A lies in the receiving memory and is aligned (R204). -/
def State.landWrite (s : State) (d : Dest) (a : Int) (esz v part : Nat) : Option State :=
  if a < 0 || a.toNat % esz ≠ 0 then none
  else
    let n := a.toNat
    match d with
    | .core c => if n + esz ≤ 0x100000 then some (s.writeKey (padKey c (s.core c).shadowHalf n) (toBytes esz v)) else none
    | .cluster k =>
      if 0x1000000 ≤ n && n + esz ≤ 0x2000000 then some (s.writeKey (sramSpa k + (n - 0x1000000)) (toBytes esz v)) else none
    | .msu u _ => if msuBase u ≤ n && n + esz ≤ msuBase u + msuBytes u then some (s.devWrite part n (toBytes esz v)) else none

/-- One element of a packet landed or taken as a stray (R202 to R205). -/
def landElement (d : Dest) (p : Packet) (s : State) (i : Nat) : State :=
  let x := pktCoord p i
  let v := pktElem p i
  match landDecide (s.landTable d) p.tag.toNat p.parity p.fmt.toNat x with
  | none => s.stray d p x v
  | some (slot, tie) =>
    match Map.get? (s.landTable d) slot with
    | none => s
    | some m =>
      let (m1, gone) := m.landed
      let s1 := s.putSlot d slot m1
      let s2 := if tie then s1.overlap d m.setter p.part else s1
      let s3 := if gone then s2.retire d slot m.setter else s2
      let (w, esz) := landValue (lmFMT m.desc) p.fmt.toNat v
      match s3.landWrite d (lmAddress m.desc esz x) esz w p.part with
      | some s4 => s4
      | none => s3.stray d p x v

/-- What the debugger's log keeps of a packet that lands on a core: cycle, schedule count, its number among the packets of its CXSEND, source,
origin, elements, the slot (16 for a stray) and address of its first element, and the launch (R342). -/
def State.noteLanding (s : State) (n : Nat) (p : Packet) : State :=
  let c := s.core n
  let x := pktCoord p 0
  let (slot, addr) : Nat × Nat :=
    match landDecide c.landing p.tag.toNat p.parity p.fmt.toNat x with
    | none => (16, 0)
    | some (k, _) =>
      match Map.get? c.landing k with
      | none => (16, 0)
      | some m => (k, (lmAddress m.desc (landValue (lmFMT m.desc) p.fmt.toNat (pktElem p 0)).2 x).toNat)
  let old := Map.get s.dbg.lands n []
  { s with dbg := { s.dbg with
      lands := Map.put s.dbg.lands n (old ++ [[s.cyc, c.ctx.clk - c.ctx.base, p.num, p.src, p.origin.toNat, p.count, slot, addr, c.launch]]) } }

/-- A packet landed, element by element in ascending index (R203). -/
def landPacket (d : Dest) (p : Packet) (s : State) : State := (List.range p.count).foldl (landElement d p) s

/-! ## Arrivals (R32, R252, R312, R313) -/

/-- PAYLOAD_ERROR at every unit of the launch that a packet's PART and CTX name, but those on some cores, with FVAL = SRC; a unit that has
vacated its core takes it once it is back (R256, R312). -/
def State.payloadErrorBut (but : List Nat) (s : State) (part : Nat) (ctx : BitVec 16) (src : Nat) : State :=
  let t : Trap := ⟨cPAYLOAD, 9, false, BitVec.ofNat 64 src, 0⟩
  let s1 := (s.cores.map Prod.fst).foldl (fun s n =>
    let c := s.core n
    if !(but.contains n) && c.runsIn part && c.launchId.extractLsb' 0 16 == ctx then s.onCore n (Core.addEvent t) else s) s
  { s1 with launches := s1.launches.map fun x =>
      if x.2.part == part && x.2.lid.extractLsb' 0 16 == ctx then (x.1, x.2.eventAway t) else x }

/-- PAYLOAD_ERROR at every unit of the launch that a packet's PART and CTX name (R256, R312). -/
def State.payloadError (s : State) (part : Nat) (ctx : BitVec 16) (src : Nat) : State := s.payloadErrorBut [] part ctx src

/-- A transfer that reaches a stopped core is held for its due schedule count (R32, R252); otherwise it lands now. -/
def State.holdOr (s : State) (n : Nat) (ev : Instr) (land : State) : State :=
  let c := s.core n
  match c.stopped with
  | some (S, tick) => s.setCore n { c with xfers := c.xfers ++ [⟨ev, S + (s.tickOf c - tick)⟩] }
  | none => land

/-- The receiving memory of a packet: `node` is the core, the cluster or the memory-side unit (R195, R310). -/
def pktDest (p : Packet) (node : Nat) : Dest :=
  match p.dkind with
  | 2 => .cluster node
  | 3 => .msu node p.part
  | _ => .core node

/-- The launch whose context a packet names, while it has units (R310). -/
def State.packetLaunch (s : State) (p : Packet) : Option (Nat × Launch) :=
  s.launches.find? fun x =>
    x.2.part == p.part && x.2.lid.extractLsb' 0 16 == p.ctx && (x.2.st == .resident || !x.2.vacatedUnits.isEmpty)

/-- The core that runs the unit a packet is for: where a restore has put it, if it has moved since the packet was sent (R222, R260). -/
def State.packetCore (s : State) (p : Packet) (n : Nat) : Nat :=
  match s.packetLaunch p with
  | some (_, l) => if l.st == .resident && l.inside (pktNode p) then l.coreOf (pktNode p) else n
  | none => n

/-- A packet for a unit that has vacated its core waits for it, with its due count (R222, R252); none where its unit is there. -/
def State.waitAway (s : State) (p : Packet) (ev : Instr) : Option State :=
  match s.packetLaunch p with
  | none => none
  | some (k, l) =>
    let u := pktNode p / 8 * l.cores + pktNode p % 8
    (Map.get? l.away u).map fun w =>
      let (S, t) := w.stopped.getD (0, 0)
      let now := ((Map.get? s.parts l.part).map Part.ticks).getD 0
      { s with launches := Map.put s.launches k { l with away := Map.put l.away u { w with held := w.held ++ [⟨ev, S + (now - t)⟩] } } }

/-- The routers that have a port to a memory-side unit: those of a stack's half-die, or of its link's I/O die's row (R303). -/
def msuRouters (u : Nat) : List Nat :=
  if u < 16 then [0, 1, 2, 12, 13, 14].map fun k => 48 * (u / 8) + 24 * (u % 2) + 3 * (u / 2 % 4) + k
  else (List.range 12).map fun k => (if u < 28 then 0 else 84) + k

/-- The distance of two routers in the mesh. -/
def meshDistance (a b : Nat) : Nat := (a / 12 - b / 12) + (b / 12 - a / 12) + (a % 12 - b % 12) + (b % 12 - a % 12)

/-- The router through whose port a flit from a cluster reaches a memory-side unit: the nearest, and of equals the lower; that rule is taken
for the second tier's I/O ports too (R304; DESIGN CHOICE, log entry 20). -/
def msuRouter (from_ u : Nat) : Nat :=
  ((msuRouters u).foldl (fun (a : Option Nat) r => match a with
    | none => some r
    | some b => if meshDistance from_ r < meshDistance from_ b then some r else some b) none).getD 0

/-- The router at which a packet for a receiving memory leaves the fabric; one that no core of this package sent comes in at row 0. -/
def pktRouter (p : Packet) (node : Nat) : Nat :=
  match p.dkind with
  | 2 => node
  | 3 => msuRouter ((p.sent.map fun x => clusterOf x.1).getD 0) node
  | _ => clusterOf node

/-- What an error in the packet of a core's device-memory access does beside the access: 1 poisoned, 2 a header error, 3 corrected (R311 to
R313). -/
def State.fabricError (s : State) (n bad router src : Nat) : State :=
  let c := s.core n
  let part := c.partId.toNat
  match bad with
  | 0 => s
  | 1 => (s.logFabric 2 router part src).payloadError part (c.launchId.extractLsb' 0 16) src
  | 2 => { s.logFabric 3 router part src with agenda := s.agenda ++ [.partitionHalted part] }
  | _ => s.logFabric 1 router part src

/-- The writes that memory has come to hold since it held `k` are those of an SCT frame: its acknowledgement waits for them (R282, R320). -/
def State.noteHeld (s : State) (k : Nat) (frame : Option (Nat × BitVec 32)) : State :=
  match frame with
  | none => s
  | some (i, psn) => { s with
      rxs := s.rxs.modify i fun r =>
        { r with held := (r.held.filter fun x => s.heldWrites.contains x.2) ++ (s.heldWrites.drop k).map fun w => (psn, w) } }

/-- COORDINATE_PACKET: an arrival at a landing stage. A single-bit error was corrected and is counted; a poisoned packet is discarded, and a
header error brings down its partition (R202, R252, R311 to R313). -/
def execCoordinatePacket (node : Nat) (pkt : Packet) (s : State) : Out :=
  let p := pktChecked pkt
  let at_ := pktRouter p node
  if p.bad = 2 then
    .next { s.logFabric 3 at_ p.part p.src with agenda := s.agenda ++ [.partitionHalted p.part] }
  else if p.bad = 1 then .next ((s.logFabric 2 at_ p.part p.src).payloadError p.part p.ctx p.src)
  else
    let s := if p.bad = 3 then s.logFabric 1 at_ p.part p.src else s
    let p := { p with bad := 0 }
    let d := pktDest p node
    .next (match d with
      | .core n =>
        match s.waitAway p (.coordinatePacket n p) with
        | some s1 => s1
        | none =>
          let n := s.packetCore p n
          s.holdOr n (.coordinatePacket n p) (landPacket (.core n) p (s.noteLanding n p))
      | _ => (landPacket d p s).noteHeld s.heldWrites.length p.frame)

end Sys2Proof.Machine
end

