-- ==== Sys2Proof/Machine/Swage.lean ====
section
/-! DEFINITION. The swage: compression of 4 KiB blocks, the trim ladder, and expansion (spec/13 R276 to R280). A block is a number
of 4,096 bytes, little-endian. -/

namespace Sys2Proof.Machine

/-! ## Slots and line encodings (R192, R277) -/

/-- The declared slot of a compression class in bytes (R192). -/
def slotBytes (cls : Nat) : Nat :=
  match cls with
  | 0 => 4096
  | 1 => 1024
  | 2 => 1536
  | 3 => 2048
  | _ => 3072

/-- The cycles per block of a class (R192). -/
def blockCycles (cls : Nat) : Nat := slotBytes cls / 64

/-- The non-zero bytes among `n` bytes of a number. -/
def nonZero (n x : Nat) : Nat := ((List.range n).filter fun i => (x >>> (8 * i)) % 256 ≠ 0).length

/-- The bytes of encodings of a block (R277). -/
def encodedBytes (x : Nat) : Nat := 512 + nonZero 4096 x

/-- Whether a block fits its slot (R277). -/
def fits (slot x : Nat) : Bool := encodedBytes x ≤ slot - 16

/-- The encoding of one line: its mask and its non-zero bytes in ascending order (R277). -/
def encodeLine (l : List Byte) : List Byte :=
  toBytes 8 (packNat 1 64 fun i => if l.getD i 0 = 0 then 0 else 1) ++ l.filter fun b => b != 0

/-! ## The trim ladder (R278) -/

/-- Elements of a trim format: bits, mantissa width, and its floating-point format if it has one (R278). -/
def trimElem (fmt : Nat) : Nat × Nat × Option Fmt :=
  match fmt with
  | 3 => (8, 3, some .e4m3)
  | 4 => (8, 2, some .e5m2)
  | 5 => (4, 1, some .e2m1)
  | 6 => (16, 7, some .bf16)
  | 7 => (16, 10, some .fp16)
  | 8 => (32, 23, some .fp32)
  | 9 => (32, 0, none)
  | _ => (8, 0, none)

/-- An element with its `k` low fraction bits cleared; NaN and infinities unchanged (R278). -/
def trimCode (f : Fmt) (k c : Nat) : Nat :=
  match f.decode c with
  | .fin .. => c / 2 ^ k * 2 ^ k
  | _ => c

/-- A block with the `k` low fraction bits of every element cleared (R278). -/
def trimBlock (fmt k x : Nat) : Nat :=
  let (w, _, f) := trimElem fmt
  match f with
  | none => x
  | some f => packNat w (32768 / w) fun i => trimCode f k ((x >>> (w * i)) % 2 ^ w)

/-- The order of culling: magnitude, NaN above infinity (R278). -/
def cullKey (fmt c : Nat) : Nat :=
  let (w, _, f) := trimElem fmt
  match f with
  | some f => if (f.decode c).isNaN then 2 ^ 32 else c % 2 ^ (w - 1)
  | none => if fmt = 1 || fmt = 9 then (signed w c).natAbs else c

/-- Two sorted lists merged by their keys, the first list's elements first among equals. -/
def mergeKeys (fuel : Nat) (a b : List (Nat × Nat)) : List (Nat × Nat) :=
  match fuel, a, b with
  | 0, _, _ => a ++ b
  | _, [], _ => b
  | _, _, [] => a
  | f + 1, x :: r, y :: t => if y.1 < x.1 then y :: mergeKeys f (x :: r) t else x :: mergeKeys f r (y :: t)

/-- Neighbouring sorted lists merged. -/
def mergeRuns (l : List (List (Nat × Nat))) : List (List (Nat × Nat)) :=
  match l with
  | a :: b :: r => mergeKeys (a.length + b.length) a b :: mergeRuns r
  | l => l

/-- A list sorted by its keys, order kept among equals. -/
def sortKeys (l : List (Nat × Nat)) : List (Nat × Nat) :=
  ((List.range 14).foldl (fun r _ => mergeRuns r) (l.map fun x => [x])).flatten

/-- Culls elements in order until the block fits: the block and how many were culled (R278). -/
def cull (slot w : Nat) (order : List Nat) (x nz c : Nat) : Nat × Nat :=
  if 512 + nz ≤ slot - 16 then (x, c)
  else
    match order with
    | [] => (x, c)
    | i :: r =>
      let lo := w * i / 8 * 8
      let before := (x >>> lo) % 2 ^ 32
      let y := x - (((x >>> (w * i)) % 2 ^ w) <<< (w * i))
      cull slot w r y (nz - (nonZero 4 before - nonZero 4 ((y >>> lo) % 2 ^ 32))) (c + 1)

/-- The trim ladder: the block as kept, K and CULL (R278). -/
def trim (slot fmt x : Nat) : Nat × Nat × Nat :=
  let (w, mw, _) := trimElem fmt
  match (List.range (mw + 1)).find? fun k => fits slot (trimBlock fmt k x) with
  | some k => (trimBlock fmt k x, k, 0)
  | none =>
    let y := trimBlock fmt mw x
    let el := (List.range (32768 / w)).map fun i => (cullKey fmt ((y >>> (w * i)) % 2 ^ w), i)
    let el := el.filter fun e => (y >>> (w * e.2)) % 2 ^ w ≠ 0
    let (z, c) := cull slot w ((sortKeys el).map Prod.snd) y (nonZero 4096 y) 0
    (z, mw, c)

/-- A block's header (R276). -/
def blockHeader (cls fmt k c payload : Nat) : Nat := c * 2 ^ 48 + k * 2 ^ 43 + cls * 2 ^ 40 + fmt * 2 ^ 36 + payload * 2 ^ 16

/-- A compressed block: the bytes from the frame's start up to slot − 9, and whether it was trimmed (R276, R278). -/
def compress (cls fmt : Nat) (raw : List Byte) : List Byte × Bool :=
  let slot := slotBytes cls
  let (y, k, c) := trim slot fmt (ofBytes raw)
  let l := toBytes 4096 y
  let enc := (List.range 64).flatMap fun j => encodeLine ((l.drop (64 * j)).take 64)
  let body := toBytes 8 (blockHeader cls fmt k c enc.length) ++ enc
  (body ++ List.replicate (slot - 8 - body.length) 0, k != 0 || c != 0)

/-! ## Expansion (R280) -/

/-- One line expanded from its mask and bytes. -/
def expandLine (mask : Nat) (l : List Byte) (i : Nat) : List Byte :=
  match i with
  | 0 => []
  | j + 1 =>
    let p := 63 - j
    if mask.testBit p then l.headD 0 :: expandLine mask (l.drop 1) j else 0 :: expandLine mask l j

/-- Lines expanded from encodings that must end exactly. -/
def expandLines (n : Nat) (l : List Byte) : Option (List Byte) :=
  match n with
  | 0 => if l.isEmpty then some [] else none
  | k + 1 =>
    let mask := ofBytes (l.take 8)
    let cnt := popcount 64 mask
    if l.length < 8 + cnt then none
    else (expandLines k (l.drop (8 + cnt))).map fun r => expandLine mask ((l.drop 8).take cnt) 64 ++ r

/-- The raw block that a frame's first slot − 8 bytes and its last word expand to; none when a condition fails (R280). -/
def expand (cls : Nat) (l : List Byte) (word hallmark : Nat) : Option (List Byte) :=
  let h := ofBytes (l.take 8)
  let payload := (h >>> 16) % 2 ^ 16
  if word ≠ hallmark || (h >>> 40) % 8 ≠ cls || slotBytes cls - 16 < payload then none
  else expandLines 64 ((l.drop 8).take payload)

end Sys2Proof.Machine
end

