-- ==== Sys2Proof/Machine/Copy.lean ====
section
/-! DEFINITION. The copy engines of slots 5 and 6: queued tiles, scale loads, the swage, coordinate sends, routes and landing maps
at issue, and the performs of queued rows (spec/09 R185 to R206; spec/11 R234 to R238). -/

namespace Sys2Proof.Machine

open Sys2Proof

/-! ## Queued entries at issue (R185, R187, R188) -/

/-- The bytes of a tile element by page format; 0 where the page is FORMAT (R187). -/
def tileBytes (f : Nat) : Nat :=
  match f with
  | 0 => 4
  | 8 => 4
  | 9 => 4
  | 1 => 1
  | 2 => 1
  | 3 => 1
  | 4 => 1
  | 6 => 2
  | 7 => 2
  | _ => 0

/-- The checks of R188 at issue, in their order. -/
def queueCheck (n : Nat) (c : Core) (tile : Nat) (ea base stride : Word) : Option (Nat × Word) :=
  if c.tilePend.getLsbD tile then some (cTIMING, BitVec.ofNat 64 tile)
  else
    match c.lookup ea.toNat, c.lookup base.toNat with
    | none, _ => some (cTABLE, ea)
    | some _, none => some (cTABLE, base)
    | some (_, e), some _ =>
      if winOf ea.toNat != some .device || !(frameOk n .device e) then some (cCLASS, ea)
      else
        let z := tileBytes (lttFMT e)
        if z = 0 then some (cFORMAT, ea)
        else if ea.toNat % z ≠ 0 then some (cALIGN, ea)
        else if stride.toNat % z ≠ 0 then some (cALIGN, stride)
        else none

/-- The format attribute of the page that covers an address. -/
def Core.pageFmt (c : Core) (ea : Word) : Nat := ((c.lookup ea.toNat).map fun x => lttFMT x.2).getD 0

/-- The queue of a copy slot. -/
def Core.queue (c : Core) (slot : Nat) : List QEntry := if slot = 5 then c.qa else c.qb

/-- The queue of a copy slot replaced. -/
def Core.setQueue (c : Core) (slot : Nat) (q : List QEntry) : Core := if slot = 5 then { c with qa := q } else { c with qb := q }

/-- The oldest entry of a copy slot, of its queue or of the non-temporal buffer: the one that the high half of the slot's progress register
follows (R19, R185, R190; DESIGN CHOICE, log entry 34). -/
def Core.oldest (c : Core) (slot : Nat) : Option QEntry :=
  let nt := c.nt.filter fun e => e.slot == slot
  match (c.queue slot).head?, nt.head? with
  | some a, some b => some (if b.uid < a.uid then b else a)
  | some a, none => some a
  | none, b => b

/-- The entries of a slot with the oldest at a row, as an ERET sets it from the progress register; a packet has no rows (R185, R261). -/
def Core.fromRow (c : Core) (slot r : Nat) : Core :=
  match c.oldest slot with
  | none => c
  | some e =>
    let at_ (q : QEntry) : QEntry := match q.kind with | .packet _ => q | _ => if q.uid = e.uid then { q with row := r } else q
    { c with qa := c.qa.map at_, qb := c.qb.map at_, nt := c.nt.map at_ }

/-- The row at which an entry begins: the high half of the progress register when no earlier entry of the slot stands (R19, R185). -/
def Core.queueStart (c : Core) (slot : Nat) : Nat :=
  if (c.oldest slot).isNone then ((c.ctx.progStored (slot - 2)).extractLsb' 20 12).toNat else 0

/-- An entry joined to its slot's queue, its tile pending (R185, R187). -/
def Core.enqueue (c : Core) (slot tile : Nat) (k : QKind) : Core :=
  let e : QEntry := ⟨c.nextUid, slot, k, c.queueStart slot, c.epoch, none, none, false, c.depth⟩
  { c.setQueue slot (c.queue slot ++ [e]) with nextUid := c.nextUid + 1, tilePend := c.tilePend ||| (1#8 <<< tile) }

/-- The rows and columns that s[W] names, at most 64 each (R187). -/
def extents (w : Word) : Nat × Nat := (min 64 (laneNat w 0 8), min 64 (laneNat w 1 8))

/-- TLD, TST and TSTNT at issue: `f` of the tile, address, stride, extents and format. -/
def tileOp (s : State) (g : BitVec 4) (x y w : BitVec 6) (m : BitVec 3) (xw : Option (BitVec 32))
    (f : Nat → Word → Nat → Nat → Nat → Nat → Core → Core) : Out :=
  s.guarded g fun c =>
    let ea := c.readS x + off32 xw
    let sr := (c.readS y).toNat % 2 ^ 32
    match queueCheck s.cur c m.toNat ea (c.readS x) (BitVec.ofNat 64 sr) with
    | some (code, v) => s.fault code v 0 c
    | none => f m.toNat ea sr (extents (c.readS w)).1 (extents (c.readS w)).2 (c.pageFmt ea) c

/-- TLD (R187). -/
def execTld (g : BitVec 4) (x y w : BitVec 6) (m : BitVec 3) (xw : Option (BitVec 32)) (s : State) : Out :=
  tileOp s g x y w m xw fun t ea sr er ec fmt c => c.enqueue s.slot t (.tld t ea sr er ec fmt (c.tile t))

/-- TST (R187). -/
def execTst (g : BitVec 4) (x y w : BitVec 6) (m : BitVec 3) (xw : Option (BitVec 32)) (s : State) : Out :=
  tileOp s g x y w m xw fun t ea sr er ec fmt c =>
    c.enqueue s.slot t (.tst t ea sr er ec fmt (c.tile t) (List.replicate (c.queueStart s.slot) 0))

/-- TSTNT: an entry of the non-temporal buffer, from the row that its slot's progress register names (R19, R190, R236). -/
def execTstnt (g : BitVec 4) (x y w : BitVec 6) (m : BitVec 3) (xw : Option (BitVec 32)) (s : State) : Out :=
  tileOp s g x y w m xw fun t ea sr er ec fmt c =>
    { c with
      nt := c.nt ++ [⟨c.nextUid, s.slot, .tst t ea sr er ec fmt (c.tile t) (List.replicate (c.queueStart s.slot) 0), c.queueStart s.slot, c.epoch,
        none, none, false, c.depth⟩]
      nextUid := c.nextUid + 1, tilePend := c.tilePend ||| (1#8 <<< t) }

/-- GATHER: the checks of TLD on the base, then those of the index list, which is read at c+2 (R189). -/
def execGather (g : BitVec 4) (x y w : BitVec 6) (m : BitVec 3) (s : State) : Out :=
  s.guarded g fun c =>
    let base := c.readS x
    let wv := c.readS w
    let u := wv.toNat % 2 ^ 32
    match queueCheck s.cur c m.toNat base base (BitVec.ofNat 64 u) with
    | some (code, v) => s.fault code v 0 c
    | none =>
      match c.check s.cur (c.readS y) 256 4 true false [.face] with
      | some (code, v) => s.fault code v 0 c
      | none =>
        let uid := c.nextUid
        (c.enqueue s.slot m.toNat (.gather m.toNat base u (min 64 (laneNat wv 5 8)) (min 64 (laneNat wv 4 8)) (c.pageFmt base)
          (c.readS y) none (c.tile m.toNat))).addItem s.slot 2 false false [.gatherList uid (c.readS y)]

/-! ## Timed instructions at issue (R185, R191, R192, R194, R196, R206) -/

/-- The first schedule count at which a slot's next timed instruction may issue (R194). -/
def Ctx.copyFree (x : Ctx) (slot : Nat) : Nat := if slot = 5 then x.copyA else x.copyB

/-- The slot busy until `n` cycles from this issue. -/
def Core.copyBusy (c : Core) (slot n : Nat) : Core :=
  { c with ctx := if slot = 5 then { c.ctx with copyA := c.ctx.clk + n } else { c.ctx with copyB := c.ctx.clk + n } }

/-- The gate of a timed instruction: II_VIOLATION while the slot's timed instruction is busy (R185). -/
def timedGate (s : State) (f : Core → Core) (c : Core) : Core :=
  if c.ctx.clk < c.ctx.copyFree s.slot then s.iiViolation c else f c

/-- SCLD: appends entries to the scale queue; those that it has still to land must fit (R14, R19, R191; DESIGN CHOICE, log entry 79). -/
def execScld (g : BitVec 4) (x y : BitVec 6) (s : State) : Out :=
  s.guarded g <| timedGate s fun c =>
    let n := (c.readS y).toNat
    let start := c.startAt (s.slot - 2)
    if n = 0 then c
    else
      match c.check s.cur (c.readS x) (88 * n) 4 true false [.face] with
      | some (code, v) => s.fault code v 0 c
      | none =>
        if 128 - c.sqTotal < n - start then s.fault cSCALE (BitVec.ofNat 64 c.sqTotal) 0 c
        else (c.addMacro s.slot start n (.scld (c.readS x) n [])).copyBusy s.slot (5 + (n - 1) / 4)

/-- The order of R116's checks by the cause that each raises. -/
def checkRank (code : Nat) : Nat :=
  if code = cTABLE then 0 else if code = cCLASS then 1 else if code = cALIGN then 2 else if code = cPAGE then 3 else 4

/-- The earlier of two failing checks, the first one's on a tie. -/
def firstCheck (a b : Option (Nat × Word)) : Option (Nat × Word) :=
  match a, b with
  | some p, some q => if checkRank q.1 < checkRank p.1 then some q else some p
  | some p, none => some p
  | none, b => b

/-- PULL and PUSH at issue: the face and the cluster address, the length and whether the cluster is written (R192). -/
def swageOp (s : State) (g : BitVec 4) (face cluster w : BitVec 6) (push : Bool) : Out :=
  s.guarded g <| timedGate s fun c =>
    let fa := c.readS face
    let ca := c.readS cluster
    let len := (c.readS w).toNat
    if len = 0 then c
    else
      let onFace := c.check s.cur fa len 4096 push (!push) [.face]
      let onCluster := c.check s.cur ca len 4096 (!push) push [.cluster]
      let both := if push then firstCheck onFace onCluster else firstCheck onFace onCluster
      match firstCheck both (if len % 4096 ≠ 0 then some (cALIGN, c.readS w) else none) with
      | some (code, v) => s.fault code v 0 c
      | none =>
        let e : BitVec 128 := ((c.lookup ca.toNat).map Prod.snd).getD 0
        let cls := lttCLASS e
        if push && decide (1 ≤ cls) && decide (10 ≤ lttFMT e) then s.fault cFORMAT ca 0 c
        else
          let n := len / 4096
          let w : Work := if push then .push fa ca n cls (lttFMT e) [] else .pull fa ca n cls (lttFMT e) []
          (c.addMacro s.slot (c.startAt (s.slot - 2)) (n + 1) w).copyBusy s.slot (21 + n * blockCycles cls)

/-- PULL: cluster SRAM to the face (R192). -/
def execPull (g : BitVec 4) (x y w : BitVec 6) (s : State) : Out := swageOp s g x y w false

/-- PUSH: the face to cluster SRAM (R192). -/
def execPush (g : BitVec 4) (x y w : BitVec 6) (s : State) : Out := swageOp s g x y w true

/-! ### Coordinate sends (R195 to R197) -/

/-- KIND of a route descriptor (R195). -/
def rtKIND (d : BitVec 256) : Nat := byteField d 2 1
/-- NODE. -/
def rtNODE (d : BitVec 256) : Nat := byteField d 4 2

/-- The lowest-numbered entry that matches a tag and coordinates (R196). -/
def routeOf (t : Map (BitVec 256)) (tag : Nat) (x : Word) : Option (BitVec 256) :=
  (t.find? fun e =>
    rtKIND e.2 != 0 && byteField e.2 0 2 == tag &&
      (List.range 4).all fun d =>
        decide (byteField e.2 (8 + 2 * d) 2 ≤ coordOf x d) && decide (coordOf x d ≤ byteField e.2 (0x10 + 2 * d) 2)).map Prod.snd

/-- The coordinates of element `i` of a box at an origin with extents e0, e1, e2 (R196). -/
def boxCoord (o : Word) (e : Nat → Nat) (i : Nat) : Word :=
  let rel (d : Nat) : Nat :=
    match d with
    | 0 => i % e 0
    | 1 => i / e 0 % e 1
    | 2 => i / (e 0 * e 1) % e 2
    | _ => i / (e 0 * e 1 * e 2)
  BitVec.ofNat 64 (packNat 16 4 fun d => coordOf o d + rel d)

/-- One more element routed: it joins the last packet, or begins a new one at the end of a run, where the route changes, and at
1,024 bytes (R196). -/
def cutStep (esz : Nat) (runStart : Bool) (l : List Cut) (i : Nat) (x : Word) (r : BitVec 256) : List Cut :=
  match l with
  | [] => [⟨0, 0, 0, i, 1, r, x⟩]
  | k :: t =>
    if runStart || k.route != r || decide (1024 < (k.count + 1) * esz) then ⟨0, 0, 0, i, 1, r, x⟩ :: k :: t
    else { k with count := k.count + 1 } :: t

/-- The flits of a packet: one head, and one for each 64 bytes (R196). -/
def cutFlits (esz n : Nat) : Nat := 1 + (n * esz + 63) / 64

/-- Flits numbered over the packets in cut order (R197). -/
def numberCuts (esz first : Nat) (l : List Cut) : List Cut :=
  match l with
  | [] => []
  | k :: r =>
    let f := cutFlits esz k.count
    { k with first := first, flits := f } :: numberCuts esz (first + f) r

/-- The cut of a box: none, with the element, where no route matches (R196). Elements before `start` are not sent. -/
def cutBox (t : Map (BitVec 256)) (tag : Nat) (o : Word) (e : Nat → Nat) (esz start : Nat) : Except Nat (List Cut) :=
  let n := e 0 * e 1 * e 2 * e 3
  match (List.range n).find? fun i => (routeOf t tag (boxCoord o e i)).isNone with
  | some i => .error i
  | none =>
    let l := (List.range n).foldl (fun l i =>
      let x := boxCoord o e i
      cutStep esz (i % e 0 == 0) l i x ((routeOf t tag x).getD 0)) []
    let keep := (l.reverse.zipIdx.map fun k => { k.1 with num := k.2 }).filterMap fun (k : Cut) =>
      if start ≤ k.elem then some k
      else if start < k.elem + k.count then
        some { k with elem := start, count := k.elem + k.count - start, origin := boxCoord o e start }
      else none
    .ok (numberCuts esz 0 keep)

/-- CXSEND: sends a box by coordinates (R196, R197). -/
def execCxsend (g : BitVec 4) (x y w : BitVec 6) (s : State) : Out :=
  s.guarded g <| timedGate s fun c =>
    let a := c.readS x
    let o := c.readS y
    let wv := c.readS w
    let tag := laneNat wv 3 16
    let e (d : Nat) : Nat := laneNat wv d 12
    let n := e 0 * e 1 * e 2 * e 3
    match c.lookup a.toNat with
    | none => s.fault cTABLE a 0 c
    | some (_, entry) =>
      if winOf a.toNat == some .device || ((winOf a.toNat).map fun q => !(frameOk s.cur q entry)).getD true then
        s.fault cCLASS a 0 c
      else
        let fmt := lttFMT entry
        let esz := elemBytes fmt
        if esz = 0 then s.fault cFORMAT a 0 c
        else if n = 0 then c.copyBusy s.slot 2
        else if 2 ^ 20 < n || (List.range 4).any (fun d => decide (0xFFFF < coordOf o d + e d - 1)) then s.fault cFORMAT a 0 c
        else
          match c.check s.cur a (n * esz) esz true false [.face, .cluster] with
          | some (code, v) => s.fault code v 0 c
          | none =>
            match cutBox c.routes tag o e esz (c.startAt (s.slot - 2)) with
            | .error i => s.fault cROUTE a (BitVec.ofNat 64 i) c
            | .ok cuts =>
              let total := (cuts.map Cut.flits).sum
              (c.addMacro s.slot 0 total (.cxsend a fmt (BitVec.ofNat 16 tag) c.parity c.epoch cuts [])).copyBusy s.slot (total + 2)

/-- CXTILE: a window of the face through a map, into a tile, with room for the rows that it has in flight at once (R20, R206). -/
def execCxtile (g : BitVec 4) (x w : BitVec 6) (m : BitVec 3) (s : State) : Out :=
  s.guarded g <| timedGate s fun c =>
    let wv := (c.readS w).toNat
    let rd := wv / 16 % 4
    let cd := wv / 64 % 4
    let bad := s.fault cFORMAT (Config.fvalOfNone (s.cyc * 768 + s.cur)) 0 c
    match Map.get? c.landing (wv % 16) with
    | none => bad
    | some p =>
      let fmt := landWritten (lmFMT p.desc) (c.pageFmt (BitVec.ofNat 64 (lmBASE p.desc)))
      if p.st == .free || rd = cd || tileBytes fmt = 0 then bad
      else if 64 < c.ctx.inFlight + min 2 (64 - c.startAt (s.slot - 2)) then s.iiViolation c
      else
        (c.addMacro s.slot (c.startAt (s.slot - 2)) 64 (.cxtile m.toNat p.desc (c.readS x) rd cd fmt)).copyBusy s.slot 66

/-! ## Tables (R195, R200, R201, R205) -/

/-- The first bad byte of a route descriptor for a region, if any (R195). -/
def routeBad (inside : Nat → Bool) (d : BitVec 256) : Option Nat :=
  let k := rtKIND d
  let masked := (List.range 64).filter fun i => (byteField d 0x18 8).testBit i
  let node :=
    match k with
    | 1 => !(inside (rtNODE d))
    | 2 => !(inside (rtNODE d))
    | 3 => 15 < rtNODE d
    | 4 => masked.any fun i => !(inside (rtNODE d + i))
    | _ => false
  (([(2, decide (4 < k)), (3, byteField d 3 1 != 0), (4, node), (6, byteField d 6 1 != 0), (7, byteField d 7 1 != 0)] : List (Nat × Bool)).filter
    Prod.snd).head?.map Prod.fst

/-- RTSET: reads a route descriptor at c+2, which stands from c+3 (R195). -/
def execRtset (g : BitVec 4) (x : BitVec 6) (e : BitVec 5) (s : State) : Out :=
  s.guarded g fun c =>
    s.unless (c.check s.cur (c.readS x) 32 32 true false [.face]) (c.readS x)
      (fun c => c.addItem s.slot 2 false false [.rtRead e.toNat (c.readS x)]) c

/-- MAPSET and MAPSWAP at issue (R200). -/
def mapSetOp (s : State) (g : BitVec 4) (x : BitVec 6) (m : BitVec 4) (old : Option Nat) (cluster : BitVec 1) : Out :=
  s.guarded g fun c =>
    s.unless (c.check s.cur (c.readS x) 64 64 true false [.face]) (c.readS x)
      (fun c => c.addItem s.slot 2 false false [.mapRead m.toNat old (cluster == 1) (c.readS x)]) c

/-- MAPSET: at the end of c+3 the slot holds the descriptor, ACTIVE (R200). -/
def execMapset (g : BitVec 4) (x : BitVec 6) (c : BitVec 1) (m : BitVec 4) (s : State) : Out := mapSetOp s g x m none c

/-- MAPSWAP: at the end of c+3 the new map stands and the old one drains (R200). -/
def execMapswap (g : BitVec 4) (x : BitVec 6) (o : BitVec 4) (c : BitVec 1) (m : BitVec 4) (s : State) : Out :=
  mapSetOp s g x m (some o.toNat) c

/-- MAPRET: at the end of c+1 the slot drains, or becomes FREE (R200). Beside a MAPSET of its bundle on the same slot each acts at its own
time, so that MAPRET comes first: DESIGN CHOICE, log entry 61. -/
def execMapret (g : BitVec 4) (n c : BitVec 1) (m : BitVec 4) (s : State) : Out :=
  s.guarded g fun x => x.addItem s.slot 1 false true [.mapRet m.toNat (c == 1) (n == 1)]

/-- MAPQ: the state of a slot after the commits of c+1, delivered at c+2 (R201). -/
def execMapq (g : BitVec 4) (y : BitVec 6) (c : BitVec 1) (m : BitVec 4) (s : State) : Out :=
  s.guarded g fun x => s.deliver 2 [.mapQ (x.ctx.physS y.toNat) m.toNat (c == 1)] x

/-- The three words of a stray entry (R205). -/
def strayWords (e : Stray) : Word × Word × Word :=
  (BitVec.ofNat 64 (e.tag.toNat + (if e.parity then 2 ^ 16 else 0) + e.fmt.toNat * 2 ^ 17 + e.src.toNat * 2 ^ 32 + 2 ^ 63),
    e.coord, e.elem.setWidth 64)

/-- STRAYPOP: removes the oldest stray and delivers it at c+2 as three results (R20, R205). -/
def execStraypop (g : BitVec 4) (x y w : BitVec 6) (s : State) : Out :=
  s.guarded g fun c =>
    if 64 < c.ctx.inFlight + 3 then s.iiViolation c
    else
      let (a, b, d) := match c.strays with
        | e :: _ => strayWords e
        | [] => (0, 0, 0)
      let c1 := { c with strays := c.strays.drop 1 }
      ((c1.addItem s.slot 2 true false [.setS (c.ctx.physS x.toNat) a]).addItem s.slot 2 true false
        [.setS (c.ctx.physS y.toNat) b]).addItem s.slot 2 true false [.setS (c.ctx.physS w.toNat) d]

/-! ## Rows of queued entries (R187 to R189, R234 to R238) -/

/-- The tile and the format of a tile entry. -/
def QKind.tile? (k : QKind) : Option (Nat × Nat) :=
  match k with
  | .tld t _ _ _ _ f _ => some (t, f)
  | .tst t _ _ _ _ f _ _ => some (t, f)
  | .gather t _ _ _ _ f _ _ _ => some (t, f)
  | .packet _ => none

/-- The address and the bytes of row `r` of an entry; no bytes where the row touches no memory (R187, R189). -/
def QKind.rowAt (k : QKind) (r : Nat) : Word × Nat :=
  match k with
  | .tld _ ea sr er ec f _ => (ea + BitVec.ofNat 64 (r * sr), if r < er then ec * tileBytes f else 0)
  | .tst _ ea sr er ec f _ _ => (ea + BitVec.ofNat 64 (r * sr), if r < er then ec * tileBytes f else 0)
  | .gather _ base u er ec f _ idx _ =>
    let i := ((idx.getD []).getD r 0xFFFFFFFF)
    (base + BitVec.ofNat 64 (i.toNat * u), if r < er && i != 0xFFFFFFFF then ec * tileBytes f else 0)
  | .packet _ => (0, 0)

/-- The late fault that row `r` raises, if any: the checks of R188 on the pages it touches, the frame's kind (R266), and an
uncorrectable error in what it reads (R256). -/
def rowFault (s : State) (n : Nat) (e : QEntry) (r : Nat) : Option Trap :=
  let c := s.core n
  let (a, len) := e.kind.rowAt r
  let f := ((e.kind.tile?).map Prod.snd).getD 0
  let store := match e.kind with | .tst .. => true | _ => false
  let trap (code : Nat) : Option Trap := some ⟨code, e.slot, true, a, BitVec.ofNat 64 (64 * r)⟩
  if len = 0 then none
  else
    let es := (pageStarts a.toNat len).map fun p => (p, c.lookup p)
    let bad (q : Nat → BitVec 128 → Bool) : Bool := es.any fun x => match x.2 with | some (_, y) => q x.1 y | none => false
    if es.any fun x => x.2.isNone then trap cTABLE
    else if bad fun p y => winOf p != some .device || !(frameOk n .device y) then trap cCLASS
    else if bad fun _ y => !(lttP y) then trap cPAGE
    else if bad fun _ y => lttFMT y != f then trap cFORMAT
    else if bad fun _ y => if store then !(lttWR y) else !(lttRD y) then trap cPERM
    else if !store && (pageStarts a.toNat len).any (fun p => s.poisoned (c.keyOf n p) (min (0x4000 - p % 0x4000) (a.toNat + len - p))) then
      some ⟨cECC, 9, true, a, 0⟩
    else none

/-- A cell from an element of a page (R187). -/
def loadCell (f v : Nat) : Nat :=
  match f with
  | 1 => wrapNat 32 (signed 8 v)
  | 3 => rne32 (Fmt.e4m3.decode v)
  | 4 => rne32 (Fmt.e5m2.decode v)
  | 6 => rne32 (Fmt.bf16.decode v)
  | 7 => rne32 (Fmt.fp16.decode v)
  | _ => v

/-- An element of a page from a cell (R187). -/
def storeElem (f v : Nat) : Nat :=
  match f with
  | 1 => wrapNat 8 (satInt 8 (signed 32 v)).1
  | 2 => (max 0 (min 255 (signed 32 v))).toNat
  | 3 => (Fmt.e4m3.round .rne (fp32 v)).1
  | 4 => (Fmt.e5m2.round .rne (fp32 v)).1
  | 6 => (Fmt.bf16.round .rne (fp32 v)).1
  | 7 => (Fmt.fp16.round .rne (fp32 v)).1
  | _ => v

/-- A row of cells from the bytes of a page; cells beyond them are 0 (R187). -/
def loadRow (f : Nat) (l : List Byte) : Vec :=
  let z := tileBytes f
  ofLanes 32 64 fun q => if (q + 1) * z ≤ l.length then loadCell f (ofBytes ((l.drop (q * z)).take z)) else 0

/-- The bytes that a row of a store writes, by system-physical address, one piece for each page (R187). -/
def storePieces (n : Nat) (c : Core) (k : QKind) (r : Nat) (row : Vec) : List (Nat × List Byte) :=
  let (a, len) := k.rowAt r
  let f := ((k.tile?).map Prod.snd).getD 0
  let z := tileBytes f
  let l := (List.range (len / max z 1)).flatMap fun q => toBytes z (storeElem f (laneNat row q 32))
  if len = 0 then []
  else (pageStarts a.toNat len).map fun p => (c.keyOf n p, (l.drop (p - a.toNat)).take (0x4000 - p % 0x4000))

/-- Whether a CXSEND of an epoch before `k` has still to send a packet that joins its slot's queue: it performs before every entry of
epoch `k` (R109, R234, R237). -/
def Ctx.sendsBefore (x : Ctx) (k : Nat) : Bool :=
  x.macros.any fun m => match m.work with
    | .cxsend _ _ _ _ epoch cuts _ => decide (epoch < k) && cuts.any fun t => rtKIND t.route == 3 && decide (m.next < t.first + t.flits)
    | _ => false

/-- Whether queued work of a core performs: the core is not saved, and a table that a CTXREST has given it is seen by checks (R226, R257). -/
def Core.performs (c : Core) : Bool := c.saved.isNone && !(c.lttDue.any fun w => match w with | .all _ => true | _ => false)

/-- Whether an entry may perform: no fault stands on it, queued work performs, a GATHER has its list, and what QFENCEs put before it has
performed (R188, R237). -/
def entryReady (c : Core) (e : QEntry) : Bool :=
  e.faulted.isNone && !e.held && c.performs &&
    (match e.kind with | .gather _ _ _ _ _ _ _ idx _ => idx.isSome | _ => true) &&
    (c.qa ++ c.qb).all (fun q => decide (e.epoch ≤ q.epoch)) &&
    !(c.ctx.sendsBefore e.epoch || (c.held.any fun x => x.sendsBefore e.epoch) || c.tail.any fun x => x.sendsBefore e.epoch) &&
    c.nt.all fun q => match q.drained with | some d => decide (e.epoch ≤ d) | none => true

/-- The tile of an entry no longer pending. -/
def Core.unpend (c : Core) (tile : Nat) : Core := { c with tilePend := c.tilePend &&& ~~~(1#8 <<< tile) }

/-- The high half of a slot's progress register written (R185). -/
def Core.queueProgress (c : Core) (slot r : Nat) : Core :=
  c.onSys fun x => x.setProg (slot - 2) (BitVec.ofNat 12 r ++ (x.progStored (slot - 2)).extractLsb' 0 20)

/-- The high half of a slot's progress register at the row of its oldest entry, 0 when none stands (R19, R185). -/
def Core.followQueue (c : Core) (slot : Nat) : Core := c.queueProgress slot (((c.oldest slot).map QEntry.row).getD 0)

/-- An entry by number replaced, or removed. -/
def replaceEntry (uid : Nat) (e : Option QEntry) (l : List QEntry) : List QEntry :=
  l.filterMap fun q => if q.uid = uid then e else some q

/-- A read-out of the next row of a store: each cell with its value at issue or its value now (R187). A row whose checks fail is not read out
while the entry stands behind others; at the head of its queue, with every row before it performed, it raises its late fault (R188). -/
def readOutRow (s : State) (n : Nat) (head : Bool) (e : QEntry) : Option (State × QEntry) :=
  match e.kind with
  | .tst t ea sr er ec f old out =>
    let r := out.length
    if 64 ≤ r then none
    else
      match (if r < e.row then none else rowFault s n e r) with
      | some trap => if head && r = e.row then some (s, { e with faulted := some trap }) else none
      | none =>
        let c := s.core n
        let cur := c.tileRow t r
        let row := ofLanes 32 64 fun q =>
          if Config.pendingCell (64 * s.oracle + q) then laneNat (old.getD r 0) q 32 else laneNat cur q 32
        let out := out ++ [row]
        let s1 := if 64 ≤ out.length then s.setCore n (c.unpend t) else s
        some ({ s1 with oracle := s1.oracle + 1 }, { e with kind := .tst t ea sr er ec f old out })
  | _ => none

/-- One row performed at its memory-side unit, in one step, once its checks pass (R188, R234, R235). A late fault leaves the entry where it
stands. `bad` is what the fabric did to the row's packet: a discarded row counts as performed with its bytes unwritten, and a header error
drops it (R311 to R313). None where the step is not enabled. -/
def performRow (s : State) (n bad : Nat) (e : QEntry) : Option (State × QEntry) :=
  let part := (s.core n).partId.toNat
  match e.kind with
  | .tst _ _ _ _ _ _ _ out =>
    match out[e.row]? with
    | none => none
    | some row =>
      match rowFault s n e e.row with
      | some trap => some (s, { e with faulted := some trap })
      | none =>
        let ps := storePieces n (s.core n) e.kind e.row row
        if ps.any fun p => s.writeHeld part p.1 p.2 then none
        else
          let s1 := if ps.isEmpty then s else s.fabricError n bad (msuRouter (clusterOf n) (msuOf ((ps.head?.map Prod.fst).getD 0))) (s.core n).node
          if ps.isEmpty || bad = 0 || 3 ≤ bad then some (ps.foldl (fun s p => s.devWrite part p.1 p.2) s1, { e with row := e.row + 1 })
          else some (s1, if bad = 1 then { e with row := e.row + 1 } else e)
  | .packet p =>
    let b := if bad = 0 then (pktChecked p).bad else bad
    let s1 := s.fabricError n b (msuRouter (clusterOf n) p.dest) p.src
    if b = 1 then some (s1, { e with row := 64 })
    else if b = 2 then some (s1, { e with row := 64 })
    else
      let s2 := landPacket (.msu p.dest part) p s1
      if s1.heldWrites.length < s2.heldWrites.length then none else some (s2, { e with row := 64 })
  | k =>
    if 64 ≤ e.row then some (s, e)
    else
      match rowFault s n e e.row with
      | some trap => some (s, { e with faulted := some trap })
      | none =>
        let c := s.core n
        let (a, len) := k.rowAt e.row
        let (t, f) := (k.tile?).getD (0, 0)
        let l := if len = 0 then [] else c.loadBytes s.mem n a len
        let s1 := if len = 0 then s else s.fabricError n bad (msuRouter (clusterOf n) (msuOf (c.keyOf n a.toNat))) c.node
        if len != 0 && bad = 2 then some (s1, e)
        else
          let c1 := s1.core n
          let c2 := if len != 0 && bad = 1 then c1 else c1.putTile t e.row (loadRow f l) (BitVec.allOnes 2048)
          some (s1.setCore n (if 64 ≤ e.row + 1 then c2.unpend t else c2), { e with row := e.row + 1 })

/-- QUEUED_ROW_PERFORM: a row of the head of QA or QB performs, its packets with an error or none (0, R312), or a row of one of its stores is
read out of its tile (`none`) (R187, R234, R238). Where the step is not enabled nothing happens. -/
def execQueuedRowPerform (n slot : Nat) (perform : Option Nat) (s : State) : Out :=
  let readOut := perform.isNone
  let q := (s.core n).queue slot
  let cand : Option QEntry :=
    if readOut then
      q.find? fun e => e.faulted.isNone && !e.held && (match e.kind with | .tst _ _ _ _ _ _ _ out => decide (out.length < 64) | _ => false)
    else q.head?
  match cand with
  | none => .next s
  | some e =>
    if !(if readOut then (s.core n).performs else entryReady (s.core n) e) then .next s
    else
      match (match perform with | none => readOutRow s n (q.head?.map QEntry.uid == some e.uid) e | some bad => performRow s n bad e) with
      | none => .next s
      | some (s1, e1) =>
        let done := !readOut && decide (64 ≤ e1.row)
        .next (s1.onCore n fun c =>
          let c1 := c.setQueue slot (replaceEntry e.uid (if done then none else some e1) (c.queue slot))
          if readOut then c1 else c1.followQueue slot)

/-- NON_TEMPORAL_PERFORM: a row of an entry of the non-temporal buffer performs, or is read out of its tile (R236). -/
def execNonTemporalPerform (n i : Nat) (perform : Option Nat) (s : State) : Out :=
  let readOut := perform.isNone
  match (s.core n).nt[i]? with
  | none => .next s
  | some e =>
    if e.faulted.isSome || e.held || !(s.core n).performs then .next s
    else
      match (match perform with | none => readOutRow s n true e | some bad => performRow s n bad e) with
      | none => .next s
      | some (s1, e1) =>
        let done := !readOut && decide (64 ≤ e1.row)
        .next (s1.onCore n fun c =>
          let c1 := { c with nt := replaceEntry e.uid (if done then none else some e1) c.nt }
          if readOut then c1 else c1.followQueue e.slot)

end Sys2Proof.Machine
end

