-- ==== Sys2Proof/Machine/Comm.lean ====
section
/-! DEFINITION. The communication engine of slot 7: direct sends, address groups, collectives, waybills, triggers and counter increments
at issue, and the arrival of direct sends, contributions and results (spec/09 R207 to R215; spec/11 R241, R242; spec/15 R315 to R318;
spec/21 R346, R347). -/

namespace Sys2Proof.Machine

open Sys2Proof

/-! ## Slot 7 and waybill steps (R213) -/

/-- The gate of slot 7: II_VIOLATION in a cycle in which a waybill step performs (R213). -/
def commGate (s : State) (f : Core → Core) (c : Core) : Core :=
  if c.ctx.wbAt = c.ctx.clk + 1 then s.iiViolation c else f c

/-- A slot-7 instruction under its guard. -/
def commOp (s : State) (g : BitVec 4) (f : Core → Core) : Out := s.guarded g (commGate s f)

/-! ## Direct sends (R208, R209) -/

/-- The core of a node of the acting core's timing group, none where the node lies outside it or is marked absent (R209). -/
def State.peerCore (s : State) (c : Core) (node : Nat) : Option Nat :=
  match s.launchOf c, Map.get? s.groups c.group with
  | some l, some g =>
    let n := l.coreOf node
    if l.inside node && g.members.contains n && !(g.absent.contains node) then some n else none
  | _, _ => none

/-- A direct-send vector handed to the fabric: it arrives at the partner's schedule count c + 6 + 2h (R208). -/
def State.sendVec (s : State) (node n : Nat) (v : Vec) (ev : Nat → Vec → Instr) (c : Core) : Core :=
  match s.launchOf c with
  | none => c
  | some l =>
    let p := l.path (c.node / 8) (node / 8)
    { c with emits := c.emits ++ [.flight (s.tickOf c + 6 + 2 * p.length) p (ev n v)] }

/-- SEND (R208). -/
def execSend (g : BitVec 4) (v : BitVec 7) (sn : BitVec 6) (s : State) : Out :=
  commOp s g fun c =>
    match s.peerCore c (c.readS sn).toNat with
    | none => s.fault cPEER (c.readS sn) 0 c
    | some n => s.sendVec (c.readS sn).toNat n (c.readV v) (fun n d => .directSend n c.node d 0) c

/-- A receive instruction: what arrives in this cycle is taken at its end (R208, R209). -/
def recvOp (s : State) (g : BitVec 4) (sn : BitVec 6) (r : Core → Recv) : Out :=
  commOp s g <| s.room fun c =>
    match s.peerCore c (c.readS sn).toNat with
    | none => s.fault cPEER (c.readS sn) 0 c
    | some _ => { c with recv := some ((c.readS sn).toNat, r c) }

/-- RECV (R208). -/
def execRecv (g : BitVec 4) (v : BitVec 7) (sn : BitVec 6) (s : State) : Out :=
  recvOp s g sn fun c => .vec (c.ctx.physV v.toNat)

/-- RECVADD (R208). -/
def execRecvadd (g : BitVec 4) (v : BitVec 7) (sn : BitVec 6) (f : BitVec 2) (s : State) : Out :=
  s.checked (decide (f.toNat < 2)) <| recvOp s g sn fun c => .add (c.ctx.physV v.toNat) f.toNat

/-- RECVMAX (R208). -/
def execRecvmax (g : BitVec 4) (v : BitVec 7) (sn : BitVec 6) (f : BitVec 2) (s : State) : Out :=
  s.checked (decide (f.toNat < 2)) <| recvOp s g sn fun c => .max (c.ctx.physV v.toNat) f.toNat

/-- The lanes of RECVADD and RECVMAX (R208). -/
def combine (mx : Bool) (fmt : Nat) (a b : Vec) : Vec :=
  ofLanes 32 64 fun i =>
    let x := laneNat a i 32
    let y := laneNat b i 32
    if fmt = 0 then (if mx then max32 x y else add32 x y)
    else if mx then smaxLane 32 x y else (x + y) % 2 ^ 32

/-- TIMING of a receiver, taken at the boundary after its cycle (R209). -/
def timingAt (v : Nat) : Trap := ⟨cTIMING, 7, false, BitVec.ofNat 64 v, 0⟩

/-- A face access of a waybill step in the next cycle, in the issue order of its WBRUN (R118, R317). -/
def Core.addStep (c : Core) (seq : Nat) (acts : List Act) : Core :=
  { c with
    ctx := { c.ctx with items := c.ctx.items ++ [⟨c.ctx.clk + 1, seq, 7, true, false, c.nextUid, acts⟩] }
    nextUid := c.nextUid + 1 }

/-- The receive instruction or step of this cycle meets what has arrived (R208, R209). `n` is the core. -/
def Core.matchArrivals (n : Nat) (c : Core) : Core :=
  let c1 := { c with arrived := [], recv := none }
  match c.arrived, c.recv with
  | [], none => c1
  | [], some _ => c1.addEvent (timingAt 0xFFFF)
  | [a], none => c1.addEvent (timingAt a.src)
  | [a], some (node, r) =>
    if a.src ≠ node then c1.addEvent (timingAt a.src)
    else
      match a.data with
      | none => c1
      | some x =>
        let all : Vec := BitVec.allOnes 2048
        match r with
        | .vec d => c1.addItem 7 1 true false [.setV d x all]
        | .add d f => c1.addItem 7 3 true false [.setV d (combine false f (Map.get c.v d 0) x) all]
        | .max d f => c1.addItem 7 3 true false [.setV d (combine true f (Map.get c.v d 0) x) all]
        | .mem ea seq => c1.addStep seq [.wbStore ea x]
        | .addMem ea seq => c1.addStep seq [.wbAdd ea x]
  | l, _ => c1.addEvent (timingAt ((l.map Arrival.src).min?.getD n))

/-- DIRECT_SEND: a vector arrives at its receiver, or is held while the receiver is stopped (R32, R209). A poisoned one counts as an arrival
without data, and its event is raised at once; a single-bit error was corrected and is counted (R311, R312). -/
def execDirectSend (n src : Nat) (data : Vec) (bad : Nat) (s : State) : Out :=
  let c := s.core n
  let part := c.partId.toNat
  let arrive (d : Option Vec) (s : State) : State := s.onCore n fun c => { c with arrived := c.arrived ++ [⟨src, d⟩] }
  match bad with
  | 2 => .next { s.logFabric 3 (clusterOf n) part src with agenda := s.agenda ++ [.partitionHalted part] }
  | 1 =>
    let s1 := (s.logFabric 2 (clusterOf n) part src).payloadError part (c.launchId.extractLsb' 0 16) src
    -- 4 marks a poisoned vector whose event has been raised
    .next (s1.holdOr n (.directSend n src data 4) (arrive none s1))
  | 4 => .next (s.holdOr n (.directSend n src data 4) (arrive none s))
  | _ =>
    let s1 := if bad = 3 then s.logFabric 1 (clusterOf n) part src else s
    .next (s1.holdOr n (.directSend n src data 0) (arrive (some data) s1))

/-- WAYBILL_MEMORY_TRANSFER: the face bytes of a SENDM step arrive as a direct-send vector (R317). -/
def execWaybillMemoryTransfer (n src : Nat) (data : Vec) (bad : Nat) (s : State) : Out := execDirectSend n src data bad s

/-! ## Address groups and collectives (R210 to R212, R315, R346) -/

/-- COUNT of a group descriptor. -/
def grCOUNT (d : List Byte) : Nat := imgField d 0 2
/-- NODE of member i. -/
def grNODE (d : List Byte) (i : Nat) : Nat := imgField d (8 * i + 8) 2
/-- ABSENT of member i. -/
def grABSENT (d : List Byte) (i : Nat) : Bool := (imgField d (8 * i + 10) 1).testBit 0
/-- WBASE of member i. -/
def grWBASE (d : List Byte) (i : Nat) : Nat := imgField d (8 * i + 12) 4

/-- The nodes of a descriptor's present members, ascending index. -/
def grPresent (d : List Byte) : List Nat :=
  ((List.range (grCOUNT d)).filter fun i => !(grABSENT d i)).map (grNODE d)

/-- The first bad byte of a group descriptor, if any (R210). -/
def grBad (d : List Byte) : Option Nat :=
  let n := grCOUNT d
  if n = 0 || 64 < n then some 0
  else
    ((List.range 6).map (fun i => 2 + i) ++ (List.range n).flatMap fun i => [8 * i + 10, 8 * i + 11]).find? fun o =>
      let b := imgField d o 1
      if o < 8 || o % 8 = 3 then b != 0 else decide (2 ≤ b)

/-- GRPSET: reads a descriptor at c+2; the group holds it from c+4 (R210). -/
def execGrpset (g : BitVec 4) (sa : BitVec 6) (n : BitVec 3) (s : State) : Out :=
  commOp s g fun c =>
    match c.check s.cur (c.readS sa) 520 8 true false [.face] with
    | some (code, v) => s.fault code v 0 c
    | none => c.addItem s.slot 2 false false [.grpRead n.toNat (c.readS sa)]

/-- MCLDR: nothing at all for a unit that its copy marks absent, the gate of slot 7 with it; else COLLECTIVE_ORDER on a poisoned group or one
that does not list this unit, then the checks on its operand (R211 to R213, R315, R346). Its read is an entry of the flight queue until it
performs (R20, R347). -/
def execMcldr (g : BitVec 4) (v : BitVec 7) (sa : BitVec 6) (o : BitVec 2) (n : BitVec 3) (s : State) : Out :=
  s.checked (o != 3) <| s.guarded g fun c =>
    let gr := Map.get c.agroups n.toNat ⟨[], 0, false⟩
    match (List.range (grCOUNT gr.desc)).find? fun i => grNODE gr.desc i == c.node with
    | none => commGate s (s.fault cCOLL (n.setWidth 64) 0) c
    | some i =>
      if grABSENT gr.desc i then c
      else c |> commGate s (s.room fun c => if gr.poison then s.fault cCOLL (n.setWidth 64) 0 c
      else
        let ea := BitVec.ofNat 64 (grWBASE gr.desc i) + c.readS sa
        match c.check s.cur ea 256 256 true false [.face] with
        | some (code, a) => s.fault code a 0 c
        | none =>
          let c1 := c.addItem s.slot 2 true false [.mcRead n.toNat ea]
          { c1 with
            agroups := Map.put c1.agroups n.toNat { gr with seq := gr.seq + 1 }
            emits := c1.emits ++ [.mcldr n.toNat o.toNat gr.seq (c.ctx.clk - c.ctx.base) gr.desc (c.ctx.physV v.toNat)
              (c.ctx.physS sa.toNat)] })

/-- The depth D of a collective: the greatest, over the clusters that hold a present member, of the hops down the tree (R315). -/
def Launch.collDepth (l : Launch) (nodes : List Nat) : Nat :=
  (nodes.map fun x => l.treeDepth (x / 8)).foldl max 0

/-- The stitched edges from a cluster up to the root of the reduction tree, along the tree (R315). -/
def Launch.upPath (l : Launch) (x : Nat) : List (Nat × Nat) :=
  let up := toRoot l.area (treeK l.stitch) l.area x
  (up.zip (up.drop 1)).flatMap fun e => l.path e.1 e.2

/-- The stitched edges from the root of the reduction tree down to a cluster (R315). -/
def Launch.downPath (l : Launch) (x : Nat) : List (Nat × Nat) :=
  let up := toRoot l.area (treeK l.stitch) l.area x
  (up.zip (up.drop 1)).reverse.flatMap fun e => l.path e.2 e.1

/-- The collective that a core's MCLDR of a group and schedule count belongs to: the members issue it at one count of one timing group
(R211). -/
def State.collOf (s : State) (c : Core) (g count : Nat) : Option (Nat × Coll) :=
  s.colls.find? fun x => x.2.launch == c.launch && x.2.tgroup == c.group && x.2.group == g && x.2.count == count

/-- An issuer's part in a collective: contributions that meet with another sequence number or op code break the order (R212). Its
result comes down the tree on lane 0 and is due at c + 12 + 8D (R211, R304). -/
def State.joinColl (s : State) (n : Nat) (g op : Nat) (seq : BitVec 16) (count : Nat) (desc : List Byte) (d sd : Nat) : State :=
  let c := s.core n
  match s.launchOf c with
  | none => s
  | some l =>
    let present := grPresent desc
    let depth := l.collDepth present
    let mark := (List.range (grCOUNT desc)).any (grABSENT desc)
    let (id, k) : Nat × Coll :=
      match s.collOf c g count with
      | some x => x
      | none => (s.nextColl, ⟨c.launch, c.group, g, op, seq, count, [], [], [], [], none, false, [], [], []⟩)
    let k1 := { k with
      issuers := k.issuers ++ [n], members := k.members ++ present.filter fun x => !(k.members.contains x)
      order := k.order || k.op != op || k.seq != seq, dests := Map.put k.dests n (d, sd, depth, mark) }
    let tick := s.tickOf c
    State.sendFlight
      { s with colls := Map.put s.colls id k1, nextColl := max s.nextColl (id + 1) }
      ⟨c.partId.toNat, c.launch, tick + 12 + 8 * depth, l.downPath (c.node / 8), tick, some (n, count + 12 + 8 * depth),
        .collectiveResult ⟨id, 0⟩ n, []⟩

/-- A member's operand, read at c+2, on its way up the tree: it meets the others at the root at c + 7 + 4D, so that the result has as many
cycles to come down (R211, R304; DESIGN CHOICE, log entry 9). -/
def State.contribute (s : State) (n g : Nat) (v : Vec) : State :=
  let c := s.core n
  match s.collOf c g (c.ctx.clk - c.ctx.base - 2), s.launchOf c with
  | some (id, k), some l =>
    let depth := (Map.get k.dests n (0, 0, 0, false)).2.2.1
    s.setCore n { c with emits := c.emits ++
      [.flight (s.tickOf c + 5 + 4 * depth) (l.upPath (c.node / 8)) (.collectiveContribution id n v 0)] }
  | _, _ => s

/-- The partition, the context and the node by which a collective's packets name a member's core (R310, R315). -/
def State.collNames (s : State) (k : Coll) (n : Nat) : Nat × BitVec 16 × Nat :=
  match Map.get? s.launches k.launch with
  | none => (0, 0, 0)
  | some l => (l.part, l.lid.extractLsb' 0 16, (k.members.find? fun x => l.coreOf x = n).getD 0)

/-- COLLECTIVE_CONTRIBUTION: a member's operand reaches the root of the tree. A poisoned one is discarded, and every unit of the launch takes
PAYLOAD_ERROR, the issuers at the delivery and in its place; a header error brings down its partition; a single-bit error was corrected and is
counted (R211, R256, R311 to R313). -/
def execCollectiveContribution (id n : Nat) (data : Vec) (bad : Nat) (s : State) : Out :=
  match Map.get? s.colls id with
  | none => .next s
  | some k =>
    let (part, ctx, node) := s.collNames k n
    let put (k : Coll) (s : State) : State := { s with colls := Map.put s.colls id k }
    match bad with
    | 0 => .next (put { k with vals := Map.put k.vals n data } s)
    | 2 => .next { s.logFabric 3 (clusterOf n) part node with agenda := s.agenda ++ [.partitionHalted part] }
    | 1 =>
      .next (put { k with vals := Map.put k.vals n data, bad := some node }
        (State.payloadErrorBut k.issuers (s.logFabric 2 (clusterOf n) part node) part ctx node))
    | _ => .next (put { k with vals := Map.put k.vals n data } (s.logFabric 1 (clusterOf n) part node))

/-- The operand of a contribution as 64 or 128 FP32 lanes (R211). -/
def collLanes (op : Nat) (v : Vec) : List Nat :=
  if op = 1 then (List.range 128).map fun i => laneNat v i 16 * 2 ^ 16 else (List.range 64).map fun i => laneNat v i 32

/-- Two operands added or compared lane by lane (R211). -/
def collStep (op : Nat) (a b : List Nat) : List Nat := (a.zip b).map fun x => if op = 2 then max32 x.1 x.2 else add32 x.1 x.2

/-- Values reduced in order, the first as it stands (R315). -/
def collFold (op : Nat) (l : List (List Nat)) : Option (List Nat) :=
  match l with
  | [] => none
  | a :: r => some (r.foldl (collStep op) a)

/-- The subtotal of a cluster: its local value, then its children's subtotals in ascending index (R315). -/
def Launch.subtotal (l : Launch) (op : Nat) (vals : Map Vec) (fuel x : Nat) : Option (List Nat) :=
  match fuel with
  | 0 => none
  | f + 1 =>
    let mine := (List.range 8).filterMap fun k => (Map.get? vals (8 * l.cluster x + k)).map (collLanes op)
    collFold op ((collFold op mine).toList ++ (l.children x).filterMap fun y => l.subtotal op vals f y)

/-- The vector that a collective delivers (R211). -/
def Launch.collective (l : Launch) (k : Coll) : Vec :=
  let t := (l.subtotal k.op k.vals (l.area + 1) 0).getD []
  if k.op = 1 then ofLanes 16 128 fun i => (Fmt.bf16.round .rne (fp32 (t.getD i 0))).1 else ofLanes 32 64 fun i => t.getD i 0

/-- The lowest node among the present members whose contributions are missing at their nodes' scheduled cycles (R211, R305). -/
def Launch.missing (l : Launch) (k : Coll) : Option Nat :=
  (k.members.filter fun x => (Map.get? k.vals (l.coreOf x)).isNone || k.late.contains (l.coreOf x)).min?

/-- A collective once units of its launch have moved, by their cores (R224, R260). -/
def Coll.moved (f : Nat → Nat) (k : Coll) : Coll :=
  { k with
    issuers := k.issuers.map f, vals := k.vals.map fun x => (f x.1, x.2), late := k.late.map f, dests := k.dests.map fun x => (f x.1, x.2)
    got := k.got.map f, given := k.given.map fun x => (f x.1, x.2) }

/-- The delivery of a collective among a core's items: due now, of the issue of its MCLDR (R211). It is no entry of the flight queue (R20). -/
def Item.delivers (i : Item) : Bool :=
  i.slot == 7 && !i.counts && match i.acts with | [.setV .., .setS ..] => true | _ => false

/-- The deliveries due at a core in the cycle in which it stopped have not landed: they are transfers that its landing stage holds, and the
collective has not reached that issuer (R20, R32). -/
def State.holdDelivery (s : State) (n : Nat) : State :=
  let c := s.core n
  match c.stopped with
  | none => s
  | some (_, t) =>
    if t != s.tickOf c then s
    else
      let x := c.held.getD c.ctx
      let ids := (x.items.filter Item.delivers).filterMap fun i =>
        (s.colls.find? fun k => k.2.launch == c.launch && k.2.tgroup == c.group && k.2.got.contains n && x.base + k.2.count == i.seq).map fun k =>
          (k.1, i.due - x.base)
      let rest (y : Ctx) : Ctx := { y with items := y.items.filter fun i => !i.delivers }
      { s.setCore n { c with
          ctx := if c.held.isSome then c.ctx else rest c.ctx, held := c.held.map rest
          xfers := c.xfers ++ ids.map fun k => ⟨.collectiveResult ⟨k.1, 0⟩ n, k.2⟩ } with
        colls := s.colls.map fun k => if ids.any fun j => j.1 == k.1 then (k.1, { k.2 with got := k.2.got.erase n }) else k }

/-- The end of a cycle for the collectives: deliveries that a stop has held, then the collectives that have reached every issuer are gone. -/
def State.endColls (s : State) : State :=
  if s.colls.isEmpty then s
  else
    let s1 := (s.cores.map Prod.fst).foldl State.holdDelivery s
    { s1 with colls := s1.colls.filter fun k => !(k.2.issuers.all k.2.got.contains) }

/-- The status that a collective delivers beside its vector: whether a copy marks a member absent, and the contributions (R211). -/
def collStatus (k : Coll) (mark : Bool) : Word := BitVec.ofNat 64 ((if mark then 1 else 0) + k.vals.length * 2 ^ 32)

/-- A collective's delivery at an issuer: the vector and the status among what falls due then, in the order of its MCLDR, or the event in its
place (R12, R211, R212). -/
def Core.collDeliver (l : Launch) (k : Coll) (n : Nat) (c : Core) : Core :=
  let (d, sd, _, mark) := Map.get k.dests n (0, 0, 0, false)
  if k.order then
    { c.addEvent ⟨cCOLL, 7, false, BitVec.ofNat 64 k.group, 0⟩ with
      agroups := match Map.get? c.agroups k.group with
        | some a => Map.put c.agroups k.group { a with poison := true }
        | none => c.agroups }
  else
    match k.bad with
    | some src => c.addEvent ⟨cPAYLOAD, 9, false, BitVec.ofNat 64 src, 0⟩
    | none =>
      match l.missing k with
      | some node => c.addEvent (timingAt node)
      | none =>
        let (v, status) := (Map.get? k.given n).getD (l.collective k, collStatus k mark)
        { c with
          ctx := { c.ctx with items := c.ctx.items ++
            [⟨c.ctx.clk, c.ctx.base + k.count, 7, false, false, c.nextUid, [.setV d v (BitVec.allOnes 2048), .setS sd status]⟩] }
          nextUid := c.nextUid + 1 }

/-- Whether a collective delivers its vector: it is in order, sound and complete. -/
def Launch.performs (l : Launch) (k : Coll) : Bool := !k.order && k.bad.isNone && (l.missing k).isNone

/-- COLLECTIVE_RESULT: the delivery to one issuer at its due schedule count, which the debugger keeps where it performs (R211, R348). A poisoned
result is discarded, and every unit of the launch takes PAYLOAD_ERROR; a header error brings down its partition; a single-bit error was
corrected and is counted (R311 to R313). A result of a node without a unit has node 0 as its source. -/
def execCollectiveResult (pkt : CollResult) (n : Nat) (s : State) : Out :=
  let id := pkt.coll
  match Map.get? s.colls id with
  | none => .next s
  | some k =>
    match Map.get? s.launches k.launch with
    | none => .next s
    | some l =>
      let put (s : State) : State := { s with colls := Map.put s.colls id { k with got := k.got ++ [n] } }
      match pkt.bad with
      | 2 => .next { s.logFabric 3 (clusterOf n) l.part 0 with agenda := s.agenda ++ [.partitionHalted l.part] }
      | 1 => .next (put (State.payloadError (s.logFabric 2 (clusterOf n) l.part 0) l.part (l.lid.extractLsb' 0 16) 0))
      | _ =>
        let s1 := put (if pkt.bad = 3 then s.logFabric 1 (clusterOf n) l.part 0 else s)
        let old := s1.dbg.reds.filter fun (x : Nat × Nat × Coll) => !(x.1 == n && x.2.1 == k.group && x.2.2.launch == k.launch)
        let s2 := if l.performs k then { s1 with dbg := { s1.dbg with reds := old ++ [(n, k.group, { k with got := k.got ++ [n] })] } } else s1
        .next (s2.onCore n (Core.collDeliver l k n))

/-! ## Waybills (R213, R316 to R318) -/

/-- OFFSET of a waybill entry. -/
def wbOFFSET (e : BitVec 256) : Nat := byteField e 0 4
/-- OP. -/
def wbOP (e : BitVec 256) : Nat := byteField e 4 1
/-- ARG. -/
def wbARG (e : BitVec 256) : Nat := byteField e 5 1
/-- PARTNER. -/
def wbPARTNER (e : BitVec 256) : Nat := byteField e 6 2
/-- ADDR. -/
def wbADDR (e : BitVec 256) : Nat := byteField e 8 4
/-- LEN. -/
def wbLEN (e : BitVec 256) : Nat := byteField e 12 4
/-- TAG. -/
def wbTAG (e : BitVec 256) : BitVec 16 := e.extractLsb' 128 16
/-- ORIGIN. -/
def wbORIGIN (e : BitVec 256) : Word := e.extractLsb' 192 64

/-- WBRUN: runs a waybill, with room for the results that its steps have in flight at once (R20, R213, R318). -/
def execWbrun (g : BitVec 4) (sa : BitVec 6) (n : BitVec 9) (s : State) : Out :=
  s.checked (n != 0) <| commOp s g fun c =>
    if c.ctx.macros.any fun m => match m.work with | .waybill .. => true | _ => false then s.iiViolation c
    else if 64 < c.ctx.inFlight + min 3 (n.toNat - c.startAt 6) then s.iiViolation c
    else
      match c.check s.cur (c.readS sa) (32 * n.toNat) 32 true false [.face] with
      | some (code, v) => s.fault code v 0 c
      | none =>
        let start := c.startAt 6
        let at_ := c.readS sa + BitVec.ofNat 64 (32 * start)
        -- an entry of offset 2 is read in this cycle, as the bytes stand at its start (R316)
        let e := BitVec.ofNat 256 (ofBytes ((List.range 32).map fun i => s.startByte (c.keyOf s.cur (at_.toNat + i))))
        if start < n.toNat && wbOFFSET e = 2 && !(s.poisoned (c.keyOf s.cur at_.toNat) 32)
        then c.addMacro s.slot start n.toNat (.waybill (c.readS sa) n.toNat (start + 1) 2 1 [e])
        else c.addMacro s.slot start n.toNat (.waybill (c.readS sa) n.toNat start 1 1 [])

/-! ## Triggers and increments (R214, R215, R242) -/

/-- TTARM: arms a time trigger at c+2 (R214). -/
def execTtarm (g : BitVec 4) (sa : BitVec 6) (n : BitVec 5) (t : BitVec 4) (s : State) : Out :=
  commOp s g fun c => c.addItem s.slot 2 false false [.armTime t.toNat (c.readS sa) n.toNat]

/-- CTARM: arms a counter trigger at c+2 (R214). -/
def execCtarm (g : BitVec 4) (w : BitVec 5) (sa : BitVec 6) (n : BitVec 5) (t : BitVec 4) (s : State) : Out :=
  commOp s g fun c => c.addItem s.slot 2 false false [.armCounter t.toNat w.toNat (c.readS sa) n.toNat]

/-- TRDIS: disarms a slot at c+2 (R214). -/
def execTrdis (g t : BitVec 4) (s : State) : Out :=
  commOp s g fun c => c.addItem s.slot 2 false false [.disarm t.toNat]

/-- Whether a macro-instruction stores to memory or sends packets, which a CCINC covers (R242). -/
def Macro.covered (m : Macro) : Bool :=
  match m.work with
  | .scatter .. => true
  | .pull .. => true
  | .push .. => true
  | .cxsend .. => true
  | .sctput .. => true
  | .assv .. => true
  | .rhlist .. => true
  | .rhsig .. => true
  | _ => false

/-- Whether an item of a delay line is a timed store (R242). -/
def Item.stores (i : Item) : Bool :=
  i.acts.any fun a =>
    match a with
    | .store .. => true
    | .vstore .. => true
    | .atom .. => true
    | .wbStore .. => true
    | .wbAdd .. => true
    | _ => false

/-- The numbers of the accesses of a core that a CCINC issued now covers, those that a handler left running at its ERET among them (R242);
packets already in flight join them when the increment is handed over. -/
def Core.cover (c : Core) : List Nat :=
  let ctx (x : Ctx) : List Nat := (x.macros.filter Macro.covered).map Macro.uid ++ (x.items.filter Item.stores).map Item.uid
  (c.qa ++ c.qb).map QEntry.uid ++ (c.nt.filter fun e => e.drained.isSome).map QEntry.uid ++ ctx c.ctx ++
    (c.held.map ctx).getD [] ++ (c.tail.map ctx).getD []

/-- An increment handed over (R215, R242). -/
def Core.incr (n : Nat) (c : Core) (cc : Nat) (amt : Word) (scope : Nat) : Core :=
  { c with emits := c.emits ++ [.incr ⟨c.partId.toNat, c.launch, cc, amt, scope, n, c.cover⟩] }

/-- CCINC (R215, R242). -/
def execCcinc (g : BitVec 4) (sa : BitVec 6) (o : BitVec 3) (n : BitVec 5) (s : State) : Out :=
  s.checked (decide (o.toNat < 5)) <| commOp s g fun c =>
    c.incr s.cur n.toNat (if sa = 0 then 1 else (c.readS sa).setWidth 32 |>.setWidth 64) o.toNat

end Sys2Proof.Machine
end

