-- ==== Sys2Proof/Machine/Snapshot.lean ====
section
/-! DEFINITION. The snapshot image of a stopped context in memory, written and read back (spec/10 R218 to R220). Where the layout leaves an
order or gives a part no bytes, the model's own way is marked. -/

namespace Sys2Proof.Machine

open Sys2Proof

/-! ## The snapshot image (R219) -/

/-- The 27 system registers of an image, in their order (R219): CSW to WDOG, PROG_M to PROG_COMM, LCNT to LBODY, and
ASSTAT to COLLIDE. -/
def imageRegs : List Nat :=
  [0x000, 0x001, 0x002, 0x003, 0x004, 0x00A, 0x00B, 0x00D, 0x00E, 0x00F, 0x100, 0x101, 0x102, 0x103, 0x104, 0x105, 0x106,
   0x200, 0x201, 0x202, 0x203, 0x300, 0x301, 0x302, 0x400, 0x401, 0x403]

/-- CSW as an image holds it: the interrupted context's own fields, with its MODE and TM = SH = 0. -/
def Ctx.cswImage (x : Ctx) : Nat :=
  x.mode.toNat + x.sres.toNat * 16 + (if x.la then 0x80 else 0) + (if x.qreq then 0x100 else 0) + x.rskew.toNat * 0x200 +
    (if x.wre then 0x4000 else 0) + (if x.pend then 0x8000 else 0)

/-- The 288 bytes of a flight-queue entry (R219). -/
def fqBytes (kind value delay reg mask addr : Nat) : List Byte :=
  toBytes 256 value ++ [BitVec.ofNat 8 kind, BitVec.ofNat 8 (min 255 delay)] ++ toBytes 2 reg ++ toBytes 4 0 ++ toBytes 8 mask ++
    toBytes 8 addr ++ toBytes 8 0

/-- A lane-valid mask: the 32-bit lanes of which any bit is written. -/
def laneBits (m : Vec) : Nat := packNat 1 64 fun j => if laneNat m j 32 = 0 then 0 else 1

/-- KIND of a write by its window: face, or cluster SRAM. -/
def writeKind (ea : Word) : Nat := if winOf ea.toNat = some .cluster then 6 else 5

/-- The cycles from an item's own time to the commit of its result, or to its store: those of a read that has still to deliver (R20). -/
def Item.toCommit (i : Item) : Nat :=
  match i.acts with
  | .load _ _ _ _ lat :: _ => lat
  | .atom _ _ _ _ _ lat :: _ => lat
  | .vload .. :: _ => 2
  | .rhCount .. :: _ => 1
  | .rhMap .. :: _ => 2
  | .wbAdd .. :: _ => 2
  | _ => 0

/-- The flight-queue entry of a result or store in the delay lines: KIND, value, register or row, lane-valid mask, address (R219). What the
layout gives no place is told by the fields that the KIND leaves free, in the model's own way: a mask register is KIND 2 with register
16 and up, flags stand in the address of a vector, and a scalar store has its size in the register field (DESIGN CHOICE, log entry 13). -/
def Item.entry (x : Ctx) (i : Item) : List Byte :=
  let fl : Nat := (i.acts.findSome? fun a => match a with | .flags f => some f.toNat | _ => none).getD 0
  let (kind, value, reg, mask, addr) : Nat × Nat × Nat × Nat × Nat :=
    match i.acts with
    | .setS r v :: _ => (1, v.toNat, r, 1, fl)
    | .setP r b :: _ => (2, if b then 1 else 0, r, 1, fl)
    | .setK r v _ :: _ => (2, v.toNat, 16 + r, 2 ^ 64 - 1, fl)
    | .setV r v m :: _ => (3, v.toNat, r, laneBits m, fl)
    | .tileRow t r v m :: _ => (4, v.toNat, 64 * t + r, laneBits m, 0)
    | .store ea z v :: _ => (writeKind ea, v.toNat, z, packNat 1 64 (fun j => if 4 * j < z then 1 else 0), ea.toNat)
    | .vstore ea v b :: _ => (5, v.toNat, 0, packNat 1 64 (fun j => if b.getLsbD (4 * j) then 1 else 0), ea.toNat)
    | .wbStore ea v :: _ => (5, v.toNat, 0, 2 ^ 64 - 1, ea.toNat)
    | .wbAdd ea v :: _ => (5, v.toNat, 0, 2 ^ 64 - 1, ea.toNat)
    | .load ea _ _ d _ :: _ => (1, 0, d, 0, ea.toNat)
    | .atom ea _ b _ d _ :: _ => (1, b.toNat, d, 0, ea.toNat)
    | .vload ea d _ _ :: _ => (3, 0, d, 0, ea.toNat)
    | .mapQ y _ _ :: _ => (1, 0, y, 0, 0)
    | .rhCount _ d :: _ => (1, 0, d, 0, 0)
    | .rhMap d _ _ :: _ => (3, 0, d, 0, 0)
    | .mcRead g ea :: _ => (7, 0, g, 0, ea.toNat)
    | .asMerge k _ _ :: _ => (7, 0, k, 0, 0)
    | _ => (7, 0, 0, 0, 0)
  fqBytes kind value (i.due - x.clk + i.toCommit) reg mask addr

/-- The flight-queue entries of a suspended macro-instruction that R20 counts: a gather with the lanes read so far, the rest of a scatter,
assay work with its context, RHSIG's record, and each store of RHLIST (R19, R137, R219). -/
def Macro.entries (x : Ctx) (c : Core) (m : Macro) : List (List Byte) :=
  let delay (k : Nat) : Nat := m.start + k - x.clk
  match m.work with
  | .gather base _ _ _ d cl acc got => [fqBytes 3 acc.toNat (delay (if cl then 30 else 20)) d got.toNat base.toNat]
  | .scatter base _ data mask cl =>
    [fqBytes (if cl then 6 else 5) data.toNat (delay ((if cl then 10 else 2) + m.next / 4)) 0 (mask.toNat / 2 ^ m.next * 2 ^ m.next) base.toNat]
  | .assay _ (.cfg ..) _ => []
  | .assay _ .clr _ => []
  | .assay _ .free _ => []
  | .assay k (.qu v lanes _) _ => [fqBytes 7 v.toNat (delay (2 + m.next / 16)) k lanes.toNat 0]
  | .assay k (.hh v _ lanes) _ => [fqBytes 7 v.toNat (delay (2 + m.next / 16)) k lanes.toNat 0]
  | .assay k (.dc v lanes _) _ => [fqBytes 7 v.toNat (delay (2 + m.next / 16)) k lanes.toNat 0]
  | .assv k a => [fqBytes 7 0 (delay (3 + m.next)) k 0 a.toNat]
  | .asmrg k a _ _ => [fqBytes 7 0 (delay 40) k 0 a.toNat]
  | .rhsig r t _ _ _ _ =>
    let at_ := ((Map.get? c.reheat r).map fun g => byteField g.desc 16 8 + 72 * t).getD 0
    [fqBytes (writeKind (BitVec.ofNat 64 at_)) 0 (delay 70) 0 0 at_]
  | .rhlist _ out _ => (List.range (m.total - m.next)).map fun j => fqBytes 5 0 (delay (3 + m.next + j)) 0 0 (out.toNat + 256 * (m.next + j))
  | _ => []

/-- The flight-queue entries of a stopped context: what R20 counts of its delay lines, then of its macro-instructions (R20, R219). -/
def Ctx.queueEntries (x : Ctx) (c : Core) : List (List Byte) :=
  (x.items.filter Item.counts).map (Item.entry x) ++ x.macros.flatMap (Macro.entries x c)

/-! ### The matrix engine in an image -/

/-- A tile slot of an image: accumulator, remaining delay, role (1 base, 2 partial, 3 pending) and rows (R219). -/
structure TileSlot where
  acc   : Nat
  delay : Nat
  role  : Nat
  rows  : List Vec
  deriving DecidableEq, Repr

/-- The tile slots in use: the tiles of the instructions under way, then the pending deliveries; three at most (R182, R219). -/
def Ctx.tileSlots (x : Ctx) : List TileSlot :=
  let runs : List TileSlot := (x.mx.runs.filter fun r => r.chain.isNone).map fun r =>
    ⟨r.acc, r.start + (if r.three then 64 else 24) - x.clk, if r.next = 0 then 1 else 2, r.tile⟩
  let pend : List TileSlot := x.mx.pend.filterMap fun d => d.tile.map fun t => ⟨d.acc, d.due - x.clk, 3, t⟩
  (runs ++ pend).take 3

/-- The pending zero marks: accumulator and remaining delay (R182, R219). -/
def Ctx.zeroMarks (x : Ctx) : List (Nat × Nat) :=
  ((x.mx.pend.filter fun d => d.tile.isNone).map fun d => (d.acc, d.due - x.clk)).take 24

/-- The matrix descriptor's bytes (R219): band pairs; slot word; s[A], s[B], s[T]; fA, fB and geometry; PROG_M; the suspended instruction's
band pair; accumulator, delay and role of each tile slot; 24 zero marks, with bit 7 of the accumulator set in each that is valid; and in the
last 8 bytes the model's number of the save. The order of the fields is the model's: DESIGN CHOICE, log entry 13. -/
def mdesc (x : Ctx) (h : Nat) : List Byte :=
  let susp := match x.mx.runs with
    | r :: _ => (toBytes 4 r.word.toNat ++ toBytes 8 r.sA.toNat ++ toBytes 8 r.sB.toNat ++ toBytes 8 r.sT.toNat ++
        [BitVec.ofNat 8 r.fA, BitVec.ofNat 8 r.fB, BitVec.ofNat 8 (r.gA + 16 * r.gB), 0], toBytes 2 r.bandA.toNat ++ toBytes 2 r.bandB.toNat)
    | [] => (toBytes 32 0, toBytes 4 0)
  let tiles := x.tileSlots.flatMap fun t => [BitVec.ofNat 8 t.acc, BitVec.ofNat 8 t.delay, BitVec.ofNat 8 t.role]
  let zeros := x.zeroMarks.flatMap fun z => [BitVec.ofNat 8 (0x80 + z.1), BitVec.ofNat 8 z.2]
  fit 0xF8 (toBytes 4 x.mx.band0.toNat ++ toBytes 4 x.mx.band1.toNat ++ susp.1 ++ toBytes 4 x.progM.toNat ++ susp.2 ++ fit 9 tiles ++ zeros) ++
    toBytes 8 h

/-- The BF16 parts of an FP32 operand of MMA3, as codes: a finite one by R51, another by its high half (R51, R219). -/
def splitCodes (v : BitVec 32) : List Nat :=
  match fp32 v.toNat with
  | .fin .. => (List.range 3).map fun p => (Fmt.bf16.round .rne (splitPart (fp32 v.toNat) p)).1
  | _ => [v.toNat / 2 ^ 16, 0, 0]

/-- The split operands of the suspended MMA3: h, m and l of A, then of B (R219). -/
def msplit (x : Ctx) : List Byte :=
  match x.mx.runs with
  | r :: _ =>
    if !r.three then []
    else
      let part (o : Map (List (BitVec 32))) (p : Nat) : List Byte :=
        (List.range 8).flatMap fun b => fit 512 ((Map.get o b []).flatMap fun v => toBytes 2 ((splitCodes v).getD p 0))
      (List.range 3).flatMap (part r.opA) ++ (List.range 3).flatMap (part r.opB)
  | [] => []

/-- An operand put together from its parts (R51). -/
def unsplit (h m l : Nat) : BitVec 32 :=
  match Fmt.bf16.decode h with
  | .fin .. => BitVec.ofNat 32 (rne32 (((Fmt.bf16.decode h).add (Fmt.bf16.decode m)).add (Fmt.bf16.decode l)))
  | _ => BitVec.ofNat 32 (h * 2 ^ 16)

/-- The parts of a snapshot image that hold a context, as offset and bytes; `h` is the model's number of the save, 0 for none (R219). -/
def imageParts (c : Core) (x : Ctx) (h : Nat) : List (Nat × List Byte) :=
  let live : Core := { c with sh := true, held := some x }
  let reg (n : Nat) : Nat :=
    if n = 0 then x.cswImage else (Core.sysRead State.reset live n).toNat
  let q := (x.queueEntries c).take 64
  [(0x0, toBytes 4 0x58504E53 ++ toBytes 2 1 ++ [BitVec.ofNat 8 q.length, BitVec.ofNat 8 (2 ^ x.tileSlots.length - 1)]),
   (0x100, imageRegs.flatMap fun n => toBytes 8 (reg n)),
   (0x200, toBytes 2 (x.p ||| 1).toNat),
   (0x300, mdesc x h),
   (0x400, (List.range 64).flatMap fun i => toBytes 8 (Map.get x.s i 0).toNat),
   (0x800, q.flatten)] ++
  (x.tileSlots.zipIdx.map fun t => (0x5000 + 0x4000 * t.2, t.1.rows.flatMap fun v => toBytes 256 v.toNat)) ++
  [(0x11000, msplit x)]

/-- Memory with a snapshot image written (R218). -/
def writeImage (m : Memory) (a : Nat) (c : Core) (x : Ctx) (h : Nat) : Memory :=
  (imageParts c x h).foldl (fun m p => memPutN m (a + p.1) p.2) (memClear m a 0x18000)

/-! ### An image read back (R220) -/

/-- The item that a flight-queue entry's bytes name, of a context that stands at schedule count `clk` (R219; DESIGN CHOICE, log entry 13). -/
def fqItem (clk : Nat) (b : List Byte) : Option Item :=
  let f (o n : Nat) : Nat := ofBytes ((b.drop o).take n)
  let v := f 0 256
  let reg := f 258 2
  let mask := BitVec.ofNat 64 (f 264 8)
  let ea : Word := BitVec.ofNat 64 (f 272 8)
  let lanes := laneMask 32 64 mask.getLsbD
  let flags : Act := .flags (BitVec.ofNat 7 ea.toNat)
  let acts : List Act :=
    match f 256 1 with
    | 1 => if mask = 0 then (if ea = 0 then [] else [.load ea 8 false reg 1]) else [.setS reg (BitVec.ofNat 64 v), flags]
    | 2 => if reg < 16 then [.setP reg (v % 2 == 1), flags] else [.setK (reg - 16) (BitVec.ofNat 256 v) (BitVec.allOnes 256)]
    | 3 => if mask = 0 then (if ea = 0 then [] else [.vload ea reg (BitVec.allOnes 2048) 0]) else [.setV reg (BitVec.ofNat 2048 v) lanes, flags]
    | 4 => [.tileRow (reg / 64) (reg % 64) (BitVec.ofNat 2048 v) lanes]
    | 5 => if reg = 0 then [.vstore ea (BitVec.ofNat 2048 v) (BitVec.ofNat 256 (packNat 4 64 fun j => if mask.getLsbD j then 15 else 0))]
           else [.store ea reg (BitVec.ofNat 64 v)]
    | 6 => if reg = 0 then ((List.range 64).filter mask.getLsbD).map fun j =>
             .store (ea + BitVec.ofNat 64 (4 * j)) 4 (BitVec.ofNat 64 (laneNat (BitVec.ofNat 2048 v) j 32))
           else [.store ea reg (BitVec.ofNat 64 v)]
    | _ => []
  let i : Item := ⟨clk, clk, 0, true, false, 0, acts⟩
  if acts.isEmpty then none else some { i with due := clk + (f 257 1 - i.toCommit) }

/-- The flight queue of an image: each entry whose bytes a saved one wrote is that one, and another is read from its bytes. Work that has no
entry goes on with the save (R220; DESIGN CHOICE, log entry 13). -/
def readQueue (m : Memory) (a : Nat) (c : Core) (x : Ctx) : Ctx :=
  let bytes := (List.range (memNat m (a + 6) 1)).map fun e => memGetN m (a + 0x800 + 288 * e) 288
  let known := x.queueEntries c
  { x with
    items := x.items.filter (fun i => !i.counts || bytes.contains (i.entry x)) ++
      (bytes.filter fun b => !(known.contains b)).filterMap (fqItem x.clk)
    macros := x.macros.filter fun k => k.weight = 0 || (k.entries x c).any bytes.contains }

/-- The matrix state of an image from its bytes (R182, R219; DESIGN CHOICE, log entry 13). -/
def readMatrix (m : Memory) (a clk : Nat) : Matrix :=
  let f (o n : Nat) : Nat := memNat m (a + 0x300 + o) n
  let word := BitVec.ofNat 32 (f 8 4)
  let rows (t : Nat) : List Vec := (List.range 64).map fun i => BitVec.ofNat 2048 (memNat m (a + 0x5000 + 0x4000 * t + 256 * i) 256)
  let slots := (List.range 3).filter fun t => (memNat m (a + 7) 1).testBit t
  let role (t : Nat) : Nat := f (48 + 3 * t + 2) 1
  let part (o b k : Nat) : Nat := memNat m (a + 0x11000 + o + 512 * b + 2 * k) 2
  let op (o : Nat) : Map (List (BitVec 32)) :=
    (List.range 8).map fun b => (b, (List.range 256).map fun k => unsplit (part o b k) (part (o + 0x1000) b k) (part (o + 0x2000) b k))
  let run (t : Nat) : Option MxRun :=
    let mk (acc : BitVec 1) (three : Bool) (y : BitVec 2) : MxRun :=
      { word := word, seq := t, start := clk + f (48 + 3 * t + 1) 1 - (if three then 64 else 24), acc := acc.toNat, three := three, y := y
        sA := BitVec.ofNat 64 (f 12 8), sB := BitVec.ofNat 64 (f 20 8), sT := BitVec.ofNat 64 (f 28 8)
        fA := f 36 1, fB := f 37 1, gA := f 38 1 % 16, gB := f 38 1 / 16
        bandA := BitVec.ofNat 16 (f 44 2), bandB := BitVec.ofNat 16 (f 46 2), chain := none, tile := rows t
        next := f 40 4, total := mxSteps three, flags := 0
        opA := if three then op 0 else [], opB := if three then op 0x3000 else [] }
    match decodeSlot 4 word none with
    | .ok (.mma _ c _ _ _ _ y) => some (mk c false y)
    | .ok (.mma3 _ c _ _ _ _) => some (mk c true 0)
    | _ => none
  let runs := (slots.filter fun t => role t = 1 || role t = 2).filterMap run
  let tiles := (slots.filter fun t => role t = 3).map fun t =>
    (⟨t, clk, f (48 + 3 * t) 1, clk + f (48 + 3 * t + 1) 1, some (rows t), 0⟩ : MxPend)
  let zeros := (List.range 24).filterMap fun z =>
    if 0x80 ≤ f (57 + 2 * z) 1 then
      some (⟨3 + z, clk, f (57 + 2 * z) 1 - 0x80, clk + f (58 + 2 * z) 1, none, 0⟩ : MxPend) else none
  let pend := tiles ++ zeros
  let last (acc : Nat) : Option (Nat × Nat) :=
    match runs.find? fun r => r.acc = acc with
    | some r => some (r.seq, r.start + (if r.three then 64 else 24))
    | none => ((pend.filter fun d => d.acc = acc).foldl (fun b d =>
        match b with | some y => if y.2 < d.due then some (d.seq, d.due) else b | none => some (d.seq, d.due)) (none : Option (Nat × Nat)))
  { band0 := BitVec.ofNat 32 (f 0 4), band1 := BitVec.ofNat 32 (f 4 4), runs := runs, pend := pend, last0 := last 0, last1 := last 1
    nextSeq := 27, busyTo := clk }

/-- Whether an image's matrix parts hold what the save of a context wrote. -/
def matrixUnchanged (m : Memory) (a : Nat) (x : Ctx) : Bool :=
  let same (p : Nat × List Byte) : Bool := memGetN m (a + p.1) p.2.length == p.2
  same (0x300, mdesc x (memNat m (a + 0x3F8) 8)) && same (0x11000, msplit x) && memNat m (a + 7) 1 == 2 ^ x.tileSlots.length - 1 &&
    x.tileSlots.zipIdx.all fun t => same (0x5000 + 0x4000 * t.2, t.1.rows.flatMap fun v => toBytes 256 v.toNat)

/-- A context read back from an image (R220): scalars, predicates, system registers with their must-be-zero bits left out, flight queue and
matrix state from its bytes. `x` is what the save named in the image held, from which comes what the layout gives no bytes for, of entries
that still stand as it wrote them (DESIGN CHOICE, log entry 13). -/
def readImage (m : Memory) (a : Nat) (c : Core) (x : Ctx) (saved : Bool) : Ctx :=
  let reg (i : Nat) : Word := BitVec.ofNat 64 (memNat m (a + 0x100 + 8 * i) 8)
  let csw := reg 0
  let x := readQueue m a c x
  let x := if saved && matrixUnchanged m a x then x else { x with mx := readMatrix m a x.clk }
  let y : Core := (imageRegs.zipIdx.drop 1).foldl (fun c r =>
      if r.1 = 0x00B || r.1 = 0x300 || r.1 = 0x400 || r.1 = 0x401 || r.1 = 0x403 || r.1 = 0x00D || r.1 = 0x00E || r.1 = 0x00F
      then c else c.sysWrite r.1 (reg r.2))
    { Core.reset with ctx := x }
  { y.ctx with
    epc := (reg 1).setWidth 42 |>.setWidth 64, cause := (reg 2).setWidth 13 |>.setWidth 64
    s := (List.range 64).foldl (fun t i =>
      if i = 0 then t else Map.put t i (BitVec.ofNat 64 (memNat m (a + 0x400 + 8 * i) 8))) []
    p := BitVec.ofNat 16 (memNat m (a + 0x200) 2) ||| 1
    vstat := (reg 6).extractLsb' 0 7, rngPos := reg 7, rngKey := reg 8, wdog := reg 9
    hovf := (reg 21).extractLsb' 8 4, badimg := (reg 21).extractLsb' 12 4
    mapstat := (reg 24).extractLsb' 0 33, strayOvf := (reg 25).getLsbD 3, collide := (reg 26).getLsbD 0
    sres := csw.extractLsb' 4 3, la := csw.getLsbD 7, qreq := csw.getLsbD 8, rskew := csw.extractLsb' 9 5
    wre := csw.getLsbD 14, pend := csw.getLsbD 15, mode := csw.extractLsb' 0 2 }

end Sys2Proof.Machine
end

