-- ==== Sys2Proof/Machine/Save.lean ====
section
/-! DEFINITION. Saving and restoring a unit: snapshot images, save areas and their restore modes (spec/10 R217 to R224,
spec/12 R257 to R261). The order of the fields of the parts that R223 names without a layout, and what they give no bytes for: DESIGN CHOICE,
log entry 13. -/

namespace Sys2Proof.Machine

open Sys2Proof

/-! ## Snapshot images (R218, R220) -/

/-- What a save wrote that has no bytes of its own, by the number that its area names. -/
def State.savedBy (s : State) (h : Nat) : Option Saved := if h = 0 then none else s.saves[h - 1]?

/-- The frames of a range whose entry in an exception table its bytes may change: those with listed bytes of the hallmark word or with an entry,
or all of them where a hallmark is 0. -/
def State.markable (s : State) (a n : Nat) : List Nat :=
  if (s.msu (msuOf a)).hallmark = 0 || (s.msu (msuOf (a + n - 1))).hallmark = 0 then framesOf a n
  else
    ((s.mem.filterMap fun (x : Host.Cell) => if a ≤ x.1 && decide (x.1 < a + n) && decide (0xFF8 ≤ x.1 % 0x1000) then some (x.1 / 0x1000 * 0x1000) else none) ++
      s.msus.flatMap fun (u : Nat × Msu) => u.2.exc.filter fun f => decide (a < f + 0x1000) && decide (f < a + n)).eraseDups

/-- Device memory changed by an engine in a range: poison and hallmark follow as for unmarked writes, frame by frame where a write must be held
(R282, R286). -/
def State.engineWrote (s : State) (part a n : Nat) (m : Memory) : State :=
  let t : State := { s with mem := m, poison := clearPoison s.poison a n }
  let s1 := (t.markable a n).foldl (State.checkHallmark part) t
  if s1.msus.all fun u => decide (u.2.exc.length ≤ 256) then s1
  else (framesOf a n).foldl (fun s f => s.devWrite part f (memGetN m f 0x1000)) s

/-- SNAPST's image, complete in the last cycle of its time (R218). -/
def State.snapSave (s : State) (n : Nat) (a : Word) : State :=
  let c := s.core n
  match c.held with
  | none => s
  | some x =>
    { s.engineWrote c.partId.toNat a.toNat 0x18000 (writeImage s.mem a.toNat c x (s.saves.length + 1)) with
      saves := s.saves ++ [⟨(n, c), some x, []⟩] }

/-- The context that an image restores (R220): with TM = 1, at a restore start, a QREQ is the one set since; else one still pending in the live
context stays (R218, R246). WDOG goes on counting, the same in every unit (R255). The row at which a queue's head goes on is the image's where
the handler changed it, and else the one that the entry has come to (R261). -/
def State.imageCtx (s : State) (n : Nat) (a : Word) : Ctx :=
  let c := s.core n
  let sv := (s.savedBy (memNat s.mem (a.toNat + 0x3F8) 8)).bind fun v => v.ctx.map fun x => (v.core.2, x)
  let (o, x) := sv.getD (c, { c.ctx with items := [], macros := [], mx := Matrix.reset, ctl := Ctl.none })
  let y := readImage s.mem a.toNat o x sv.isSome
  let head (slot : Nat) : BitVec 12 :=
    if sv.isSome && y.headRow slot = x.headRow slot then BitVec.ofNat 12 (((c.oldest slot).map QEntry.row).getD 0)
    else BitVec.ofNat 12 (y.headRow slot)
  { y with
    qreq := if c.tm then c.ctx.qreq else y.qreq || c.ctx.qreq, wdog := c.ctx.wdog
    progCA := head 5 ++ y.progCA.extractLsb' 0 20, progCB := head 6 ++ y.progCB.extractLsb' 0 20 }

/-- ERET's completion: from the held snapshot, or from an image, with the queue heads at the rows that PROG_CA and PROG_CB name
(R220, R248, R261). -/
def State.snapRest (s : State) (n : Nat) (a : Option Word) : State :=
  let c := s.core n
  match (match a with | none => c.held | some p => some (s.imageCtx n p)) with
  | none => s
  | some x =>
    s.setCore n (((c.fromRow 5 (x.headRow 5)).fromRow 6 (x.headRow 6)).eret x.mode x)

/-! ## Save areas (R222, R223) -/

/-- An LTT as bytes. -/
def lttBytes (t : Map (BitVec 128)) : List (Nat × List Byte) := t.map fun e => (16 * e.1, toBytes 16 e.2.toNat)

/-- A flag's bit. -/
def bit (b : Bool) (i : Nat) : Nat := if b then 2 ^ i else 0

/-- A reheat region as bytes: descriptor, skip map, force flags, ages, then the held sums, greatest magnitude and record, as FP32 (R223). -/
def Reheat.bytes (g : Reheat) : List Byte :=
  toBytes 64 g.desc.toNat ++ toBytes 128 g.skip.toNat ++ toBytes 128 g.force.toNat ++
    ((List.range 1024).map fun t => BitVec.ofNat 8 (Map.get g.ages t 0)) ++ (g.sums.flatMap fun v => toBytes 4 (rne32 v)) ++
    toBytes 4 (rne32 g.maxm) ++ (g.rec_.flatMap fun v => toBytes 4 v.toNat) ++ [BitVec.ofNat 8 (1 + bit g.cfg 1)]

/-- A region read back; one whose bytes the save wrote is the saved one, whose sums are exact. -/
def readReheat (b : List Byte) (old : Option Reheat) : Option Reheat :=
  let f (o n : Nat) : Nat := imgField b o n
  if f 0x5C8 1 % 2 = 0 then none
  else if (old.map Reheat.bytes) = some (b.take 0x5C9) then old
  else
    some ⟨(f 0x5C8 1).testBit 1, BitVec.ofNat 512 (f 0 64), BitVec.ofNat 1024 (f 0x40 128), BitVec.ofNat 1024 (f 0xC0 128),
      (List.range 1024).map fun t => (t, f (0x140 + t) 1), (List.range 16).map fun i => fp32 (f (0x540 + 4 * i) 4), fp32 (f 0x580 4),
      (List.range 17).map fun i => BitVec.ofNat 32 (f (0x584 + 4 * i) 4)⟩

/-- A landing map as bytes: descriptor, state, drain count, and the core that set it (R223). -/
def LMap.bytes (m : LMap) : List Byte :=
  toBytes 64 m.desc.toNat ++ [(match m.st with | .free => 0 | .active => 1 | .draining => 2 : Byte), 1] ++ toBytes 2 m.drain.toNat ++ toBytes 2 m.setter

/-- A landing map read back. -/
def readLMap (b : List Byte) : Option LMap :=
  let f (o n : Nat) : Nat := imgField b o n
  if f 0x41 1 = 0 then none
  else
    some ⟨BitVec.ofNat 512 (f 0 64), match f 0x40 1 with | 1 => .active | 2 => .draining | _ => .free, BitVec.ofNat 16 (f 0x42 2), f 0x44 2⟩

/-- A stray as bytes (R205, R223). -/
def Stray.bytes (e : Stray) : List Byte :=
  [1, BitVec.ofNat 8 (e.fmt.toNat + bit e.parity 4)] ++ toBytes 2 e.tag.toNat ++ toBytes 2 e.src.toNat ++ toBytes 2 0 ++ toBytes 4 e.elem.toNat ++
    toBytes 4 0 ++ toBytes 8 e.coord.toNat

/-- A stray read back. -/
def readStray (b : List Byte) : Option Stray :=
  let f (o n : Nat) : Nat := imgField b o n
  if f 0 1 = 0 then none
  else some ⟨BitVec.ofNat 16 (f 2 2), (f 1 1).testBit 4, BitVec.ofNat 4 (f 1 1), BitVec.ofNat 16 (f 4 2), BitVec.ofNat 64 (f 16 8), BitVec.ofNat 32 (f 8 4)⟩

/-- A barrier group as bytes: a bit for each member unit, then its flags (R223). -/
def BGroup.bytes (g : BGroup) : List Byte :=
  toBytes 96 (packNat 1 768 fun u => bit (g.members.contains u) 0) ++
    [BitVec.ofNat 8 (1 + bit g.arrived 1 + bit g.bar 2 + bit g.passed 3 + bit g.sync 4)]

/-- A barrier group read back. -/
def readBGroup (b : List Byte) : Option BGroup :=
  let fl := imgField b 0x60 1
  if fl % 2 = 0 then none
  else
    some ⟨(List.range 768).filter fun u => (imgField b (u / 8) 1).testBit (u % 8), fl.testBit 1, fl.testBit 2, fl.testBit 3, fl.testBit 4⟩

/-- An address group as bytes: descriptor, sequence number, poison (R223). -/
def AGroup.bytes (g : AGroup) : List Byte := fit 520 g.desc ++ toBytes 2 g.seq.toNat ++ [BitVec.ofNat 8 (1 + bit g.poison 1)]

/-- An address group read back. -/
def readAGroup (b : List Byte) : Option AGroup :=
  let fl := imgField b 0x20A 1
  if fl % 2 = 0 then none else some ⟨b.take 520, BitVec.ofNat 16 (imgField b 0x208 2), fl.testBit 1⟩

/-- A pending event as bytes (R223, R246). -/
def Trap.bytes (t : Trap) : List Byte :=
  [BitVec.ofNat 8 t.code, BitVec.ofNat 8 t.orig, BitVec.ofNat 8 (bit t.late 0)] ++ toBytes 5 0 ++ toBytes 8 t.fval.toNat ++ toBytes 8 t.felem.toNat

/-- A pending event read back. -/
def readTrap (b : List Byte) : Option Trap :=
  let f (o n : Nat) : Nat := imgField b o n
  if f 0 1 = 0 then none else some ⟨f 0 1, f 1 1, (f 2 1).testBit 0, BitVec.ofNat 64 (f 8 8), BitVec.ofNat 64 (f 16 8)⟩

/-- A list's elements with the offsets at which they lie behind one another, by their sizes. -/
def runningOffsets {α : Type} (size : α → Nat) (l : List α) (k : Nat) : List (Nat × α) :=
  match l with
  | [] => []
  | a :: r => (k, a) :: runningOffsets size r (k + size a)

/-- The bytes of an entry that the engine part's pool holds: a packet's payload, or the index list that a GATHER has read. -/
def QEntry.payload (e : QEntry) : List Byte :=
  match e.kind with
  | .packet p => p.payload
  | .gather _ _ _ _ _ _ _ idx _ => (idx.getD []).flatMap fun v => toBytes 4 v.toNat
  | _ => []

/-- The bytes of the pool of packet payloads and index lists, which has the numbers of packets sent and not yet performed behind it; and the
uids of the pool of coverage (R223; DESIGN CHOICE, log entry 13). -/
def payloadPool : Nat := 0x12F0
/-- The numbers of packets, sent and not yet performed, that the engine part has room for (R223, R257). -/
def sentPool : Nat := 256
/-- The uids of the pool of coverage. -/
def coverPool : Nat := 512

/-- A queued entry as 128 bytes: number, slot, kind, progress, epoch, flags, level, its operands and the late fault held at it; a packet has
its header in the second half and its payload in the pool, at the offset `pool`, and a GATHER its index list there (R223, R246; DESIGN CHOICE,
log entry 13). -/
def QEntry.bytes (pool : Nat) (queue : Nat) (e : QEntry) : List Byte :=
  let t := e.faulted.getD ⟨0, 0, false, 0, 0⟩
  let place := if pool + e.payload.length ≤ payloadPool then pool + 1 else 0
  let head (k out tile er ec fmt : Nat) : List Byte :=
    toBytes 4 e.uid ++ [BitVec.ofNat 8 e.slot, BitVec.ofNat 8 k, BitVec.ofNat 8 e.row, BitVec.ofNat 8 out] ++ toBytes 4 e.epoch ++
      [BitVec.ofNat 8 (bit e.drained.isSome 0 + bit e.held 1 + bit e.faulted.isSome 2 + bit t.late 3 + queue * 16)] ++
      ([tile, er, ec, fmt, t.code, t.orig, e.level].map (BitVec.ofNat 8)) ++ toBytes 4 (e.drained.getD 0)
  let tail_ (a b c : Nat) : List Byte := toBytes 8 a ++ toBytes 8 b ++ toBytes 8 c ++ toBytes 8 t.fval.toNat ++ toBytes 8 t.felem.toNat
  fit 128 (match e.kind with
    | .tld tile ea sr er ec f _ => head 1 0 tile er ec f ++ tail_ ea.toNat sr 0
    | .tst tile ea sr er ec f _ out => head 2 out.length tile er ec f ++ tail_ ea.toNat sr 0
    | .gather tile bs u er ec f la idx _ => head 3 (if idx.isSome then 1 else 0) tile er ec f ++ tail_ bs.toNat u la.toNat ++ toBytes 8 place
    | .packet p => head 4 0 p.bad 0 0 0 ++
        tail_ ((p.sent.map fun x => x.1 + 1).getD 0) ((p.sent.map Prod.snd).getD 0) place ++
        toBytes 64 (pktHeader p 1 (pktClass p) 0).toNat)

/-- A coordinate packet read back from its header and payload, with what the fabric did to it and its sender. -/
def readPacket (hd data : List Byte) (bad : Nat) (sent : Option (Nat × Nat)) (num : Nat) (frame : Option (Nat × BitVec 32)) : Packet :=
  let f (o k : Nat) : Nat := imgField hd o k
  let fmt := BitVec.ofNat 4 (f 6 1)
  { part := f 1 1, ctx := BitVec.ofNat 16 (f 2 2), tag := BitVec.ofNat 16 (f 4 2), fmt := fmt, parity := (f 6 1).testBit 4
    dkind := f 7 1, src := f 8 2, dest := f 0xA 2, spkg := f 0x24 4, origin := BitVec.ofNat 64 (f 0x10 8)
    mask := BitVec.ofNat 64 (f 0x18 8), count := f 0x20 2, payload := data.take (f 0x20 2 * elemBytes fmt.toNat)
    bad := bad, sent := sent, num := num, frame := frame }

/-- A sender's core and number as two words hold it, the core one up. -/
def readSender (a b : Nat) : Option (Nat × Nat) := if a = 0 then none else some (a - 1, b)

/-- A queued entry read back from its bytes, with its queue: 0 QA, 1 QB, 2 the non-temporal buffer. What the bytes do not hold, the rows of a
tile before a load or read out for a store, and a payload or index list beyond the pool, comes from the saved entry of that number. -/
def readEntry (pool b : List Byte) (old : List QEntry) : Option (Nat × QEntry) :=
  let f (o k : Nat) : Nat := imgField b o k
  let sv := (old.find? fun e => e.uid == f 0 4).map QEntry.kind
  let ea : Word := BitVec.ofNat 64 (f 24 8)
  let rows : List Vec × List Vec := match sv with
    | some (.tld _ _ _ _ _ _ o) => (o, [])
    | some (.tst _ _ _ _ _ _ o out) => (o, out)
    | some (.gather _ _ _ _ _ _ _ _ o) => (o, [])
    | _ => ([], [])
  let kind : Option QKind :=
    match f 5 1 with
    | 1 => some (.tld (f 13 1 % 8) ea (f 32 8) (f 14 1) (f 15 1) (f 16 1) rows.1)
    | 2 => some (.tst (f 13 1 % 8) ea (f 32 8) (f 14 1) (f 15 1) (f 16 1) rows.1 (rows.2.take (f 7 1)))
    | 3 => some (.gather (f 13 1 % 8) ea (f 32 8) (f 14 1) (f 15 1) (f 16 1) (BitVec.ofNat 64 (f 40 8))
        (if f 7 1 = 0 then none
          else if f 64 8 = 0 then (match sv with | some (.gather _ _ _ _ _ _ _ idx _) => idx | _ => none)
          else some ((List.range 64).map fun i => BitVec.ofNat 32 (imgField pool (f 64 8 - 1 + 4 * i) 4))) rows.1)
    | 4 =>
      let data := if f 40 8 = 0 then (match sv with | some (.packet p) => p.payload | _ => []) else (pool.drop (f 40 8 - 1)).take 1024
      some (.packet (readPacket (b.drop 64) data (f 13 1) (readSender (f 24 8) (f 32 8)) 0 none))
    | _ => none
  let fl := f 12 1
  kind.map fun k => (fl / 16, ⟨f 0 4, f 4 1, k, f 6 1, f 8 4, if fl.testBit 0 then some (f 20 4) else none,
    if fl.testBit 2 then some ⟨f 17 1, f 18 1, fl.testBit 3, BitVec.ofNat 64 (f 48 8), BitVec.ofNat 64 (f 56 8)⟩ else none, fl.testBit 1, f 19 1⟩)

/-- A pending increment as bytes, its coverage in the pool from `k` on where it has room (R223, R257). -/
def Incr.bytes (k : Nat) (i : Incr) : List Byte :=
  [BitVec.ofNat 8 (0x80 + i.cc), BitVec.ofNat 8 (i.scope + bit (decide (coverPool < k + i.cover.length)) 7)] ++ toBytes 2 i.cover.length ++
    toBytes 4 k ++ toBytes 8 i.amt.toNat

/-- A pending increment read back for core `n` of a launch; coverage beyond the pool comes from the saved increment. -/
def readIncr (m : Memory) (pool n part launch : Nat) (old : Option Incr) (b : List Byte) : Option Incr :=
  let f (o k : Nat) : Nat := imgField b o k
  if f 0 1 < 0x80 then none
  else
    some ⟨part, launch, f 0 1 - 0x80, BitVec.ofNat 64 (f 8 8), f 1 1 % 128, n,
      if (f 1 1).testBit 7 then (old.map Incr.cover).getD [] else (List.range (f 2 2)).map fun j => memNat m (pool + 4 * (f 4 4 + j)) 4⟩

/-- The vector and the status of a held MCLDR delivery, once no contribution to it is still on its way (R211, R223). -/
def State.heldResult (s : State) (n id : Nat) : Option (Vec × Word) :=
  match Map.get? s.colls id with
  | none => none
  | some k =>
    match Map.get? s.launches k.launch with
    | none => none
    | some l =>
      if k.order || k.bad.isSome || (l.missing k).isSome then none
      else some ((Map.get? k.given n).getD (l.collective k, collStatus k (Map.get k.dests n (0, 0, 0, false)).2.2.2))

/-- A transfer held by a landing stage as a slot of the save area: its header, due schedule count, what the fabric did to it, its
collective's number, its sender, the status of an MCLDR delivery, and a packet's frame and number, then 1,024 bytes of payload (R223, R310). -/
def State.heldBytes (s : State) (c : Core) (h : Held) : List Byte :=
  let hd := s.transferHeader ⟨c.partId.toNat, c.launch, 0, [], 0, none, h.ev, []⟩
  let (bad, id, sent, payload) : Nat × Nat × Option (Nat × Nat) × List Byte :=
    match h.ev with
    | .coordinatePacket _ p => (p.bad, 0, p.sent, p.payload)
    | .directSend _ _ v b => (b, 0, none, toBytes 256 v.toNat)
    | .waybillMemoryTransfer _ _ v b => (b, 0, none, toBytes 256 v.toNat)
    | .collectiveResult p n => (p.bad, p.coll, none, match s.heldResult n p.coll with | some (v, _) => toBytes 256 v.toNat | none => [])
    | _ => (0, 0, none, [])
  let result : Option (Vec × Word) := match h.ev with | .collectiveResult p n => s.heldResult n p.coll | _ => none
  let (flow, num) : Option (Nat × BitVec 32) × Nat := match h.ev with | .coordinatePacket _ p => (p.frame, p.num) | _ => (none, 0)
  fit 128 (toBytes 64 hd.toNat ++ toBytes 8 h.due ++ [BitVec.ofNat 8 bad, BitVec.ofNat 8 (1 + bit result.isSome 1)] ++ toBytes 2 0 ++ toBytes 4 id ++
    toBytes 8 ((sent.map fun x => x.1 + 1).getD 0) ++ toBytes 8 ((sent.map Prod.snd).getD 0) ++ toBytes 8 ((result.map Prod.snd).getD 0).toNat ++
      toBytes 8 ((flow.map fun x => x.1 + 1).getD 0) ++ toBytes 8 ((flow.map fun x => x.2.toNat).getD 0) ++ toBytes 4 num) ++
    fit 1024 payload

/-- A held transfer read back for core `n`. -/
def readHeld (n : Nat) (b : List Byte) : Option Held :=
  let f (o k : Nat) : Nat := imgField b o k
  let data (k : Nat) : List Byte := (b.drop 128).take k
  let vec : Vec := BitVec.ofNat 2048 (ofBytes (data 256))
  let ev : Option Instr :=
    match f 0 1 with
    | 1 => 
      let frame := (readSender (f 104 8) (f 112 8)).map fun x => (x.1, BitVec.ofNat 32 x.2)
      some (.coordinatePacket n (readPacket b (data 1024) (f 72 1) (readSender (f 80 8) (f 88 8)) (f 120 4) frame))
    | 2 => some (.directSend n (f 8 2) vec (f 72 1))
    | 4 => some (.collectiveResult ⟨f 76 4, f 72 1⟩ n)
    | 5 => some (.waybillMemoryTransfer n (f 8 2) vec (f 72 1))
    | _ => none
  if f 73 1 = 0 then none else ev.map fun e => ⟨e, f 64 8⟩

/-- The vector and the status of the MCLDR delivery that a slot of the save area holds, by its collective (R223, R224). -/
def readResult (b : List Byte) : Option (Nat × Vec × Word) :=
  if imgField b 0 1 = 4 && (imgField b 73 1).testBit 1 then
    some (imgField b 76 4, BitVec.ofNat 2048 (ofBytes ((b.drop 128).take 256)), BitVec.ofNat 64 (imgField b 96 8))
  else none

/-- The queued entries of a core with their queues, those that the engine part has records for. -/
def Core.queued (c : Core) : List (Nat × QEntry) :=
  ((c.qa.map fun e => (0, e)) ++ (c.qb.map fun e => (1, e)) ++ c.nt.map fun e => (2, e)).take 64

/-- The numbers of packets sent and not yet performed, as bytes, one up; where they are more than the pool holds, its last word says that it
stands for all of them (R223, R257). -/
def sentBytes (l : List Nat) : List Byte :=
  if l.length < sentPool then l.flatMap fun u => toBytes 4 (u + 1) else toBytes (4 * (sentPool - 1)) 0 ++ toBytes 4 (2 ^ 32 - 1)

/-- Whether a packet's number stands among those that an area holds. -/
def sentIn (m : Memory) (a u : Nat) : Bool :=
  memNat m (a + 4 * (sentPool - 1)) 4 == 2 ^ 32 - 1 || (List.range sentPool).any fun i => memNat m (a + 4 * i) 4 == u + 1

/-- The engine part of a save area, from 0x28_4000 on, as offset and bytes; `h` is the number of the save, `sent` the packets that the unit
has sent and that have not yet performed (R223). -/
def engineParts (n : Nat) (c : Core) (incrs : List Incr) (sent : List Nat) (h : Nat) : List (Nat × List Byte) :=
  let at_ {α : Type} (base size : Nat) (f : α → List Byte) (l : List (Nat × α)) : List (Nat × List Byte) :=
    l.map fun x => (base + size * x.1, f x.2)
  let nth {α : Type} (l : List α) : List (Nat × α) := l.zipIdx.map fun x => (x.2, x.1)
  at_ 0 32 (fun v => toBytes 32 v.toNat) c.k ++
  [(0x100, [BitVec.ofNat 8 c.tilePend.toNat, BitVec.ofNat 8 (bit c.parity 0 + bit c.swapped 1 + bit c.stopped.isSome 2)] ++ toBytes 2 c.owned.toNat ++
      toBytes 4 c.owners.toNat ++ toBytes 8 c.epoch ++ toBytes 8 c.sq.length ++ toBytes 8 ((c.stopped.map Prod.fst).getD 0) ++
      toBytes 8 ((c.stopped.map Prod.snd).getD 0) ++ toBytes 8 c.nextUid ++ toBytes 8 n)] ++
  at_ 0x200 80 (fun e => toBytes 80 e.toNat) (nth c.sq) ++ at_ 0x2A00 4224 Assay.image c.assay ++ at_ 0x6C00 0x600 Reheat.bytes c.reheat ++
  at_ 0x9C00 0x48 LMap.bytes c.landing ++ at_ 0xA100 32 (fun r => toBytes 32 r.toNat) c.routes ++ at_ 0xA500 32 Stray.bytes (nth c.strays) ++
  at_ 0xA600 0x80 BGroup.bytes c.bgroups ++ at_ 0xAA00 0x210 AGroup.bytes c.agroups ++ at_ 0xBB00 24 Trap.bytes (nth (c.events.take 21)) ++
  at_ 0xBD00 128 (fun x => QEntry.bytes x.1 x.2.1 x.2.2) (nth (runningOffsets (fun x => x.2.payload.length) c.queued 0)) ++
  at_ 0xDD00 16 (fun x => Incr.bytes x.1 x.2) (nth (runningOffsets (fun i => i.cover.length) (incrs.take 64) 0)) ++
  ((runningOffsets (fun i => i.cover.length) (incrs.take 64) 0).filterMap fun x =>
    if x.1 + x.2.cover.length ≤ coverPool then some (0xE100 + 4 * x.1, x.2.cover.flatMap (toBytes 4)) else none) ++
  ((runningOffsets (fun x => x.2.payload.length) c.queued 0).filterMap fun x =>
    if x.1 + x.2.2.payload.length ≤ payloadPool then some (0xE900 + x.1, x.2.2.payload) else none) ++
  [(0xFBF0, sentBytes sent), (0xFFF8, toBytes 8 h)]

/-- Memory with a unit's save area written, but for its snapshot: the state as the trap left it and the handler has changed it (R222, R223). -/
def State.writeSave (s : State) (n a : Nat) (c : Core) (incrs : List Incr) (sent : List Nat) (h : Nat) : Memory :=
  let put (m : Memory) (o : Nat) (l : List (Nat × List Byte)) : Memory := l.foldl (fun m x => memPutN m (a + o + x.1) x.2) m
  let m := memClear s.mem (a + 0x18000) 0x289000
  let m := memCopy m (padKey n c.faceHalf 0) (a + 0x18000) 0x100000
  let m := memCopy m (padKey n c.shadowHalf 0) (a + 0x118000) 0x100000
  let m := memCopy m (codeKey n 0) (a + 0x218000) 0x40000
  let m := memCopy m (patKey n 0) (a + 0x258000) 0x4000
  let m := put m 0x25C000 (c.v.map fun x => (256 * x.1, toBytes 256 x.2.toNat))
  let m := put m 0x264000 (c.tiles.map fun x => (256 * x.1, toBytes 256 x.2.toNat))
  let m := put m 0x284000 (engineParts n c incrs sent h)
  let m := put m 0x294000 (lttBytes c.ltt)
  put m 0x298000 ((c.xfers.take 32).zipIdx.map fun x => (1152 * x.2, s.heldBytes c x.1))

/-- The transfers that wait at a stopped core, or for a unit that has vacated its own (R222, R252). -/
def State.waiting (s : State) : List Held :=
  (s.cores.flatMap fun x => x.2.xfers) ++ s.launches.flatMap fun x => x.2.away.flatMap fun w => w.2.held

/-- The numbers of the packets of a core, and of its transfers on their way, that have not performed (R242). -/
def State.sentBy (s : State) (n : Nat) : List Nat :=
  let mine (p : Packet) : Option Nat := p.sent.bind fun x => if x.1 = n then some x.2 else none
  let ev (i : Instr) : Option Nat := match i with | .coordinatePacket _ p => mine p | _ => none
  (s.flights.filterMap fun f => ev f.ev) ++ (s.waiting.filterMap fun h => ev h.ev) ++
    (s.txs.flatMap fun t => t.unacked.filterMap fun u => mine u.2)

/-- CTXSAVE's save area, complete in its last cycle; from then on no queued entry of the unit performs, and no increment of it is made
(R222, R257). -/
def State.ctxSave (s : State) (n : Nat) (a : Word) : State :=
  let c := s.core n
  let incrs := s.incrs.filter fun i => i.core = n && i.launch = c.launch
  let m := s.writeSave n a.toNat c incrs (s.sentBy n).eraseDups (s.saves.length + 1)
  let s1 := s.engineWrote c.partId.toNat (a.toNat + 0x18000) 0x289000 m
  { s1.setCore n { c with saved := some (min 32 c.xfers.length) } with saves := s.saves ++ [⟨(n, c), none, incrs⟩] }

/-! ## Restoring (R224, R258 to R260) -/

/-- An LTT read back from a save area. -/
def readLtt (m : Memory) (a : Nat) : Map (BitVec 128) :=
  (List.range 1024).filterMap fun i =>
    let e := memNat m (a + 0x294000 + 16 * i) 16
    if e = 0 then none else some (i, BitVec.ofNat 128 e)

/-- A save area read into a core's registers, tables and queues; `o` is what the save named in it held. The LTT changes with the end of the
cycle (R223, R224, R226). -/
def readSave (m : Memory) (a n : Nat) (o : Option Core) (c : Core) : Core :=
  let vec (o : Nat) (k : Nat) : Map Vec := (List.range k).map fun i => (i, BitVec.ofNat 2048 (memNat m (a + o + 256 * i) 256))
  let f (o k : Nat) : Nat := memNat m (a + 0x284000 + o) k
  let rec_ (o size i : Nat) : List Byte := memGetN m (a + 0x284000 + o + size * i) size
  let table {α : Type} (o size k : Nat) (g : List Byte → Option α) : Map α := (List.range k).filterMap fun i => (g (rec_ o size i)).map fun x => (i, x)
  let old := o.getD Core.reset
  let entries : List (Nat × QEntry) := (List.range 64).filterMap fun i =>
    readEntry (memGetN m (a + 0x284000 + 0xE900) payloadPool) (rec_ 0xBD00 128 i) (old.qa ++ old.qb ++ old.nt)
  -- entries beyond those of the engine part have no bytes
  let more := ((old.qa.map fun e => (0, e)) ++ (old.qb.map fun e => (1, e)) ++ old.nt.map fun e => (2, e)).drop 64
  let queue (k : Nat) : List QEntry := ((entries ++ more).filter fun x => x.1 == k).map Prod.snd
  { c with
    v := vec 0x25C000 128
    tiles := vec 0x264000 512
    k := (List.range 7).map fun i => (i + 1, BitVec.ofNat 256 (f (32 * (i + 1)) 32))
    tilePend := BitVec.ofNat 8 (f 0x100 1), parity := (f 0x101 1).testBit 0, swapped := (f 0x101 1).testBit 1
    owned := BitVec.ofNat 16 (f 0x102 2), owners := BitVec.ofNat 32 (f 0x104 4), epoch := f 0x108 8
    sq := (List.range (f 0x110 8)).map fun i => BitVec.ofNat 640 (f (0x200 + 80 * i) 80)
    stopped := if (f 0x101 1).testBit 2 then some (f 0x118 8, f 0x120 8) else none
    nextUid := max c.nextUid (f 0x128 8)
    assay := table 0x2A00 4224 4 fun b => (parseImage b).filter fun x => x.kind != 0
    reheat := (List.range 8).filterMap fun r => (readReheat (rec_ 0x6C00 0x600 r) (Map.get? old.reheat r)).map fun g => (r, g)
    landing := table 0x9C00 0x48 16 readLMap
    routes := table 0xA100 32 32 fun b => if ofBytes b = 0 then none else some (BitVec.ofNat 256 (ofBytes b))
    strays := (List.range 4).filterMap fun i => readStray (rec_ 0xA500 32 i)
    bgroups := table 0xA600 0x80 8 readBGroup
    agroups := table 0xAA00 0x210 8 readAGroup
    events := c.events ++ (List.range 21).filterMap fun i => readTrap (rec_ 0xBB00 24 i)
    qa := queue 0, qb := queue 1, nt := queue 2
    xfers := ((List.range 32).filterMap fun i => readHeld n (memGetN m (a + 0x298000 + 1152 * i) 1152)) ++ c.xfers
    lttDue := c.lttDue ++ [.all (readLtt m a)] }

/-- A packet's sender renamed when the unit that sent it moves: one of that unit's launch and node, of the numbers that move (R257). -/
def renameSent (c : Core) (old new : Nat) (pick : Nat → Bool) (p : Packet) : Packet :=
  if p.part = c.partId.toNat && p.ctx == c.launchId.extractLsb' 0 16 && p.src = c.node then
    { p with sent := p.sent.map fun x => if x.1 = old && pick x.2 then (new, x.2) else x }
  else p

/-- A transfer with its sender renamed. -/
def renameEv (f : Packet → Packet) (ev : Instr) : Instr :=
  match ev with
  | .coordinatePacket node p => .coordinatePacket node (f p)
  | ev => ev

/-- A queued packet with its sender renamed. -/
def renameEntry (f : Packet → Packet) (e : QEntry) : QEntry := match e.kind with | .packet p => { e with kind := .packet (f p) } | _ => e

/-- Packets in flight, held or not yet acknowledged that a moved unit sent stay its own, those that `pick` names, and so do those of its own
queues; those of other units that ran on its core before it are not touched (R242, R257, R297). `c` is the unit's core. -/
def State.renameFlights (s : State) (c : Core) (old new : Nat) (pick : Nat → Bool) : State :=
  let out := renameSent c old new pick
  let own := renameEntry (renameSent c old new fun _ => true)
  { s with
    flights := s.flights.map fun f => if f.launch = c.launch then { f with ev := renameEv out f.ev } else f
    cores := s.cores.map fun x =>
      let d := if x.1 = new then { x.2 with qa := x.2.qa.map own, qb := x.2.qb.map own } else x.2
      (x.1, { d with xfers := d.xfers.map fun h => { h with ev := renameEv out h.ev } })
    launches := s.launches.map fun x => (x.1, { x.2 with away := x.2.away.map fun w =>
      (w.1, { w.2 with held := w.2.held.map fun h => { h with ev := renameEv out h.ev } }) })
    txs := s.txs.map fun t => { t with unacked := t.unacked.map fun u => (u.1, out u.2) } }

/-- The P bit of an LTT entry. -/
def lttSetP (e : BitVec 128) (b : Bool) : BitVec 128 := (e &&& ~~~(1#128 <<< 39)) ||| (if b then 1#128 <<< 39 else 0)

/-- The late fault of a reader of system-physical bytes of which some are poisoned, with the first such word or granule (R256, R285). -/
def State.poisonTrap (s : State) (a z : Nat) : Option Trap :=
  ((s.poison.filter fun p => decide (p < a + z) && decide (a < p + (granule p).2)).min?).map fun p => ⟨cECC, 9, true, BitVec.ofNat 64 (max a p), 0⟩

/-- The late fault of a CTXSAVE that reads a poisoned word of the scratchpads: FVAL is the word's place in the save area (R223, R256, R285;
DESIGN CHOICE, log entry 70). -/
def State.savePoison (s : State) (n : Nat) (a : Word) : Option Trap :=
  let c := s.core n
  [(padKey n c.faceHalf 0, 0x18000, 0x100000), (padKey n c.shadowHalf 0, 0x118000, 0x100000), (codeKey n 0, 0x218000, 0x40000),
    (patKey n 0, 0x258000, 0x4000)].findSome? fun x =>
      (s.poisonTrap x.1 x.2.2).map fun t => { t with fval := a + BitVec.ofNat 64 x.2.1 + (t.fval - BitVec.ofNat 64 x.1) }

/-- The late fault of a CTXREST that reads a poisoned granule of the parts it restores: all but the snapshot, the face bank too in lazy mode;
in page mode the page alone (R224, R256, R285). -/
def State.restPoison (s : State) (n : Nat) (a : Word) (mode : Nat) (page : Word) : Option Trap :=
  match mode with
  | 0 => s.poisonTrap (a.toNat + 0x18000) 0x289000
  | 1 => s.poisonTrap (a.toNat + 0x118000) 0x189000
  | _ =>
    match (s.core n).lookup page.toNat with
    | none => none
    | some (_, e) => s.poisonTrap (a.toNat + 0x18000 + lttFRAME e % 0x100000) (pageBytes (lttPSIZE e))

/-- Poison of a core's memories that a restore writes anew, whole words (R286). -/
def restored (n : Nat) (c : Core) (lazy_ : Bool) (l : List Nat) : List Nat :=
  let l := clearPoison (clearPoison (clearPoison l (padKey n c.shadowHalf 0) 0x100000) (codeKey n 0) 0x40000) (patKey n 0) 0x4000
  if lazy_ then l else clearPoison l (padKey n c.faceHalf 0) 0x100000

/-- CTXREST in full or lazy mode; the new LTT is seen from the next cycle on (R224, R226, R259). -/
def State.restAll (s : State) (n : Nat) (a : Word) (lazy_ : Bool) : State :=
  let sv := s.savedBy (memNat s.mem (a.toNat + 0x293FF8) 8)
  let c := readSave s.mem a.toNat n (sv.map fun v => v.core.2) (s.core n)
  let m := memCopy s.mem (a.toNat + 0x118000) (padKey n c.shadowHalf 0) 0x100000
  let m := memCopy m (a.toNat + 0x218000) (codeKey n 0) 0x40000
  let m := memCopy m (a.toNat + 0x258000) (patKey n 0) 0x4000
  let m := if lazy_ then m else memCopy m (a.toNat + 0x18000) (padKey n c.faceHalf 0) 0x100000
  let absent (e : Nat × BitVec 128) : Bool := e.1 < 64 && lttV e.2
  let table := readLtt s.mem a.toNat
  let c := if lazy_ then
      { c with
        lttDue := c.lttDue ++ [.all (table.map fun e => if absent e then (e.1, lttSetP e.2 false) else e)]
        lazyPages := BitVec.ofNat 64 (packNat 1 64 fun i => if table.any fun e => e.1 == i && absent e then 1 else 0) }
    else { c with lazyPages := 0 }
  let old := (sv.map Saved.incrs).getD []
  let at_ := a.toNat + 0x284000
  let incrs := ((List.range 64).filterMap fun i => readIncr s.mem (at_ + 0xE100) n c.partId.toNat c.launch old[i]? (memGetN s.mem (at_ + 0xDD00 + 16 * i) 16)) ++
    (old.drop 64).map fun (i : Incr) => { i with core := n }
  let given : List (Nat × Vec × Word) := (List.range 32).filterMap fun i => readResult (memGetN s.mem (a.toNat + 0x298000 + 1152 * i) 1152)
  let s1 := { s.setCore n c with
    mem := m, poison := restored n c lazy_ s.poison, incrs := s.incrs ++ incrs
    colls := s.colls.map fun (k : Nat × Coll) => match given.find? fun (g : Nat × Vec × Word) => g.1 == k.1 with
      | some (_, v) => (k.1, { k.2 with given := Map.put k.2.given n v })
      | none => k }
  s1.renameFlights c (memNat s.mem (a.toNat + 0x284130) 8) n (sentIn s.mem (a.toNat + 0x293BF0))

/-- CTXREST in page mode: the face page that covers an address (R224). -/
def State.restPage (s : State) (n : Nat) (a b : Word) : State :=
  let c := s.core n
  match c.lookup b.toNat with
  | none => s
  | some (i, e) =>
    let off := lttFRAME e % 0x100000
    { s.setCore n { c with
        lttDue := c.lttDue ++ [.put i (lttSetP e true)]
        lazyPages := c.lazyPages &&& ~~~(1#64 <<< i) } with
      mem := memCopy s.mem (a.toNat + 0x18000 + off) (padKey n c.faceHalf off) (pageBytes (lttPSIZE e))
      poison := clearPoison s.poison (padKey n c.faceHalf off) (pageBytes (lttPSIZE e)) }

/-- CTXREST's effect in the last cycle of its time. -/
def State.ctxRest (s : State) (n : Nat) (a : Word) (mode : Nat) (page : Word) : State :=
  if mode = 2 then s.restPage n a page else s.restAll n a (mode = 1)

end Sys2Proof.Machine
end

