-- ==== Sys2Proof/Machine/Elements.lean ====
section
/-! DEFINITION. The macro-instructions under way: the elements that a cycle performs, with their late faults (R19, R137, R145, R157,
R165, R166, R191, R192, R197, R206, R227, R316 to R318). -/

namespace Sys2Proof.Machine

open Sys2Proof

/-! ## Writes of a cycle (R118) -/

/-- Runs of bytes to be written from a key on: the bytes marked, in maximal runs. -/
def byteRuns (k : Nat) (l : List (Bool × Byte)) : List (Nat × List Byte) :=
  match l with
  | [] => []
  | (false, _) :: r => byteRuns (k + 1) r
  | (true, b) :: r =>
    match byteRuns (k + 1) r with
    | [] => [(k, [b])]
    | (j, x) :: t => if j = k + 1 then (k, b :: x) :: t else (k, [b]) :: (j, x) :: t

/-- A write joined to those of the cycle. -/
def State.write (s : State) (n seq slot key : Nat) (l : List Byte) (collides : Bool) : State :=
  { s with wq := s.wq ++ [⟨n, seq, slot, key, l, none, collides, false⟩] }

/-- A write at an address that the checks have passed; a range may cross pages. -/
def State.writeAt (s : State) (n seq slot : Nat) (ea : Word) (l : List Byte) (collides : Bool) : State :=
  let c := s.core n
  (pageStarts ea.toNat l.length).foldl (fun s p =>
    s.write n seq slot (c.keyOf n p) ((l.drop (p - ea.toNat)).take (0x4000 - p % 0x4000)) collides) s

/-- The late fault of an access that consumes an uncorrectable error (R256, R285). -/
def State.ecc (s : State) (n : Nat) (ea : Word) (len : Nat) : Option Trap :=
  if s.poison.isEmpty then none
  else
    let c := s.core n
    if (pageStarts ea.toNat len).any fun p => s.poisoned (c.keyOf n p) (min (0x4000 - p % 0x4000) (ea.toNat + len - p)) then
      some ⟨cECC, 9, true, ea, 0⟩
    else none

/-- A late fault of a macro-instruction. -/
def lateTrap (code slot : Nat) (fval felem : Nat) : Trap := ⟨code, slot, true, BitVec.ofNat 64 fval, BitVec.ofNat 64 felem⟩

/-- A result joined to the delay lines for a macro-instruction: its issue order and slot are the macro's, and it counts (R20). -/
def Core.itemFor (c : Core) (m : Macro) (lat : Nat) (acts : List Act) : Core :=
  { c with ctx := { c.ctx with items := c.ctx.items ++ [⟨c.ctx.clk + lat, m.seq, m.slot, true, false, m.uid, acts⟩] } }

/-- What a step of a macro-instruction leaves: the package, the macro, and a late fault that stopped it. -/
abbrev MStep := State × Macro × Option Trap

/-! ## Gathers and scatters (R136, R137) -/

/-- One element of a gather or scatter: its late fault, if any. -/
def elemFault (s : State) (n : Nat) (m : Macro) (base : Word) (offs : Vec) (cluster rd : Bool) (i : Nat) : Option Trap :=
  let c := s.core n
  let ea := base + BitVec.ofNat 64 (laneNat offs i 32)
  match c.check n ea 4 4 rd (!rd) [if cluster then .cluster else .face] with
  | some (code, _) => some ⟨code, m.slot, true, ea, BitVec.ofNat 64 i⟩
  | none => if rd then s.ecc n ea 4 else none

/-- Elements of a gather, ascending, up to a failing one. -/
def gatherElems (m0 : Memory) (s : State) (n : Nat) (m : Macro) (base : Word) (offs : Vec) (mask : BitVec 64) (zero cluster : Bool)
    (l : List Nat) (acc : Vec) (got : BitVec 64) : Vec × BitVec 64 × Option (Nat × Trap) :=
  match l with
  | [] => (acc, got, none)
  | i :: r =>
    if !(mask.getLsbD i) then gatherElems m0 s n m base offs mask zero cluster r acc (if zero then got ||| (1#64 <<< i) else got)
    else
      match elemFault s n m base offs cluster true i with
      | some t => (acc, got, some (i, t))
      | none =>
        let v := (s.core n).loadNat m0 n (base + BitVec.ofNat 64 (laneNat offs i 32)) 4
        gatherElems m0 s n m base offs mask zero cluster r (acc ||| (BitVec.ofNat 2048 v <<< (32 * i))) (got ||| (1#64 <<< i))

/-- Elements of a scatter, ascending, up to a failing one. -/
def scatterElems (s : State) (n : Nat) (m : Macro) (base : Word) (offs data : Vec) (mask : BitVec 64) (cluster : Bool)
    (l : List Nat) : State × Option (Nat × Trap) :=
  match l with
  | [] => (s, none)
  | i :: r =>
    if !(mask.getLsbD i) then scatterElems s n m base offs data mask cluster r
    else
      match elemFault s n m base offs cluster false i with
      | some t => (s, some (i, t))
      | none =>
        scatterElems (s.writeAt n m.seq m.slot (base + BitVec.ofNat 64 (laneNat offs i 32)) (toBytes 4 (laneNat data i 32)) cluster)
          n m base offs data mask cluster r

/-- The elements of the group that the next element stands in, `k` to a group. -/
def groupOf (m : Macro) (k : Nat) : List Nat :=
  (List.range (min m.total (k * (m.next / k) + k) - m.next)).map fun i => m.next + i

/-! ## Assay work (R145, R157 to R159) -/

/-- The lanes of an update that fall due. -/
def assayStep (s : State) (n : Nat) (m : Macro) (k : Nat) (u : AUpd) (draws : Nat) : State × Macro :=
  let c := s.core n
  let hi := min m.total (16 * (m.next / 16) + 16)
  let w := applyLanes u m.next hi ⟨c.assayStored k, u.rng, draws, false⟩
  let c1 := { c with assay := Map.put c.assay k w.a }.onSys fun x => if w.ovf then { x with hovf := x.hovf ||| (1#4 <<< k) } else x
  (s.setCore n c1, { m with next := hi, work := .assay k u w.j })

/-- ASMRG's effect at c+40 (R158, R159). -/
def Core.asMerge (c : Core) (k : Nat) (img : List Byte) (rng : Vec) : Core :=
  match mergeImage ⟨c.assayStored k, rng, 0, false⟩ img with
  | none => c.onSys fun x => { x with badimg := x.badimg ||| (1#4 <<< k) }
  | some w =>
    { c with assay := Map.put c.assay k w.a }.onSys fun x => if w.ovf then { x with hovf := x.hovf ||| (1#4 <<< k) } else x

/-! ## Reheat work (R165, R166) -/

/-- A row of a signature, or its decision (R165, R285). -/
def rhsigStep (m0 : Memory) (s : State) (n : Nat) (m : Macro) (r t : Nat) (addr : Word) (sums : List Fv) (mx : Fv)
    (old : List (BitVec 32)) : MStep :=
  let c := s.core n
  match Map.get? c.reheat r with
  | none => (s, { m with next := m.total }, none)
  | some g =>
    let rec_ := BitVec.ofNat 64 (rhSIG g.desc + 72 * t)
    if m.next < 64 then
      let old := if m.next = 0 then (List.range 17).map fun i => BitVec.ofNat 32 (c.loadNat m0 n (rec_ + BitVec.ofNat 64 (4 * i)) 4) else old
      let at_ := addr + BitVec.ofNat 64 (m.next * rhSTRIDE g.desc)
      let len := 64 * (rhElem g.desc).2
      match ((if m.next = 0 then s.ecc n rec_ 72 else none).toList ++ (s.ecc n at_ len).toList).head? with
      | some t => (s, m, some t)
      | none =>
        let (s1, x1) := rhRow g.desc m.next (c.loadBytes m0 n at_ len) sums mx
        (s, { m with next := m.next + 1, work := .rhsig r t addr s1 x1 old }, none)
    else
      let sg := rhSignature sums mx
      let skip := rhSkip g t sg old
      let s1 := s.setCore n { c with reheat := Map.put c.reheat r (g.setSkip t skip) }
      (if skip then s1 else s1.writeAt n m.seq m.slot rec_ (rhRecord sg) false, { m with next := 65 }, none)

/-- 128 entries of the output list (R166). -/
def rhlistStep (s : State) (n : Nat) (m : Macro) (r : Nat) (out : Word) (tiles : List Nat) : State × Macro :=
  let c := s.core n
  let tiles := if m.next = 0 then ((Map.get? c.reheat r).map rhTiles).getD [] else tiles
  let part := (tiles.drop (128 * m.next)).take 128
  (s.writeAt n m.seq m.slot (out + BitVec.ofNat 64 (256 * m.next)) (part.flatMap fun t => toBytes 2 t) false,
    { m with next := m.next + 1, work := .rhlist r out tiles })

/-! ## Copy work (R191, R192, R197, R206) -/

/-- One scale entry from its 88 bytes; the first bad word, if any (R37). -/
def scaleEntry (l : List Byte) : BitVec 640 × Option Nat :=
  let word (i : Nat) : Nat := imgField l (4 * i) 4
  (BitVec.ofNat 640 (packNat 10 64 fun j => (word (j / 3) >>> (10 * (j % 3))) % 1024),
    (List.range 22).find? fun i => 2 ^ 30 ≤ word i)

/-- Entries landed, ascending, up to a bad one. -/
def scldLand (c : Core) (m : Macro) (addr : Word) (l : List (Nat × List Byte)) : Core × Nat × Option Trap :=
  match l with
  | [] => (c, m.next, none)
  | (i, b) :: r =>
    match (scaleEntry b).2 with
    | some w => (c, i, some (lateTrap cFORMAT m.slot (addr.toNat + 88 * i + 4 * w) (3 * w)))
    | none =>
      let (c1, _, t) := scldLand { c with sq := c.sq ++ [(scaleEntry b).1] } m addr r
      (c1, (match t with | some _ => (scldLand { c with sq := c.sq ++ [(scaleEntry b).1] } m addr r).2.1 | none => i + r.length + 1), t)

/-- SCLD in one cycle: up to four entries read, up to four landed (R191). -/
def scldStep (m0 : Memory) (s : State) (n : Nat) (m : Macro) (addr : Word) (cnt : Nat) (read : List (List Byte)) : MStep :=
  let c := s.core n
  let clk := c.ctx.clk
  let due := ((groupOf m 4).zip read).filter fun x => decide (m.start + 6 + x.1 / 4 ≤ clk)
  let (c1, next, t) := scldLand c m addr due
  match t with
  | some t => (s.setCore n c1, { m with next := next, work := .scld addr cnt [] }, some t)
  | none =>
    let read := read.drop due.length
    let from_ := m.next + due.length + read.length
    let more := ((List.range 4).map fun i => from_ + i).filter fun i =>
      decide (i < cnt) && decide (i / 4 = from_ / 4) && decide (m.start + 4 + i / 4 ≤ clk)
    let bytes := more.map fun i => c.loadBytes m0 n (addr + BitVec.ofNat 64 (88 * i)) 88
    match more.findSome? fun i => s.ecc n (addr + BitVec.ofNat 64 (88 * i)) 88 with
    | some t => (s.setCore n c1, { m with next := m.next + due.length, work := .scld addr cnt read }, some t)
    | none => (s.setCore n c1, { m with next := m.next + due.length, work := .scld addr cnt (read ++ bytes) }, none)

/-- The bytes that PUSH writes for a block, and whether it was trimmed; PULL's expanded block, empty where a condition of R280
fails. -/
def swageBlock (push : Bool) (cls fmt : Nat) (mark : Word) (l : List Byte) : List Byte × Bool :=
  if cls = 0 then (l.take 4096, false)
  else if push then compress cls fmt l
  else ((expand cls (l.take (slotBytes cls - 8)) (imgField l 0xFF8 8) mark.toNat).getD [], false)

/-- PULL and PUSH in one cycle: a block written, then a block read (R192, R276, R280). -/
def swageStep (m0 : Memory) (s : State) (n : Nat) (m : Macro) (push : Bool) (fa ca : Word) (cnt cls fmt : Nat)
    (read : List (Nat × List Byte)) : MStep :=
  let c := s.core n
  let clk := c.ctx.clk
  let d := blockCycles cls
  let mk (r : List (Nat × List Byte)) : Work := if push then .push fa ca cnt cls fmt r else .pull fa ca cnt cls fmt r
  let at_ (a : Word) (b : Nat) : Word := a + BitVec.ofNat 64 (4096 * b)
  let bad := read.find? fun x => decide (m.start + 20 + (x.1 + 1) * d ≤ clk) && !push && x.2.isEmpty
  match bad with
  | some x => (s, { m with next := x.1, work := mk (read.filter fun y => decide (y.1 < x.1)) },
      some (lateTrap cFORMAT m.slot (at_ ca x.1).toNat x.1))
  | none =>
    let due := read.filter fun x => decide (m.start + 20 + (x.1 + 1) * d ≤ clk)
    let s1 := due.foldl (fun s x =>
      if push then
        let (l, tr) := swageBlock true cls fmt s.sramMark x.2
        let s1 := s.writeAt n m.seq m.slot (at_ ca x.1) l false
        let s2 := if cls = 0 then s1 else s1.writeAt n m.seq m.slot (at_ ca x.1 + 0xFF8) (toBytes 8 s.sramMark.toNat) false
        if tr then s2.onCore (hwCore n) fun c => c.onSys Ctx.countTrim else s2
      else s.writeAt n m.seq m.slot (at_ fa x.1) x.2 false) s
    let read := read.filter fun x => !(decide (m.start + 20 + (x.1 + 1) * d ≤ clk))
    if m.next < cnt && decide (m.start + 2 + m.next * d ≤ clk) then
      let src := at_ (if push then fa else ca) m.next
      -- a compressed PULL reads its slot but the last 8 bytes, and the word at 0xFF8 (R280)
      let bad := if push || cls = 0 then s.ecc n src 4096
        else ((s.ecc n src (slotBytes cls - 8)).toList ++ (s.ecc n (src + 0xFF8) 8).toList).head?
      match bad with
      | some t => (s1, { m with work := mk read }, some { t with fval := src })
      | none =>
        let raw := c.loadBytes m0 n src 4096
        let l := if push then raw else (swageBlock false cls fmt s.sramMark raw).1
        (s1, { m with next := m.next + 1, work := mk (read ++ [(m.next, l)]) }, none)
    else (s1, { m with next := if read.isEmpty && decide (cnt ≤ m.next) then m.total else m.next, work := mk read }, none)

/-- The header of a packet that a core sends, for a destination (R310). -/
def packetOf (s : State) (n uid : Nat) (fmt : Nat) (tag : BitVec 16) (parity : Bool) (k : Cut) (dkind dest : Nat)
    (payload : List Byte) : Packet :=
  let c := s.core n
  { part := c.partId.toNat, ctx := c.launchId.extractLsb' 0 16, tag := tag, fmt := BitVec.ofNat 4 fmt, parity := parity
    dkind := dkind, src := c.node, dest := dest, spkg := 0, origin := k.origin
    mask := if dkind = 4 then BitVec.ofNat 64 (byteField k.route 0x18 8) else 0
    count := k.count, payload := payload, bad := 0, sent := some (n, uid), num := k.num, frame := none }

/-- A packet's entry joins its slot's queue: at its end, but before the entries that a QFENCE after its CXSEND put behind it (R234, R237). -/
def joinPacket (e : QEntry) (q : List QEntry) : List QEntry :=
  q.takeWhile (fun x => decide (x.epoch ≤ e.epoch)) ++ e :: q.dropWhile fun x => decide (x.epoch ≤ e.epoch)

/-- A packet whose flits have been read goes on its way: to a core or cluster SRAM at its tick, to device memory through its slot's
queue with the fence epoch of its CXSEND (R109, R197, R234). A multicast packet is copied where the paths to its destinations part; the
mask of each copy keeps the destination that it serves, and every one takes its own h (R308). -/
def launchPacket (s : State) (n : Nat) (m : Macro) (fmt : Nat) (tag : BitVec 16) (parity : Bool) (epoch : Nat) (k : Cut)
    (payload : List Byte) : State :=
  let c := s.core n
  match s.launchOf c with
  | none => s
  | some l =>
    let kind := rtKIND k.route
    let node := rtNODE k.route
    if kind = 3 then
      let p := packetOf s n m.uid fmt tag parity k 3 node payload
      s.setCore n { c.setQueue m.slot (joinPacket ⟨c.nextUid, m.slot, .packet p, 0, epoch, none, none, false, c.depth⟩ (c.queue m.slot)) with
        nextUid := c.nextUid + 1 }
    else
      let p := packetOf s n m.uid fmt tag parity k kind node payload
      let copies := if kind = 4
        then ((List.range 64).filter p.mask.getLsbD).map fun i => { p with mask := 1#64 <<< i }
        else [p]
      s.setCore n (copies.foldl (fun c q =>
        let path := l.path (c.node / 8) (pktNode q / 8)
        let dest := if kind = 2 then l.cluster (pktNode q / 8) else l.coreOf (pktNode q)
        { c with emits := c.emits ++ [.flight (s.tickOf c + 17 + 4 * path.length) path (.coordinatePacket dest q)] }) c)

/-- A flit of a cut list read: the flit, its packet, and the bytes it carries. -/
def flitOf (esz : Nat) (addr : Word) (cuts : List Cut) (k : Nat) : Option (Cut × Word × Nat × Bool) :=
  (cuts.find? fun x => x.first ≤ k && decide (k < x.first + x.flits)).map fun x =>
    let b := k - x.first - 1
    let len := if k = x.first then 0 else min 64 (x.count * esz - 64 * b)
    (x, addr + BitVec.ofNat 64 (esz * x.elem + 64 * b), len, k + 1 == x.first + x.flits)

/-- CXSEND and SCTPUT in one cycle: a flit read, and a packet sent with its last (R197, R317). -/
def flitStep (m0 : Memory) (s : State) (n : Nat) (m : Macro) (addr : Word) (fmt : Nat) (cuts : List Cut) (data : List Byte)
    (mk : List Byte → Work) (send : State → Cut → List Byte → State) : MStep :=
  let c := s.core n
  match flitOf (elemBytes fmt) addr cuts m.next with
  | none => (s, { m with next := m.total }, none)
  | some (k, a, len, last) =>
    match (if len = 0 then none else s.ecc n a len) with
    | some t => (s, m, some t)
    | none =>
      let l := data ++ (if len = 0 then [] else c.loadBytes m0 n a len)
      (if last then send s k l else s, { m with next := m.next + 1, work := mk (if last then [] else l) }, none)

/-- The element address of a cell of CXTILE, none outside the map's window (R206). -/
def cxtileCell (d : BitVec 512) (esz : Nat) (origin : Word) (rd cd r q : Nat) : Option Int :=
  let x (i : Nat) : Nat := coordOf origin i + (if i = rd then r else 0) + (if i = cd then q else 0)
  let inside := (List.range 4).all fun i =>
    decide (x i ≤ 0xFFFF) && (if i < lmDIMS d then decide (lmLO d i ≤ x i) && decide (x i ≤ lmHI d i) else x i == 0)
  if inside then
    some ((List.range (lmDIMS d)).foldl (fun a i => a + esz * lmSTRIDE d i * ((x i : Int) - lmLO d i)) (lmBASE d))
  else none

/-- A row of CXTILE read (R206). -/
def cxtileStep (m0 : Memory) (s : State) (n : Nat) (m : Macro) (tile : Nat) (d : BitVec 512) (origin : Word) (rd cd fmt : Nat) : MStep :=
  let c := s.core n
  let esz := tileBytes fmt
  let cells := (List.range 64).map fun q => (cxtileCell d esz origin rd cd m.next q).map fun a => BitVec.ofInt 64 a
  let fault := cells.findSome? fun x => x.bind fun a =>
    match c.check n a esz esz true false [.face] with
    | some (code, v) => some (lateTrap code m.slot v.toNat (64 * m.next))
    | none => s.ecc n a esz
  match fault with
  | some t => (s, m, some t)
  | none =>
    let row := ofLanes 32 64 fun q =>
      match cells.getD q none with
      | some a => loadCell fmt (c.loadNat m0 n a esz)
      | none => 0
    (s.setCore n (c.itemFor m 2 [.tileRow tile m.next row (BitVec.allOnes 2048)]), { m with next := m.next + 1 }, none)

/-! ## LTTLD (R227) -/

/-- Whether an LTT entry image is bad for its index (R227). -/
def lttBad (i : Nat) (e : BitVec 128) : Bool :=
  let p := lttPSIZE e
  let size := if i < 64 then p == 0 else if i < 128 then p == 1 else decide (p ≤ 4)
  4 < p || 2 < lttGEOM e || 4 < lttCLASS e || 12 < lttFMT e || e.extractLsb' 0 38 != 0 || !size ||
    lttVPN e % pageBytes p != 0 || lttFRAME e % pageBytes p != 0

/-- Entries copied, ascending, up to a bad or a poisoned one, with the late fault; the checks of the next cycle are the first to see them
(R226, R227, R285). -/
def lttldElems (m0 : Memory) (s : State) (n : Nat) (m : Macro) (addr : Word) (e : Nat) (l : List Nat) (c : Core) :
    Core × Option (Nat × Trap) :=
  match l with
  | [] => (c, none)
  | i :: r =>
    let at_ := addr + BitVec.ofNat 64 (16 * (e + i))
    let x := BitVec.ofNat 128 (memNat m0 at_.toNat 16)
    if s.poisoned at_.toNat 16 then (c, some (i, ⟨cECC, 9, true, at_, 0⟩))
    else if lttBad (e + i) x then
      (c, some (i, ⟨cFORMAT, 0, true, Config.fvalOfNone (s.cyc * 768 + n), BitVec.ofNat 64 (e + i)⟩))
    else lttldElems m0 s n m addr e r { c with ctx := { c.ctx with items := c.ctx.items ++
      [⟨c.ctx.clk, m.seq, m.slot, false, true, m.uid, [.lttPut (e + i) x]⟩] } }

/-! ## Waybills (R316 to R318) -/

/-- The next entry to be read, if its cycle has come: the bytes as they stand at the start of the cycle (R316). -/
def wbRead (m0 : Memory) (n : Nat) (c : Core) (m : Macro) (addr : Word) (cnt read : Nat) : Option (BitVec 256) :=
  if cnt ≤ read then none
  else
    let e := BitVec.ofNat 256 (ofBytes (c.loadBytes m0 n (addr + BitVec.ofNat 64 (32 * read)) 32))
    if m.start + wbOFFSET e ≤ c.ctx.clk + 2 then some e else none

/-- The element count and format of an SCTPUT, if its operands are sound: its cut (R196, R317, R318). -/
def sctCuts (c : Core) (e : BitVec 256) : Option (Nat × List Cut) :=
  let a : Word := BitVec.ofNat 64 (wbADDR e)
  let fmt := c.pageFmt a
  let esz := elemBytes fmt
  let len := wbLEN e
  if esz = 0 || len = 0 || 2 ^ 20 < len || len % esz ≠ 0 || wbADDR e % esz ≠ 0 || 0xFFFF < coordOf (wbORIGIN e) 0 + len / esz - 1 then none
  else
    let per := 1024 / esz
    let total := len / esz
    some (fmt, numberCuts esz 0 ((List.range ((total + per - 1) / per)).map fun i =>
      ⟨i, 0, 0, per * i, min per (total - per * i), 0, (wbORIGIN e) + BitVec.ofNat 64 (per * i)⟩))

/-- The SCT peer entry of a core's partition at an index, if valid (R321). -/
def State.peerEntry (s : State) (part i : Nat) : Option (BitVec 256) :=
  ((Map.get? s.parts part).bind fun p => Map.get? p.peers i).bind fun e => if (byteField e 7 1).testBit 0 then some e else none

/-- The late fault of a waybill step, if any (R209, R318). -/
def wbFault (s : State) (n : Nat) (m : Macro) (e : BitVec 256) : Option Trap :=
  let c := s.core n
  let op := wbOP e
  let format : Option Trap := some ⟨cFORMAT, 7, true, Config.fvalOfNone (s.cyc * 768 + n), BitVec.ofNat 64 m.next⟩
  let face (rd wr : Bool) : Option Trap :=
    match c.check n (BitVec.ofNat 64 (wbADDR e)) 256 256 rd wr [.face] with
    | some (code, v) => if code = cCLASS || code = cALIGN || winOf (wbADDR e) != some .face then format
        else some ⟨code, 7, true, v, BitVec.ofNat 64 m.next⟩
    | none => none
  let inGroup := match s.launchOf c, Map.get? s.groups c.group with
    | some l, some g => l.inside (wbPARTNER e) && g.members.contains (l.coreOf (wbPARTNER e))
    | _, _ => false
  let sct := c.ctx.macros.any fun q => match q.work with | .sctput .. => true | _ => false
  if 8 < op || (List.range 6).any (fun i => byteField e (0x12 + i) 1 != 0) then format
  else if 1 ≤ op && op ≤ 6 && !inGroup then format
  else if 1 ≤ op && op ≤ 6 && (s.peerCore c (wbPARTNER e)).isNone then
    some ⟨cPEER, 7, true, BitVec.ofNat 64 (wbPARTNER e), BitVec.ofNat 64 m.next⟩
  else if op = 4 then (match face true false with | some t => some t | none => s.ecc n (BitVec.ofNat 64 (wbADDR e)) 256)
  else if op = 5 then face false true
  else if op = 6 then face true true
  else if op = 7 && 4 < wbARG e / 32 then format
  else if op = 8 then
    (if (s.peerEntry c.partId.toNat (wbPARTNER e)).isNone || 255 < wbPARTNER e || winOf (wbADDR e) != some .face then format
     else
       match sctCuts c e with
       | none => format
       | some _ =>
         match c.check n (BitVec.ofNat 64 (wbADDR e)) (wbLEN e) 1 true false [.face] with
         | some (code, v) => some ⟨code, 7, true, v, BitVec.ofNat 64 m.next⟩
         | none => if sct then some ⟨cII, 7, true, 7, 0⟩ else none)
  else none

/-- A waybill step performed; the reads of an SCTPUT are accesses of the WBRUN, of its issue `seq` (R108, R317). -/
def wbPerform (m0 : Memory) (s : State) (n seq : Nat) (e : BitVec 256) : State :=
  let c := s.core n
  let node := wbPARTNER e
  let ea : Word := BitVec.ofNat 64 (wbADDR e)
  let v := c.ctx.physV (wbARG e % 128)
  let take (r : Recv) : State := s.setCore n { c with recv := some (node, r) }
  let peer := (s.peerCore c node).getD n
  match wbOP e with
  | 1 => s.setCore n (s.sendVec node peer (Map.get c.v v 0) (fun k d => .directSend k c.node d 0) c)
  | 2 => take (.vec v)
  | 3 => take (.add v 0)
  | 4 => s.setCore n (s.sendVec node peer (BitVec.ofNat 2048 (ofBytes (c.loadBytes m0 n ea 256)))
      (fun k d => .waybillMemoryTransfer k c.node d 0) c)
  | 5 => take (.mem ea seq)
  | 6 => take (.addMem ea seq)
  | 7 => s.setCore n (c.incr n (wbARG e % 32) 1 (wbARG e / 32))
  | 8 =>
    match sctCuts c e with
    | none => s
    | some (fmt, cuts) =>
      let m : Macro := ⟨7, seq, c.ctx.clk, 0, (cuts.map Cut.flits).sum, c.nextUid, .sctput ea (wbLEN e) node fmt (wbTAG e) c.parity cuts []⟩
      s.setCore n { c with ctx := { c.ctx with macros := c.ctx.macros ++ [m] }, nextUid := c.nextUid + 1 }
  | _ => s

/-- A waybill in one cycle: the entry whose cycle has come is read, and the step that falls due performs (R213, R316). `last` is the offset
of the last entry read and `prev` that of the last step performed; a step that faults is read again when the waybill goes on (R318). -/
def waybillStep (m0 : Memory) (s : State) (n : Nat) (m : Macro) (addr : Word) (cnt read last prev : Nat) (latched : List (BitVec 256)) :
    MStep :=
  let c := s.core n
  let next := wbRead m0 n c m addr cnt read
  let poison := if next.isSome then s.ecc n (addr + BitVec.ofNat 64 (32 * read)) 32 else none
  let (read1, last1, latched1, bad) : Nat × Nat × List (BitVec 256) × Bool :=
    match next with
    | some e => if wbOFFSET e ≤ last then (read, last, latched, latched.isEmpty) else (read + 1, wbOFFSET e, latched ++ [e], false)
    | none => (read, last, latched, false)
  let again : Work := .waybill addr cnt m.next prev prev []
  if let some t := poison then (s, { m with work := again }, some t)
  else if bad then (s, { m with work := again }, some ⟨cFORMAT, 7, true, Config.fvalOfNone (s.cyc * 768 + n), BitVec.ofNat 64 m.next⟩)
  else
    match latched1 with
    | [] => (s, { m with work := .waybill addr cnt read1 last1 prev [] }, none)
    | e :: r =>
      if c.ctx.clk < m.start + wbOFFSET e then (s, { m with work := .waybill addr cnt read1 last1 prev latched1 }, none)
      else
        match wbFault s n m e with
        | some t => (s, { m with work := again }, some t)
        | none =>
          let s1 := wbPerform m0 s n m.seq e
          (s1.onCore n fun c => { c with ctx := { c.ctx with wbAt := c.ctx.clk + 1 } },
            { m with next := m.next + 1, work := .waybill addr cnt read1 last1 (wbOFFSET e) r }, none)

/-! ## One step of any macro-instruction -/

/-- The cycles after its start at which a macro-instruction's next element falls due; those with reads and writes at two offsets,
and waybills, step every cycle. One issued with its progress register past its last element completes at the offset of that element (DESIGN
CHOICE, log entry 75). -/
def Macro.offset (m : Macro) : Nat :=
  match m.work with
  | .gather _ _ _ _ _ cl _ _ => (if cl then 10 else 2) + m.next / 4
  | .scatter _ _ _ _ cl => (if cl then 10 else 2) + m.next / 4
  | .assay _ (.cfg ..) _ => 6
  | .assay _ .clr _ => 6
  | .assay _ .free _ => 6
  | .assay .. => 2 + m.next / 16
  | .assv .. => 3 + m.next
  | .asmrg .. => 3 + m.next
  | .rhsig .. => if m.next < 64 then 3 + m.next else 70
  | .rhlist .. => 3 + m.next
  | .cxsend .. => 2 + m.next
  | .sctput .. => 2 + m.next
  | .cxtile .. => 2 + m.next
  | .lttld .. => 2 + m.next / 4
  | .scld .. => 0
  | .pull .. => 0
  | .push .. => 0
  | .waybill .. => 0

/-- The elements of a macro-instruction that this cycle performs. `m0` is memory at the start of the cycle. A gather or scatter whose progress
register says 64 or more performs no element and ends at the offset of that element (R137; DESIGN CHOICE, log entry 75). -/
def macroStep (m0 : Memory) (n : Nat) (s : State) (m : Macro) : MStep :=
  let c := s.core n
  if c.ctx.clk < m.start + m.offset then (s, m, none)
  else
    match m.work with
    | .gather base offs mask zero d cl acc got =>
      let (acc, got, t) := gatherElems m0 s n m base offs mask zero cl (groupOf m 4) acc got
      let w : Work := .gather base offs mask zero d cl acc got
      (match t with
       | some (i, t) => (s, { m with next := i, work := w }, some t)
       | none =>
         let next := m.next + (groupOf m 4).length
         let s1 := if next < m.total then s else
           s.setCore n { c with ctx := { c.ctx with items := c.ctx.items ++
             [⟨max (c.ctx.clk + 1) (m.start + (if cl then 30 else 20)), m.seq, m.slot, true, false, m.uid,
               [.setV d acc (laneMask 32 64 fun i => got.getLsbD i)]⟩] } }
         (s1, { m with next := next, work := w }, none))
    | .scatter base offs data mask cl =>
      (match scatterElems s n m base offs data mask cl (groupOf m 4) with
       | (s1, some (i, t)) => (s1, { m with next := i }, some t)
       | (s1, none) => (s1, { m with next := m.next + (groupOf m 4).length }, none))
    | .assay k u d => let (s1, m1) := assayStep s n m k u d; (s1, m1, none)
    | .assv k a =>
      let l := ((c.assayStored k).image.drop (256 * m.next)).take 256
      (s.writeAt n m.seq m.slot (a + BitVec.ofNat 64 (256 * m.next)) l false, { m with next := m.next + 1 }, none)
    | .asmrg k a img rng =>
      let o := 256 * m.next
      let len := min 256 (4224 - o)
      -- no fault after issue, of a poisoned word neither (R146)
      let img := img.take o ++ c.loadBytes m0 n (a + BitVec.ofNat 64 o) len ++ img.drop (o + len)
      let s1 := if m.next + 1 < m.total then s else
        s.setCore n { c with ctx := { c.ctx with items := c.ctx.items ++
          [⟨max (c.ctx.clk + 1) (m.start + 40), m.seq, m.slot, true, false, m.uid, [.asMerge k img rng]⟩] } }
      (s1, { m with next := m.next + 1, work := .asmrg k a img rng }, none)
    | .rhsig r t addr sums mx old => rhsigStep m0 s n m r t addr sums mx old
    | .rhlist r out tiles => let (s1, m1) := rhlistStep s n m r out tiles; (s1, m1, none)
    | .scld addr cnt read => scldStep m0 s n m addr cnt read
    | .pull fa ca cnt cls fmt read => swageStep m0 s n m false fa ca cnt cls fmt read
    | .push fa ca cnt cls fmt read => swageStep m0 s n m true fa ca cnt cls fmt read
    | .cxsend a fmt tag parity epoch cuts data =>
      flitStep m0 s n m a fmt cuts data (.cxsend a fmt tag parity epoch cuts) fun s k l => launchPacket s n m fmt tag parity epoch k l
    | .sctput a len peer fmt tag parity cuts data =>
      flitStep m0 s n m a fmt cuts data (.sctput a len peer fmt tag parity cuts) fun s k l =>
        s.onCore n fun c => { c with emits := c.emits ++ [.sct peer (packetOf s n m.uid fmt tag parity k 1 0 l)] }
    | .cxtile tile d o rd cd fmt => cxtileStep m0 s n m tile d o rd cd fmt
    | .waybill addr cnt read last prev latched => waybillStep m0 s n m addr cnt read last prev latched
    | .lttld addr e _ =>
      (match lttldElems m0 s n m addr e (groupOf m 4) c with
       | (c1, some (i, t)) => (s.setCore n c1, { m with next := i }, some t)
       | (c1, none) => (s.setCore n c1, { m with next := m.next + (groupOf m 4).length }, none))

end Sys2Proof.Machine
end

