-- ==== Sys2Proof/Machine/Tick.lean ====
section
/-! DEFINITION. The timed work of one cycle of a core: what its delay lines commit and perform, its macro-instructions and matrix
engine, the late faults among them, and the writes of the cycle in their order (spec/01 R11, R12, R20; spec/05 R118; spec/11 R231 to
R233; spec/12 R246, R247). -/

namespace Sys2Proof.Machine

open Sys2Proof

/-! ## Orders -/

/-- An element put into a list ordered by a key, behind those of the same key. -/
def ordInsert {α : Type} (key : α → Nat) (a : α) (l : List α) : List α :=
  match l with
  | [] => [a]
  | b :: r => if key a < key b then a :: b :: r else b :: ordInsert key a r

/-- A list ordered by a key; equal keys keep their order. -/
def ordSort {α : Type} (key : α → Nat) (l : List α) : List α := l.foldl (fun a x => ordInsert key x a) []

/-! ## What an item does (R4, R12, R20, R115 to R117, R135) -/

/-- A further item of the same instruction, due later. -/
def Core.later (c : Core) (i : Item) (lat : Nat) (counts eoc : Bool) (acts : List Act) : Core :=
  { c with ctx := { c.ctx with items := c.ctx.items ++ [⟨c.ctx.clk + lat, i.seq, i.slot, counts, eoc, i.uid, acts⟩] } }

/-- A row written into a tile is also what a load under way on it had before it (R13). -/
def QEntry.rowWritten (t r : Nat) (v m : Vec) (e : QEntry) : QEntry :=
  let put (old : List Vec) : List Vec := old.zipIdx.map fun x => if x.2 = r then (x.1 &&& ~~~m) ||| (v &&& m) else x.1
  match e.kind with
  | .tld k ea sr er ec f old => if k = t then { e with kind := .tld k ea sr er ec f (put old) } else e
  | .gather k b u er ec f la idx old => if k = t then { e with kind := .gather k b u er ec f la idx (put old) } else e
  | _ => e

/-- The receiving memory whose table a map instruction names: the core's own, or its cluster's (R200). -/
def mapDest (n : Nat) (cluster : Bool) : Dest := if cluster then .cluster (clusterOf n) else .core n

/-- MAPQ's word: state, drain count, tag, of a FREE slot too; all zero for a slot that no map has stood in (R201). -/
def mapWord (m : Option LMap) : Word :=
  match m with
  | none => 0
  | some m =>
    BitVec.ofNat 64 ((match m.st with | .free => 0 | .active => 1 | .draining => 2) + m.drain.toNat * 2 ^ 16 + lmTAG m.desc * 2 ^ 32)

/-- An ACTIVE slot drains, or becomes FREE with a retire event where nothing is to drain; with `now` at once (R200). -/
def State.mapDrain (s : State) (d : Dest) (slot : Nat) (now : Bool) : State :=
  match Map.get? (s.landTable d) slot with
  | none => s
  | some m =>
    if m.st == .free || (m.st == .draining && !now) then s
    else if now || m.drain = 0 then (s.putSlot d slot { m with st := .free }).retire d slot m.setter
    else s.putSlot d slot { m with st := .draining }

/-- MAPSET and MAPSWAP at the end of c+3 (R200). -/
def State.mapSet (s : State) (n m : Nat) (old : Option Nat) (cluster : Bool) (raw : BitVec 512) : State :=
  let d := mapDest n cluster
  let s1 := match old with
    | none => s
    | some o => if o = m then s else s.mapDrain d o false
  s1.putSlot d m ⟨raw, .active, BitVec.ofNat 16 (lmDRAIN raw), n⟩

/-- A trigger slot of the core's partition set or cleared (R214). -/
def State.setTrigger (s : State) (n t : Nat) (v : Option Trigger) : State :=
  match s.partOf (s.core n) with
  | none => s
  | some p =>
    let tr := match v with | some x => Map.put p.triggers t x | none => Map.del p.triggers t
    { s with parts := Map.put s.parts (s.core n).partId.toNat { p with triggers := tr } }

/-! ### Ranges on the face that pending work has still to access (R108) -/

/-- The face ranges of a pending action. -/
def Act.ranges (a : Act) : List (Nat × Nat) :=
  match a with
  | .load ea z _ _ _ => [(ea.toNat, z)]
  | .store ea z _ => [(ea.toNat, z)]
  | .atom ea _ _ _ _ _ => [(ea.toNat, 8)]
  | .vload ea .. => [(ea.toNat, 256)]
  | .vstore ea .. => [(ea.toNat, 256)]
  | .gatherList _ ea => [(ea.toNat, 256)]
  | .rtRead _ ea => [(ea.toNat, 32)]
  | .mapRead _ _ _ ea => [(ea.toNat, 64)]
  | .grpRead _ ea => [(ea.toNat, 520)]
  | .rhRead _ ea => [(ea.toNat, 64)]
  | .mcRead _ ea => [(ea.toNat, 256)]
  | .wbStore ea _ => [(ea.toNat, 256)]
  | .wbAdd ea _ => [(ea.toNat, 256)]
  | _ => []

/-- The face range that a waybill step accesses (R317). -/
def stepRanges (e : BitVec 256) : List (Nat × Nat) :=
  match wbOP e with
  | 4 => [(wbADDR e, 256)]
  | 5 => [(wbADDR e, 256)]
  | 6 => [(wbADDR e, 256)]
  | 8 => [(wbADDR e, wbLEN e)]
  | _ => []

/-- The source bytes of packets whose flits have still to be read. -/
def cutRanges (addr esz next : Nat) (cuts : List Cut) : List (Nat × Nat) :=
  (cuts.filter fun k => decide (next < k.first + k.flits)).map fun k =>
    let read := 64 * (next - k.first - 1)
    (addr + esz * k.elem + read, esz * k.count - read)

/-- The ranges that the rest of a macro-instruction accesses. A waybill's are its entries not yet read and the accesses of every step not yet
performed, of one whose entry is unread as the entry stands now. -/
def Macro.ranges (m0 : Memory) (n : Nat) (c : Core) (m : Macro) : List (Nat × Nat) :=
  let lanes (base : Word) (offs : Vec) (mask : BitVec 64) : List (Nat × Nat) :=
    (List.range 64).filterMap fun i =>
      if m.next ≤ i && mask.getLsbD i then some ((base + BitVec.ofNat 64 (laneNat offs i 32)).toNat, 4) else none
  match m.work with
  | .gather base offs mask .. => lanes base offs mask
  | .scatter base offs _ mask _ => lanes base offs mask
  | .assay .. => []
  | .assv _ a => [(a.toNat + 256 * m.next, 4224 - 256 * m.next)]
  | .asmrg _ a .. => [(a.toNat + 256 * m.next, 4224 - 256 * m.next)]
  | .rhsig r t a .. =>
    (match Map.get? c.reheat r with
     | some g => (rhSIG g.desc + 72 * t, 72) ::
         (List.range (64 - m.next)).map fun i => (a.toNat + (m.next + i) * rhSTRIDE g.desc, 64 * (rhElem g.desc).2)
     | none => [])
  | .rhlist _ out _ => [(out.toNat + 256 * m.next, 256 * (m.total - m.next))]
  | .scld a k read => [(a.toNat + 88 * (m.next + read.length), 88 * (k - m.next - read.length))]
  | .pull fa _ k _ _ read =>
    let b := match read with | x :: _ => x.1 | [] => m.next
    [(fa.toNat + 4096 * b, 4096 * (k - b))]
  | .push fa _ k .. => [(fa.toNat + 4096 * m.next, 4096 * (k - m.next))]
  | .cxsend a fmt _ _ _ cuts _ => cutRanges a.toNat (elemBytes fmt) m.next cuts
  | .sctput a _ _ fmt _ _ cuts _ => cutRanges a.toNat (elemBytes fmt) m.next cuts
  | .cxtile _ d o rd cd fmt =>
    (List.range (64 - m.next)).flatMap fun r => (List.range 64).filterMap fun q =>
      (cxtileCell d (tileBytes fmt) o rd cd (m.next + r) q).map fun a => (a.toNat, tileBytes fmt)
  | .waybill a k read _ _ latched =>
    let entry (i : Nat) : BitVec 256 := BitVec.ofNat 256 (ofBytes (c.loadBytes m0 n (a + BitVec.ofNat 64 (32 * (read + i))) 32))
    (a.toNat + 32 * read, 32 * (k - read)) :: (latched ++ (List.range (k - read)).map entry).flatMap stepRanges
  | .lttld .. => []

/-- The ranges that the rest of a product reads. -/
def MxRun.rest (r : MxRun) : List (Nat × Nat) :=
  (List.range (min 8 r.total - r.next)).flatMap fun i => r.rangesA (r.next + i) ++ r.rangesB (r.next + i)

/-- Whether a range touches one of the face banks of a mask (R262). -/
def touchesBanks (mask : BitVec 16) (x : Nat × Nat) : Bool :=
  (List.range 8).any fun i => mask.getLsbD i && decide (x.1 < 0x20000 * (i + 1)) && decide (0x20000 * i < x.1 + x.2) && decide (0 < x.2)

/-- Whether an access under way in a context, by an instruction issued no later than `seq`, still reaches a bank of a mask (R108). -/
def Ctx.reaches (m0 : Memory) (n : Nat) (x : Ctx) (c : Core) (seq : Nat) (mask : BitVec 16) : Bool :=
  (x.items.any fun i => decide (i.seq ≤ seq) && (i.acts.flatMap Act.ranges).any (touchesBanks mask)) ||
    (x.macros.any fun m => decide (m.seq ≤ seq) && (m.ranges m0 n c).any (touchesBanks mask)) ||
    x.mx.runs.any fun r => decide (r.start ≤ seq) && r.rest.any (touchesBanks mask)

/-- Whether an access by an instruction issued no later than `seq` still reaches a bank of a mask; all that the held context has under way was
issued before (R108). -/
def Core.reaches (m0 : Memory) (n : Nat) (c : Core) (seq : Nat) (mask : BitVec 16) : Bool :=
  c.ctx.reaches m0 n c seq mask || c.held.any fun x => x.reaches m0 n c x.clk mask

/-! ### The actions -/

/-- One action of an item that falls due. `m0` is memory at the start of the cycle, `b` the core as it stood then. -/
def commitAct (m0 : Memory) (b : Core) (n : Nat) (i : Item) (s : State) (a : Act) : State :=
  let c := s.core n
  let cluster (ea : Word) : Bool := winOf ea.toNat == some .cluster
  match a with
  | .setS r v => s.setCore n { c with ctx := c.ctx.putS r v }
  | .setP r v => s.setCore n { c with ctx := c.ctx.putP r v }
  | .setV r v m => s.setCore n (c.putV r v m)
  | .setK r v m => s.setCore n (c.putK r v m)
  | .tileRow t r v m =>
    s.setCore n { c.putTile t r v m with
      qa := c.qa.map (QEntry.rowWritten t r v m), qb := c.qb.map (QEntry.rowWritten t r v m), nt := c.nt.map (QEntry.rowWritten t r v m) }
  | .flags f => s.setCore n { c with ctx := c.ctx.orVstat f }
  | .load ea z sg d lat =>
    let v := c.loadNat m0 n ea z
    s.setCore n (c.later i lat true false [.setS d (if sg then BitVec.ofInt 64 (signed (8 * z) v) else BitVec.ofNat 64 v)])
  | .store ea z v => s.writeAt n i.seq i.slot ea (toBytes z v.toNat) (cluster ea)
  | .atom ea op v cmp d lat =>
    { s with wq := s.wq ++ [⟨n, i.seq, i.slot, c.keyOf n ea.toNat, [], some (op, v, cmp, d, lat), false, false⟩] }
  | .vload ea d m z =>
    let v : Vec := BitVec.ofNat 2048 (ofBytes (c.loadBytes m0 n ea 256))
    s.setCore n (c.later i 2 true false [.setV d (v &&& m) (m ||| z)])
  | .vstore ea v bytes =>
    (byteRuns (c.keyOf n ea.toNat) ((toBytes 256 v.toNat).zipIdx.map fun x => (bytes.getLsbD x.2, x.1))).foldl
      (fun s r => s.write n i.seq i.slot r.1 r.2 false) s
  | .bkrel mask =>
    if b.reaches m0 n i.seq mask then s.setCore n (c.later i 1 false false [.bkrel mask])
    else s.setCore n { c with owned := c.owned &&& ~~~mask }
  | .gatherList uid ea =>
    let idx := (List.range 64).map fun j => BitVec.ofNat 32 (c.loadNat m0 n (ea + BitVec.ofNat 64 (4 * j)) 4)
    let put (e : QEntry) : QEntry :=
      if e.uid = uid then
        match e.kind with
        | .gather t bs u er ec f la _ old => { e with kind := .gather t bs u er ec f la (some idx) old }
        | _ => e
      else e
    s.setCore n { c with qa := c.qa.map put, qb := c.qb.map put }
  | .rtRead e ea => s.setCore n (c.later i 1 false false [.rtPut e (BitVec.ofNat 256 (c.loadNat m0 n ea 32))])
  | .rtPut e raw => s.setCore n { c with routes := if rtKIND raw = 0 then Map.del c.routes e else Map.put c.routes e raw }
  | .mapRead m old cl ea => s.setCore n (c.later i 1 false true [.mapPut m old cl (BitVec.ofNat 512 (c.loadNat m0 n ea 64))])
  | .mapQ y m cl => s.setCore n { c with ctx := c.ctx.putS y (mapWord (Map.get? (s.landTable (mapDest n cl)) m)) }
  | .grpRead g ea => s.setCore n (c.later i 2 false false [.grpPut g (c.loadBytes m0 n ea 520)])
  | .grpPut g raw => s.setCore n { c with agroups := Map.put c.agroups g ⟨raw, 0, false⟩ }
  | .rhRead r ea => s.setCore n (c.later i 3 false false [.rhPut r (BitVec.ofNat 512 (c.loadNat m0 n ea 64))])
  | .rhPut r raw => s.setCore n (c.rhPut r raw)
  | .rhCount r d =>
    s.setCore n (c.later i 1 true false [.setS d (BitVec.ofNat 64 (((Map.get? c.reheat r).map fun g => (rhTiles g).length).getD 0))])
  | .rhStep r f => s.setCore n (c.rhStep r f)
  | .rhMap d r part => s.setCore n (c.later i 2 true false [.setV d (c.rhMap r part) (BitVec.allOnes 2048)])
  | .asMerge k img rng => s.setCore n (c.asMerge k img rng)
  | .armTime t v cc => s.setTrigger n t (some (.time v cc))
  | .armCounter t w v cc => s.setTrigger n t (some (.counter w v cc))
  | .disarm t => s.setTrigger n t none
  | .mcRead g ea =>
    let v : Vec := BitVec.ofNat 2048 (ofBytes (c.loadBytes m0 n ea 256))
    s.contribute n g v
  | .wbStore ea v => s.writeAt n i.seq i.slot ea (toBytes 256 v.toNat) false
  | .wbAdd ea v =>
    let old : Vec := BitVec.ofNat 2048 (ofBytes (c.loadBytes m0 n ea 256))
    s.setCore n (c.later i 2 true false [.wbStore ea (combine false 0 old v)])
  | .snapSave p => s.snapSave n p
  | .ctxSave p => s.ctxSave n p
  | .ctxRest p mode page => s.ctxRest n p mode page
  | .snapRest p => s.snapRest n p
  | .mapPut m old cl raw => s.mapSet n m old cl raw
  | .mapRet m cl now => s.mapDrain (mapDest n cl) m now
  | .mts .. => s
  | .snapRel => s
  | .loopStart .. => s
  | .loopExit => s
  | .lttInv .. => s
  | .lttPut i e => s.setCore n { c with lttDue := c.lttDue ++ [.put i e] }
  | .ctxDrain p => s.ctxDrain n p (c.ctx.clk + 1)

/-- The late fault of an item that falls due, if any: a descriptor it reads that is bad, or an uncorrectable error that it
consumes (R195, R200, R210, R164, R256). -/
def itemTrap (m0 : Memory) (s : State) (n : Nat) (i : Item) : Option Trap :=
  let c := s.core n
  let format (ea : Word) (o : Option Nat) : Option Trap := o.map fun x => ⟨cFORMAT, i.slot, true, ea, BitVec.ofNat 64 x⟩
  let both (ea : Word) (len : Nat) (o : Option Nat) : Option Trap :=
    match s.ecc n ea len with
    | some t => some t
    | none => format ea o
  i.acts.findSome? fun a =>
    match a with
    | .load ea z .. => s.ecc n ea z
    | .atom ea .. => s.ecc n ea 8
    | .vload ea .. => s.ecc n ea 256
    | .gatherList _ ea => s.ecc n ea 256
    | .mcRead _ ea => s.ecc n ea 256
    | .wbAdd ea _ => s.ecc n ea 256
    | .ctxSave p => s.savePoison n p
    | .ctxRest p mode page => s.restPoison n p mode page
    | .snapRest (some p) => s.poisonTrap p.toNat 0x18000
    | .rtRead _ ea =>
      both ea 32 (routeBad (fun x => ((s.launchOf c).map fun l => l.inside x).getD false) (BitVec.ofNat 256 (c.loadNat m0 n ea 32)))
    | .mapRead _ _ _ ea => both ea 64 (lmBad (BitVec.ofNat 512 (c.loadNat m0 n ea 64)))
    | .grpRead _ ea => both ea 520 (grBad (c.loadBytes m0 n ea 520))
    | .rhRead _ ea => both ea 64 (rhBad (BitVec.ofNat 512 (c.loadNat m0 n ea 64)))
    | _ => none

/-- What a late fault of an item leaves: RTSET's entry is invalid (R195). -/
def itemFailed (n : Nat) (s : State) (i : Item) : State :=
  i.acts.foldl (fun s a => match a with
    | .rtRead e _ => s.onCore n fun c => { c with routes := Map.del c.routes e }
    | _ => s) s

/-! ## Macro-instructions in a cycle (R19, R176, R231) -/

/-- A macro-instruction after its step: kept, or removed with its progress register at 0 once it is complete (R19). PROG_AS is 0 from an
ASMRG's last chunk on, its merge at c + 40 still to come (R146; DESIGN CHOICE, log entry 76). -/
def Core.stepped (c : Core) (m : Macro) : Core :=
  if m.next < m.total then { c with ctx := { c.ctx with macros := c.ctx.macros.map fun x => if x.uid = m.uid then m else x } }
  else
    let x := c.ctx.setProg m.prog (progMerge m.prog (c.ctx.progStored m.prog) 0)
    { c with ctx := { x with macros := c.ctx.macros.filter fun y => y.uid != m.uid } }

/-- Macro-instructions stepped in a row; the late faults they meet, with the macro each left. -/
def stepMacros (m0 : Memory) (n : Nat) (l : List Macro) (s : State) : State × List (Trap × Macro) :=
  match l with
  | [] => (s, [])
  | m :: r =>
    let (s1, m1, t) := macroStep m0 n s m
    let (s2, ts) := stepMacros m0 n r (s1.onCore n fun c => c.stepped m1)
    (s2, (match t with | some t => [(t, m)] | none => []) ++ ts)

/-- Whether a macro-instruction is an SCLD, whose entries land before the matrix engine takes them (R176). -/
def Macro.isScld (m : Macro) : Bool := match m.work with | .scld .. => true | _ => false
/-- Whether a macro-instruction is a waybill, whose steps read registers after the commits of the cycle. -/
def Macro.isWaybill (m : Macro) : Bool := match m.work with | .waybill .. => true | _ => false

/-- The items and matrix deliveries that fall due, in the order in which they commit: by issue, then by slot (R12). -/
def Core.dueNow (c : Core) : List (Item ⊕ MxPend) :=
  let items := (c.ctx.items.filter fun i => decide (i.due ≤ c.ctx.clk) && !i.eoc).map Sum.inl
  let pend := (c.ctx.mx.pend.filter fun d => decide (d.due ≤ c.ctx.clk)).map Sum.inr
  ordSort (fun x => match x with | .inl i => 8 * i.seq + i.slot | .inr d => 8 * d.start + 4) (items ++ pend)

/-- The commits of a cycle. -/
def commitDue (m0 : Memory) (b : Core) (n : Nat) (l : List (Item ⊕ MxPend)) (s : State) : State :=
  let s0 := s.onCore n fun c => { c with ctx := { c.ctx with items := c.ctx.items.filter fun i => !(decide (i.due ≤ c.ctx.clk) && !i.eoc) } }
  l.foldl (fun s x =>
    match x with
    | .inl i => i.acts.foldl (commitAct m0 b n i) s
    | .inr d => s.onCore n fun c => c.mxDeliver d) s0

/-! ## Late faults (R246, R247) -/

/-- The order in which late faults of one cycle are taken: ECC, then PAYLOAD_ERROR, then by ORIG (R246). -/
def Trap.lateRank (t : Trap) : Nat := if t.code = cECC then 0 else if t.code = cPAYLOAD then 1 else 2 + t.orig

/-- The late fault taken of several. -/
def firstLate (l : List Trap) : Option Trap :=
  l.foldl (fun a t => match a with | none => some t | some b => if t.lateRank < b.lateRank then some t else some b) none

/-- Whether a late fault is a PAGE_ABSENT of the device window, which starts a walk (R271). -/
def Trap.walks (t : Trap) : Bool := t.code == cPAGE && winOf t.fval.toNat == some .device

/-- The late faults, not yet taken, at which queue entries and non-temporal entries of a core stand: those of the context that runs, and not of
one that a trap has interrupted (R246). -/
def Core.lateEntries (c : Core) : List Trap := ((c.qa ++ c.qb ++ c.nt).filter fun e => decide (c.depth ≤ e.level)).filterMap QEntry.faulted

/-- A core that stands in a dynamic wait and traps issues the wait again when it resumes (R351); a walk is none. -/
def Core.interruptWait (c : Core) : Core :=
  match c.run with
  | .wait (.walk ..) => c
  | .wait _ => { c with ctx := { c.ctx with wre := true, ctl := Ctl.none } }
  | _ => c

/-- A late fault or an event taken at stop cycle `tick` (R247): EPC names the bundle due, with SRES = 0. -/
def Core.trapHere (tick : Nat) (t : Trap) (c : Core) : Core :=
  let c := c.interruptWait
  c.takeTrap tick c.ctx.clk 0 t c.ctx.pc c.ctx.rep

/-- An uncorrectable error that an access consumes enters the memory error log with kind 3 (R285, R337). -/
def State.logConsumed (s : State) (n : Nat) (t : Trap) : State :=
  if t.code != cECC then s
  else
    -- LTTLD, CTXREST, CTXSAVE and ERET name system-physical addresses (R221, R227)
    let spa := match (s.core n).lookup t.fval.toNat with
      | some (_, e) => lttFRAME e + (t.fval.toNat - lttVPN e)
      | none => t.fval.toNat
    s.logMemory 3 (if s.poisoned (s.spaKey spa) 1 then spa else t.fval.toNat)

/-- The LTT entries that an LTTLD copied in a cycle before its late fault: they are written in that cycle (R227, R247). -/
def Core.putEntries (c : Core) : Core :=
  let due (i : Item) : Bool := i.eoc && decide (i.due ≤ c.ctx.clk) && i.acts.all fun a => match a with | .lttPut .. => true | _ => false
  let puts := ((c.ctx.items.filter due).flatMap Item.acts).filterMap fun a => match a with | .lttPut i e => some (LttWr.put i e) | _ => none
  { c with lttDue := c.lttDue ++ puts, ctx := { c.ctx with items := c.ctx.items.filter fun i => !(due i) } }

/-- The late fault of a matrix step that reads a poisoned word: of its first such row, A's before B's (R256, R285; DESIGN CHOICE, log entry
70). -/
def State.mxEcc (s : State) (n : Nat) : Option Trap :=
  if s.poison.isEmpty then none
  else
    let c := s.core n
    match c.ctx.mx.due c.ctx.clk with
    | none => none
    | some r => if r.three && decide (8 ≤ r.next) then none
      else (r.rangesA r.next ++ r.rangesB r.next).findSome? fun x => s.ecc n (BitVec.ofNat 64 x.1) x.2

/-- The timed work of one core in a cycle, and the late fault that stops it, chosen of its own and of `queued` ones. In the stop cycle of a
late fault nothing due performs but the elements before a failing one (R246, R247). A matrix engine of a core in `frozen` neither steps nor
delivers (R183). Macro-instructions step before items commit, so that an RHMAP's read sees the decision of an RHSIG in its cycle (DEDUCED, log
entry 32). -/
def tickWork (m0 : Memory) (queued : List Trap) (frozen : List Nat) (s : State) (n : Nat) : State × Option Trap :=
  let b := s.core n
  let stands := frozen.contains n
  let early := ordSort Macro.slot (b.ctx.macros.filter Macro.isScld)
  let mid := b.ctx.macros.filter fun m => !m.isScld && !m.isWaybill
  let wb := b.ctx.macros.filter Macro.isWaybill
  let (s1, t1) := stepMacros m0 n early s
  let (c2, tx) := if stands then (s1.core n, none) else match (s1.core n).mxStep m0 n, s1.mxEcc n with
    | (_, none), some t => (s1.core n, some t)
    | x, _ => x
  let s2 := s1.setCore n c2
  let (s3, t3) := stepMacros m0 n mid s2
  let due := b.dueNow.filter fun x => match x with | .inl _ => true | .inr _ => !stands
  let bad := due.filterMap fun x => match x with | .inl i => (itemTrap m0 s n i).map fun t => (t, i) | .inr _ => none
  let s4 := commitDue m0 b n due s3
  let (s5, t5) := stepMacros m0 n wb s4
  match firstLate (queued ++ bad.map Prod.fst ++ (t1 ++ t3 ++ t5).map Prod.fst ++ tx.toList) with
  | none => (s5, none)
  | some t =>
    let (s6, _) := stepMacros m0 n ((t1 ++ t3 ++ t5).map Prod.snd) s
    let failed := (bad.filter fun x => x.1 == t).map Prod.snd
    let s7 := (failed.foldl (itemFailed n) s6).logConsumed n t
    (s7.onCore n fun c =>
      let d : Core := c.putEntries
      { d with ctx := { d.ctx with items := d.ctx.items.filter fun i => !(failed.contains i) } }, some t)

/-- A late fault of the queued work of the context that runs: a walk begins, or the trap, which is DOUBLE_FAULT in a handler with TM = 1; a
handler's stop is not its group's (R188, R246, R248, R271). -/
def Core.queueTrap (tick : Nat) (t : Trap) (c : Core) : Core :=
  if t.walks then
    { c with
      run := .wait (.walk t.fval t), sat := none
      stopped := if c.mode = 0 then some (c.ctx.clk - c.ctx.base, tick) else c.stopped
      fresh := c.fresh || c.mode = 0 }
  else c.trapHere tick t

/-- A core's work in a cycle, with the late faults of its queued work. -/
def tickCore (m0 : Memory) (frozen : List Nat) (s : State) (n : Nat) : State :=
  let b := s.core n
  let queued := b.lateEntries
  match tickWork m0 queued frozen s n with
  | (s1, none) => s1
  | (s1, some t) => s1.onCore n (if queued.contains t then Core.queueTrap (s.tickOf b) t else Core.trapHere (s.tickOf b) t)

/-- The work that a handler left under way when its ERET completed, in a cycle. -/
def tickTail (m0 : Memory) (s : State) (n : Nat) : State :=
  let b := s.core n
  match b.tail with
  | none => s
  | some x =>
    let (s1, t) := tickWork m0 [] [] (s.setCore n { b with ctx := x }) n
    let s1 := { s1 with wq := s1.wq.take s.wq.length ++ (s1.wq.drop s.wq.length).map fun (w : Wr) => { w with tail := true } }
    let s2 := s1.onCore n fun c => { c with
      ctx := b.ctx, tail := if t.isSome || (c.ctx.items.isEmpty && c.ctx.macros.isEmpty) then none else some c.ctx }
    match t with
    | none => s2
    | some t => s2.onCore n (Core.trapHere (s.tickOf b) t)

/-! ## The writes of a cycle (R118, R233) -/

/-- The result of an atomic joined to the context that issued it: the live one, or what a handler left under way (R117, R220). -/
def Core.deliverAtom (tail : Bool) (lat seq slot d : Nat) (old : Word) (c : Core) : Core :=
  let add (x : Ctx) : Ctx := { x with items := x.items ++ [⟨x.clk + lat, seq, slot, true, false, 0, [.setS d old]⟩] }
  if tail then { c with tail := c.tail.map add } else { c with ctx := add c.ctx }

/-- One write of the cycle; an atomic reads what the writes before it left, and delivers the old word later (R117). -/
def applyWrite (s : State) (w : Wr) : State :=
  match w.atom with
  | none => s.writeKey w.key w.data
  | some (op, v, cmp, d, lat) =>
    let old : Word := BitVec.ofNat 64 (memNat s.mem w.key 8)
    let new : Word := match op with
      | some m => atomicNew m old v
      | none => if old = cmp then v else old
    (s.writeKey w.key (toBytes 8 new.toNat)).onCore w.core (Core.deliverAtom w.tail lat w.seq w.slot d old)

/-- The cores whose plain stores wrote a byte that another core's plain store wrote in the cycle (R25, R118). -/
def collided (l : List Wr) : List Nat :=
  (l.filter fun w => w.collides && l.any fun v =>
    v.collides && hwCore v.core != hwCore w.core && decide (v.key < w.key + w.data.length) && decide (w.key < v.key + v.data.length)).map Wr.core

/-- When the instruction of a write was issued, against the others of its unit: before the handler whose work runs on, by that handler, or after
its ERET (R118, R220). -/
def State.issuedAge (s : State) (w : Wr) : Nat := if w.tail then 1 else if w.seq < (s.core w.core).tailAt then 0 else 2

/-- The writes of the cycle in their order: core, issue order, slot. A unit that has handed its core over issued before the one that stands
there (R118, R233, R302). -/
def State.applyWrites (s : State) : State :=
  let l := ordSort (fun w => hwCore w.core) (ordSort (fun w => if w.core < 1024 then 2 ^ 20 else w.core)
    (ordSort s.issuedAge (ordSort (fun w => 8 * w.seq + w.slot) s.wq)))
  let s1 := l.foldl applyWrite { s with wq := [] }
  (collided l).foldl (fun s n => s.onCore n fun c => c.onSys fun x => { x with collide := true }) s1

/-! ## Arrivals of a cycle (R32, R231, R252) -/

/-- The core that a transfer is bound for, if it is one. -/
def arrivalCore (ev : Instr) : Option Nat :=
  match ev with
  | .coordinatePacket n p => if p.dkind = 2 || p.dkind = 3 then none else some n
  | .directSend n .. => some n
  | .waybillMemoryTransfer n .. => some n
  | .collectiveResult _ n => some n
  | _ => none

/-- Whether a core runs its own unit in this cycle: it is neither stopped nor in a handler. -/
def Core.live (c : Core) : Bool := (c.run == .run || c.run == .drain) && c.mode == 0

/-- Whether the fabric found an uncorrectable error in a transfer: its event and its halt are of the cycle in which it reaches the receiver,
which need not issue (R312, R313). -/
def spoiled (ev : Instr) : Bool :=
  match ev with
  | .coordinatePacket _ p => p.bad == 1 || p.bad == 2
  | .directSend _ _ _ bad => bad == 1 || bad == 2
  | .waybillMemoryTransfer _ _ _ bad => bad == 1 || bad == 2
  | .collectiveResult p _ => p.bad == 1 || p.bad == 2
  | _ => false

/-- The error code of a transfer: 1 poisoned, 2 a header error, 3 corrected (R311). -/
def errorOf (ev : Instr) : Nat :=
  match ev with
  | .coordinatePacket _ p => p.bad
  | .directSend _ _ _ bad => bad
  | .waybillMemoryTransfer _ _ _ bad => bad
  | .collectiveContribution _ _ _ bad => bad
  | .collectiveResult p _ => p.bad
  | _ => 0

/-- The graver of two error codes: a header error, then poison, then a corrected error. -/
def graver (a b : Nat) : Nat := if a = 2 || b = 2 then 2 else if a = 1 || b = 1 then 1 else if a = 3 || b = 3 then 3 else 0

/-- A transfer in which the fabric has found an error of a code (R311). -/
def withError (code : Nat) (ev : Instr) : Instr :=
  match ev with
  | .coordinatePacket n p => .coordinatePacket n { p with bad := graver p.bad code }
  | .directSend n src data bad => .directSend n src data (graver bad code)
  | .waybillMemoryTransfer n src data bad => .waybillMemoryTransfer n src data (graver bad code)
  | .collectiveContribution id n data bad => .collectiveContribution id n data (graver bad code)
  | .collectiveResult p n => .collectiveResult { p with bad := graver p.bad code } n
  | ev => ev

/-- The tick of a flight's partition. -/
def State.flightTick (s : State) (f : Flight) : Nat := ((Map.get? s.parts f.part).map Part.ticks).getD 0

/-- Whether a flight arrives in this cycle: at its tick, or within a timing group at the schedule count of its receiver (R32). -/
def State.arrives (s : State) (f : Flight) : Bool :=
  match f.count with
  | none => decide (f.due ≤ s.flightTick f)
  | some (n, d) =>
    let c := s.core n
    if c.run == .idle || c.run == .dead || spoiled f.ev then decide (f.due ≤ s.flightTick f) else c.live && decide (d + c.ctx.base ≤ c.ctx.clk)

/-- The sender of a transfer, by which arrivals of one cycle are ordered (R203). -/
def arrivalSource (ev : Instr) : Nat :=
  match ev with
  | .coordinatePacket _ p => p.src
  | .directSend _ src .. => src
  | .waybillMemoryTransfer _ src .. => src
  | _ => 0

/-- A transfer as its receiver's core takes it: a unit that has moved has its transfers with it (R222, R260). -/
def toCore (n : Nat) (ev : Instr) : Instr :=
  match ev with
  | .coordinatePacket _ p => .coordinatePacket n p
  | .directSend _ src data bad => .directSend n src data bad
  | .waybillMemoryTransfer _ src data bad => .waybillMemoryTransfer n src data bad
  | .collectiveResult p _ => .collectiveResult p n
  | ev => ev

/-- The flights that reach a stopped member are held by its landing stage, each for its due schedule count (R32). -/
def State.parkFlights (s : State) : State :=
  let parks (f : Flight) : Bool :=
    match f.count with
    | some (n, _) => (s.core n).stopped.isSome && !(s.core n).live && !(spoiled f.ev) && decide (f.due ≤ s.flightTick f)
    | none => false
  let s1 := { s with flights := s.flights.filter fun f => !(parks f) }
  (s.flights.filter parks).foldl (fun s f =>
    match f.count with
    | some (n, d) => s.onCore n fun c => { c with xfers := c.xfers ++ [⟨f.ev, d⟩] }
    | none => s) s1

/-- Whether a core's partition is gated in this cycle (R334). -/
def State.isGated (s : State) (c : Core) : Bool := ((s.partOf c).map Part.gated).getD false

/-- Whether a transfer is a collective's result, which enters its core's delay line (R12, R211). -/
def isResult (ev : Instr) : Bool := match ev with | .collectiveResult .. => true | _ => false

/-- Whether a held transfer lands in this cycle: its schedule count has come on a core that runs its unit (R32). -/
def State.unheld (s : State) (c : Core) (h : Held) : Bool := c.live && !(s.isGated c) && decide (h.due + c.ctx.base ≤ c.ctx.clk)

/-- Whether a flight is of a unit that its receiving core still runs: a direct send to a unit that has ended meets no other unit (R209). -/
def State.meant (s : State) (f : Flight) : Bool :=
  match f.ev with
  | .coordinatePacket .. => true
  | ev => match arrivalCore ev with | some n => (s.core n).launch == f.launch | none => true

/-- What an error in a transfer does whose unit has ended: it is discarded, the units of its launch take their event, or its partition comes
down (R311 to R313). -/
def State.lostError (s : State) (f : Flight) : State :=
  let at_ := ((arrivalCore f.ev).map clusterOf).getD 0
  let src := arrivalSource f.ev
  match errorOf f.ev with
  | 1 => (s.logFabric 2 at_ f.part src).payloadError f.part (((Map.get? s.launches f.launch).map fun l => l.lid.extractLsb' 0 16).getD 0) src
  | 2 => { s.logFabric 3 at_ f.part src with agenda := s.agenda ++ [.partitionHalted f.part] }
  | 3 => s.logFabric 1 at_ f.part src
  | _ => s

/-- The transfers of one kind that land in this cycle, and the state without them: held ones and flights together, those that are due
longest first, and of one cycle by ascending source (R203, R252); those of a gated partition wait. -/
def State.landings (s : State) (pick : Instr → Bool) : State × List Instr :=
  let now (f : Flight) : Bool := pick f.ev && s.arrives f && !(((Map.get? s.parts f.part).map Part.gated).getD false)
  let out (c : Core) (h : Held) : Bool := pick h.ev && s.unheld c h
  let held := s.cores.flatMap fun x => (x.2.xfers.filter (out x.2)).map fun h => (x.2.ctx.clk - (h.due + x.2.ctx.base), toCore x.1 h.ev)
  let land := ((s.flights.filter now).filter s.meant).map fun f => (0, f.ev)
  let age (x : Nat × Instr) : Nat := 2 ^ 16 * (2 ^ 32 - min (2 ^ 32) x.1) + arrivalSource x.2
  let lost := ((s.flights.filter now).filter fun f => !(s.meant f)).foldl State.lostError s
  ({ lost with
      cores := lost.cores.map fun x => if x.2.xfers.isEmpty then x else (x.1, { x.2 with xfers := x.2.xfers.filter fun h => !(out x.2 h) })
      flights := s.flights.filter fun f => !(now f) },
    (ordSort age (held ++ land)).map Prod.snd)

/-- The arrivals of the cycle put on the agenda, with what reaches stopped members held first (R231, R239). -/
def State.arrivals (s : State) : State :=
  let (s1, l) := s.parkFlights.landings fun ev => !(isResult ev)
  { s1 with agenda := s1.agenda ++ l }

/-- The collective results due in this cycle, before what else the cycle does: they commit with what falls due (R12). -/
def State.results (s : State) : State :=
  let (s1, l) := s.landings isResult
  { s1 with agenda := l ++ s1.agenda }

/-- Whether a core's timed work advances in this cycle: it issues or drains, and its partition is not gated (R28, R334). -/
def State.ticks (s : State) (c : Core) : Bool := (c.run == .run || c.run == .drain) && !(s.isGated c)

/-- The forced steps of a cycle: the timed work of each core, the writes in their order, then what arrives (R231). The matrix engines of the
cores in `frozen` stand (R183). -/
def State.tick (s : State) (frozen : List Nat) : State :=
  let m0 := s.mem
  let ns := (s.cores.filter fun x => s.ticks x.2).map Prod.fst
  let ts := (s.cores.filter fun x => x.2.tail.isSome && !(s.isGated x.2)).map Prod.fst
  ((ns.foldl (tickCore m0 frozen) (ts.foldl (tickTail m0) s)).applyWrites).arrivals

end Sys2Proof.Machine
end

