-- ==== Sys2Proof/Machine/Group.lean ====
section
/-! DEFINITION. Timing groups: how a stall stops a group and how it restarts, barriers and SYNC, pending events, and the walk that a
PAGE_ABSENT of the device window starts (spec/01 R28 to R32; spec/05 R105, R106; spec/12 R246 to R254; spec/13 R271). -/

namespace Sys2Proof.Machine

open Sys2Proof

/-! ## Members -/

/-- A timing group replaced. -/
def State.setGroup (s : State) (g : Nat) (x : Group) : State := { s with groups := Map.put s.groups g x }

/-- The cores of a timing group that still run a unit of it. -/
def State.groupCores (s : State) (g : Nat) : List Nat :=
  match Map.get? s.groups g with
  | none => []
  | some x => x.members.filter fun n => (s.core n).run != .idle && (s.core n).group == g

/-- Whether a core stands in SYNC, which stops that member alone (R105). -/
def Core.inSync (c : Core) : Bool := match c.run with | .wait (.sync _) => true | _ => false

/-- RSKEW written into the context that resumes (R21, R30). -/
def Core.putSkew (k : Nat) (c : Core) : Core :=
  if c.mode == 0 then { c with ctx := { c.ctx with rskew := BitVec.ofNat 5 k } }
  else if c.sh then c.onSys fun x => { x with rskew := BitVec.ofNat 5 k } else c

/-- Whether a core has arrived at a SYNC that has not released: its wait is its own, even while a QUENCH has it away (R105, R351). -/
def Core.atSync (c : Core) : Bool := c.inSync || c.bgroups.any fun b => b.2.sync && b.2.arrived

/-- RSKEW of every stopped member but those at a SYNC, from the schedule counts recorded (R30, R105). -/
def State.setSkews (s : State) (g : Nat) : State :=
  let ms := (s.groupCores g).filterMap fun n => if (s.core n).atSync then none else (s.core n).stopped.map fun x => (n, x.1)
  let low := ((ms.map Prod.snd).min?).getD 0
  ms.foldl (fun s m => s.onCore m.1 (Core.putSkew (m.2 - low))) s

/-- A group's stop extended to a cycle, and whether a trap, and whether a QUENCH, is part of it. -/
def State.stallGroup (s : State) (g tick : Nat) (trap quench : Bool) : State :=
  match Map.get? s.groups g with
  | none => s
  | some x =>
    (s.setGroup g { x with
      stalled := true, trap := x.trap || trap, quench := x.quench || quench, lastStop := max x.lastStop tick
      resumed := if trap then none else x.resumed }).setSkews g

/-- Whether a member of a group has taken QUENCH in this stop (R253). -/
def State.groupQuench (s : State) (g : Nat) : Bool := ((Map.get? s.groups g).map Group.quench).getD false

/-- Whether a core's handler was entered by QUENCH. -/
def Core.tookQuench (c : Core) : Bool := c.tm && c.held.any fun x => x.cause.extractLsb' 0 8 == 0x13

/-- The QUENCH that a member takes because another one did, or because the scheduler forces it (R253, R254). -/
def quenchOther : Trap := ⟨cQUENCH, 10, false, 2, 0⟩

/-! ## The next bundle (R75, R77, R82, R84, R102) -/

/-- The next bundle of a core after the one at its issue address has issued in full (R75, R77, R82, R84): the position advances, and
`bound` marks the last body position of a loop (R102). A LOOP in a pattern word with repeats issues again as the word does, and is then ILLEGAL
(R84, R101; DESIGN CHOICE, log entry 73). -/
def Core.advance (m : Memory) (n : Nat) (c : Core) : Core :=
  let x := c.ctx
  let y := { x with sres := 0, wre := false, pend := false, ctl := { Ctl.none with soft := x.ctl.soft, uend := x.ctl.uend } }
  match x.ctl.jump with
  | some t => { c with line := none, ctx := { y with pc := normAt m n t, rep := 0 } }
  | none =>
    if x.rep.toNat + 1 < issuesOf m n x.pc then { c with line := none, ctx := { y with rep := x.rep + 1 } }
    else { c with line := none, bound := lastPosition m n x x.pc, ctx := { y with pc := normAt m n (seqNext m n x.pc), rep := 0 } }

/-! ## Stalls (R30) -/

/-- A satisfied dynamic wait is behind a member that traps before its group restarts (R31, R351). -/
def Core.leaveWait (m : Memory) (n : Nat) (c : Core) : Core :=
  match c.run with
  | .wait (.walk ..) => c
  | .wait _ => if c.sat.isSome then { c.advance m n with run := .stop, sat := none } else c
  | _ => c

/-- The cycles after which a member learns of a stall event of core `n`: those of its cluster, none for the event's own, and its own; 8 at most,
and 6 within one cluster, so that no member meets the want of a transfer that another has not sent (R30, R32, R208; DESIGN CHOICE, log
entry 6). -/
def State.stallTime (s : State) (n m : Nat) : Nat :=
  (if clusterOf m = clusterOf n then 0 else Config.stallHop (128 * s.oracle + clusterOf m) % 3)

/-- A stall event of one member at cycle `e`: every member that runs learns of it within 8 cycles, a free number; those that stand
stopped, or in a wait that holds, do not; with a QUENCH, those members take theirs (R30, R253; DESIGN CHOICE, log entry 6). -/
def State.stallEvent (s : State) (n e : Nat) : State :=
  let c := s.core n
  let s := (s.onCore n fun c => { c with fresh := false }).stallGroup c.group e (c.mode != 0) c.tookQuench
  let quench := s.groupQuench c.group
  let far := s.stallTime n
  let s := { s with oracle := s.oracle + 1 }
  (s.groupCores c.group).foldl (fun s m =>
    let d := s.core m
    if m = n || d.mode != 0 then s
    else if d.run == .run || d.run == .drain then
      let at_ := e + far m + Config.stallDelay s.oracle % 7
      { s with oracle := s.oracle + 1 }.onCore m fun d => { d with stopAt := some (match d.stopAt with | some x => min x at_ | none => at_) }
    else
      s.onCore m fun d =>
        let d := if d.inSync then d else { d with restart := none }
        let stands := match d.run with | .stop => true | .ready => true | .wait _ => d.sat.isSome | _ => false
        if quench && d.ctx.qreq && stands then (d.leaveWait s.mem m).trapHere e quenchOther else d) s

/-- The stall events of this moment spread to their groups, one for each member that has stopped by itself. At the end of a cycle (`next`)
the event is of the next cycle, but for a member whose stop cycle is this one. -/
def State.spread (s : State) (next : Bool) : State :=
  ((s.cores.filter fun x => x.2.fresh).map Prod.fst).foldl (fun s n =>
    let c := s.core n
    let t := s.tickOf c
    s.stallEvent n (if next && (c.stopped.map Prod.snd) != some t then t + 1 else t)) s

/-- GROUP_STALL: a member stops issue in the cycle in which it learns of a stall event, and records its schedule count; if the stall
is a quench of its launch, it takes QUENCH there (R30, R253). -/
def execGroupStall (n : Nat) (s : State) : Out :=
  let c := s.core n
  if c.stopAt.isNone then .next s
  else if !c.live then .next (s.onCore n fun c => { c with stopAt := none })
  else
    let t := s.tickOf c
    let s1 := s.onCore n fun c => { c with stopAt := none, run := .stop, stopped := some (c.ctx.clk - c.ctx.base, t) }
    let s2 := s1.stallGroup c.group t false false
    .next (if c.ctx.qreq && s2.groupQuench c.group then s2.onCore n (Core.trapHere t quenchOther) else s2)

/-! ## Restarts (R31, R251) -/

/-- The members of a group that its restart concerns: all but those at a SYNC (R105). -/
def State.groupMembers (s : State) (g : Nat) : List Core := ((s.groupCores g).map s.core).filter fun c => !c.inSync

/-- Whether a member stands stopped in tenant code: its ERET has completed, and a dynamic wait may be unsatisfied. -/
def Core.back (c : Core) : Bool :=
  c.mode == 0 && c.stopAt.isNone &&
    match c.run with
    | .stop => true
    | .ready => true
    | .wait _ => true
    | _ => false

/-- Whether a member is in no trap's handler: it has taken none in this stop, or its ERET has completed (R251). -/
def Core.returned (c : Core) : Bool := c.mode == 0 && c.run != .dead

/-- Whether the group resume of a trap's stop is issued in this cycle: every trap has returned, no member has vacated its core, and no hold
and no halt stands (R251, R260). Dynamic waits and walks are none of its conditions. -/
def State.resumable (s : State) (g : Nat) (x : Group) : Bool :=
  let hold := ((Map.get? s.launches x.launch).map Launch.hold).getD false
  let gone := (Map.get? s.launches x.launch).any fun l => l.away.any fun u => u.2.group == g
  x.stalled && x.trap && x.resumed.isNone && !x.halt && !hold && !gone && (s.groupMembers g).all Core.returned

/-- The group resumes issued in this cycle (R251). -/
def State.resumes (s : State) : State :=
  { s with groups := s.groups.map fun g =>
      if s.resumable g.1 g.2 then (g.1, { g.2 with resumed := some (((s.groupMembers g.1).head?.map s.tickOf).getD 0) }) else g }

/-- The restart cycle Q of a stopped group, if every member has stopped, a trap's group resume has been issued, every wait holds, no late
fault waits, no member has vacated its core, and no halt stands (R31, R251, R260). The resume gives its cycle + 16, and a wait the cycle
in which it came to hold, or of the last stop, + 8, and so does a walk for a queued row of a member; the later stands (R31, R271). -/
def State.restartCycle (s : State) (g : Nat) : Option Nat :=
  match Map.get? s.groups g with
  | none => none
  | some x =>
    let cs := s.groupMembers g
    let still (c : Core) : Bool := c.back && c.lateEntries.isEmpty && match c.run with | .wait _ => c.sat.isSome | _ => true
    let purging := x.due.any fun t => decide (((cs.head?.map s.tickOf).getD 0) < t)
    let gone := (Map.get? s.launches x.launch).any fun l => l.away.any fun u => u.2.group == g
    if !x.stalled || x.halt || (x.trap && x.resumed.isNone) || purging || gone || !(cs.all still) then none
    else
      let sats := (cs.filterMap fun c => match c.run with | .wait _ => c.sat | _ => none) ++ cs.filterMap Core.walked
      let forWait := match sats.max? with | some t => max t x.lastStop + 8 | none => 0
      let forPurge := match x.due with | some t => t + 8 | none => 0
      let forTrap := match x.resumed with | some t => t + 16 | none => 0
      some (max forPurge (max forTrap (if x.trap || !sats.isEmpty then forWait else x.lastStop + 8)))

/-- A group restarted at Q: each member issues at Q + RSKEW (R30). -/
def State.restartGroup (s : State) (g : Nat) : State :=
  match s.restartCycle g, Map.get? s.groups g with
  | some q, some x =>
    let s1 := s.setGroup g { x with stalled := false, trap := false, quench := false, due := none, resumed := none }
    (s.groupCores g).foldl (fun s n =>
      s.onCore n fun c => if c.inSync then c else { c with restart := some (q + c.ctx.rskew.toNat) }) s1
  | _, _ => s

/-- GROUP_RESUME: the group resume that the runtime or the debugger issues once its conditions hold (R31, R251). -/
def execGroupResume (g : Nat) (s : State) : Out := .next (s.restartGroup g)

/-- DYNAMIC_WAIT_RELEASE: the awaited condition of a member holds, and the group restarts 8 cycles later (R31, R107). -/
def execDynamicWaitRelease (n : Nat) (s : State) : Out := .next (s.restartGroup (s.core n).group)

/-- A stopped member issues again from its restart cycle on; a satisfied wait is behind it (R30, R31). In a handler the unit itself stays
stopped (R252); back in tenant mode, entries that stood at a fault met by a handler's time go on (R246). -/
def Core.restartNow (m : Memory) (n : Nat) (c : Core) : Core :=
  let go (e : QEntry) : QEntry := if c.mode = 0 then { e with held := false } else e
  let c1 := { c with
    run := if c.ctx.ctl.uend then .drain else .run, restart := none, sat := none, walked := none
    stopped := if c.mode = 0 then none else c.stopped
    qa := c.qa.map go, qb := c.qb.map go, nt := c.nt.map go }
  match c.run with
  | .wait (.walk ..) => c1
  | .wait _ => c1.advance m n
  | _ => { c1 with ctx := { c1.ctx with pc := normAt m n c1.ctx.pc } }

/-! ## Barriers and SYNC (R105, R106, R351) -/

/-- The cores of the units that a barrier group names, as one of its members sees it. -/
def State.barrierCores (s : State) (c : Core) (g : Nat) : List Nat :=
  match Map.get? c.bgroups g with
  | none => []
  | some b => (s.cores.filter fun x => x.2.run != .idle && x.2.launch == c.launch && b.members.contains x.2.unitId.toNat).map Prod.fst

/-- Whether a core's arrival at a barrier group is counted. -/
def Core.arrivedAt (c : Core) (g : Nat) : Bool := ((Map.get? c.bgroups g).map BGroup.arrived).getD false

/-- Whether every member of a barrier group has arrived. -/
def State.allArrived (s : State) (c : Core) (g : Nat) : Bool :=
  match Map.get? c.bgroups g with
  | none => false
  | some b => (s.barrierCores c g).length == b.members.length && (s.barrierCores c g).all fun n => (s.core n).arrivedAt g

/-- What BAR changes at the end of the release cycle (R106): the banks, their ownership, and the parity; releases under way name
their banks in their new place. -/
def Core.barSwap (c : Core) : Core :=
  let half (x : BitVec 16) : BitVec 16 := x.extractLsb' 0 8 ++ x.extractLsb' 8 8
  let act (a : Act) : Act := match a with | .bkrel m => .bkrel (half m) | a => a
  let items (x : Ctx) : Ctx := { x with items := x.items.map fun i => { i with acts := i.acts.map act } }
  { c with swapped := !c.swapped, owned := half c.owned, passing := half c.passing, parity := !c.parity
           ctx := items c.ctx, held := c.held.map items }

/-- Whether a core issued its arrival in this cycle. -/
def State.justArrived (s : State) (n g : Nat) : Bool :=
  let c := s.core n
  (c.run == .wait (.barrier g)) && (c.stopped.map Prod.snd) == some (s.tickOf c + 1)

/-- A member leaves SYNC: schedule count 0 at L + 16 in the new group (R105). Counts of transfers under way follow. -/
def State.leaveSync (s : State) (n g tick : Nat) : State :=
  let c := s.core n
  let old := (c.stopped.map Prod.fst).getD 0
  { s.setCore n { c with
      group := g, restart := some (tick + 16), stopped := some (0, (c.stopped.map Prod.snd).getD tick)
      xfers := c.xfers.map fun h => { h with due := h.due - old }
      ctx := { c.ctx with base := c.ctx.clk, rskew := 0 } } with
    flights := s.flights.map fun f =>
      { f with count := f.count.map fun x => if x.1 = n then (n, x.2 - old) else x } }

/-- A member whose SYNC releases while its group is to stand stopped: it waits for the group's restart at schedule count 0; one that a QUENCH
has away has its context, live or held, counted from here too (R105, R351; DESIGN CHOICE, log entry 62). -/
def State.joinStopped (s : State) (n g tick : Nat) : State :=
  let s1 := s.leaveSync n g tick
  s1.onCore n fun c =>
    let zero (x : Ctx) : Ctx := { x with base := x.clk, rskew := 0 }
    match c.run with
    | .wait (.sync _) => { { c with run := .stop, restart := none }.advance s.mem n with stopped := some (0, tick) }
    | _ => { c with
        restart := none
        ctx := if c.mode = 0 then zero c.ctx else c.ctx
        held := if c.mode = 0 then c.held else c.held.map zero }

/-- BARRIER_RELEASE: every member has arrived. Each that issued BAR swaps its banks; members that all arrived in this cycle go on at once, and
otherwise each, the last arriver too (DEDUCED, log entry 29), waits as in a dynamic wait; at SYNC a new timing group forms, which stands stopped
while a QUENCH has one of its members away (R105, R106, R351). -/
def execBarrierRelease (n g : Nat) (s : State) : Out :=
  let c := s.core n
  if !(s.allArrived c g) then .next s
  else
    let ms := s.barrierCores c g
    let tick := s.tickOf c
    let atOnce := ms.all fun m => s.justArrived m g
    let ofGroup (m : Nat) : BGroup := Map.get (s.core m).bgroups g ⟨[], false, false, false, false⟩
    let syncs := ms.filter fun m => (ofGroup m).sync
    let stops := syncs.any fun m => (s.core m).run != .wait (.sync g)
    let s1 := if syncs.isEmpty then s else
      { s with
        nextGroup := s.nextGroup + 1
        groups := Map.put (s.groups.map fun x => (x.1, { x.2 with members := x.2.members.filter fun m => !(syncs.contains m) }))
          s.nextGroup ⟨syncs, c.launch, stops, stops, false, tick, false, none, [], none⟩ }
    .next (ms.foldl (fun t m =>
      let d := t.core m
      let b := ofGroup m
      let standing := d.run == .wait (.barrier g) || d.run == .wait (.sync g)
      let d1 := { d with bgroups := Map.put d.bgroups g { b with arrived := false, bar := false, sync := false, passed := !standing } }
      let d2 := if b.bar then d1.barSwap else d1
      let t1 := t.setCore m (
        if d.run == .wait (.barrier g) then
          (if atOnce then { d2 with run := .run, stopped := none }.advance t.mem m else { d2 with sat := some tick })
        else d2)
      if !b.sync then t1 else if stops then t1.joinStopped m s.nextGroup tick else t1.leaveSync m s.nextGroup tick) s1)

/-! ## Events at a boundary (R246, R254) -/

/-- The order of events due at one boundary (R246). -/
def Trap.eventRank (t : Trap) : Nat :=
  if t.code = cTIMING then 0
  else if t.code = cCOLL then 1
  else if t.code = cSTRAY then 2
  else if t.code = cPAYLOAD then 3
  else if t.code = cWATCHDOG then 4
  else 5

/-- The events that wait at a core, with a forced QUENCH where one is due. -/
def Core.pending (c : Core) : List Trap := c.events ++ (if c.forced && c.ctx.qreq then [quenchOther] else [])

/-- The event taken of several. -/
def firstEvent (l : List Trap) : Option Trap :=
  l.foldl (fun a t => match a with | none => some t | some b => if t.eventRank < b.eventRank then some t else some b) none

/-- Whether IFENCE lets the core issue in this cycle: nothing stands in its delay lines after this cycle's commits (R109). -/
def Core.fenceClear (c : Core) : Bool :=
  !c.ctx.fence ||
    ((c.ctx.items.all fun i => decide (i.due ≤ c.ctx.clk) || !(i.counts || i.stores)) &&
      (c.ctx.macros.all fun m => m.slot < 2 || 6 < m.slot) && c.ctx.mx.runs.isEmpty && c.ctx.mx.pend.all fun d => decide (d.due ≤ c.ctx.clk))

/-- Whether a core stands at a bundle boundary at which a tenant-mode bundle of its unit would issue in this cycle (R246). -/
def State.atBoundary (s : State) (c : Core) : Bool :=
  c.run == .run && c.mode == 0 && !c.tm && decide (c.holdTo ≤ s.tickOf c) && c.ctx.sres == 0 && !c.ctx.wre && c.fenceClear && s.ticks c

/-- PENDING_EVENT: an event taken at the first boundary of the unit's tenant code (R246, R247). -/
def execPendingEvent (n : Nat) (s : State) : Out :=
  let c := s.core n
  if !(s.atBoundary c) then .next s
  else
    match firstEvent c.pending with
    | none => .next s
    | some t =>
      .next (s.onCore n fun c =>
        Core.trapHere (s.tickOf c) t { c with events := c.events.erase t, forced := c.forced && t.code != cQUENCH })

/-- FORCED_QUENCH: past the quench limit every unit with QREQ set takes QUENCH at its next boundary (R254). -/
def execForcedQuench (launch : Nat) (s : State) : Out :=
  .next { s with
    cores := s.cores.map fun x =>
      if x.2.run != .idle && x.2.launch == launch && x.2.sysCtx.qreq then (x.1, { x.2 with forced := true }) else x
    launches := match Map.get? s.launches launch with
      | some l => Map.put s.launches launch { l with quenchAt := none }
      | none => s.launches }

/-! ## Late faults of queued work, and walks (R188, R246, R249, R271) -/

/-- The late faults of queued work of the context that a core runs, taken at once where it stands stopped (R246, R249); a PAGE_ABSENT of the
device window has its walk first (R271). Those of cores that issue are found with their timed work. -/
def State.lateQueues (s : State) : State :=
  (s.cores.map Prod.fst).foldl (fun s n =>
    let c := s.core n
    if c.run == .idle || c.run == .dead || s.ticks c || s.isGated c then s
    else
      match firstLate c.lateEntries with
      | none => s
      | some t => if t.walks then s else (s.logConsumed n t).setCore n ((c.leaveWait s.mem n).trapHere (s.tickOf c) t)) s

/-- Whether a walk of this cycle has filled an entry, which is seen from the next cycle on (R226). -/
def Core.filling (c : Core) : Bool := c.lttDue.any fun w => match w with | .fill .. => true | _ => false

/-- The walk that a core has under way: the address and the trap it stands for. -/
def Core.walkOf (c : Core) : Option Trap :=
  match c.run with
  | .wait (.walk _ t) => if c.sat.isSome then none else some t
  | _ => if c.run != .idle && c.run != .dead && !c.filling then (firstLate c.lateEntries).filter Trap.walks else none

/-- The guest-physical addresses that a guest walk translates, down to the leaf (R270). -/
def guestPath (m : Memory) (p : Part) (level table va : Nat) : List Nat :=
  let x := table + 8 * ptIndex level va
  match sysWalkFrom m 3 p.system.toNat x with
  | .ok a _ _ _ =>
    let e : Word := BitVec.ofNat 64 (memNat m a 8)
    x :: (if pteV e && !(pteLeaf e) then (match level with | 0 => [] | l + 1 => guestPath m p l (pteADDR e) va)
          else if pteV e then [pteADDR e + va % max 1 (leafBytes level (pteSPAN e))] else [])
  | _ => []

/-- Entries that stood at an absent page go on. -/
def Core.unfault (c : Core) : Core :=
  let free (e : QEntry) : QEntry := if e.faulted.any Trap.walks then { e with faulted := none } else e
  { c with qa := c.qa.map free, qb := c.qb.map free, nt := c.nt.map free }

/-- The absent page that a row at a late fault waits for: the first that it touches (R188, R271). -/
def QEntry.absentPage (c : Core) (e : QEntry) : Option Word :=
  let r := e.kind.rowAt e.row
  ((pageStarts r.1.toNat r.2).find? fun p => match c.lookup p with | some (_, y) => !(lttP y) | none => false).map (BitVec.ofNat 64)

/-- The address that a walk translates: in the absent page of the row that stands at the fault. -/
def Core.walkPage (c : Core) (t : Trap) : Word :=
  ((c.qa ++ c.qb ++ c.nt).findSome? fun e => if e.faulted = some t then e.absentPage c else none).getD t.fval

/-- NESTED_WALK: the walk under way ends. A filled entry, seen from the next cycle on, lets the core go on as after a dynamic wait, but for a
member that a QUENCH of its group reached while it walked, which takes its own (R253); PAGE_ABSENT and FORMAT are then taken as traps, a
satisfied wait being behind the member (R249); a page that moves is waited for (R226, R270, R271; DESIGN CHOICE, log entry 14). -/
def execNestedWalk (n : Nat) (s : State) : Out :=
  let c := s.core n
  match c.walkOf, s.partOf c with
  | some t, some p =>
    let tick := s.tickOf c
    let va := c.walkPage t
    let s0 := { s with oracle := s.oracle + 1 }
    let fail (t : Trap) : Out := .next (s0.setCore n ((c.leaveWait s.mem n).trapHere tick t))
    (match c.lookup va.toNat with
     | none => fail t
     | some (i, e) =>
       match nestedWalk s.mem p (s.tlbServes n) e va.toNat with
       | .moving => .next s0
       | .absent => fail t
       | .format => fail { t with code := cFORMAT, fval := va }
       | .fill e1 =>
         let s1 := (guestPath s.mem p 3 p.guest.toNat va.toNat).foldl (fun t x => t.tlbPut c.partId.toNat (dieOf n) x) s0
         .next (s1.onCore n fun c =>
           let c1 := { c with lttDue := c.lttDue ++ [LttWr.fill i e1] }
           match c.run with
           | .wait (.walk ..) =>
             if c.mode = 0 && c.ctx.qreq && s.groupQuench c.group then c1.trapHere tick quenchOther else { c1 with sat := some tick }
           | _ => { c1 with walked := some tick }))
  | _, _ => .next s

end Sys2Proof.Machine
end

