-- ==== Sys2Proof/Machine/Issue.lean ====
section
/-! DEFINITION. Issuing a bundle: fetch and template, the order of its slots, what its end brings, and the end of a cycle for each core
(spec/04 R74 to R84, R95; spec/05 R102, R105 to R111; spec/12 R246, R247, R351). -/

namespace Sys2Proof.Machine

open Sys2Proof

/-! ## Fetch and template (R75 to R80) -/

/-- The lowest slot that breaks a rule of the template, if any (R80). -/
def templateFault (l : Mask) : Option Nat :=
  let tpl (k : Nat) : Bool := l.getLsbD (25 + (k - 1))
  if l.extractLsb' 25 7 == 0x7F#7 && l.extractLsb' 19 6 != 0x14#6 then some 1
  else
    (List.range 7).findSome? fun j =>
      let k := j + 1
      if tpl k && ((decide (2 ≤ k) && tpl (k - 1)) || !(takesExtension (k - 1) (slotWord l (k - 1)))) then some k else none

/-- Whether slot `k` of a line is surrendered (R78, R79). -/
def surrendered (l : Mask) (k : Nat) : Bool := decide (1 ≤ k) && l.getLsbD (25 + (k - 1))

/-- The extension word of slot `k`, if the next slot is surrendered (R79). -/
def extensionOf (l : Mask) (k : Nat) : Option (BitVec 32) := if k < 7 && surrendered l (k + 1) then some (slotWord l (k + 1)) else none

/-- The next slot from `k` on that holds an instruction: slot 0, and each later slot neither surrendered nor a word of zeros
(R74, R79). -/
def nextSlot (l : Mask) (k : Nat) : Option Nat :=
  ((List.range (8 - k)).map fun j => k + j).find? fun j => j == 0 || (!(surrendered l j) && slotWord l j != 0)

/-- Whether slot 0 of a line is a dynamic wait (R28, R351). -/
def waitsInSlot0 (l : Mask) : Bool := [0x07, 0x08, 0x09, 0x0A, 0x0B, 0x0C, 0x10].contains (l.extractLsb' 19 6).toNat

/-- The instruction in slot `k` of a line, or none where R95 makes it ILLEGAL. -/
def slotInstr (l : Mask) (k : Nat) : Option Instr :=
  match decodeSlot k (slotWord l k) (extensionOf l k) with
  | .ok i => some i
  | .error _ => none

/-- A fault of the fetch: its cycle is the stop cycle, and EPC names the low 17 bits of the address (R75 to R77). -/
def State.fetchTrap (s : State) (n : Nat) (code : Nat) : State :=
  s.onCore n fun c =>
    Core.takeTrap (s.tickOf c) c.ctx.clk 0 ⟨code, 0, false, 8, c.ctx.pc⟩ (BitVec.ofNat 64 (c.ctx.pc.toNat % 2 ^ 17)) 0
      { c with ctx := { c.ctx with ctl := { c.ctx.ctl with jump := none } } }

/-- The line of the bundle under way, once it is a bundle to issue from: the template's fault, or its slots from SRES on. -/
def State.bundle (s : State) (n : Nat) : State :=
  let c := s.core n
  match c.line with
  | none => s
  | some l =>
    match templateFault l with
    | some k => s.onCore n (Core.raise (s.tickOf c) 0 cTEMPLATE (BitVec.ofNat 64 k) 0)
    | none =>
      { s with cur := n, slot := c.ctx.sres.toNat }

/-- Whether the debugger halts a core before the bundle at its issue address; a point on line × 16 of a packed line is one on its first
word (R75, R338, R342). -/
def State.breakAt (s : State) (n : Nat) : Bool :=
  let c := s.core n
  !c.ctx.broke && s.dbg.points.any fun p => normAt s.mem n (BitVec.ofNat 64 p.2) == c.ctx.pc && (p.1.isNone || p.1 == some c.unitId.toNat) &&
    (s.dbg.part == c.partId.toNat && ((s.launchOf c).map Launch.image) == some s.dbg.image)

/-- The uncorrectable word that a fetch consumes, if any: of the code line, or of the pattern-table entry of a packed word (R285). -/
def State.fetchPoison (s : State) (n : Nat) (pc : Word) : Option Nat :=
  let l := lineAt s.mem n (pc.toNat / 16)
  let line := codeKey n (32 * (pc.toNat / 16))
  let entry := patKey n (32 * patternOf l pc)
  if s.poisoned line 32 then some line
  else if isPacked l && s.poisoned entry 32 then some entry
  else none

/-- The core at its issue address as it is about to fetch: past its fence, the address by the name that R75 gives it. -/
def State.atFetch (s : State) (n : Nat) : Core :=
  let c := s.core n
  { c with ctx := { c.ctx with fence := false, pc := normAt s.mem n c.ctx.pc } }

/-- The stop that takes the place of a fetch, if any: a debugger halt, on the agenda, or the trap of an address that cannot be fetched, of
WRE at a bundle with no wait, or of an uncorrectable word (R75, R247, R285, R338, R351). -/
def State.fetchStop (s : State) (n : Nat) : Option State :=
  let c := s.atFetch n
  let s := s.setCore n c
  if s.breakAt n then some { s with agenda := s.agenda ++ [.debuggerHalt n] }
  else
    let c := { c with ctx := { c.ctx with broke := false } }
    let s := s.setCore n c
    match fetchFault s.mem n c with
    | some code => some (s.fetchTrap n code)
    | none =>
      match s.fetchPoison n c.ctx.pc with
      | some k => some ((s.logMemory 3 k).onCore n (Core.trapHere (s.tickOf c) ⟨cECC, 9, true, c.ctx.pc, 0⟩))
      | none => if c.ctx.wre && !(waitsInSlot0 (bundleAt s.mem n c.ctx.pc)) then some (s.fetchTrap n cILLEGAL) else none

/-- A core begins its bundle of this cycle: what it fetches, or the stop that takes its place; the address of a packed line's first word is
line × 16 + 1, in FELEM too (R75; DEDUCED, log entry 26). A packed line leaves `line` empty and `pass` set: its PACK is executed next. -/
def State.fetch (s : State) (n : Nat) : State :=
  let s := if (s.core n).recv.isSome then s.onCore n (Core.matchArrivals n) else s
  match s.fetchStop n with
  | some t => t
  | none =>
    let c := s.atFetch n
    let c := { c with ctx := { c.ctx with broke := false } }
    let l := lineAt s.mem n (c.ctx.pc.toNat / 16)
    if isPacked l then { s.setCore n { c with pass := true } with cur := n, slot := 0 }
    else (s.setCore n { c with line := some l }).bundle n

/-! ## The end of a bundle (R24, R77, R101 to R111, R351) -/

/-- The due trap of a resumed bundle whose slot 0 committed before the stop (R110). -/
def Core.pendDue (c : Core) : Option Trap :=
  if !c.ctx.pend then none
  else
    match c.line.bind fun l => slotInstr l 0 with
    | some (.trap _ _ code) => some ⟨cSOFTWARE, 0, false, code.setWidth 64, 0⟩
    | some (.qpoint ..) => some ⟨cQUENCH, 0, false, 1, 0⟩
    | _ => none

/-- The bundle under way ends in UEND: nothing issues after it (R111). A unit that UEND ends in runtime mode leaves its held
snapshot, unless a completed CTXSAVE makes it vacate (R257). -/
def Core.endUnit (m : Memory) (n : Nat) (c : Core) : Core :=
  let c := c.advance m n
  let c := { c with
    run := .drain, bound := false
    nt := c.nt.map fun e => if e.drained.isNone then { e with drained := some c.epoch } else e
    ctx := { c.ctx with la := false, qreq := false, ctl := { c.ctx.ctl with soft := none, uend := true } } }
  if c.mode = 0 || c.saved.isSome then c else { c with held := none, sh := false }

/-- QUENCH at the issue of a dynamic wait: that cycle is the stop cycle, and the wait issues again when the context resumes (R253, R351). -/
def Core.waitTrap (tick : Nat) (c : Core) (x : Ctx) : Core :=
  Core.takeTrap tick x.clk 0 ⟨cQUENCH, 0, false, 2, 0⟩ x.pc x.rep { c with ctx := { x with wre := true, ctl := Ctl.none }, stopped := none }

/-- The end of a bundle whose slots have all committed: what its slots left due, and the next issue address. -/
def State.endBundle (s : State) (n : Nat) : State :=
  let c := s.core n
  let rest := c.ctx.ctl.fin.any fun a => match a with | .snapRest _ => true | _ => false
  let drain := c.ctx.ctl.fin.findSome? fun a => match a with | .ctxDrain p => some p | _ => none
  let soft := match c.ctx.ctl.soft with | some t => some t | none => c.pendDue
  let c := c.applyFin
  let tick := s.tickOf c
  if rest then (s.setCore n { c with line := none }).snapRest n none
  else if c.ctx.ctl.uend then s.setCore n (c.endUnit s.mem n)
  else
    match c.ctx.ctl.wait with
    | none =>
      let s1 := s.setCore n (Core.advance s.mem n { c with ctx := { c.ctx with ctl := { c.ctx.ctl with soft := soft } } })
      match drain with
      | some p => s1.ctxDrain n p c.ctx.clk
      | none => s1
    | some w =>
      let x := { c.ctx with sres := 0, pend := false, ctl := Ctl.none }
      if c.ctx.qreq && c.mode == 0 && (match w with | .barrier _ => false | _ => true) then
        s.setCore n (c.waitTrap tick x)
      else
        let x := { x with wre := false, clk := x.clk + 1 }
        s.setCore n { c with
          line := none, ctx := x, run := .wait w, sat := none, holdTo := tick + 1
          stopped := if c.mode == 0 then some (x.clk - x.base, tick + 1) else c.stopped
          fresh := c.fresh || (c.mode == 0 && match w with | .barrier _ => false | .sync _ => false | _ => true) }

/-- The state after slot `k` of the bundle under way has been executed: a fault has left the bundle, or it goes on with its next slot,
or ends. -/
def State.afterSlot (s : State) (n k : Nat) : State :=
  let c := s.core n
  match c.line with
  | none => s
  | some l => if c.ctx.wre || (nextSlot l (k + 1)).isNone then s.endBundle n else { s with slot := k + 1 }

/-! ## Due traps and waits at the start of a cycle (R110, R351) -/

/-- A due SOFTWARE or QUENCH of a bundle that has committed, taken in the cycle after it (R103, R110); an event that waits goes before a
QUENCH, which then waits behind it (R246). -/
def State.softTraps (s : State) : State :=
  (s.cores.map Prod.fst).foldl (fun s n =>
    let c := s.core n
    match c.ctx.ctl.soft with
    | none => s
    | some t =>
      if !(s.ticks c) || c.run != .run || c.ctx.sres != 0 then s
      else
        let c := { c with ctx := { c.ctx with ctl := { c.ctx.ctl with soft := none } } }
        if t.code = cQUENCH && !c.ctx.qreq then s.setCore n c
        else
          let c := if t.code = cQUENCH && t.fval == 0 then { c with ctx := { c.ctx with lQD := true }.setSV 0 } else c
          if t.code = cQUENCH && !c.events.isEmpty then s.setCore n { c with events := c.events ++ [t] }
          else s.setCore n (Core.takeTrap (s.tickOf c) c.ctx.clk 0 t c.ctx.pc c.ctx.rep c)) s

/-- Whether a debugger halt stands on a core's group (R338). -/
def State.halted (s : State) (c : Core) : Bool := ((Map.get? s.groups c.group).map Group.halt).getD false

/-- QUENCH of the units that stand in an unsatisfied dynamic wait with QREQ set (R351), and WATCHDOG, which ends such a wait (R107, R255;
DEDUCED, log entry 45); under a debugger halt once it is lifted (R340). -/
def State.waitQuench (s : State) : State :=
  (s.cores.map Prod.fst).foldl (fun s n =>
    let c := s.core n
    match c.run with
    | .wait (.walk ..) => s
    | .wait _ =>
      if c.mode == 0 && c.sat.isNone && c.restart.isNone && !(s.halted c) then
        match c.events.find? fun t => t.code == cWATCHDOG with
        | some t => s.setCore n (Core.trapHere (s.tickOf c) t { c with events := c.events.erase t })
        | none => if c.ctx.qreq then s.setCore n (c.trapHere (s.tickOf c) ⟨cQUENCH, 0, false, 2, 0⟩) else s
      else s
    | _ => s) s

/-- A BAR or BARNS issued with QREQ set that did not release in its cycle takes QUENCH with that cycle as its stop cycle, and its group
learns of it (R106, R351). -/
def State.barrierQuench (s : State) : State :=
  (s.cores.map Prod.fst).foldl (fun s n =>
    let c := s.core n
    match c.run with
    | .wait (.barrier _) =>
      if c.mode == 0 && c.ctx.qreq && c.sat.isNone && (c.stopped.map Prod.snd) == some (s.tickOf c + 1) then
        (s.setCore n (c.waitTrap (s.tickOf c) { c.ctx with clk := c.ctx.clk - 1 })).stallEvent n (s.tickOf c)
      else s
    | _ => s) s

/-- Barrier waits that did not release in their cycle stop their groups (R106). -/
def State.barrierStalls (s : State) : State :=
  { s with cores := s.cores.map fun x =>
      match x.2.run with
      | .wait (.barrier _) =>
        if x.2.mode == 0 && (x.2.stopped.map Prod.snd) == some (s.tickOf x.2) then (x.1, { x.2 with fresh := true }) else x
      | _ => x }

/-! ## The end of a cycle (R106, R200, R205, R208, R242) -/

/-- The due schedule count at a receiver of the sender's timing group (R32). -/
def State.flightCount (s : State) (n due : Nat) (ev : Instr) : Option (Nat × Nat) :=
  let c := s.core n
  match arrivalCore ev with
  | none => none
  | some m =>
    let d := s.core m
    if d.run != .idle && d.launch == c.launch && d.group == c.group && c.mode == 0 then
      some (m, c.ctx.clk - c.ctx.base + (due - s.tickOf c))
    else none

/-- A firmware register written (R330). A positive GTADJ steps GT at once; a negative one adds to what is still to be absorbed (R323). -/
def State.putFirmware (s : State) (n : Nat) (v : Word) : State :=
  match n with
  | 0xC00 => { s with gtRate := v }
  | 0xC01 => if v.msb then { s with gtAdj := if (s.gtAdj + v).msb then s.gtAdj + v else BitVec.intMin 64 } else { s with gt := s.gt + v.toNat }
  | 0xC02 => { s with fatalBase := v }
  | _ => s

/-- One hand-over of a core to the package, but for those that its scheduler and network take. -/
def State.emit (n : Nat) (s : State) (e : Emit) : State :=
  let c := s.core n
  match e with
  | .flight due path ev => s.sendFlight ⟨c.partId.toNat, c.launch, due, path, s.tickOf c, s.flightCount n due ev, ev, []⟩
  | .incr i => { s with incrs := s.incrs ++ [{ i with cover := i.cover ++ s.sentBy n }] }
  | .mcldr g op seq count desc d sd => s.joinColl n g op seq count desc d sd
  | .halt => { s with agenda := s.agenda ++ [.partitionHalted c.partId.toNat] }
  | .wdog v =>
    { s with
      cores := s.cores.map fun x =>
        if x.2.run != .idle && x.2.launch == c.launch then
          (x.1, { x.2 with ctx := { x.2.ctx with wdog := v }, held := x.2.held.map fun y => { y with wdog := v } })
        else x
      launches := match Map.get? s.launches c.launch with
        | some l => Map.put s.launches c.launch { l with wdog := v, wdogAt := s.gt }
        | none => s.launches
      agenda := if v = 0 then s.agenda ++ [.watchdog c.launch] else s.agenda }
  | .gtAdj v => s.putFirmware 0xC01 v
  | .gtRate v => s.putFirmware 0xC00 v
  | .fatalBase v => s.putFirmware 0xC02 v
  | .sct .. => s

/-- Strays that arrived in the cycle join the buffer of four behind its removals; beyond it OVF is set and they are dropped. Each
buffered one raises STRAY_ARRIVAL; one that waits already keeps its tag (R205). -/
def Core.mergeStrays (c : Core) : Core :=
  c.strayIn.foldl (fun c e =>
    if 4 ≤ c.strays.length then c.onSys fun x => { x with strayOvf := true }
    else
      let c1 := { c with strays := c.strays ++ [e] }
      if c1.events.any fun t => t.code == cSTRAY then c1 else c1.addEvent ⟨cSTRAY, 8, false, e.tag.setWidth 64, 0⟩)
    { c with strayIn := [] }

/-- Items that act at the end of their cycle, of the live context, of one that a fault of this cycle holds, and of what a handler left
under way (R200). -/
def State.endItems (s : State) (n : Nat) : State :=
  let c := s.core n
  let due (x : Ctx) : List Item := x.items.filter fun i => i.eoc && decide (i.due < x.clk)
  let keep (x : Ctx) : Ctx := { x with items := x.items.filter fun i => !(i.eoc && decide (i.due < x.clk)) }
  let l := ordSort (fun i => 8 * i.seq + i.slot) (((c.held.map due).getD []) ++ ((c.tail.map due).getD []) ++ due c.ctx)
  l.foldl (fun s i => i.acts.foldl (commitAct s.mem c n i) s)
    (s.setCore n { c with ctx := keep c.ctx, held := c.held.map keep, tail := c.tail.map keep })

/-- Whether a unit that has issued UEND has drained (R111). -/
def Core.drained (c : Core) : Bool :=
  c.run == .drain && c.tail.isNone && c.ctx.items.isEmpty && c.ctx.macros.isEmpty && c.ctx.mx.runs.isEmpty && c.ctx.mx.pend.isEmpty &&
    c.qa.isEmpty && c.qb.isEmpty && c.nt.isEmpty

/-- The end of a cycle: arrivals that met no receive, schedule counts, changes at the end of the cycle, hand-overs; then barriers whose
last member arrived, iteration boundaries and units that have drained, on the agenda. -/
def State.finishCores (s : State) : State :=
  let ns := s.cores.map Prod.fst
  let s := ns.foldl (fun s n =>
    let c := s.core n
    if c.arrived.isEmpty && c.recv.isNone then s
    else if c.run == .idle then s.setCore n { c with arrived := [], recv := none } else s.setCore n (c.matchArrivals n)) s
  let s := ns.foldl (fun s n => (s.core n).emits.foldl (State.emit n) s) s
  let s := ns.foldl (fun s n =>
    let c := s.core n
    let d := c.mergeStrays
    (s.setCore n { d with
      emits := [], ctx := if s.ticks c then { d.ctx with clk := c.ctx.clk + 1 } else d.ctx
      tail := if s.isGated c then d.tail else d.tail.map fun x => { x with clk := x.clk + 1 } }).endItems n) s
  let s := s.spread true
  let bars := ns.filterMap fun n =>
    let c := s.core n
    (c.bgroups.find? fun b => b.2.arrived && (s.barrierCores c b.1).head? == some n && s.allArrived c b.1).map fun b => Instr.barrierRelease n b.1
  { s with agenda := s.agenda ++ bars }

/-- What follows the barriers of a cycle: iteration boundaries, and units that end. -/
def State.finishBounds (s0 : State) : State :=
  let s := s0.barrierQuench
  let bounds := (s.cores.filter fun x => x.2.bound).map fun x => Instr.iterationBoundary x.1
  let ends := (s.cores.filter fun x => x.2.run == .drain && (x.2.drained || (x.2.mode != 0 && x.2.saved.isSome))).map fun x => Instr.unitComplete x.1
  { s with
    cores := s.cores.map fun x => if x.2.bound then (x.1, { x.2 with bound := false }) else x
    agenda := s.agenda ++ bounds ++ ends }

/-- Whether a runtime hold or a debugger halt stands on a core's group (R251). -/
def State.resumeHeld (s : State) (c : Core) : Bool :=
  match Map.get? s.groups c.group with
  | none => false
  | some x => x.halt || ((Map.get? s.launches x.launch).map Launch.hold).getD false

/-- The changes of the LTTs of this cycle, which the checks of the next one are the first to see; entries that stood at a page that a walk has
filled go on (R226, R271). -/
def Core.applyLtt (c : Core) : Core :=
  if c.lttDue.isEmpty then c
  else
    let c1 := { c with ltt := c.lttNext, lttDue := [] }
    if c.lttDue.any fun w => match w with | .fill .. => true | _ => false then c1.unfault else c1

/-- The waits whose condition holds at the end of a cycle; those of a handler end by themselves (R31, R107, R108). A handler to which a nested
trap has returned issues again 16 cycles after the cycle that follows its ERET, hold and halt permitting, while its group stays stopped
(R248, R251; DESIGN CHOICE, log entry 40). What a cycle changes of an LTT stands from here on. -/
def State.settle (s : State) : State :=
  { s with cores := s.cores.map fun (x : Nat × Core) =>
      let x := (x.1, x.2.applyLtt)
      match x.2.run with
      | .wait w =>
        let c := if x.2.sat.isNone && s.holds x.2 w then { x.2 with sat := some (s.tickOf x.2) } else x.2
        (x.1, if c.mode != 0 && c.sat.isSome && c.restart.isNone then
            { c with restart := some (max (c.sat.getD 0) c.holdTo + 8) } else c)
      | .ready =>
        let c := x.2
        (x.1, if c.mode != 0 && c.restart.isNone && !(s.resumeHeld c) then
            { c with restart := some (s.tickOf c + 17 + c.ctx.rskew.toNat) } else c)
      | _ => x }

end Sys2Proof.Machine
end

