-- ==== Sys2Proof/Machine/Counters.lean ====
section
/-! DEFINITION. Completion counters, triggers and their interrupts, and when an increment's coverage has performed
(spec/09 R214, R215; spec/11 R241, R242; spec/14 R294 to R296, R298). -/

namespace Sys2Proof.Machine

open Sys2Proof

/-! ## Counters (R294 to R296) -/

/-- A counter that nothing has set (R294). -/
def Counter.zero : Counter := ⟨0, 0, 0, 0, false, false, false, false, 0, 0, 0, []⟩

/-- The parent counter, where PARENT enables it (R294). -/
def Counter.parent (k : Counter) : Option Nat := if k.enabled then some k.parentNo else none

/-- The counter that a counter chains into: none with LIMIT 0 (R294). -/
def Counter.chainsTo (k : Counter) : Option Nat := if k.limit = 0 then none else k.parent

/-- GT units of one microsecond (R323). -/
def gtMicro : Nat := 1000 * 65536

/-- A counter after a change, at a global time: an armed notification whose condition holds starts its window, or goes at once where the
counter is cancelled; each arming has an interrupt of its own (R296). -/
def Counter.notice (gt : Nat) (k : Counter) : Counter :=
  if k.armed && (k.cancelled || decide (k.notify ≤ k.value)) then
    { k with armed := false, sent := true, dueAt := k.dueAt ++ [if k.cancelled then gt else gt + k.window * gtMicro] }
  else k

/-- The slots of the counter triggers that a counter's value has reached, by ascending threshold and then slot (R214). -/
def Part.ready (p : Part) (cc : Nat) (v : Word) : List Nat :=
  (ordSort Prod.fst (p.triggers.filterMap fun t =>
    match t.2 with
    | .counter w at_ _ => if w = cc && decide (at_ ≤ v) then some (at_.toNat, t.1) else none
    | .time .. => none)).map Prod.snd

/-- One atomic addition to a counter, the triggers it fires, and the multiples of LIMIT that it hands to PARENT (R214, R295, R296).
`fuel` bounds the chain. -/
def bumpCounter (fuel part cc amt : Nat) (s : State) : State :=
  match fuel with
  | 0 => s
  | f + 1 =>
    match Map.get? s.parts part with
    | none => s
    | some p =>
      let k := Map.get p.counters cc Counter.zero
      let v := k.value.toNat + amt
      let k1 := { k with value := BitVec.ofNat 64 v }.notice s.gt
      let s1 := s.setPart part { p with counters := Map.put p.counters cc k1 }
      let s2 := (p.ready cc k1.value).foldl (fun s slot =>
        match (Map.get? s.parts part).bind fun p => (Map.get? p.triggers slot).map fun t => (p, t) with
        | some (p, .counter _ _ target) => bumpCounter f part target 1 (s.setPart part { p with triggers := Map.del p.triggers slot })
        | _ => s) s1
      let crossed := if k.limit = 0 then 0 else v / k.limit.toNat - k.value.toNat / k.limit.toNat
      match k.parent with
      | some q => if crossed = 0 then s2 else bumpCounter f part q crossed s2
      | none => s2

/-- An increment of a partition's counter, with all that chains from it (R295; log entry 43 bounds a chain that would not end). -/
def State.bump (s : State) (part cc amt : Nat) : State := bumpCounter 65536 part cc amt s

/-- A counter marked CANCELLED (R298). -/
def State.markCancelled (s : State) (part cc : Nat) : State :=
  match Map.get? s.parts part with
  | none => s
  | some p =>
    s.setPart part { p with counters := Map.put p.counters cc ({ Map.get p.counters cc Counter.zero with cancelled := true }.notice s.gt) }

/-- CANCEL_MARK: once no discarded access can still perform (R298). -/
def execCancelMark (part cc : Nat) (s : State) : Out := .next (s.markCancelled part cc)

/-- COUNTER_INTERRUPT: the interrupt of each arming whose window has ended (R296). -/
def execCounterInterrupt (part cc : Nat) (s : State) : Out :=
  match Map.get? s.parts part with
  | none => .next s
  | some p =>
    match Map.get? p.counters cc with
    | none => .next s
    | some k =>
      let now := k.dueAt.filter fun t => decide (t ≤ s.gt)
      .next { s.setPart part { p with counters := Map.put p.counters cc { k with dueAt := k.dueAt.filter fun t => !(decide (t ≤ s.gt)) } } with
        outbox := s.outbox ++ now.map fun _ => .interrupt part k.hart k.ident }

/-- TIME_TRIGGER_FIRE: in the first cycle in which GT reaches the threshold (R214, R323). -/
def execTimeTriggerFire (part slot : Nat) (s : State) : Out :=
  match Map.get? s.parts part with
  | none => .next s
  | some p =>
    match Map.get? p.triggers slot with
    | some (.time at_ cc) =>
      if at_.toNat ≤ s.gt then .next ((s.setPart part { p with triggers := Map.del p.triggers slot }).bump part cc 1) else .next s
    | _ => .next s

/-- The time triggers that have come due. -/
def State.dueTriggers (s : State) : List Instr :=
  s.parts.flatMap fun x => x.2.triggers.filterMap fun t =>
    match t.2 with
    | .time at_ _ => if at_.toNat ≤ s.gt then some (.timeTriggerFire x.1 t.1) else none
    | .counter .. => none

/-- Counter triggers armed with a condition that already holds fire at once (R214). -/
def State.fireArmed (s : State) : State :=
  s.parts.foldl (fun s x =>
    (List.range 16).foldl (fun s t =>
      match (Map.get? s.parts x.1).bind fun p => (Map.get? p.triggers t).map fun tr => (p, tr) with
      | some (p, .counter w at_ cc) =>
        if at_ ≤ (Map.get p.counters w Counter.zero).value then (s.setPart x.1 { p with triggers := Map.del p.triggers t }).bump x.1 cc 1 else s
      | _ => s) s) s

/-! ## Coverage (R215, R241, R242) -/

/-- Whether a queue entry has performed its part at core scope: a store or packet whose cells or flits have been read (R241). -/
def QEntry.readOut (e : QEntry) : Bool :=
  match e.kind with
  | .tst _ _ _ _ _ _ _ out => decide (64 ≤ out.length)
  | .packet _ => true
  | _ => false

/-- Whether a queue entry belongs to an access of a core: its own number, or the CXSEND that made its packet. -/
def QEntry.isOf (n u : Nat) (e : QEntry) : Bool :=
  e.uid == u || (match e.kind with | .packet p => p.sent == some (n, u) | _ => false)

/-- Whether an access of a core, by number, has performed at a scope (R241). -/
def State.performedAt (s : State) (n scope u : Nat) : Bool :=
  let c := s.core n
  let free (x : Ctx) : Bool := (x.items.all fun i => i.uid != u) && x.macros.all fun m => m.uid != u
  let ev (i : Instr) : Bool := match i with | .coordinatePacket _ p => p.sent != some (n, u) | _ => true
  free c.ctx && (c.held.map free).getD true && (c.tail.map free).getD true &&
    ((c.qa ++ c.qb ++ c.nt).all fun e => !(e.isOf n u) || (scope == 0 && e.readOut)) &&
    (scope == 0 || ((s.flights.all fun f => ev f.ev) && s.waiting.all fun h => ev h.ev)) &&
    (decide (scope < 4) || s.txs.all fun t => t.unacked.all fun p => p.2.sent != some (n, u))

/-- Whether the coverage of an increment has performed at its scope (R242); one that a completed CTXSAVE has recorded is made only after the
restore (R257). -/
def State.covered (s : State) (i : Incr) : Bool := (s.core i.core).saved.isNone && i.cover.all (s.performedAt i.core i.scope)

/-- COUNTER_INCREMENT: an increment whose coverage has performed, in one atomic addition (R215, R242). -/
def execCounterIncrement (index : Nat) (s : State) : Out :=
  match s.incrs[index]? with
  | none => .next s
  | some i =>
    if !(s.covered i) then .next s
    else .next ({ s with incrs := s.incrs.eraseIdx index }.bump i.part i.cc i.amt.toNat)

end Sys2Proof.Machine
end

