-- ==== Sys2Proof/Machine/Image.lean ====
section
/-! DEFINITION. Kernel images, handler images and launch records: their fields, the checks that refuse them, and the pages that a unit's
LTT gets from them (spec/03 R71, R72; spec/04 R76; spec/14 R290, R293, R299). -/

namespace Sys2Proof.Machine

open Sys2Proof

/-! ## The image header (R71) -/

/-- Whether bytes `lo` to `hi` are all zero. -/
def zeros (l : List Byte) (lo hi : Nat) : Bool := imgField l lo (hi + 1 - lo) == 0

/-- CODEOFF. -/
def imCODEOFF (h : List Byte) : Nat := imgField h 0x08 4
/-- CODELINES. -/
def imCODELINES (h : List Byte) : Nat := imgField h 0x0C 4
/-- PATOFF. -/
def imPATOFF (h : List Byte) : Nat := imgField h 0x10 4
/-- PATCOUNT. -/
def imPATCOUNT (h : List Byte) : Nat := imgField h 0x14 2
/-- BUFCOUNT. -/
def imBUFCOUNT (h : List Byte) : Nat := imgField h 0x16 2
/-- BUFOFF. -/
def imBUFOFF (h : List Byte) : Nat := imgField h 0x18 4
/-- GRPOFF. -/
def imGRPOFF (h : List Byte) : Nat := imgField h 0x1C 4
/-- DATASIZE. -/
def imDATASIZE (h : List Byte) : Nat := imgField h 0x20 8
/-- DATAOFF. -/
def imDATAOFF (h : List Byte) : Nat := imgField h 0x28 4
/-- PARAMS. -/
def imPARAMS (h : List Byte) : Nat := imgField h 0x2C 4
/-- ROWS. -/
def imROWS (h : List Byte) : Nat := imgField h 0x30 2
/-- COLS. -/
def imCOLS (h : List Byte) : Nat := imgField h 0x32 2
/-- CORES. -/
def imCORES (h : List Byte) : Nat := imgField h 0x34 1
/-- STITCH. -/
def imSTITCH (h : List Byte) : Nat := imgField h 0x35 1
/-- WATCHDOG. -/
def imWATCHDOG (h : List Byte) : Nat := imgField h 0x38 4

/-- Whether a header is one that R71 allows; the ranges of CODEOFF, CODELINES, PATCOUNT and CORES too (DESIGN CHOICE, log entry 65). -/
def headerOk (h : List Byte) : Bool :=
  imgField h 0 4 == 0x49364E58 && imgField h 4 2 == 1 && imgField h 6 2 == 256 && imCODEOFF h % 32 == 0 &&
    decide (1 ≤ imCODELINES h) && decide (imCODELINES h ≤ 8192) && decide (imPATCOUNT h ≤ 512) && decide (imSTITCH h ≤ 4) &&
    decide (1 ≤ imCORES h) && decide (imCORES h ≤ 8) && zeros h 0x36 0x37 && zeros h 0x3C 0xFF

/-! ## Buffer and group entries (R72) -/

/-- VBASE. -/
def bfVBASE (e : List Byte) : Nat := imgField e 0 8
/-- SIZE. -/
def bfSIZE (e : List Byte) : Nat := imgField e 8 8
/-- PAGE. -/
def bfPAGE (e : List Byte) : Nat := imgField e 0x10 1
/-- The format attribute. -/
def bfFMT (e : List Byte) : Nat := imgField e 0x11 1 % 16
/-- The block geometry. -/
def bfGEOM (e : List Byte) : Nat := imgField e 0x11 1 / 16 % 8
/-- The compression class. -/
def bfCLASS (e : List Byte) : Nat := imgField e 0x12 1 % 8
/-- Write permission. -/
def bfWR (e : List Byte) : Bool := (imgField e 0x12 1).testBit 3
/-- Pinned. -/
def bfPIN (e : List Byte) : Bool := (imgField e 0x13 1).testBit 0
/-- The window code. -/
def bfWIN (e : List Byte) : Nat := imgField e 0x13 1 / 2 % 4
/-- INITOFF; none for 0xFFFF_FFFF. -/
def bfINIT (e : List Byte) : Option Nat := if imgField e 0x14 4 = 0xFFFFFFFF then none else some (imgField e 0x14 4)
/-- INITLEN. -/
def bfLEN (e : List Byte) : Nat := imgField e 0x18 8

/-- The pages of a buffer: SIZE rounded up. -/
def bfPages (e : List Byte) : Nat := (bfSIZE e + pageBytes (bfPAGE e) - 1) / pageBytes (bfPAGE e)

/-- The window of a window code, as a range of addresses (R26). -/
def winRange (w : Nat) : Nat × Nat :=
  match w with
  | 0 => (0, 0x100000)
  | 1 => (0x1000000, 0x2000000)
  | _ => (0x100000000, 0x1000000000000)

/-- Whether a buffer entry is one that R72 allows. -/
def bufferOk (data : Nat) (e : List Byte) : Bool :=
  let p := bfPAGE e
  let w := bfWIN e
  decide (p ≤ 4) && decide (w ≤ 2) && (w != 0 || p == 0) && (w != 1 || p == 1) && decide (bfFMT e ≤ 12) && decide (bfGEOM e ≤ 2) &&
    decide (bfCLASS e ≤ 4) && decide (imgField e 0x11 1 < 128) && decide (imgField e 0x12 1 < 16) && decide (imgField e 0x13 1 < 8) &&
    bfVBASE e % pageBytes p == 0 && decide ((winRange w).1 ≤ bfVBASE e) && decide (bfVBASE e + bfSIZE e ≤ (winRange w).2) &&
    decide (bfLEN e ≤ bfSIZE e) && (match bfINIT e with | some o => decide (o + bfLEN e ≤ data) | none => true)

/-- Whether a group entry is one that R72 allows. -/
def groupOk (e : List Byte) : Bool := decide (imgField e 0 1 ≤ 3) && zeros e 1 3

/-! ## A whole image as the scheduler reads it -/

/-- An image by address: its header and its buffer and group entries. -/
structure Image where
  base    : Nat
  head    : List Byte
  buffers : List (List Byte)
  groups  : List (List Byte)
  deriving DecidableEq, Repr

/-- Entries of `z` bytes each, `k` of them. -/
def pieces (z k : Nat) (l : List Byte) : List (List Byte) := (List.range k).map fun i => (l.drop (z * i)).take z

/-- The image at a guest-physical address of a partition; none where a byte of its header or entries cannot be read, or the page of BUFOFF, also
with BUFCOUNT 0 (DESIGN CHOICE, log entry 65). -/
def readImageAt (m : Memory) (p : Part) (a : Nat) : Option Image :=
  match gpaBytes m p a 256 with
  | none => none
  | some h =>
    match gpaBytes m p (a + imBUFOFF h) (32 * imBUFCOUNT h), gpaBytes m p (a + imGRPOFF h) 64 with
    | some b, some g => some ⟨a, h, pieces 32 (imBUFCOUNT h) b, pieces 8 8 g⟩
    | _, _ => none

/-- The LTT pages of an image's buffers in a window: buffer, and page address; numbered in order (R72). -/
def Image.pages (i : Image) (w : Nat) : List (List Byte × Nat) :=
  (i.buffers.filter fun e => bfWIN e == w).flatMap fun e => (List.range (bfPages e)).map fun k => (e, bfVBASE e + k * pageBytes (bfPAGE e))

/-- Whether an image is one that R71, R72, R76 and R293 allow beside a handler at a base page. -/
def Image.ok (i : Image) (hbase : Nat) : Bool :=
  headerOk i.head && (i.buffers.all (bufferOk (imDATASIZE i.head))) && i.groups.all groupOk &&
    decide ((i.pages 0).length ≤ 64) && decide ((i.pages 1).length ≤ 64) && decide ((i.pages 2).length ≤ 896) &&
    decide (imCODELINES i.head ≤ 256 * hbase) &&
    (imPARAMS i.head == 0 ||
      (decide (imPARAMS i.head ≤ 0x4000) && decide ((i.pages 0).length < 64) &&
        (i.pages 0).all fun e => !(decide (e.2 ≤ 0xFC000) && decide (0xFC000 < e.2 + 0x4000))))

/-- An LTT entry from its fields, present with a frame (R225). -/
def lttMake (va psize fmt geom cls : Nat) (pin rd wr p : Bool) (frame : Nat) : BitVec 128 :=
  BitVec.ofNat 128 (2 ^ 38 + (if p then 2 ^ 39 else 0) + (if pin then 2 ^ 40 else 0) + (if rd then 2 ^ 41 else 0) + (if wr then 2 ^ 42 else 0) +
    cls * 2 ^ 43 + geom * 2 ^ 46 + fmt * 2 ^ 49 + frame / 0x4000 * 2 ^ 53 + psize * 2 ^ 91 + va / 0x4000 * 2 ^ 94)

/-- The LTT entry of one page of a buffer, without its frame. -/
def pageEntry (x : List Byte × Nat) : BitVec 128 :=
  lttMake x.2 (bfPAGE x.1) (bfFMT x.1) (bfGEOM x.1) (bfCLASS x.1) (bfPIN x.1) true (bfWR x.1) false 0

/-- A device page's entry with the frame that the nested walk finds, or left absent; RD = 1, and WR from CLASS (R72, R293). -/
def deviceEntry (m : Memory) (p : Part) (x : List Byte × Nat) : BitVec 128 :=
  match nestedWalk m p none (pageEntry x) x.2 with
  | .fill e => lttFill (pageEntry x) (lttFRAME e) true (bfWR x.1)
  | _ => pageEntry x

/-- Whether the walk of a device page meets a page that moves: it waits for the end of the move and walks again (R270). -/
def pageMoving (m : Memory) (p : Part) (x : List Byte × Nat) : Bool :=
  match nestedWalk m p none (pageEntry x) x.2 with
  | .moving => true
  | _ => false

/-- The LTT of a unit on a core (R72, R293): a page a parameter block adds comes after the image's face pages. -/
def Image.ltt (i : Image) (m : Memory) (p : Part) (n : Nat) : Map (BitVec 128) :=
  let face := (i.pages 0).map fun x =>
    lttFill (pageEntry x) (faceSpa n + x.2) true (bfWR x.1)
  let face := if imPARAMS i.head = 0 then face else face ++ [lttMake 0xFC000 0 0 0 0 false true false true (faceSpa n + 0xFC000)]
  let clus := (i.pages 1).map fun x => lttFill (pageEntry x) (sramSpa (clusterOf n) + (x.2 - 0x1000000)) true (bfWR x.1)
  let dev := (i.pages 2).map (deviceEntry m p)
  (face.zipIdx.map fun x => (x.2, x.1)) ++ (clus.zipIdx.map fun x => (64 + x.2, x.1)) ++ dev.zipIdx.map fun x => (128 + x.2, x.1)

/-- Whether some page that holds initial data of a device buffer stays absent (R293). -/
def Image.dataAbsent (i : Image) (m : Memory) (p : Part) : Bool :=
  (i.pages 2).any fun x =>
    (bfINIT x.1).isSome && decide (x.2 < bfVBASE x.1 + bfLEN x.1) && !(lttP (deviceEntry m p x)) && !(pageMoving m p x)

/-- Whether a page of a device buffer moves. -/
def Image.moving (i : Image) (m : Memory) (p : Part) : Bool := (i.pages 2).any (pageMoving m p)

/-- The initial bytes of a buffer, by virtual address; none where they cannot be read (R72; DESIGN CHOICE, log entry 72). -/
def Image.initBytes (i : Image) (m : Memory) (p : Part) (e : List Byte) : List Byte :=
  match bfINIT e with
  | none => []
  | some o => (gpaBytes m p (i.base + imDATAOFF i.head + o) (bfLEN e)).getD []

/-- s1, the address of the parameter block (R293). -/
def Image.paramBase (i : Image) : Nat :=
  if imPARAMS i.head = 0 then 0 else 0x100000 - (imPARAMS i.head + 255) / 256 * 256

/-- A list of 16-bit unit indices ended by 0xFFFF, or by a byte that cannot be read (R72; DESIGN CHOICE, log entry 65). `fuel` bounds it. -/
def unitList (m : Memory) (p : Part) (fuel a : Nat) : List Nat :=
  match fuel with
  | 0 => []
  | f + 1 =>
    match gpaBytes m p a 2 with
    | none => []
    | some b => let u := ofBytes b; if u = 0xFFFF then [] else u :: unitList m p f (a + 2)

/-- The member units of each barrier group that an image declares, for a unit (R16, R72). A list may name a unit that the launch does not have: it
is kept as a member that never arrives (DESIGN CHOICE, log entry 82). -/
def Image.barriers (i : Image) (m : Memory) (p : Part) (units cores unit : Nat) : Map BGroup :=
  (i.groups.zipIdx).filterMap fun x =>
    let members : List Nat :=
      match imgField x.1 0 1 with
      | 1 => List.range units
      | 2 => (List.range cores).map fun k => unit / cores * cores + k
      | 3 => (unitList m p 65536 (i.base + imgField x.1 4 4)).eraseDups
      | _ => []
    if members.contains unit then some (x.2, ⟨members, false, false, false, false⟩) else none

/-! ## Launch records (R290) -/

/-- IMAGE. -/
def rcIMAGE (r : BitVec 512) : Nat := byteField r 0 8
/-- PARAMS. -/
def rcPARAMS (r : BitVec 512) : Nat := byteField r 8 8
/-- GRAPH; in a node entry, OFFSET. -/
def rcGRAPH (r : BitVec 512) : Nat := byteField r 0x10 8
/-- NODE; in a node entry, the REGION slot. -/
def rcNODE (r : BitVec 512) : Nat := byteField r 0x18 2
/-- ROWS. -/
def rcROWS (r : BitVec 512) : Nat := byteField r 0x1A 1
/-- COLS. -/
def rcCOLS (r : BitVec 512) : Nat := byteField r 0x1B 1
/-- CORES. -/
def rcCORES (r : BitVec 512) : Nat := byteField r 0x1C 1
/-- STITCH. -/
def rcSTITCH (r : BitVec 512) : Nat := byteField r 0x1D 1
/-- HANDOVER. -/
def rcHANDOVER (r : BitVec 512) : Bool := (byteField r 0x1E 1).testBit 0
/-- The CCU counter, where enabled. -/
def rcCCU (r : BitVec 512) : Option Nat := if (byteField r 0x1E 1).testBit 1 then some (byteField r 0x20 1 % 32) else none
/-- The CCL counter, where enabled. -/
def rcCCL (r : BitVec 512) : Option Nat := if (byteField r 0x1E 1).testBit 2 then some (byteField r 0x1F 1 % 32) else none
/-- WATCHDOG. -/
def rcWATCHDOG (r : BitVec 512) : Nat := byteField r 0x24 4
/-- SAVE. -/
def rcSAVE (r : BitVec 512) : Nat := byteField r 0x28 8

/-- Whether a record's reserved bits are zero and its fields in range (R290). -/
def recordOk (r : BitVec 512) : Bool :=
  rcIMAGE r % 256 == 0 && decide (byteField r 0x1E 1 < 8) && decide (byteField r 0x1F 1 < 32) && decide (byteField r 0x20 1 < 32) &&
    byteField r 0x21 3 == 0 && rcSAVE r % 4096 == 0 && byteField r 0x30 16 == 0 && decide (rcCORES r ≤ 8) &&
    (decide (rcSTITCH r ≤ 4) || rcSTITCH r == 0xFF)

/-- Whether a record replays a whole graph (R299). -/
def isReplay (r : BitVec 512) : Bool := rcGRAPH r != 0 && rcNODE r == 0xFFFF

/-- Whether a replay record has no field but those that R299 allows it: PARAMS, the CCL enable, CCL and WATCHDOG. -/
def replayOk (r : BitVec 512) : Bool :=
  rcIMAGE r == 0 && byteField r 0x1A 4 == 0 && (byteField r 0x1E 1 == 0 || byteField r 0x1E 1 == 4) && decide (byteField r 0x1F 1 < 32) &&
    byteField r 0x20 4 == 0 && byteField r 0x28 24 == 0

/-! ## Handler images (R76) -/

/-- Whether a handler image may be installed at a base page: no patterns, buffers, data or parameters, no packed line, and not past
line 8,191. -/
def handlerOk (base : Nat) (h : List Byte) (code : List Byte) : Bool :=
  headerOk h && imPATCOUNT h == 0 && imBUFCOUNT h == 0 && imDATASIZE h == 0 && imPARAMS h == 0 && decide (1 ≤ base) && decide (base ≤ 31) &&
    decide (256 * base + imCODELINES h ≤ 8192) && code.length == 32 * imCODELINES h

end Sys2Proof.Machine
end

