-- ==== Sys2Proof/Machine/Launch.lean ====
section
/-! DEFINITION. Launches: the checks and the region of a record, admission from the queues, the start of every unit, and hand-over
(spec/14 R288 to R293, R300 to R302; spec/12 R258, R260). -/

namespace Sys2Proof.Machine

open Sys2Proof

/-- A launch replaced. -/
def State.setLaunch (s : State) (k : Nat) (l : Launch) : State := { s with launches := Map.put s.launches k l }

/-- A launch queue replaced. -/
def State.setQueue (s : State) (part q : Nat) (x : Queue) : State :=
  match Map.get? s.parts part with
  | none => s
  | some p => s.setPart part { p with queues := Map.put p.queues q x }

/-- Bytes written by the scheduler at a guest-physical address (R289, R299). -/
def State.gpaWrite (s : State) (part a : Nat) (l : List Byte) : State :=
  match Map.get? s.parts part with
  | none => s
  | some p =>
    (pageStarts a l.length).foldl (fun s x =>
      match gpaOf s.mem p x with
      | some k => s.devWrite part k ((l.drop (x - a)).take (0x4000 - x % 0x4000))
      | none => s) s

/-! ## Queue descriptors and records (R288 to R290) -/

/-- BASE of a queue descriptor. -/
def qdBASE (d : Mask) : Nat := byteField d 0 8
/-- TAIL. -/
def qdTAIL (d : Mask) : Nat := byteField d 8 8
/-- HEAD. -/
def qdHEAD (d : Mask) : Nat := byteField d 0x10 8
/-- SIZE. -/
def qdSIZE (d : Mask) : Nat := byteField d 0x18 1
/-- PRIO. -/
def qdPRIO (d : Mask) : Nat := byteField d 0x19 1 % 4
/-- JOB. -/
def qdJOB (d : Mask) : Nat := byteField d 0x1A 2

/-- Whether a queue descriptor is one that R288 allows. -/
def queueOk (d : Mask) : Bool :=
  qdBASE d % 64 == 0 && qdTAIL d % 8 == 0 && qdHEAD d % 8 == 0 && decide (4 ≤ qdSIZE d) && decide (qdSIZE d ≤ 16) &&
    byteField d 0x19 1 / 4 % 32 == 0 && byteField d 0x1C 4 == 0

/-- The tail word of a queue as memory holds it. -/
def State.tailOf (s : State) (p : Part) (q : Queue) : Option Nat := (gpaBytes s.mem p (qdTAIL q.desc) 8).map ofBytes

/-- Record `i` of a queue's ring; zeros where it cannot be read. -/
def State.ringRecord (s : State) (p : Part) (q : Queue) (i : Nat) : BitVec 512 :=
  BitVec.ofNat 512 (ofBytes ((gpaBytes s.mem p (qdBASE q.desc + 64 * (i % 2 ^ qdSIZE q.desc)) 64).getD []))

/-- LAUNCH_RECORD: the scheduler sees a tail write, and copies the head record with one read, after which it writes the head word. A
tail too far ahead stops the queue (R289, R290). -/
def execLaunchRecord (part queue : Nat) (s : State) : Out :=
  match (Map.get? s.parts part).bind fun p => (Map.get? p.queues queue).map fun q => (p, q) with
  | none => .next s
  | some (p, q) =>
    if !q.enabled || q.stopped then .next s
    else
      match s.tailOf p q with
      | none => .next s
      | some t =>
        let ahead := (t + 2 ^ 64 - q.taken % 2 ^ 64) % 2 ^ 64
        if 2 ^ qdSIZE q.desc < ahead then
          .next ((s.setQueue part queue { q with stopped := true }).sendEvent part 0x500 0)
        else
          let new := ahead - (q.seen - q.taken)
          let q1 := { q with seen := q.taken + ahead, times := q.times ++ List.replicate new s.gt }
          if q1.head.isSome || q1.taken = q1.seen then .next (s.setQueue part queue q1)
          else
            let r := s.ringRecord p q1 q1.taken
            .next ((s.setQueue part queue { q1 with head := some r, taken := q1.taken + 1 }).gpaWrite part (qdHEAD q.desc)
              (toBytes 8 ((q1.taken + 1) % 2 ^ 64)))

/-! ## What a record asks for (R290, R293) -/

/-- Whether the save areas of every unit are contiguous in system-physical memory (R293). -/
def saveContiguous (m : Memory) (p : Part) (save units : Nat) : Bool :=
  save == 0 ||
    (List.range units).all fun u =>
      let a := save + 0x2A1000 * u
      match gpaOf m p a with
      | none => false
      | some k => (pageStarts a 0x2A1000).all fun x => gpaOf m p x == some (k + (x - a))

/-- The launch that a record asks for, without its region, with the handler image of the moment (R76); none where it is refused. `params` is
the block's guest-physical address. -/
def planLaunch (s : State) (part : Nat) (p : Part) (queue job : Nat) (r : BitVec 512) (params wdog : Nat) (ccu ccl : Option Nat) (save : Nat) :
    Option Launch :=
  if !(recordOk r) then none
  else
    match readImageAt s.mem p (rcIMAGE r), p.handler with
    | some i, some (hbase, code) =>
      let rows := if rcROWS r = 0 then imROWS i.head else rcROWS r
      let cols := if rcCOLS r = 0 then imCOLS i.head else rcCOLS r
      let cores := if rcCORES r = 0 then imCORES i.head else rcCORES r
      let stitch := if rcSTITCH r = 0xFF then imSTITCH i.head else rcSTITCH r
      let limit := if wdog = 0 then imWATCHDOG i.head else wdog
      let units := rows * cols * cores
      if !(i.ok hbase) || i.dataAbsent s.mem p || rows = 0 || cols = 0 || p.rows < rows || p.cols < cols || !(saveContiguous s.mem p save units)
      then none
      else
        some ⟨p.nextId, part, queue, job, .waiting, r, rcIMAGE r, params, imPARAMS i.head, 0, 0, rows, cols, cores, stitch, ccu, ccl, save,
          if limit = 0 then BitVec.allOnes 64 else BitVec.ofNat 64 limit, 0, units, [], [], [], none, none,
          some (hbase, code), none, false, false, none, 0, [], [], []⟩
    | _, _ => none

/-! ## Graph objects (R299, R300) -/

/-- Whether a graph header is one that R299 allows. -/
def graphOk (h : List Byte) : Bool :=
  imgField h 0 4 == 0x48504147 && decide (1 ≤ imgField h 4 2) && decide (imgField h 4 2 ≤ 256) && imgField h 6 1 / 32 % 4 == 0 &&
    decide (imgField h 7 1 < 2) && imgField h 0x18 4 % 256 == 0 && decide (imgField h 0x18 4 ≤ 0x100000) && decide (imgField h 0x1C 1 < 32) &&
    zeros h 0x1D 0x3F

/-- A graph's header; none where it cannot be read or is refused. -/
def State.graphHead (s : State) (p : Part) (g : Nat) : Option (List Byte) := (gpaBytes s.mem p g 64).filter graphOk

/-- NODES of a graph. -/
def grNODES (h : List Byte) : Nat := imgField h 4 2

/-- The guest-physical address of a parameter bank. -/
def grBANK (h : List Byte) (b : Nat) : Nat := if b = 0 then imgField h 8 8 else imgField h 0x10 8

/-- The last patched bank. -/
def grLast (h : List Byte) : Nat := if (imgField h 0x1C 1).testBit 4 then 1 else 0

/-- A node entry of a graph. -/
def State.nodeEntry (s : State) (p : Part) (g n : Nat) : BitVec 512 :=
  BitVec.ofNat 512 (ofBytes ((gpaBytes s.mem p (g + 0x40 + 64 * n) 64).getD []))

/-- A node entry in launch-record form: its OFFSET and REGION are no fields of a record. -/
def nodeRecord (e : BitVec 512) : BitVec 512 := e &&& ~~~(BitVec.ofNat 512 (2 ^ 80 - 1) <<< 128)

/-- The plan of node `n` of a graph, its parameters in a bank; counters, save areas and a watchdog limit of a record that launches it
alone go before the node's own (R290, R299). -/
def State.planNode (s : State) (part : Nat) (p : Part) (queue job g : Nat) (h : List Byte) (bank n : Nat) (rec_ : Option (BitVec 512)) (wdog : Nat) :
    Option Launch :=
  let e := s.nodeEntry p g n
  let r := nodeRecord e
  let ccu := match rec_.bind rcCCU with | some k => some k | none => rcCCU r
  let ccl := match rec_.bind rcCCL with | some k => some k | none => rcCCL r
  let save := match rec_ with | some o => if rcSAVE o = 0 then rcSAVE r else rcSAVE o | none => rcSAVE r
  let limit := match rec_ with
    | some o => if rcWATCHDOG o = 0 then rcWATCHDOG r else rcWATCHDOG o
    | none => if rcWATCHDOG r = 0 then wdog else rcWATCHDOG r
  if 16 ≤ rcNODE e then none
  else planLaunch s part p queue job r (grBANK h bank + rcPARAMS e) limit ccu ccl save

/-- Replays of a graph that run and use a bank (R300). -/
def State.bankUsers (s : State) (part g bank : Nat) : Nat :=
  (s.replays.filter fun x => x.2.part == part && x.2.graph == g && x.2.bankNo == bank && !x.2.done).length

/-- BANKS of a graph as the scheduler writes it, with the last patched bank (R299). -/
def State.writeBanks (s : State) (part g last : Nat) : State :=
  s.gpaWrite part (g + 0x1C) [BitVec.ofNat 8 (s.bankUsers part g 0 % 4 + s.bankUsers part g 1 % 4 * 4 + last * 16)]

/-! ## Regions (R292, R302) -/

/-- The mesh clusters of a rectangle. -/
def rectangle (row col rows cols : Nat) : List Nat :=
  (List.range rows).flatMap fun r => (List.range cols).map fun q => (row + r) * 12 + col + q

/-- The origins of a shape in a partition, in ascending row and then column, as places of the mesh (R292). -/
def Part.origins (p : Part) (rows cols : Nat) : List (Nat × Nat) :=
  (List.range (p.rows + 1 - rows)).flatMap fun r => (List.range (p.cols + 1 - cols)).map fun q => (p.row + r, p.col + q)

/-- Whether a launch's stitching can be formed at an origin (R309). -/
def State.formable (s : State) (l : Launch) (o : Nat × Nat) : Bool := s.canStitch l.stitch o.1 o.2 l.rows l.cols

/-- Whether a launch can be placed at an origin: every cluster free by some measure, none of `taken`, and the stitching formed (R292). -/
def State.fits (s : State) (l : Launch) (free : Cluster → Bool) (taken : List Nat) (o : Nat × Nat) : Bool :=
  (rectangle o.1 o.2 l.rows l.cols).all (fun x => free (s.cluster x) && !(s.cluster x).dead && !(taken.contains x)) && s.formable l o

/-- Whether a cluster is free, or kept for one of some launches. -/
def Cluster.freeFor (mine : List Nat) (c : Cluster) : Bool := match c.busy with | none => true | some k => mine.contains k

/-- The first origin at which a launch can be placed (R292). -/
def State.region (s : State) (p : Part) (l : Launch) (mine : List Nat) : Option (Nat × Nat) :=
  (p.origins l.rows l.cols).find? (s.fits l (Cluster.freeFor mine) [])

/-- Whether a launch can be placed anywhere in its partition once it is free (R290). -/
def State.everPlaceable (s : State) (p : Part) (l : Launch) : Bool := (p.origins l.rows l.cols).any (s.formable l)

/-- The resident launch whose region a hand-over takes: of the same job and shape, and the one that holds the region, to which no successor
has come yet (R302). -/
def State.predecessor (s : State) (l : Launch) : Option (Nat × Launch) :=
  s.launches.find? fun x =>
    x.2.part == l.part && x.2.job == l.job && x.2.st == .resident && x.2.rows == l.rows && x.2.cols == l.cols && x.2.cores == l.cores &&
      !(s.launches.any fun y => y.2.handover == some x.1 && y.2.st == .waiting) &&
      (rectangle x.2.row x.2.col x.2.rows x.2.cols).all fun k => (s.cluster k).busy == some x.1

/-- The clusters of a launch's region taken by it; SRAM is zeroed for another job than the last (R264, R293). -/
def State.takeClusters (s : State) (k : Nat) (l : Launch) : State :=
  (rectangle l.row l.col l.rows l.cols).foldl (fun s x =>
    let c := s.cluster x
    let s1 := if c.lastJob = some (l.part, l.job) then s else s.clearKey (sramSpa x) 0x1000000
    { s1 with clusters := Map.put s1.clusters x { c with busy := some k, lastJob := some (l.part, l.job) } }) s

/-- Whether a launch is a later node of a launch's replay in its REGION slot (R301). -/
def State.sameSlot (s : State) (l y : Launch) : Bool :=
  match l.replay, y.replay with
  | some (r, j), some (q, k) =>
    r == q && decide (j < k) && match Map.get? s.replays r with
      | some x => (Map.get? x.slots j).isSome && Map.get? x.slots j == Map.get? x.slots k
      | none => false
  | _, _ => false

/-- The launch that waits for the region of a launch: its successor of a hand-over, or the next node of its slot (R301, R302). -/
def State.heir (s : State) (key : Nat) (l : Launch) : Option (Nat × Launch) :=
  s.launches.find? fun x => x.2.st == .waiting && (x.2.handover == some key || s.sameSlot l x.2)

/-- The clusters of a launch freed; those of a region that another launch waits for are kept for it (R301, R302). -/
def State.passClusters (s : State) (key : Nat) (l : Launch) : State :=
  let next (x : Nat) : Option Nat :=
    (s.heir key l).bind fun y => if (rectangle y.2.row y.2.col y.2.rows y.2.cols).contains x then some y.1 else none
  { s with clusters := s.clusters.map fun x => if x.2.busy = some key then (x.1, { x.2 with busy := next x.1 }) else x }

/-- The start cycle of a placement made now (R293; DESIGN CHOICE, log entry 15). -/
def State.placedAt (s : State) : Nat := s.cyc + 1 + Config.placementCycles s.oracle

/-- A launch placed with its region: admitted, and started in its start cycle (R291 to R293). -/
def State.place (s : State) (l : Launch) (o : Nat × Nat) : State :=
  let k := s.nextLaunch
  let l := { l with row := o.1, col := o.2, st := .loaded, startAt := some s.placedAt, shownAt := s.gt }
  let s1 := { s with nextLaunch := k + 1, oracle := s.oracle + 1, launches := Map.put s.launches k l }
  s1.takeClusters k l

/-! ## Choosing the next launch (R291) -/

/-- The number under which a partition keeps the debugger's own queue, which no QSET names: it takes no records, and a launch of the debugger
that has vacated its cores returns by it (R260, R341; DESIGN CHOICE, log entry 78). -/
def debugQueue : Nat := 8

/-- Two milliseconds of global time. -/
def agePeriod : Nat := 2000 * gtMicro

/-- The time at which a queue's head record, or the launch that returns ahead of it, became visible. -/
def State.headTime (s : State) (q : Queue) : Option Nat :=
  match q.back with
  | k :: _ => (Map.get? s.launches k).map Launch.shownAt
  | [] => if q.head.isSome then q.times.head? else none

/-- The effective priority of a head record (R291). -/
def effective (gt prio w : Nat) : Nat := min 3 (prio + (gt - w) / agePeriod)

/-- The queues with a head record, in the order in which the scheduler considers them (R291). -/
def State.considered (s : State) (p : Part) : List (Nat × Queue) :=
  let l := p.queues.filterMap fun x => if x.2.enabled then (s.headTime x.2).map fun w => (x.1, x.2, w) else none
  (ordSort (fun x => (3 - effective s.gt (qdPRIO x.2.1.desc) x.2.2) * 8 + (x.1 + 7 - p.lastQ) % 8) l).map fun x => (x.1, x.2.1)

/-- The key under which a partition keeps that a queued record was cancelled (R298). -/
def markKey (queue index : Nat) : Nat := queue * 2 ^ 64 + index % 2 ^ 64

/-- The head record gone from its queue. -/
def Queue.drop (q : Queue) : Queue := { q with head := none, times := q.times.drop 1 }

/-- A record that completes as cancelled: its CCL counter is marked, and the queue moves on (R290). -/
def State.refuse (s : State) (part queue : Nat) (q : Queue) (r : BitVec 512) : State :=
  let s1 := s.setQueue part queue q.drop
  match rcCCL r with
  | some cc => s1.markCancelled part cc
  | none => s1

/-- An admission counted: the last queue and the next LAUNCHID (R291, R293). -/
def State.admitted (s : State) (part queue ids : Nat) : State :=
  match Map.get? s.parts part with
  | none => s
  | some p => s.setPart part { p with lastQ := queue, nextId := p.nextId + BitVec.ofNat 32 ids }

/-- The regions of a replay's slots: each of the shape of the slot's lowest-numbered node, disjoint, the first choice of origins that places
every slot (R301); none where no choice does. `taken` holds the clusters of the slots before. -/
def State.slotRegions (s : State) (p : Part) (free : Cluster → Bool) (nodes : List (Nat × Launch)) (slots taken : List Nat) :
    Option (Map (Nat × Nat)) :=
  match slots with
  | [] => some []
  | k :: r =>
    match nodes.find? fun x => x.1 == k with
    | none => s.slotRegions p free nodes r taken
    | some (_, l) =>
      ((p.origins l.rows l.cols).filter (s.fits l free taken)).findSome? fun o =>
        (s.slotRegions p free nodes r (taken ++ rectangle o.1 o.2 l.rows l.cols)).map fun m => Map.put m k o

/-- A replay placed whole (R300, R301): its bank chosen and patched, its node launches waiting with their regions, the start cycle G. -/
def State.placeReplay (s : State) (part : Nat) (p : Part) (queue job : Nat) (r : BitVec 512) (h : List Byte) (bank : Nat)
    (nodes : List (Nat × Launch)) (regions : Map (Nat × Nat)) : State :=
  let g := rcGRAPH r
  let id := s.nextLaunch
  let patched : State := if rcPARAMS r = 0 then s else
    s.gpaWrite part (grBANK h bank) ((gpaBytes s.mem p (rcPARAMS r) (imgField h 0x18 4)).getD [])
  let last := if rcPARAMS r = 0 then grLast h else bank
  let launches : List (Nat × Launch) := nodes.zipIdx.map fun x =>
    let o := Map.get regions x.1.1 (0, 0)
    (id + 1 + x.2, { x.1.2 with row := o.1, col := o.2, lid := p.nextId + BitVec.ofNat 32 x.2, replay := some (id, x.2), shownAt := s.gt })
  let s1 := { patched with
    nextLaunch := id + 1 + nodes.length
    oracle := s.oracle + 1
    launches := launches.foldl (fun m (x : Nat × Launch) => Map.put m x.1 x.2) patched.launches
    replays := Map.put patched.replays id ⟨part, g, bank, rcCCL r, rcWATCHDOG r,
      (List.range nodes.length).map (fun n => (n, id + 1 + n)), nodes.zipIdx.map (fun (x : (Nat × Launch) × Nat) => (x.2, x.1.1)), s.placedAt, job, queue, false⟩ }
  let firsts := launches.filter fun (x : Nat × Launch) =>
    !(launches.any fun (y : Nat × Launch) => decide (y.1 < x.1) && y.2.row == x.2.row && y.2.col == x.2.col)
  let s2 := firsts.foldl (fun s x => s.takeClusters x.1 x.2) s1
  s2.writeBanks part g last

/-- Whether a page of a launch's device buffers moves: the walk that fills it waits for the end of the move (R270, R293). -/
def State.launchMoves (s : State) (l : Launch) : Bool :=
  match Map.get? s.parts l.part with
  | none => false
  | some p => (readImageAt s.mem p l.image).any fun i => i.moving s.mem p

/-- The outcome of the scheduler's look at one head record. -/
inductive Verdict where
  | refused
  | waits
  | admits (s : State) (ids : Nat)

/-- A replay record considered (R299 to R301). -/
def State.considerReplay (s : State) (part : Nat) (p : Part) (queue job : Nat) (r : BitVec 512) : Verdict :=
  match s.graphHead p (rcGRAPH r) with
  | none => .refused
  | some h =>
    if !(replayOk r) then .refused
    else
      let g := rcGRAPH r
      let bank : Option Nat :=
        if rcPARAMS r = 0 then some (grLast h) else [0, 1].find? fun b => s.bankUsers part g b == 0
      let b := bank.getD 0
      let plans := (List.range (grNODES h)).map fun n =>
        (s.planNode part p queue job g h b n none (rcWATCHDOG r)).map fun l => (rcNODE (s.nodeEntry p g n), l)
      if plans.any Option.isNone then .refused
      else
        let nodes := plans.filterMap id
        let shape (l : Launch) : Nat × Nat := (l.rows, l.cols)
        let odd := nodes.any fun x => (nodes.find? fun y => y.1 == x.1).any fun y => shape y.2 != shape x.2
        if odd || (s.slotRegions p (fun _ => true) nodes (List.range 16) []).isNone then .refused
        else if nodes.any fun x => s.launchMoves x.2 then .waits
        else
          match bank with
          | none => .waits
          | some b =>
            match s.slotRegions p (Cluster.freeFor []) nodes (List.range 16) [] with
            | none => .waits
            | some m => .admits (s.placeReplay part p queue job r h b nodes m) nodes.length

/-- One launch considered: placed in the first region that can take it, or on its predecessor's (R292, R302). -/
def State.considerLaunch (s : State) (p : Part) (l : Launch) : Verdict :=
  if !(s.everPlaceable p l) then .refused
  else
    match (if rcHANDOVER l.record then s.predecessor l else none) with
    | some (k, q) =>
      let id := s.nextLaunch
      .admits { s with
        nextLaunch := id + 1
        launches := Map.put s.launches id { l with row := q.row, col := q.col, handover := some k, shownAt := s.gt } } 1
    | none =>
      match s.region p l [] with
      | none => .waits
      | some o => .admits (s.place l o) 1

/-- A record considered (R290, R291, R299). -/
def State.considerRecord (s : State) (part : Nat) (p : Part) (queue : Nat) (q : Queue) (r : BitVec 512) : Verdict :=
  let job := qdJOB q.desc
  if isReplay r then s.considerReplay part p queue job r
  else
    let plan : Option Launch :=
      if rcGRAPH r = 0 then planLaunch s part p queue job r (rcPARAMS r) (rcWATCHDOG r) (rcCCU r) (rcCCL r) (rcSAVE r)
      else
        match s.graphHead p (rcGRAPH r) with
        | none => none
        | some h => if grNODES h ≤ rcNODE r || !(recordOk r) then none
          else s.planNode part p queue job (rcGRAPH r) h (grLast h) (rcNODE r) (some r) (rcWATCHDOG r)
    match plan with
    | none => .refused
    | some l => if s.launchMoves l then .waits else s.considerLaunch p l

/-- The collectives of a launch that moves to another region, and the debugger's record of them, follow its units (R224, R260). -/
def State.moveColls (s : State) (key : Nat) (old new : Launch) : State :=
  let f (n : Nat) : Nat := match (List.range old.area).find? fun x => old.cluster x == n / 8 with
    | some x => 8 * new.cluster x + n % 8
    | none => n
  { s with
    colls := s.colls.map fun k => if k.2.launch = key then (k.1, k.2.moved f) else k
    dbg := { s.dbg with reds := s.dbg.reds.map fun x => if x.2.2.launch = key then (f x.1, x.2.1, x.2.2.moved f) else x } }

/-- A vacated launch placed again on a region of the same stitched shape, with the handler image of the moment; its own region it may take
back from the node that waits for it (R76, R260, R291). -/
def State.considerBack (s : State) (part : Nat) (p : Part) (queue : Nat) (q : Queue) (k : Nat) : State :=
  match Map.get? s.launches k with
  | none => s.setQueue part queue { q with back := q.back.drop 1 }
  | some l =>
    match s.region p l ((s.launches.filter fun x => s.sameSlot l x.2).map Prod.fst) with
    | none => s
    | some o =>
      let old := l
      let l := { l with row := o.1, col := o.2, st := .loaded, startAt := some s.placedAt, hand := p.handler }
      let s1 := { (s.setQueue part queue { q with back := q.back.drop 1 }).moveColls k old l with
        oracle := s.oracle + 1, launches := Map.put s.launches k l }
      match Map.get? s1.parts part with
      | some p1 => (s1.setPart part { p1 with lastQ := if queue = debugQueue then p1.lastQ else queue }).takeClusters k l
      | none => s1

/-- Whether a partition's power state admits launches, with a handler given (R76, R334). -/
def Part.admits (p : Part) : Bool := decide (p.pstate < 2) && p.handler.isSome && p.halted.isNone

/-- ADMISSION: the first head record in the order of R291 is admitted, refused, or waited for. -/
def execAdmission (part : Nat) (s : State) : Out :=
  match Map.get? s.parts part with
  | none => .next s
  | some p =>
    if !p.admits then .next s
    else
      match s.considered p with
      | [] => .next s
      | (queue, q) :: _ =>
        match q.back with
        | k :: _ => .next (s.considerBack part p queue q k)
        | [] =>
          match q.head with
          | none => .next s
          | some r =>
            let mark := markKey queue (q.taken - 1)
            if p.marks.contains mark then
              .next ((s.setPart part { p with marks := p.marks.erase mark }).refuse part queue q r)
            else
              match s.considerRecord part p queue q r with
              | .refused => .next (s.refuse part queue q r)
              | .waits => .next s
              | .admits s1 ids => .next ((s1.setQueue part queue q.drop).admitted part queue ids)

/-! ## Starting the units (R293) -/

/-- The owners of instruction pages beside a handler (R76). -/
def handlerPages (base : Nat) (code : List Byte) : BitVec 32 :=
  BitVec.ofNat 32 (packNat 1 32 fun q => if base ≤ q && decide (q < base + (code.length / 32 + 255) / 256) then 1 else 0)

/-- GRPPOS of a unit (R292). -/
def grpPosOf (x k : Nat) : Word := BitVec.ofNat 64 (k + x * 2 ^ 8 + (8 * x + k) * 2 ^ 16)

/-- SAVEPTR of a unit: the translation of its save area (R293). -/
def savePtrOf (m : Memory) (p : Part) (l : Launch) (u : Nat) : Word :=
  if l.save = 0 then 0 else BitVec.ofNat 64 ((gpaOf m p (l.save + 0x2A1000 * u)).getD 0)

/-- A core with the identity of unit `k` of cluster `x` of a launch, and nothing else but QREQ where a QUENCH came before its start (R7, R23,
R253, R292). Transfer numbers go on from those of the core before it. -/
def bareUnit (m : Memory) (p : Part) (key : Nat) (l : Launch) (group x k uid : Nat) (hbase : Nat) (code : List Byte) : Core :=
  let u := x * l.cores + k
  { Core.reset with
    ctx := { Ctx.reset with wdog := l.wdog, qreq := l.quenched }
    unitId := BitVec.ofNat 64 u, launchId := l.lid.setWidth 64, partId := BitVec.ofNat 64 l.part, grpPos := grpPosOf x k
    hvec := BitVec.ofNat 64 (hbase * 4096), savePtr := savePtrOf m p l u, owners := handlerPages hbase code
    nextUid := uid, launch := key, group := group, run := .run }

/-- The bytes of a launch's parameter block: in device memory, or as the debugger has written them (R293, R348). -/
def paramBytes (m : Memory) (p : Part) (l : Launch) : List Byte :=
  if 2 ^ 56 ≤ l.params then memGetN m l.params l.psize else (gpaBytes m p l.params l.psize).getD []

/-- The handler image of a launch in the instruction scratchpad of one core (R76). -/
def State.loadHandler (s : State) (l : Launch) (n : Nat) : State :=
  match l.hand with
  | none => s
  | some (hbase, code) => s.putKey (codeKey n (32 * 256 * hbase)) code

/-- The scratchpad, code, patterns and handler of one core loaded (R18, R76, R293); code and pattern bytes that cannot be read load as zeros
(DESIGN CHOICE, log entry 65). With a hand-over the banks pass as they stand, and bank 7 of the face `half` is the parameter block's (R302). -/
def State.loadCore (s : State) (p : Part) (l : Launch) (i : Image) (n half : Nat) (handed : Bool) : State :=
  let s := if handed then (if l.psize = 0 then s else s.clearKey (padKey n half 0xE0000) 0x20000) else s.clearKey (padKey n 0 0) 0x200000
  let s := (s.clearKey (codeKey n 0) 0x40000).putKey (codeKey n 0)
    ((gpaBytes s.mem p (l.image + imCODEOFF i.head) (32 * imCODELINES i.head)).getD [])
  let s := s.loadHandler l n
  let s := (s.clearKey (patKey n 0) 0x4000).putKey (patKey n 0) ((gpaBytes s.mem p (l.image + imPATOFF i.head) (32 * imPATCOUNT i.head)).getD [])
  let s := i.buffers.foldl (fun s e => if bfWIN e = 0 then s.putKey (padKey n half (bfVBASE e)) (i.initBytes s.mem p e) else s) s
  if l.psize = 0 then s else s.putKey (padKey n half i.paramBase) (paramBytes s.mem p l)

/-- The cluster buffers of an image in a cluster's SRAM: initial data, or zeros where there is none; beyond INITLEN a buffer stays as it was
(R72, R293; DESIGN CHOICE, log entry 66). -/
def State.loadCluster (s : State) (p : Part) (i : Image) (x : Nat) : State :=
  i.buffers.foldl (fun s e =>
    let at_ := sramSpa x + (bfVBASE e - 0x1000000)
    if bfWIN e ≠ 1 then s
    else if (bfINIT e).isNone then s.clearKey at_ (bfSIZE e)
    else s.putKey at_ (i.initBytes s.mem p e)) s

/-- The frames of a device buffer without initial data set to zero, as unmarked writes; a page left absent has none (R72). -/
def State.zeroDevice (s : State) (part : Nat) (p : Part) (i : Image) : State :=
  (i.pages 2).foldl (fun s x =>
    let e := deviceEntry s.mem p x
    if (bfINIT x.1).isSome || !(lttP e) then s
    else
      let n := min (pageBytes (lttPSIZE e)) (bfVBASE x.1 + bfSIZE x.1 - x.2)
      s.engineWrote part (lttFRAME e) n (memClear s.mem (lttFRAME e) n)) s

/-- Initial data of device buffers written through the frames that the walks found, as unmarked writes; beyond INITLEN a buffer stays as it
was (R293; DESIGN CHOICE, log entry 66). Of buffers that overlap, the later ones write last (DESIGN CHOICE, log entry 72). -/
def State.loadDevice (s : State) (part : Nat) (p : Part) (i : Image) : State :=
  i.buffers.foldl (fun s e =>
    if bfWIN e ≠ 2 then s
    else
      let bytes := i.initBytes s.mem p e
      (List.range ((bytes.length + 0x3FFF) / 0x4000)).foldl (fun s k =>
        let va := bfVBASE e + 0x4000 * k
        match guestWalkFrom s.mem p none 3 p.guest.toNat va with
        | .ok gpa _ _ _ =>
          (match gpaOf s.mem p gpa with
           | some a => s.devWrite part a ((bytes.drop (0x4000 * k)).take 0x4000)
           | none => s)
        | _ => s) s) (s.zeroDevice part p i)

/-- The unit of a launch on one core at its first bundle (R293). -/
def startUnit (m : Memory) (p : Part) (key : Nat) (l : Launch) (i : Image) (group x k uid hbase : Nat) (code : List Byte) : Core :=
  let n := 8 * l.cluster x + k
  let c := bareUnit m p key l group x k uid hbase code
  { c with
    ctx := { c.ctx with s := if i.paramBase = 0 then [] else [(1, BitVec.ofNat 64 i.paramBase)] }
    ltt := i.ltt m p n
    bgroups := i.barriers m p l.units l.cores (x * l.cores + k) }

/-- The units of a launch, by cluster index and core. -/
def Launch.places (l : Launch) : List (Nat × Nat) :=
  (List.range l.area).flatMap fun x => (List.range l.cores).map fun k => (x, k)

/-- The numbers that hold, for core `n`, units whose remaining copies run on beside its unit (R302). -/
def State.phantoms (s : State) (n : Nat) : List Nat :=
  (s.cores.filter fun x => decide (1024 ≤ x.1) && hwCore x.1 == n && x.2.run != .idle).map Prod.fst

/-- The banks of a core, by its mask bits, that remaining copies of earlier units on it touch (R302). -/
def State.touchedBanks (s : State) (n : Nat) (c : Core) : BitVec 16 :=
  BitVec.ofNat 16 (packNat 1 16 fun b =>
    let half := if b < 8 then c.faceHalf else c.shadowHalf
    if (s.phantoms n).any fun k => (s.core k).faceHalf == half && (s.core k).reaches s.mem k (s.core k).ctx.clk (1#16 <<< (b % 8)) then 1 else 0)

/-- A core that P leaves to its successor: P's unit runs its remaining copies on beside it, and the banks that no copy touches pass at
once (R302). -/
def State.handCore (s : State) (n : Nat) (bank7 : Bool) (c : Core) : State × Core :=
  let old := s.core n
  let c := { c with swapped := old.swapped, nextUid := old.nextUid }
  if old.run == .idle then (s, c)
  else
    let key := (((List.range 8).map fun j => 1024 * (j + 1) + n).find? fun k => (s.core k).run == .idle).getD (1024 * 9 + n)
    let s1 := (s.setCore key old).renameFlights old n key fun _ => true
    let s2 := { s1 with incrs := s1.incrs.map fun i => if i.core = n && i.launch = old.launch then { i with core := key } else i }
    let touched := s2.touchedBanks n c &&& ~~~(if bank7 then (0x80 : BitVec 16) else 0)
    (s2, { c with
      owned := ~~~touched, passing := touched
      ctx := { c.ctx with copyA := old.ctx.copyA - old.ctx.clk, copyB := old.ctx.copyB - old.ctx.clk } })

/-- Every unit of a launch started in this cycle, with one timing group (R293, R302). -/
def State.startUnits (s : State) (key : Nat) (handed : Bool) : State :=
  match Map.get? s.launches key with
  | none => s
  | some l =>
    match Map.get? s.parts l.part with
    | none => s
    | some p =>
      match readImageAt s.mem p l.image, l.hand with
      | some i, some (hbase, code) =>
        let g := s.nextGroup
        let s0 := s.loadDevice l.part p i
        let s1 := (List.range l.area).foldl (fun s x => s.loadCluster p i (l.cluster x)) s0
        let s2 := l.places.foldl (fun s y =>
          let n := 8 * l.cluster y.1 + y.2
          let c := startUnit s.mem p key l i g y.1 y.2 (s.core n).nextUid hbase code
          let (s, c) := if handed then s.handCore n (l.psize != 0) c else (s, c)
          let s := s.loadCore p l i n c.faceHalf handed
          s.setCore n { c with ctx := { c.ctx with pc := normAt s.mem n 0 } }) s1
        { s2 with
          nextGroup := g + 1
          groups := Map.put s2.groups g ⟨l.members, key, false, false, false, 0, false, none, [], none⟩
          launches := Map.put s2.launches key { l with st := .resident, startAt := none, handover := none, quenched := false, wdogAt := s.gt } }
      | _, _ => s

/-! ## Hand-over (R302) -/

/-- Whether a core of P satisfies the condition of a hand-over. -/
def Core.handsOver (c : Core) : Bool :=
  c.run == .idle ||
    (c.run == .drain && c.mode == 0 && c.ctx.items.isEmpty && c.qa.isEmpty && c.qb.isEmpty && c.nt.isEmpty && c.ctx.mx.runs.isEmpty &&
      c.ctx.mx.pend.isEmpty && c.ctx.macros.all fun m => match m.work with
        | .pull .. => true
        | .push .. => true
        | .cxsend .. => true
        | _ => false)

/-- Whether every core of a launch's region satisfies the condition of a hand-over. -/
def State.handsOver (s : State) (l : Launch) : Bool := l.members.all fun n => (s.core n).handsOver

/-- BANK_PASS: a bank passes in the cycle after the last access to it of P's remaining copies (R302). -/
def execBankPass (n bank : Nat) (s : State) : Out :=
  let c := s.core n
  if c.passing.getLsbD bank && !((s.touchedBanks n c).getLsbD bank) then
    .next (s.setCore n { c with passing := c.passing &&& ~~~(1#16 <<< bank), owned := c.owned ||| (1#16 <<< bank) })
  else .next s

/-! ## Graph nodes (R301) -/

/-- The node of a replay before a node in its REGION slot. -/
def State.nodeBefore (s : State) (r : Replay) (node : Nat) : Option Launch :=
  (((List.range node).filter fun j => (Map.get? r.slots j).isSome && Map.get? r.slots j == Map.get? r.slots node).getLast?).bind fun j =>
    (Map.get? r.launches j).bind fun k => Map.get? s.launches k

/-- Whether a launch has completed: all its units have (R297). -/
def Launch.complete (l : Launch) : Bool := l.st == .done || decide (l.units ≤ l.doneUnits.length)

/-- Whether a node's region is its own to start on: free, or kept by a node of its replay that waits for it (DESIGN CHOICE, log entry 63). -/
def State.slotFree (s : State) (r : Replay) (l : Launch) : Bool :=
  let waits (k : Nat) : Bool := r.launches.any (fun x => x.2 == k) && ((Map.get? s.launches k).any fun y => y.st == .waiting || y.complete)
  (rectangle l.row l.col l.rows l.cols).all fun x => match (s.cluster x).busy with | none => true | some k => waits k

/-- Whether units can start in a partition: it is not OFF, and its cores are not in firmware mode (R334, R336). -/
def State.powered (s : State) (part : Nat) : Bool :=
  match Map.get? s.parts part with
  | some p => p.pstate != 3 && p.halted.isNone
  | none => true

/-- Whether a node of a replay may start: its offset has come and the node before it in its slot has completed, or meets the
hand-over condition on the slot's region; and whether it is late. -/
def State.nodeReady (s : State) (r : Replay) (node : Nat) : Option (Nat × Launch × Bool × Bool) :=
  match (Map.get? r.launches node).bind fun k => (Map.get? s.launches k).map fun l => (k, l) with
  | none => none
  | some (k, l) =>
    let offset := match Map.get? s.parts r.part with
      | some p => rcGRAPH (s.nodeEntry p r.graph node)
      | none => 0
    if l.st != .waiting || !(s.powered l.part) || decide (s.cyc < r.started + offset) || s.launchMoves l then none
    else
      let late := decide (r.started + offset < s.cyc)
      match s.nodeBefore r node with
      | none => some (k, l, false, late)
      | some q =>
        let same := q.row == l.row && q.col == l.col
        if rcHANDOVER l.record && q.st == .resident && s.handsOver q && (same || s.slotFree r l) then some (k, l, same, late)
        else if q.complete && s.slotFree r l then some (k, l, false, late)
        else none

end Sys2Proof.Machine
end

