-- ==== Sys2Proof/Machine/Finish.lean ====
section
/-! DEFINITION. How launches end: units that complete or vacate, completion increments, cancel, quench, the watchdog, and the start of a
restore (spec/12 R253 to R260; spec/14 R297, R298, R301, R302). -/

namespace Sys2Proof.Machine

open Sys2Proof

/-! ## Units that end (R111, R257, R297) -/

/-- A core with no unit; the roles of its scratchpad halves and its transfer numbers go on. -/
def Core.freed (c : Core) : Core := { Core.reset with swapped := c.swapped, nextUid := c.nextUid }

/-- A core whose unit is gone; beside another unit it is no core of its own (R302). A core in firmware mode stays there: RESET alone brings it out
(R336). -/
def State.freeCore (s : State) (n : Nat) : State :=
  if 1024 ≤ n then { s with cores := Map.del s.cores n }
  else s.onCore n fun c => if c.run == .dead then { c with launch := 0 } else c.freed

/-- The key of a byte of cluster SRAM kept while a launch is vacated (R260). -/
def keptKey (launch x : Nat) : Nat := 2 ^ 55 + launch * 2 ^ 40 + x * 2 ^ 24

/-- The pages of cluster SRAM that the valid entries of the LTTs of a cluster's members map, by offset, present or not (R260). -/
def sramPages (l : List (Map (BitVec 128))) : List (Nat × Nat) :=
  (l.flatMap fun t => (t.filter fun e => decide (64 ≤ e.1) && decide (e.1 < 128) && lttV e.2).map fun e =>
    (lttFRAME e.2 % 0x1000000, pageBytes (lttPSIZE e.2))).eraseDups

/-- The cores of a launch in one cluster of its region. -/
def Launch.inCluster (l : Launch) (x : Nat) : List Nat := (List.range l.cores).map fun k => 8 * l.cluster x + k

/-- A launch whose last unit has vacated: SRAM pages and landing slots of its members are kept, its clusters are freed or go to the launch that
waits for them, and it returns ahead of the records of its queue (R260, R291). -/
def State.vacated (s : State) (key : Nat) (l : Launch) : State :=
  let xs := List.range l.area
  let kept := xs.foldl (fun t x =>
    (sramPages ((l.inCluster x).map fun n => (s.core n).ltt)).foldl (fun t g => t.moveBytes (sramSpa (l.cluster x) + g.1) (keptKey key x + g.1) g.2) t) s
  let slots := xs.map fun x => (x, (s.cluster (l.cluster x)).landing.filter fun m => m.2.st != .free && (l.inCluster x).contains m.2.setter)
  let s1 := l.members.foldl State.freeCore kept
  let s2 := s1.passClusters key l
  let s3 := { s2 with
    groups := s2.groups.filter fun g => g.2.launch != key
    launches := Map.put s2.launches key { l with st := .vacated, shownAt := s.gt, quenchAt := none, landings := slots } }
  match (Map.get? s3.parts l.part).bind fun p => Map.get? p.queues l.queue with
  | some q => s3.setQueue l.part l.queue { q with back := q.back ++ [key] }
  | none => s3

/-- The group-relative node of a unit of a launch (R292). -/
def Launch.nodeOf (l : Launch) (u : Nat) : Nat := u / l.cores * 8 + u % l.cores

/-- The events that have come to a core since its save area was written, but for a QUENCH, which the vacate satisfies (R246). -/
def State.newEvents (s : State) (n : Nat) (c : Core) : List Trap :=
  let old := ((s.saves.reverse.find? fun v => v.core.1 == n && v.ctx.isNone).map fun v => v.core.2.events.length).getD 0
  (c.events.drop old).filter fun t => t.code != cQUENCH

/-- The absence mark of a member of a timing group set (R209). -/
def State.markAbsent (s : State) (group node : Nat) : State :=
  match Map.get? s.groups group with
  | some g => { s with groups := Map.put s.groups group { g with absent := g.absent ++ [node] } }
  | none => s

/-- UNIT_COMPLETE: a unit whose UEND has drained ends, or after a completed CTXSAVE in runtime mode vacates its core (R111, R209,
R257, R297). -/
def execUnitComplete (n : Nat) (s : State) : Out :=
  let c := s.core n
  let u := c.unitId.toNat
  match Map.get? s.launches c.launch with
  | none => .next s
  | some l =>
    let leaves := c.run == .drain && c.mode != 0 && c.saved.isSome
    if !(leaves || c.drained) then .next s
    else
      let (l1, s1) : Launch × State :=
        if leaves then
          ({ l with vacatedUnits := l.vacatedUnits ++ [u], away := Map.put l.away u ⟨c.group, c.stopped, c.xfers.drop (c.saved.getD 0), s.newEvents n c⟩ },
            { s.setCore n { c.freed with ltt := c.lttNext, launch := c.launch } with incrs := s.incrs.filter fun i => i.core != n || i.launch != c.launch })
        else
          ({ l with doneUnits := l.doneUnits ++ [u], covers := Map.put l.covers u (n, s.sentBy n) }, (s.freeCore n).markAbsent c.group (l.nodeOf u))
      let s2 := s1.setLaunch c.launch l1
      .next (if !l1.vacatedUnits.isEmpty && l1.vacatedUnits.length + l1.doneUnits.length = l1.units then s2.vacated c.launch l1 else s2)

/-! ## Completion (R297, R301) -/

/-- Whether a direct send of a unit is on its way, be its receiver there or not, or held (R241, R297). -/
def State.sending (s : State) (key node : Nat) : Bool :=
  let from_ (i : Instr) : Option Nat :=
    match i with
    | .directSend n src .. => if src = node then some n else none
    | .waybillMemoryTransfer n src .. => if src = node then some n else none
    | _ => none
  (s.flights.any fun f => f.launch == key && (from_ f.ev).isSome) || s.waiting.any fun h => (from_ h.ev).any fun n => (s.core n).launch == key

/-- Whether every access issued on behalf of a unit that has ended has performed at system scope (R297). -/
def State.unitCovered (s : State) (key : Nat) (l : Launch) (u : Nat) : Bool :=
  match Map.get? l.covers u with
  | none => false
  | some (n, ids) => ids.all (s.performedAt n 4) && !(s.sending key (l.nodeOf u))

/-- A replay whose nodes have all completed: CCG and its CCL each receive 1 (R299, R301). -/
def State.endReplay (s : State) (id : Nat) : State :=
  match Map.get? s.replays id with
  | none => s
  | some r =>
    if r.done || !(r.launches.all fun x => ((Map.get? s.launches x.2).map Launch.st) == some .done) then s
    else
      let s1 := { s with replays := Map.put s.replays id { r with done := true } }
      match (Map.get? s1.parts r.part).bind fun p => gpaBytes s1.mem p r.graph 64 with
      | none => s1
      | some h =>
        let s2 := s1.writeBanks r.part r.graph (grLast h)
        let ccg := imgField h 6 1
        let s3 := if ccg.testBit 7 then s2.bump r.part (ccg % 32) 1 else s2
        match r.ccl with
        | some cc => s3.bump r.part cc 1
        | none => s3

/-- COMPLETION_INCREMENT: CCU for a unit, or CCL for the launch once every unit has been counted (R297). -/
def execCompletionIncrement (key : Nat) (unit : Option Nat) (s : State) : Out :=
  match Map.get? s.launches key with
  | none => .next s
  | some l =>
    match unit with
    | some u =>
      if l.counted.contains u || !(s.unitCovered key l u) then .next s
      else
        let s1 := s.setLaunch key { l with counted := l.counted ++ [u] }
        .next (match l.ccu with | some cc => s1.bump l.part cc 1 | none => s1)
    | none =>
      if l.st != .resident || l.counted.length != l.units then .next s
      else
        let s1 := (s.setLaunch key { l with st := .done }).passClusters key l
        let s2 := { s1 with groups := s1.groups.filter fun g => g.2.launch != key }
        let s3 := match l.ccl with | some cc => s2.bump l.part cc 1 | none => s2
        .next (match l.replay with | some (r, _) => s3.endReplay r | none => s3)

/-! ## Cancel (R298) -/

/-- Whether a launch is admitted and has not ended. -/
def Launch.alive (l : Launch) : Bool := l.st == .waiting || l.st == .loaded || l.st == .resident || l.st == .vacated

/-- A launch stopped: its units issue no more, what they had under way is discarded, in the fabric too, and its cores and clusters are freed;
a launch that waits for its region gets it (R298, R302). -/
def State.stopLaunch (s : State) (key : Nat) : State :=
  match Map.get? s.launches key with
  | none => s
  | some l =>
    let ns := (s.cores.filter fun x => x.2.launch == key).map Prod.fst
    let s1 := (ns.foldl State.freeCore s).clearKey (keptKey key 0) (2 ^ 40)
    let s2 := s1.passClusters key l
    let parts := match Map.get? s2.parts l.part with
      | some p => Map.put s2.parts l.part { p with queues := p.queues.map fun q => (q.1, { q.2 with back := q.2.back.erase key }) }
      | none => s2.parts
    { s2 with
      parts := parts
      groups := s2.groups.filter fun g => g.2.launch != key
      colls := s2.colls.filter fun k => k.2.launch != key
      flights := s2.flights.filter fun f => f.launch != key
      incrs := s2.incrs.filter fun i => i.launch != key
      launches := Map.put s2.launches key { l with st := .cancelled, startAt := none, quenchAt := none, away := [], landings := [] } }

/-- The launches that go with some: all nodes of their replays (R301). -/
def State.withReplays (s : State) (keys : List Nat) : List Nat :=
  let rs := (s.launches.filter fun x => keys.contains x.1).filterMap fun x => x.2.replay.map Prod.fst
  (s.launches.filter fun x => keys.contains x.1 || (x.2.alive && (x.2.replay.any fun r => rs.contains r.1))).map Prod.fst

/-- The counters that a launch names. -/
def Launch.counters (l : Launch) : List Nat := l.ccu.toList ++ l.ccl.toList

/-- The counters that a replay counts in: its CCL and its graph's CCG (R299). -/
def State.replayCounters (s : State) (r : Replay) : List Nat :=
  r.ccl.toList ++ match (Map.get? s.parts r.part).bind fun p => gpaBytes s.mem p r.graph 64 with
    | some h => if (imgField h 6 1).testBit 7 then [imgField h 6 1 % 32] else []
    | none => []

/-- Launches cancelled, with their replays. Nothing they discard can perform any more, so that the counters that they name and a test picks
are marked before anything else happens, with one more where it is given (R298). -/
def State.cancelLaunches (s : State) (part : Nat) (keys : List Nat) (cc : Option Nat) (hit : Nat → Bool) : State :=
  let all := s.withReplays keys
  let rs := ((s.launches.filter fun x => all.contains x.1).filterMap fun x => x.2.replay.map Prod.fst).eraseDups
  let named := ((s.launches.filter fun x => all.contains x.1).flatMap fun x => x.2.counters) ++
    rs.flatMap fun r => ((Map.get? s.replays r).map s.replayCounters).getD []
  let s1 := all.foldl State.stopLaunch s
  let s2 := rs.foldl (fun s r =>
    match Map.get? s.replays r with
    | none => s
    | some y =>
      let s1 := { s with replays := Map.put s.replays r { y with done := true } }
      match (Map.get? s1.parts y.part).bind fun p => gpaBytes s1.mem p y.graph 64 with
      | some h => s1.writeBanks y.part y.graph (grLast h)
      | none => s1) s1
  { s2 with agenda := ((cc.toList ++ named.filter hit).eraseDups.map fun k => .cancelMark part k) ++ s2.agenda }

/-- One launch cancelled by the scheduler itself, its counters marked (R255, R298, R302). -/
def State.cancelOne (s : State) (key : Nat) : State :=
  match Map.get? s.launches key with
  | none => s
  | some l => if l.alive then s.cancelLaunches l.part [key] none (fun _ => true) else s

/-- A launch that its start cycle finds without a page of initial data, or without its image, is refused: it completes as cancelled, and a
replay with its node (R290, R293, R301). -/
def State.refuseStart (s : State) (key : Nat) (l : Launch) : State :=
  match l.replay, l.ccl with
  | some _, _ => s.cancelOne key
  | none, some cc => (s.stopLaunch key).markCancelled l.part cc
  | none, none => s.stopLaunch key

/-- Whether a launch must be refused at its start (R293). -/
def State.startRefused (s : State) (l : Launch) : Bool :=
  match Map.get? s.parts l.part with
  | none => false
  | some p => match readImageAt s.mem p l.image with | none => true | some i => i.dataAbsent s.mem p

/-- LAUNCH_START: the start cycle of a launch that has been placed; a page that moves is waited for (R270, R293). -/
def execLaunchStart (key : Nat) (s : State) : Out :=
  match Map.get? s.launches key with
  | some l =>
    if l.st == .loaded && s.powered l.part && l.vacatedUnits.isEmpty && !(s.launchMoves l) && l.startAt.any fun t => decide (t ≤ s.cyc)
    then .next (if s.startRefused l then s.refuseStart key l else s.startUnits key false) else .next s
  | none => .next s

/-- HANDOVER_START: the successor starts on its predecessor's region (R302). -/
def execHandoverStart (key : Nat) (s : State) : Out :=
  match Map.get? s.launches key with
  | some l =>
    if l.st == .waiting && s.powered l.part && l.handover.isSome && s.handsOver l && !(s.launchMoves l) then
      .next (if s.startRefused l then s.refuseStart key l else (s.takeClusters key l).startUnits key true)
    else .next s
  | none => .next s

/-- NODE_START: a node of a replay starts at G + OFFSET, or in the cycle after its slot is free, and then LATE is set (R301). -/
def execNodeStart (replay node : Nat) (s : State) : Out :=
  match Map.get? s.replays replay with
  | none => .next s
  | some r =>
    match s.nodeReady r node with
    | none => .next s
    | some (k, l, handed, late) =>
      let s1 := if s.startRefused l then s.refuseStart k l else (s.takeClusters k l).startUnits k handed
      .next (if late then
        match (Map.get? s.parts r.part).bind fun p => gpaBytes s.mem p (r.graph + 7) 1 with
        | some b => s1.gpaWrite r.part (r.graph + 7) [b.headD 0 ||| 1]
        | none => s1
      else s1)

/-- Whether a counter is another, or chains into it through PARENT, which with LIMIT 0 it does not (R294, R298). -/
def chainsInto (p : Part) (fuel c target : Nat) : Bool :=
  match fuel with
  | 0 => false
  | f + 1 => c == target || (((Map.get? p.counters c).bind Counter.chainsTo).any fun q => chainsInto p f q target)

/-- The counters that a queued record names, those of a graph's nodes with it. -/
def State.recordCounters (s : State) (p : Part) (r : BitVec 512) : List Nat :=
  let own (e : BitVec 512) : List Nat := (rcCCU e).toList ++ (rcCCL e).toList
  own r ++
    (if rcGRAPH r = 0 then []
     else
       match s.graphHead p (rcGRAPH r) with
       | none => []
       | some h =>
         if isReplay r then
           (if (imgField h 6 1).testBit 7 then [imgField h 6 1 % 32] else []) ++ (List.range (grNODES h)).flatMap fun n => own (s.nodeEntry p (rcGRAPH r) n)
         else own (s.nodeEntry p (rcGRAPH r) (rcNODE r)))

/-- The queued records of a partition that name one of some counters, as marks (R298). -/
def State.queuedMarks (s : State) (p : Part) (hit : Nat → Bool) : List Nat :=
  p.queues.flatMap fun x =>
    let q := x.2
    let first := q.taken - (if q.head.isSome then 1 else 0)
    (List.range (q.seen - first)).filterMap fun i =>
      let r := if i = 0 && q.head.isSome then q.head.getD 0 else s.ringRecord p q (first + i)
      if (s.recordCounters p r).any hit then some (markKey x.1 (first + i)) else none

/-- CANCEL of a counter: every admitted launch, replay and queued record that names it or a counter chained into it (R298). -/
def State.cancelCounter (s : State) (part cc : Nat) : State :=
  match Map.get? s.parts part with
  | none => s
  | some p =>
    let hit (c : Nat) : Bool := chainsInto p 33 c cc
    let rs := (s.replays.filter fun x => x.2.part == part && !x.2.done && (s.replayCounters x.2).any hit).map Prod.fst
    let keys := (s.launches.filter fun x =>
      x.2.part == part && x.2.alive && (x.2.counters.any hit || x.2.replay.any fun r => rs.contains r.1)).map Prod.fst
    let s1 := s.setPart part { p with marks := (p.marks ++ s.queuedMarks p hit).eraseDups }
    s1.cancelLaunches part keys (some cc) hit

/-- The units beside others whose remaining copies have met a late fault: their launch is cancelled (R302). -/
def State.phantomFaults (s : State) : State :=
  (s.cores.filter fun x => decide (1024 ≤ x.1) && (x.2.mode != 0 || !x.2.lateEntries.isEmpty)).foldl (fun s x => s.cancelOne x.2.launch) s

/-! ## Quench (R253, R254) -/

/-- A launch of a partition by its LAUNCHID, while it is admitted and has not ended. -/
def State.findLaunch (s : State) (part : Nat) (lid : BitVec 32) : Option (Nat × Launch) :=
  s.launches.find? fun x => x.2.part == part && x.2.lid == lid && x.2.alive

/-- QREQ set in every unit of a launch, in those that have not started or come back at their start, and its quench limit started (R253,
R254). -/
def State.quench (s : State) (key : Nat) (l : Launch) (limit : Option Nat) : State :=
  { s with
    cores := s.cores.map fun x =>
      if x.2.run != .idle && x.2.launch == key && decide (x.1 < 1024) then (x.1, x.2.onSys fun y => { y with qreq := true }) else x
    launches := Map.put s.launches key { l with
      quenched := l.quenched || l.st != .resident || !l.vacatedUnits.isEmpty, quenchAt := limit.map fun t => s.gt + t * gtMicro } }

/-- Whether a member of a launch has taken QUENCH, or has vacated its core (R254). -/
def State.quenchTaken (s : State) (key : Nat) (l : Launch) : Bool :=
  !l.vacatedUnits.isEmpty || s.cores.any fun x =>
    x.2.launch == key && x.2.tm && (match x.2.held with | some y => y.cause.extractLsb' 0 8 == 0x13 | none => false)

/-- The launches whose quench limit has passed with no QUENCH taken (R254); one that has been taken ends the limit. -/
def State.quenchLimits (s : State) : State :=
  s.launches.foldl (fun s x =>
    match x.2.quenchAt with
    | none => s
    | some t =>
      if x.2.st != .resident then s
      else if s.quenchTaken x.1 x.2 then s.setLaunch x.1 { x.2 with quenchAt := none }
      else if t ≤ s.gt then { s with agenda := s.agenda ++ [.forcedQuench x.1] }
      else s) s

/-! ## The watchdog (R255) -/

/-- Whether a launch's watchdog counts: it has a limit and is resident, its partition is powered, and no debugger halt stands on it. -/
def State.watches (s : State) (key : Nat) (l : Launch) : Bool :=
  l.st == .resident && l.wdog != BitVec.allOnes 64 && l.wdog != 0 && ((Map.get? s.parts l.part).map fun p => decide (p.pstate < 2)).getD false &&
    !(s.groups.any fun g => g.2.launch == key && g.2.halt)

/-- The launches whose watchdog steps now; the time of one that does not count passes it by. -/
def State.watchdogs (s : State) : State :=
  s.launches.foldl (fun s x =>
    if !(s.watches x.1 x.2) then s.setLaunch x.1 { x.2 with wdogAt := s.gt }
    else if x.2.wdogAt + gtMicro ≤ s.gt then { s with agenda := s.agenda ++ [.watchdog x.1] }
    else s) s

/-- WATCHDOG: one microsecond less in every unit; at 0, by this or by an MTS, every unit takes WATCHDOG at its next boundary, or the launch is
cancelled when a unit has TM = 1 (R255). -/
def execWatchdog (key : Nat) (s : State) : Out :=
  match Map.get? s.launches key with
  | none => .next s
  | some l =>
    if !(l.wdog == 0 && l.st == .resident) && (!(s.watches key l) || decide (s.gt < l.wdogAt + gtMicro)) then .next s
    else
      let w := if l.wdog = 0 then 0 else l.wdog - 1
      let s1 := s.setLaunch key { l with wdog := w, wdogAt := l.wdogAt + gtMicro }
      let mine (x : Nat × Core) : Bool := x.2.run != .idle && x.2.launch == key
      let s2 := { s1 with
        cores := s1.cores.map fun x =>
          if mine x then (x.1, { x.2 with ctx := { x.2.ctx with wdog := w }, held := x.2.held.map fun y => { y with wdog := w } }) else x }
      if w != 0 then .next s2
      else if s2.cores.any (fun x => mine x && x.2.tm) then .next (s2.cancelOne key)
      else .next { s2 with
        cores := s2.cores.map fun x => if mine x then (x.1, x.2.addEvent ⟨cWATCHDOG, 10, false, 0, 0⟩) else x
        launches := s2.launches.map fun x => if x.1 = key then (x.1, x.2.eventAway ⟨cWATCHDOG, 10, false, 0, 0⟩) else x }

/-! ## Restoring (R258, R260) -/

/-- A unit's core at the start of its restore: the handler in runtime mode with CAUSE 0, and behind it what has waited for the unit
(R222, R258, R260). -/
def restoreUnit (m : Memory) (p : Part) (key : Nat) (l : Launch) (group x k uid hbase : Nat) (code : List Byte) : Core :=
  let c := bareUnit m p key l group x k uid hbase code
  let w := Map.get l.away (x * l.cores + k) ⟨0, none, [], []⟩
  { c with
    mode := 1, tm := true, depth := 1, stopped := w.stopped, xfers := w.held, events := w.events
    ctx := { c.ctx with mode := 1, pc := BitVec.ofNat 64 (hbase * 4096) } }

/-- The pages of cluster SRAM kept for a vacated launch put back, and the landing slots of its members (R260). -/
def State.restoreCluster (s : State) (p : Part) (key : Nat) (l : Launch) (x : Nat) : State :=
  let k := l.cluster x
  let kept := ((s.mem.map Prod.fst) ++ s.poison).filter fun e => decide (keptKey key x ≤ e) && decide (e < keptKey key x + 0x1000000)
  let pages := (kept.map fun e => (e - keptKey key x) / 0x40000).eraseDups
  let saved := (List.range l.cores).map fun q => readLtt s.mem (savePtrOf s.mem p l (x * l.cores + q)).toNat
  let mapped := (sramPages saved).flatMap fun g => (List.range (g.2 / 0x40000)).map fun i => g.1 / 0x40000 + i
  let s1 := ((pages ++ mapped).eraseDups.foldl (fun s g => s.moveBytes (keptKey key x + g * 0x40000) (sramSpa k + g * 0x40000) 0x40000) s).clearKey
    (keptKey key x) 0x1000000
  (Map.get l.landings x []).foldl (fun s m => s.putSlot (.cluster k) m.1 { m.2 with setter := 8 * k + m.2.setter % 8 }) s1

/-- The timing groups of a launch's vacated units, each whole: its number anew, and its units (R260). -/
def Launch.regroup (l : Launch) (g : Nat) : List (Nat × List Nat) :=
  ((l.away.map fun x => x.2.group).eraseDups).zipIdx.map fun x =>
    (g + x.2, (l.away.filter fun y => y.2.group == x.1).map Prod.fst)

/-- The new number of a timing group of a launch's vacated units (R260). -/
def Launch.newGroup (l : Launch) (g old : Nat) : Nat :=
  match ((l.away.map fun x => x.2.group).eraseDups).findIdx? fun x => x == old with
  | some i => g + i
  | none => old

/-- RESTORE_START: the cores of a vacated launch start in runtime mode, its groups standing stopped (R258, R260). -/
def execRestoreStart (key : Nat) (s : State) : Out :=
  match Map.get? s.launches key with
  | none => .next s
  | some l =>
    if l.st != .loaded || !(s.powered l.part) || l.vacatedUnits.isEmpty || !(l.startAt.any fun t => decide (t ≤ s.cyc)) then .next s
    else
      match (Map.get? s.parts l.part).bind fun p => l.hand.map fun h => (p, h) with
      | none => .next s
      | some (p, hbase, code) =>
        let gs := l.regroup s.nextGroup
        let groupOf (u : Nat) : Nat := ((gs.find? fun g => g.2.contains u).map Prod.fst).getD s.nextGroup
        let s1 := (List.range l.area).foldl (fun s x => s.restoreCluster p key l x) s
        let s2 := l.places.foldl (fun s y =>
          let n := 8 * l.cluster y.1 + y.2
          if !(l.vacatedUnits.contains (y.1 * l.cores + y.2)) then s
          else
            let s := ((s.clearKey (padKey n 0 0) 0x200000).clearKey (codeKey n 0) 0x40000).loadHandler l n
            s.setCore n (restoreUnit s.mem p key l (groupOf (y.1 * l.cores + y.2)) y.1 y.2 (s.core n).nextUid hbase code)) s1
        let members (us : List Nat) : List Nat :=
          (l.places.filter fun y => us.contains (y.1 * l.cores + y.2)).map fun y => 8 * l.cluster y.1 + y.2
        .next { s2 with
          nextGroup := s.nextGroup + gs.length
          groups := gs.foldl (fun m g => Map.put m g.1 ⟨members g.2, key, true, true, false, 0, false, none, [], none⟩) s2.groups
          colls := s2.colls.map fun k => (k.1, if k.2.launch = key then { k.2 with tgroup := l.newGroup s.nextGroup k.2.tgroup } else k.2)
          launches := Map.put s2.launches key
            { l with st := .resident, startAt := none, vacatedUnits := [], landings := [], away := [], quenched := false, wdogAt := s.gt } }

end Sys2Proof.Machine
end

