-- ==== Sys2Proof/Machine/MemSide.lean ====
section
/-! DEFINITION. What the memory side does by itself: migration, re-keying, patrol scrubbing, stacks that go offline, the compatibility
mode, and the forming of partitions (spec/13 R264, R274, R275, R281 to R286; spec/15 R309). -/

namespace Sys2Proof.Machine

open Sys2Proof

/-! ## Migration (R274, R275) -/

/-- Fields of a migration request: GPA, PART, DEST and STATUS. -/
def mqGPA (r : List Byte) : Nat := imgField r 0 8
/-- PART. -/
def mqPART (r : List Byte) : Nat := imgField r 8 1
/-- DEST. -/
def mqDEST (r : List Byte) : Nat := imgField r 9 1
/-- STATUS. -/
def mqSTATUS (r : List Byte) : Nat := imgField r 0xA 1

/-- A record of a partition's migration queue. -/
def State.migRecord (s : State) (part index : Nat) : Option (List Byte) :=
  match Map.get? s.parts part with
  | none => none
  | some p =>
    match p.migq with
    | none => none
    | some (a, n) => if n ≤ index then none else gpaBytes s.mem p (a + 32 * index) 32

/-- STATUS and DONE written into a migration request. -/
def State.migDone (s : State) (part index status : Nat) : State :=
  match (Map.get? s.parts part).bind Part.migq with
  | none => s
  | some (a, _) =>
    (s.gpaWrite part (a + 32 * index + 0x10) (toBytes 8 s.gt)).gpaWrite part (a + 32 * index + 0xA) [BitVec.ofNat 8 status]

/-- The system leaf that maps a guest-physical page: frame, leaf, size, and the addresses of the entries that hold it: one, or the run of
its group (R269). -/
def sysLeaf (m : Memory) (p : Part) (x : Nat) : Option (Nat × Word × Nat × List Nat) :=
  let whole (a : Nat) (leaf : Word) (z at_ : Nat) : Nat × Word × Nat × List Nat :=
    let k := if z = 2 ^ 18 then 16 else if z = 2 ^ 22 then 256 else if z = 2 ^ 30 then 32 else 1
    let first := at_ - at_ % (8 * k)
    (a - x % z, leaf, z, (List.range k).map fun i => first + 8 * i)
  match sysWalkFrom m 3 p.system.toNat x with
  | .ok a leaf z at_ => some (whole a leaf z at_)
  | _ => none

/-- Whether the walk of a page ends at a leaf that moves. -/
def sysMoving (m : Memory) (p : Part) (x : Nat) : Bool := sysWalkFrom m 3 p.system.toNat x == .moving

/-- The LTT entries of a core that map a part of a frame of device memory. -/
def mapsFrame (frame size : Nat) (e : Nat × BitVec 128) : Bool :=
  decide (128 ≤ e.1) && lttV e.2 && lttP e.2 && decide (lttFRAME e.2 < frame + size) &&
    decide (frame < lttFRAME e.2 + pageBytes (lttPSIZE e.2))

/-- Whether a packet for device memory has an element that lands in a frame (R267). -/
def State.landsAt (s : State) (p : Packet) (frame size : Nat) : Bool :=
  let t := s.landTable (.msu p.dest p.part)
  p.dkind == 3 && (List.range p.count).any fun i =>
    match landDecide t p.tag.toNat p.parity p.fmt.toNat (pktCoord p i) with
    | none => false
    | some (slot, _) =>
      match Map.get? t slot with
      | none => false
      | some m =>
        let z := (landValue (lmFMT m.desc) p.fmt.toNat (pktElem p i)).2
        let a := lmAddress m.desc z (pktCoord p i)
        decide (a < ((frame + size : Nat) : Int)) && decide ((frame : Int) < a + (z : Int))

/-- Whether an address that a core walks for lies in a guest-physical page, or is found through it. -/
def State.walksTo (s : State) (c : Core) (gpa size : Nat) (va : Word) : Bool :=
  match s.partOf c with
  | none => false
  | some p =>
    match guestWalkFrom s.mem p none 3 p.guest.toNat va.toNat with
    | .ok x _ _ _ => decide (gpa ≤ x) && decide (x < gpa + size)
    | .moving => true
    | _ => false

/-- The packets of a queue with an element that lands in a frame; those behind an entry that waits for the page itself are no part of it. -/
def State.pendsAt (s : State) (c : Core) (gpa frame size : Nat) (q : List QEntry) : List QEntry :=
  (q.takeWhile fun e => !(e.faulted.any Trap.walks && (e.absentPage c).any (s.walksTo c gpa size))).filter fun e =>
    match e.kind with | .packet p => s.landsAt p frame size | _ => false

/-- Whether a CXSEND under way has still to send a packet for device memory that lands in a frame (R197, R274). -/
def State.sendsAt (s : State) (n frame size : Nat) (m : Macro) : Bool :=
  match m.work with
  | .cxsend _ fmt tag parity _ cuts _ =>
    cuts.any fun k => rtKIND k.route == 3 && decide (m.next < k.first + k.flits) &&
      s.landsAt (packetOf s n m.uid fmt tag parity k 3 (rtNODE k.route) []) frame size
  | _ => false

/-- Whether a member of a core's timing group walks for a page: the group goes on only when the page does. -/
def State.walksFor (s : State) (c : Core) (gpa size : Nat) : Bool :=
  s.cores.any fun x => x.2.launch == c.launch && x.2.group == c.group && x.2.walkOf.any fun t => s.walksTo x.2 gpa size (x.2.walkPage t)

/-- The accesses that have been issued and not performed and that will perform at a frame whatever the LTT holds, as core and number: packets
for device memory, each by its own number and its CXSEND's, and CXSENDs under way with such packets to come. A row of a queued entry meets the
page as absent at its check, and what itself waits for the page is left out (R188, R228, R274; DESIGN CHOICE, log entry 19). -/
def State.pendingAt (s : State) (part gpa frame size : Nat) : List (Nat × Nat) :=
  s.cores.flatMap fun x =>
    let c := x.2
    if c.partId.toNat == part then
      let sends (y : Ctx) : List (Nat × Nat) := (y.macros.filter (s.sendsAt x.1 frame size)).map fun m => (x.1, m.uid)
      (([c.qa, c.qb].flatMap (s.pendsAt c gpa frame size)).flatMap fun e =>
        (x.1, e.uid) :: (match e.kind with | .packet p => p.sent.toList | _ => [])) ++
        (if s.walksFor c gpa size then [] else sends c.ctx ++ (c.held.map sends).getD [] ++ (c.tail.map sends).getD [])
    else []

/-- Whether the clearing of P by a move is still to be seen by a core's checks (R226, R274). -/
def State.clearing (s : State) (part : Nat) : Bool := s.cores.any fun x => x.2.partId.toNat == part && !x.2.lttDue.isEmpty

/-- Page-table entries rewritten, each alike, as unmarked writes (R282). -/
def State.putLeaf (s : State) (part : Nat) (l : List Nat) (e : Word) : State :=
  l.foldl (fun s a => (s.writeKey a (toBytes 8 e.toNat)).checkHallmark part (a / 0x1000 * 0x1000)) s

/-- Whether the rewriting of some page-table entries must wait for room in an exception table (R282). -/
def State.leafHeld (s : State) (part : Nat) (l : List Nat) (e : Word) : Bool :=
  l.any fun a => a % 0x1000 == 0xFF8 && s.writeHeld part a (toBytes 8 e.toNat)

/-- Whether a write that is held has still to perform at a frame: an access issued before a move of it (R274, R282). -/
def State.heldAt (s : State) (frame size : Nat) : Bool :=
  s.heldWrites.any fun w => decide (w.2.1 < frame + size) && decide (frame < w.2.1 + w.2.2.length)

/-- Nested TLB entries of a guest-physical range dropped (R272). -/
def Part.dropTlb (p : Part) (base len : Nat) : Part :=
  { p with tlb := p.tlb.filter fun t => !(decide (t.1 % tlbDie < base + len) && decide (base < t.1 % tlbDie + t.2.2.1)) }

/-- The move of a page begun: MV set in its leaf, its TLB entries invalid, P cleared in the LTT entries that map a part of it as an LTTINV does,
and the accesses at the old frame to be waited for (R226, R228, R274). -/
def State.startMove (s : State) (part : Nat) (p : Part) (g : Mig) (leaf : Word) (ats : List Nat) : State :=
  let s1 := (s.putLeaf part ats (leaf ||| (1 <<< 6))).setPart part (p.dropTlb g.gpa g.size)
  { s1 with
    cores := s1.cores.map fun x =>
      if x.2.partId.toNat == part then
        (x.1, { x.2 with lttDue := x.2.lttDue ++ (x.2.lttNext.filter (mapsFrame g.old g.size)).map fun e => .inv e.1 1 })
      else x
    migs := s1.migs ++ [{ g with waits := s.pendingAt part g.gpa g.old g.size }] }

/-- A frame for a page within a unit's bytes, a free value (R274; DESIGN CHOICE, log entry 19). -/
def State.freeFrame (s : State) (u z : Nat) : Nat := msuBase u + Config.migFrame s.oracle % (msuBytes u / z) * z

/-- Whether a page is pinned, by its leaf or by an LTT entry of its partition (R274). -/
def State.pinned (s : State) (part old z : Nat) (leaf : Word) : Bool :=
  ptePIN leaf || s.cores.any fun x => x.2.partId.toNat == part && x.2.ltt.any fun e => mapsFrame old z e && lttPIN e.2

/-- MIGRATION_REQUEST: a pending request arrives at the lock of its page: decided at once, or the move begins. A stack that is
offline is no destination (R274, R275, R309; DESIGN CHOICE, log entry 19). -/
def execMigrationRequest (part index : Nat) (s : State) : Out :=
  match s.migRecord part index with
  | none => .next s
  | some r =>
    if mqSTATUS r ≠ 0 || (s.migs.any fun g => g.part == part && g.index == some index) then .next s
    else
      let dest := mqDEST r
      let bad := decide (64 ≤ mqPART r) || decide (40 ≤ dest) || (s.msu dest).offline || !(zeros r 0x0B 0x0F)
      match Map.get? s.parts (mqPART r) with
      | none => .next (s.migDone part index 5)
      | some p =>
        if bad then .next (s.migDone part index 5)
        else if sysMoving s.mem p (mqGPA r) then .next (s.migDone part index 2)
        else
          match sysLeaf s.mem p (mqGPA r) with
          | none => .next (s.migDone part index 5)
          | some (old, leaf, z, ats) =>
            if mqGPA r % z ≠ 0 || !(inDevice old) then .next (s.migDone part index 5)
            else if pteSHR leaf then .next (s.migDone part index 3)
            else if s.pinned (mqPART r) old z leaf then .next (s.migDone part index 4)
            else if s.leafHeld (mqPART r) ats (leaf ||| (1 <<< 6)) then .next s
            else
              let g : Mig := ⟨part, some index, mqGPA r, old, z, s.freeFrame dest z, ats.headD 0, []⟩
              .next ({ s with oracle := s.oracle + 1 }.startMove (mqPART r) p g leaf ats)

/-- The class that the header of a compressed frame names (R276). -/
def headerClass (m : Memory) (f : Nat) : Nat := memNat m f 8 / 2 ^ 40 % 8

/-- A marked hallmark write clears the summary bit of its region, by an unmarked write to the region table (R282, R284). -/
def State.clearSummary (s : State) (a : Nat) : State :=
  let u := msuOf a
  (s.msu u).compat.foldl (fun s t =>
    let (b, i) := summaryBit t.2 u a
    s.devWrite t.1 b [memGet s.mem b &&& ~~~(1#8 <<< i)]) s

/-- One frame of 4 KiB moved: a compressed block as its slot bytes with the destination's hallmark, a marked write that ends an exception of
that frame, and any other as it stands (R274, R281, R282). -/
def moveFrame (part old new : Nat) (s : State) : State :=
  if s.compressed old && !(s.regionRaw part old) then
    let z := slotBytes (headerClass s.mem old) - 8
    let u := msuOf new
    let s1 := (s.moveBytes old new z).writeKey (new + 0xFF8) (toBytes 8 (s.msu u).hallmark.toNat)
    (s1.setMsu u { s1.msu u with exc := (s1.msu u).exc.filter fun x => x != new }).clearSummary new
  else (s.moveBytes old new 0x1000).checkHallmark part new

/-- Whether a move must wait for room in the exception table of its destination (R282). -/
def State.moveHeld (s : State) (g : Mig) (part : Nat) : Bool :=
  (List.range (g.size / 0x1000)).any fun i =>
    let old := g.old + 0x1000 * i
    let new := g.dest + 0x1000 * i
    !(s.compressed old && !(s.regionRaw part old)) && s.writeHeld part (new + 0xFF8) (memGetN s.mem (old + 0xFF8) 8)

/-- The pending requests of every queue that name a page (R275). -/
def State.samePage (s : State) (part gpa size : Nat) : List (Nat × Nat) :=
  s.parts.flatMap fun x =>
    match x.2.migq with
    | none => []
    | some (_, n) => (List.range n).filterMap fun i =>
        match s.migRecord x.1 i with
        | some r => if mqSTATUS r = 0 && mqPART r = part && decide (gpa ≤ mqGPA r) && decide (mqGPA r < gpa + size) then some (x.1, i) else none
        | none => none

/-- The partition whose page a move is of: the one that its record names, or of a move off a stack its own. -/
def State.migOwner (s : State) (g : Mig) : Option Nat :=
  match g.index with
  | none => some g.part
  | some i => ((s.migRecord g.part i).map mqPART).filter fun q => (Map.get? s.parts q).isSome

/-- MIGRATION_COPY: once the accesses at the old frame have performed, the page is copied and its leaf names the new frame; a second move
within 1 ms sets SHR; other requests for the page that were written before end as already moved (R274, R275). -/
def execMigrationCopy (index : Nat) (s : State) : Out :=
  match s.migs[index]? with
  | none => .next s
  | some g =>
    match s.migOwner g with
    | none => .next { s with migs := s.migs.eraseIdx index }
    | some owner =>
      let waits := s.heldAt g.old g.size || s.clearing owner || (s.pendingAt owner g.gpa g.old g.size).any fun x => g.waits.contains x
      let leaf : Word := BitVec.ofNat 64 (memNat s.mem g.leafAt 8)
      let key := owner * 2 ^ 52 + g.gpa
      let again := ((Map.get s.moves key []).getLast?).any fun t => decide (s.gt < t + 1000 * gtMicro)
      let leaf := (leaf &&& ~~~(BitVec.ofNat 64 ((2 ^ 38 - 1) * 2 ^ 14 + 2 ^ 6))) ||| BitVec.ofNat 64 g.dest ||| (if again then 1 <<< 7 else 0)
      let k := if g.size = 2 ^ 18 then 16 else if g.size = 2 ^ 22 then 256 else if g.size = 2 ^ 30 then 32 else 1
      let ats := (List.range k).map fun i => g.leafAt + 8 * i
      if waits || s.moveHeld g owner || s.leafHeld owner ats leaf then .next s
      else
        let s1 := (List.range (g.size / 0x1000)).foldl (fun s i => moveFrame owner (g.old + 0x1000 * i) (g.dest + 0x1000 * i) s) s
        let s2 := s1.putLeaf owner ats leaf
        let s3 := { s2 with migs := s2.migs.eraseIdx index, moves := Map.put s2.moves key [s.gt] }
        let s4 := match g.index with | some i => s3.migDone g.part i 1 | none => s3
        .next ((s4.samePage owner g.gpa g.size).foldl (fun s x => s.migDone x.1 x.2 2) s4)

/-! ## Re-keying (R283) -/

/-- The frames of a unit's range whose hallmark word memory lists bytes of. -/
def State.markFrames (s : State) (u : Nat) : List Nat :=
  (s.mem.filterMap fun x =>
    if msuBase u ≤ x.1 && decide (x.1 < msuBase u + msuBytes u) && decide (0xFF8 ≤ x.1 % 0x1000) then some (x.1 / 0x1000 * 0x1000) else none).eraseDups

/-- Whether the compatibility mode of some partition marks a frame's region all-uncompressed (R284). -/
def State.rawForAny (s : State) (a : Nat) : Bool := (s.msu (msuOf a)).compat.any fun t => s.regionRaw t.1 a

/-- The frames of a unit's range whose word at 0xFF8 is a value; those of the value 0 are found among all its frames. -/
def State.framesWith (s : State) (u : Nat) (v : Word) : List Nat :=
  let all := if v = 0 then (List.range (msuBytes u / 0x1000)).map fun i => msuBase u + 0x1000 * i else s.markFrames u
  all.filter fun f => memNat s.mem (f + 0xFF8) 8 == v.toNat

/-- RE_KEY: compressed frames of the unit get the new hallmark, its exception entries are dropped, and raw frames that read as the new
hallmark are entered, as many as the table holds. A table that has 224 entries then raises HALLMARK_FULL, and held writes that have room
perform (R282, R283; DESIGN CHOICE, log entry 67). -/
def execReKey (u : Nat) (hallmark : Word) (s : State) : Out :=
  if 40 ≤ u then .next s
  else
    let packed := (s.framesWith u (s.msu u).hallmark).filter fun f => s.compressed f && !(s.rawForAny f)
    let raw := (s.framesWith u hallmark).filter fun f => !(packed.contains f) && !(s.rawForAny f)
    let exc := raw.take 256
    let s1 := packed.foldl (fun s f => s.writeKey (f + 0xFF8) (toBytes 8 hallmark.toNat)) s
    let s2 := s1.setMsu u { s1.msu u with hallmark := hallmark, exc := exc }
    .next (if exc.length < 224 then s2 else s2.parts.foldl (fun s x => s.sendEvent x.1 0x504 u) s2).releaseWrites

/-! ## Errors and stacks (R285, R286, R309) -/

/-- PATROL_SCRUB: a corrected error is counted; an uncorrectable one poisons its word or granule (R285, R286). -/
def execPatrolScrub (a : Nat) (uncorrectable : Bool) (s : State) : Out :=
  if !uncorrectable then .next (s.logMemory 1 a)
  else
    let g := (granule (s.spaKey a)).1
    .next { s.logMemory 2 a with poison := if s.poison.contains g then s.poison else s.poison ++ [g] }

/-- The guest-physical pages that a partition's system tables map, below a table of a level (R269, R270). -/
def sysPages (m : Memory) (level table base : Nat) : List Nat :=
  let step := 2 ^ (match level with | 3 => 47 | 2 => 36 | 1 => 25 | _ => 14)
  (List.range (if level = 3 then 2 else 2048)).flatMap fun i =>
    let e : Word := BitVec.ofNat 64 (memNat m (table + 8 * i) 8)
    if !(pteV e) || pteBad false level e then []
    else if pteLeaf e then [base + step * i]
    else
      match level with
      | 0 => []
      | l + 1 => sysPages m l (pteADDR e) (base + step * i)

/-- The pages of a partition that have a leaf on a unit and may move: base, frame, leaf, size and entries. -/
def State.pagesOn (s : State) (u part : Nat) (p : Part) : List (Nat × Nat × Word × Nat × List Nat) :=
  ((sysPages s.mem 3 p.system.toNat 0).filterMap fun x =>
    (sysLeaf s.mem p x).bind fun l =>
      if msuOf l.1 = u && !(pteSHR l.2.1) && !(s.pinned part l.1 l.2.2.1 l.2.1) then some (x - x % l.2.2.1, l) else none).eraseDups

/-- Another unit that works, a free value; none where none does (R309; DESIGN CHOICE, log entry 19). -/
def State.freeUnit (s : State) : Option Nat :=
  let l := (List.range 40).filter fun u => !(s.msu u).offline
  l[Config.migFrame (s.oracle + 1) % max 1 l.length]?

/-- STACK_OFFLINE: a memory-side unit that fails takes its stack offline, and the migration unit moves its pages, those of every partition,
and moves under way to it elsewhere; pinned and shared pages stay (R274, R309; DESIGN CHOICE, log entry 19). -/
def execStackOffline (stack : Nat) (s : State) : Out :=
  if 16 ≤ stack then .next s
  else
    let s0 := s.setMsu stack { s.msu stack with offline := true }
    let s1 := s0.parts.foldl (fun s x =>
      (s.pagesOn stack x.1 x.2).foldl (fun s l =>
        match s.freeUnit, Map.get? s.parts x.1 with
        | some u, some p =>
          let (base, old, leaf, z, ats) := l
          ({ s with oracle := s.oracle + 2 } : State).startMove x.1 p ⟨x.1, none, base, old, z, s.freeFrame u z, ats.headD 0, []⟩ leaf ats
        | _, _ => s) s) s0
    .next (match s1.freeUnit with
      | none => s1
      | some u => { s1 with
          oracle := s1.oracle + 2
          migs := s1.migs.map fun g => if msuOf g.dest = stack then { g with dest := s1.freeFrame u g.size } else g })

/-- COMPATIBILITY_MODE: a partition's region table at a memory-side unit, or none (R284). -/
def execCompatibilityMode (part u : Nat) (table : Option Nat) (s : State) : Out :=
  if 40 ≤ u || (Map.get? s.parts part).isNone then .next s
  else
    let m := s.msu u
    .next (s.setMsu u { m with compat := match table with | some t => Map.put m.compat part t | none => Map.del m.compat part })

/-! ## Partitions (R264) -/

/-- A partition just formed: every register of it at its reset value (DESIGN CHOICE, log entry 2). -/
def Part.formed (row col rows cols : Nat) : Part :=
  ⟨row, col, rows, cols, [], [], [], none, none, 0, 0, [], [], none, [], 0, none, 0, false, 7, 0, none, []⟩

/-- PARTITION_FORMATION: two clusters or more join a partition, with their SRAM zero (R1, R264). A rectangle that leaves the mesh or meets
another partition forms none. One over cores that an emergency stop has left in firmware mode is halted until its RESET (R335, R336). -/
def execPartitionFormation (part row col rows cols : Nat) (s : State) : Out :=
  let xs := rectangle row col rows cols
  if 48 ≤ part || rows * cols < 2 || 8 < row + rows || 12 < col + cols || (Map.get? s.parts part).isSome ||
      xs.any (fun x => (s.cluster x).part.isSome) then .next s
  else
    .next (xs.foldl (fun s x =>
      { s.clearKey (sramSpa x) 0x1000000 with
        clusters := Map.put s.clusters x { s.cluster x with part := some part, lastJob := none, landing := [] } })
      { s.setPart part { Part.formed row col rows cols with
          halted := if s.cores.any fun y => y.2.run == .dead && xs.contains (clusterOf y.1) then some 0x21 else none } with
        pages := Map.del s.pages (part + 1) })

end Sys2Proof.Machine
end

