-- ==== Sys2Proof/Machine/Network.lean ====
section
/-! DEFINITION. The Ethernet ports: SCT flows, RoCE v2, hardware timestamps and priority flow control (spec/15 R319 to R323). -/

namespace Sys2Proof.Machine

open Sys2Proof

/-! ## Peer entries (R321) -/

/-- PORT. -/
def peerPORT (e : BitVec 256) : Nat := byteField e 6 1
/-- VALID. -/
def peerVALID (e : BitVec 256) : Bool := (byteField e 7 1).testBit 0
/-- RPKG. -/
def peerRPKG (e : BitVec 256) : Nat := byteField e 8 4
/-- RPART. -/
def peerRPART (e : BitVec 256) : Nat := byteField e 0xC 1
/-- KIND. -/
def peerKIND (e : BitVec 256) : Nat := byteField e 0xD 1
/-- RNODE. -/
def peerRNODE (e : BitVec 256) : Nat := byteField e 0xE 2
/-- RCTX. -/
def peerRCTX (e : BitVec 256) : BitVec 16 := e.extractLsb' 0x80 16

/-- The IEEE 802.1Q priority of the frames to a peer; untagged frames have priority 0: DEDUCED, log entry 22. -/
def peerPRIO (e : BitVec 256) : Nat := if (byteField e 0x12 2).testBit 15 then byteField e 0x12 2 / 4096 % 8 else 0

/-- Whether a peer entry has no reserved value. -/
def peerOk (e : BitVec 256) : Bool :=
  decide (peerPORT e < 8) && decide (byteField e 7 1 < 2) && decide (peerRPART e < 64) && decide (1 ≤ peerKIND e) && decide (peerKIND e ≤ 3) &&
    byteField e 0x14 12 == 0

/-! ## Frames (R319, R320) -/

/-- CRC-32 of IEEE 802.3 over one more byte (R320: PRESUMED, log entry 22). -/
def crcByte (c : BitVec 32) (b : Byte) : BitVec 32 :=
  (List.range 8).foldl (fun c _ => if c.getLsbD 0 then (c >>> 1) ^^^ 0xEDB88320#32 else c >>> 1) (c ^^^ b.setWidth 32)

/-- The frame check sequence of the bytes before it. -/
def fcsOf (l : List Byte) : List Byte := toBytes 4 (~~~(l.foldl crcByte (BitVec.allOnes 32))).toNat

/-- The bytes of an SCT frame to a peer: addresses, the 802.1Q tag of its entry, EtherType, the SCT header, then a packet's header and payload,
and the FCS; a short frame is filled with zeros to 64 bytes (R319, R320, R321). -/
def sctBytes (e : BitVec 256) (flags : Byte) (flow : Nat) (psn ackPsn : BitVec 32) (body : List Byte) : List Byte :=
  let vlan := byteField e 0x12 2
  let tag : List Byte := if vlan.testBit 15 then [0x81, 0x00] ++ (toBytes 2 (vlan % 2 ^ 12 + vlan / 2 ^ 12 % 8 * 2 ^ 13)).reverse else []
  let b := ((List.range 6).map fun i => BitVec.ofNat 8 (byteField e i 1)) ++ (toBytes 6 (Config.portMac (peerPORT e)).toNat).reverse ++ tag ++
    [0x8A, 0x5C, 1, flags] ++ toBytes 2 flow ++ toBytes 4 psn.toNat ++ toBytes 4 ackPsn.toNat ++ List.replicate 4 0 ++ body
  let b := b ++ List.replicate (60 - b.length) 0
  b ++ fcsOf b

/-- The 64 header bytes and the payload of a packet, as whole flits (R310, R320). -/
def sctBody (p : Packet) : List Byte := toBytes 64 (pktHeader p 1 2 0).toNat ++ fit (64 * pktFlits p) p.payload

/-- A frame as its port receives it: VLAN, FLAGS, FLOW, PSN, ACKPSN, and the bytes after the SCT header; none for a frame of another length or
EtherType, or whose FCS is wrong (R319, R320). -/
def readSct (b : List Byte) : Option (Nat × Byte × BitVec 16 × BitVec 32 × BitVec 32 × List Byte) :=
  let n := b.length
  let tagged := imgField b 12 2 == 0x0081
  let h := b.drop (if tagged then 16 else 12)
  if n < 64 || 9216 < n || b.drop (n - 4) != fcsOf (b.take (n - 4)) || imgField h 0 2 != 0x5C8A || 1128 < n || imgField h 2 1 != 1 ||
      imgField h 14 4 != 0 then none
  else
    let tci := imgField (b.drop 14) 0 1 * 256 + imgField (b.drop 15) 0 1
    some (if tagged then tci % 2 ^ 12 + tci / 2 ^ 13 * 2 ^ 12 + 2 ^ 15 else 0, BitVec.ofNat 8 (imgField h 3 1), BitVec.ofNat 16 (imgField h 4 2),
      BitVec.ofNat 32 (imgField h 6 4), BitVec.ofNat 32 (imgField h 10 4), (h.drop 18).take (h.length - 22))

/-- The packet of a frame's body; a header with a reserved value or of another type is a header error (R310, R311, R320). -/
def sctPacket (body : List Byte) : Packet :=
  let hd : BitVec 512 := BitVec.ofNat 512 (ofBytes (body.take 64))
  readPacket (body.take 64) (body.drop 64) (if headerReserved hd || hdField hd 0 1 != 1 then 2 else 0) none 0 none

/-! ## Sending (R320) -/

/-- The header of a packet bound for a peer (R310, R321; DESIGN CHOICE, log entry 20). -/
def peerPacket (e : BitVec 256) (p : Packet) : Packet :=
  { p with part := peerRPART e, ctx := peerRCTX e, dkind := peerKIND e, dest := peerRNODE e, spkg := Config.packageNumber }

/-- Whether a port's transmission on a priority is paused (R319). -/
def State.isPaused (s : State) (port prio : Nat) : Bool := (Map.get s.paused port 0).getLsbD prio

/-- Frames handed to a port on a priority: sent, or held in order while the priority is paused (R319). -/
def State.transmit (s : State) (port prio : Nat) (l : List Output) : State :=
  if s.isPaused port prio then { s with portQueue := s.portQueue ++ l.map fun o => (port, prio, o) } else { s with outbox := s.outbox ++ l }

/-- Whether a held frame is still to be sent: a failed flow delivers no more frames (R320). -/
def State.frameLives (s : State) (o : Output) : Bool :=
  match o with
  | .frame _ flow _ => !((s.txs[flow]?.map TxFlow.failed).getD false)
  | _ => true

/-- The held frames of priorities that are not paused are sent (R319). -/
def State.release (s : State) : State :=
  { s with
    portQueue := s.portQueue.filter fun x => s.isPaused x.1 x.2.1
    outbox := s.outbox ++ ((s.portQueue.filter fun x => !(s.isPaused x.1 x.2.1)).map fun x => x.2.2).filter s.frameLives }

/-- Pauses whose quanta have passed end (R319). -/
def State.unpause (s : State) : State :=
  let ended := (s.pauseEnds.filter fun x => decide (x.2 ≤ s.gt)).map Prod.fst
  if ended.isEmpty then s
  else
    { s with
      pauseEnds := s.pauseEnds.filter fun x => !(decide (x.2 ≤ s.gt))
      paused := ended.foldl (fun m k => Map.put m (k / 8) (Map.get m (k / 8) 0 &&& ~~~(1#8 <<< (k % 8)))) s.paused }.release

/-- What a data frame of a flow to a peer acknowledges: the last PSN that the flow of the same port and number from that peer's package has
acknowledged (R320; DEDUCED, log entry 22). -/
def State.ackOf (s : State) (e : BitVec 256) (flow : Nat) : BitVec 32 :=
  match s.rxs.find? fun r => r.port == peerPORT e && r.flow.toNat == flow && r.spkg == peerRPKG e with
  | some r => r.next - 1 - BitVec.ofNat 32 r.count
  | none => BitVec.allOnes 32

/-- A data frame of a flow (R320). -/
def State.dataFrame (s : State) (e : BitVec 256) (flow : Nat) (psn : BitVec 32) (again : Bool) (p : Packet) : Output :=
  .frame (peerPORT e) flow (sctBytes e (if again then 2 else 0) flow psn (s.ackOf e flow) (sctBody p))

/-- A packet handed to its Ethernet port: the next frame of the flow of its core and peer, kept until it is acknowledged (R320). -/
def State.sendSct (s : State) (n peer : Nat) (pkt : Packet) : State :=
  let part := (s.core n).partId.toNat
  match s.peerEntry part peer with
  | none => s
  | some e =>
    let p := peerPacket e pkt
    match s.txs.findIdx? fun t => t.core == hwCore n && t.part == part && t.peer == peer with
    | some i =>
      let put (t : TxFlow) : TxFlow :=
        { t with
          psn := t.psn + 1, unacked := t.unacked ++ [(t.psn, p)], since := if t.unacked.isEmpty then s.gt else t.since
          senders := (t.senders.filter fun x => t.unacked.any fun u => u.1 == x.1) ++ [(t.psn, (s.core n).launch)] }
      ({ s with txs := s.txs.zipIdx.map fun x => if x.2 = i then put x.1 else x.1 } : State).transmit (peerPORT e) (peerPRIO e)
        ((s.txs[i]?.filter fun t => !t.failed).toList.map fun t => s.dataFrame e i t.psn false p)
    | none =>
      ({ s with txs := s.txs ++ [⟨hwCore n, part, peer, 1, [(0, p)], s.gt, 0, false, [(0, (s.core n).launch)]⟩] } : State).transmit (peerPORT e) (peerPRIO e)
        [s.dataFrame e s.txs.length 0 false p]

/-- The packets that cores hand to their ports at the end of a cycle. -/
def State.sendAll (s : State) : State :=
  s.cores.foldl (fun s x => x.2.emits.foldl (fun s e => match e with | .sct peer p => s.sendSct x.1 peer p | _ => s) s) s

/-- A flow replaced. -/
def State.setFlow (s : State) (i : Nat) (t : TxFlow) : State :=
  { s with txs := s.txs.set i t }

/-- SCT_ACKNOWLEDGEMENT: the frames up to ACKPSN have been written remotely (R320). -/
def execSctAcknowledgement (flow : Nat) (ackPsn : BitVec 32) (s : State) : Out :=
  match s.txs[flow]? with
  | none => .next s
  | some t =>
    let left := t.unacked.filter fun u => 2 ^ 31 ≤ (ackPsn - u.1).toNat
    if t.failed || left.length = t.unacked.length then .next s
    else .next (s.setFlow flow { t with unacked := left, since := s.gt, tries := 0 })

/-- An event at every unit of launches, those that are vacated included (R256, R260). -/
def State.launchesEvent (s : State) (part : Nat) (keys : List Nat) (t : Trap) : State :=
  { s with
    cores := s.cores.map fun x => if x.2.runsIn part && keys.contains x.2.launch then (x.1, x.2.addEvent t) else x
    launches := s.launches.map fun x =>
      if keys.contains x.1 then (x.1, x.2.eventAway t) else x }

/-- The launches that sent the unacknowledged frames of a flow (R320). -/
def TxFlow.launches (t : TxFlow) : List Nat :=
  ((t.senders.filter fun x => t.unacked.any fun u => u.1 == x.1).map Prod.snd).eraseDups

/-- RETRANSMIT_TIMEOUT: 20 µs without progress: the flow retransmits from its oldest frame, and fails with the eighth timeout in a row:
the launches that sent its unacknowledged frames take PAYLOAD_ERROR, and the runtime is told (R320). -/
def execRetransmitTimeout (flow : Nat) (s : State) : Out :=
  match s.txs[flow]? with
  | none => .next s
  | some t =>
    if t.failed || t.unacked.isEmpty || decide (s.gt < t.since + 20 * gtMicro) then .next s
    else if 7 ≤ t.tries then
      .next (((s.setFlow flow { t with failed := true }).launchesEvent t.part t.launches ⟨cPAYLOAD, 9, false, BitVec.ofNat 64 t.peer, 0⟩).sendEvent
        t.part 0x508 0)
    else
      let e := (s.peerEntry t.part t.peer).getD 0
      .next ((s.setFlow flow { t with since := s.gt, tries := t.tries + 1 }).transmit (peerPORT e) (peerPRIO e)
        (t.unacked.map fun u => s.dataFrame e flow u.1 true u.2))

/-! ## Receiving (R320, R321) -/

/-- Whether a port accepts a frame: its partition holds a valid entry that names the sender's package. The header carries no number of
the sender's partition (R310): DEDUCED, log entry 22. -/
def State.accepts (s : State) (pkt : Packet) : Bool :=
  match Map.get? s.parts pkt.part with
  | none => false
  | some p => p.peers.any fun e => peerVALID e.2 && peerRPKG e.2 == pkt.spkg

/-- The receiving memory of an accepted packet: a core or cluster of the launch that its CTX names, or a memory-side unit (R195, R310). -/
def State.sctTarget (s : State) (pkt : Packet) : Option Nat :=
  if pkt.dkind = 3 then (if pkt.dest < 16 then some pkt.dest else none)
  else
    match s.launches.find? fun x => x.2.part == pkt.part && (x.2.st == .resident || !x.2.vacatedUnits.isEmpty) && x.2.lid.extractLsb' 0 16 == pkt.ctx with
    | none => none
    | some (_, l) =>
      if !(l.inside pkt.dest) then none
      else if pkt.dkind = 2 then some (l.cluster (pkt.dest / 8)) else some (l.coreOf pkt.dest)

/-- How many of a receiving flow's frames that are not yet acknowledged have been written, counted up to the first that a landing stage still
holds, or of which a memory-side unit holds a write (R282, R320). -/
def State.written (s : State) (i : Nat) (r : RxFlow) : Nat :=
  let place (psn : BitVec 32) : Nat := (psn - (r.next - BitVec.ofNat 32 r.count)).toNat
  let inStage := s.waiting.filterMap fun h =>
    match h.ev with
    | .coordinatePacket _ p => p.frame.bind fun f => if f.1 = i then some (place f.2) else none
    | _ => none
  (inStage ++ (r.held.filter fun x => s.heldWrites.contains x.2).map fun x => place x.1).foldl min r.count

/-- The entry through which a package is acknowledged: the first valid one that names it and the port (R320, R321; DEDUCED, log entry 22). -/
def State.peerFrom (s : State) (port spkg : Nat) : BitVec 256 :=
  (s.parts.findSome? fun x => (x.2.peers.find? fun e => peerVALID e.2 && peerRPKG e.2 == spkg && peerPORT e.2 == port).map Prod.snd).getD 0

/-- A cumulative acknowledgement of the first `k` frames of a receiving flow that have none, sent as a frame of its own (R320). -/
def State.acknowledge (s : State) (i k : Nat) (r : RxFlow) : State :=
  let e := s.peerFrom r.port r.spkg
  State.transmit { s with rxs := s.rxs.set i { r with count := r.count - k, since := s.gt } } r.port (peerPRIO e)
    [.ack r.port r.flow.toNat (sctBytes e 1 r.flow.toNat 0 (r.next - 1 - BitVec.ofNat 32 (r.count - k)) [])]

/-- SCT_FRAME: the next frame of a flow is accepted and lands in this cycle; any other is dropped, and one whose sender no valid entry
names is counted with kind 5 (R320, R321, R239). A frame of acknowledgement alone brings no packet: its ACKPSN comes as SCT_ACKNOWLEDGEMENT, as
that of every frame does. -/
def execSctFrame (port _vlan : Nat) (flags : Byte) (flow : BitVec 16) (psn : BitVec 32) (pkt : Packet) (s : State) : Out :=
  if flags.getLsbD 0 || 1024 < pkt.payload.length then .next s
  else if !(s.accepts pkt) then .next (s.logFabric 5 (port * 256) pkt.part pkt.src)
  else
    let (i, r) : Nat × RxFlow :=
      match s.rxs.findIdx? fun r => r.port == port && r.flow == flow && r.spkg == pkt.spkg with
      | some i => (i, s.rxs.getD i ⟨port, flow, pkt.spkg, 0, s.gt, 0, []⟩)
      | none => (s.rxs.length, ⟨port, flow, pkt.spkg, 0, s.gt, 0, []⟩)
    if psn != r.next then .next s
    else
      let r1 := { r with next := r.next + 1, since := if r.count = 0 then s.gt else r.since, count := r.count + 1 }
      let s1 := { s with rxs := if i < s.rxs.length then s.rxs.set i r1 else s.rxs ++ [r1] }
      let s2 := match s1.sctTarget pkt with
        | some node => { s1 with agenda := s1.agenda ++ [.coordinatePacket node { pkt with frame := some (i, psn) }] }
        | none => s1.logFabric 6 (port * 256) pkt.part pkt.src
      .next (if 16 ≤ r1.count then { s2 with agenda := s2.agenda ++ [.cumulativeAcknowledgement i] } else s2)

/-- CUMULATIVE_ACKNOWLEDGEMENT: after 16 frames or 2 µs, of the frames of the flow that have been written up to the first that has not
(R320). -/
def execCumulativeAcknowledgement (flow : Nat) (s : State) : Out :=
  match s.rxs[flow]? with
  | none => .next s
  | some r =>
    if s.written flow r = 0 || (decide (r.count < 16) && decide (s.gt < r.since + 2 * gtMicro)) then .next s
    else .next (s.acknowledge flow (s.written flow r) r)

/-! ## RoCE v2 (R322, R329) -/

/-- A queue pair; one that has not been set up has no region. -/
def State.qp (s : State) (qp : Nat) : Qp := Map.get s.qps qp ⟨0, 0, 0, []⟩

/-- A reply of a queue pair handed to its port (R319, R322). -/
def State.reply (s : State) (qp : Nat) (o : Output) : State := s.transmit (s.qp qp).port (s.qp qp).prio [o]

/-- An invalid-request NAK (R322). -/
def State.refused (s : State) (qp : Nat) : State := s.reply qp (.nak qp (s.qp qp).psn false)

/-- A congestion notification for a packet marked CE. -/
def State.congested (s : State) (qp : Nat) (marked : Bool) : State := if marked then s.reply qp (.congestion qp) else s

/-- The packets that carry some bytes of a queue pair, of 4,096 bytes each: PRESUMED, log entry 22. -/
def rocePackets (n : Nat) : BitVec 24 := BitVec.ofNat 24 (max 1 ((n + 4095) / 4096))

/-- A queue pair's sequence after a request of some packets. -/
def State.advanceQp (s : State) (qp : Nat) (n : BitVec 24) : State :=
  { s with qps := Map.put s.qps qp { s.qp qp with psn := (s.qp qp).psn + n } }

/-- The region of a queue pair that covers a range. -/
def State.regionFor (s : State) (qp addr len : Nat) : Option Region :=
  (s.qp qp).regions.find? fun r => decide (r.base ≤ addr) && decide (addr + len ≤ r.base + r.len)

/-- RDMA_WRITE: performs in the order received, in a region registered for the queue pair, and is acknowledged; another address is refused
(R322). -/
def execRdmaWrite (qp addr : Nat) (data : List Byte) (marked : Bool) (s : State) : Out :=
  let s1 := s.congested qp marked
  match s1.regionFor qp addr data.length with
  | some r =>
    let s2 := (s1.gpaWrite r.part addr data).advanceQp qp (rocePackets data.length)
    .next (s2.reply qp (.rdmaAck qp ((s2.qp qp).psn - 1)))
  | none => .next (s1.refused qp)

/-- RDMA_READ: answered with the bytes (R322). -/
def execRdmaRead (qp addr len : Nat) (marked : Bool) (s : State) : Out :=
  let s1 := s.congested qp marked
  match (s1.regionFor qp addr len).bind fun r => (Map.get? s1.parts r.part).bind fun p => gpaBytes s1.mem p addr len with
  | some l => .next ((s1.reply qp (.rdma qp (s1.qp qp).psn l)).advanceQp qp (rocePackets len))
  | none => .next (s1.refused qp)

/-- ROCE_SEND_REQUEST: answered with an invalid-request NAK (R322). -/
def execRoceSendRequest (qp : Nat) (marked : Bool) (s : State) : Out := .next ((s.congested qp marked).refused qp)

/-- ROCE_ATOMIC_REQUEST: answered with an invalid-request NAK (R322). -/
def execRoceAtomicRequest (qp : Nat) (marked : Bool) (s : State) : Out := .next ((s.congested qp marked).refused qp)

/-! ## Timestamps and flow control (R319, R323) -/

/-- PTP_EVENT_MESSAGE: stamped in GT, within the frame or beside it (R323). -/
def execPtpEventMessage (port seqId : Nat) (oneStep : Bool) (s : State) : Out :=
  .next { s with outbox := s.outbox ++ [.timestamp port seqId (BitVec.ofNat 64 s.gt) oneStep] }

/-- Quanta of 512 bit times at 1.6 Tb/s in units of GT, rounded up: a quantum is 0.32 ns (R319, by IEEE 802.1Qbb: PRESUMED, log entry 22). -/
def quantaTime (q : Nat) : Nat := (q * 2097152 + 99999) / 100000

/-- PRIORITY_FLOW_CONTROL: each priority of a port that the frame enables is paused for its quanta, or resumes where they are 0 (R319). -/
def execPriorityFlowControl (port : Nat) (enable : Byte) (quanta : List Nat) (s : State) : Out :=
  let old := Map.get s.paused port 0
  let new := BitVec.ofNat 8 (packNat 1 8 fun i =>
    if enable.getLsbD i then (if quanta.getD i 0 = 0 then 0 else 1) else (if old.getLsbD i then 1 else 0))
  .next { s with
    paused := Map.put s.paused port new
    pauseEnds := (List.range 8).foldl (fun m i =>
      if !(enable.getLsbD i) then m
      else if quanta.getD i 0 = 0 then Map.del m (8 * port + i) else Map.put m (8 * port + i) (s.gt + quantaTime (quanta.getD i 0))) s.pauseEnds }.release

end Sys2Proof.Machine
end

