-- ==== Sys2Proof/Machine/Boot.lean ====
section
/-! DEFINITION. Power-good, measured boot and attestation: SHA-384, the measurement registers, and the SPDM responder
(spec/16 R331 to R333, R337). -/

namespace Sys2Proof.Machine

open Sys2Proof

/-! ## SHA-384 (R332), by FIPS 180-4: PRESUMED, log entry 23 -/

/-- Round constants 0 to 19 of SHA-384. -/
def shaK0 : List Word :=
  [0x428A2F98D728AE22, 0x7137449123EF65CD, 0xB5C0FBCFEC4D3B2F, 0xE9B5DBA58189DBBC,
   0x3956C25BF348B538, 0x59F111F1B605D019, 0x923F82A4AF194F9B, 0xAB1C5ED5DA6D8118,
   0xD807AA98A3030242, 0x12835B0145706FBE, 0x243185BE4EE4B28C, 0x550C7DC3D5FFB4E2,
   0x72BE5D74F27B896F, 0x80DEB1FE3B1696B1, 0x9BDC06A725C71235, 0xC19BF174CF692694,
   0xE49B69C19EF14AD2, 0xEFBE4786384F25E3, 0x0FC19DC68B8CD5B5, 0x240CA1CC77AC9C65]

/-- Round constants 20 to 39 of SHA-384. -/
def shaK1 : List Word :=
  [0x2DE92C6F592B0275, 0x4A7484AA6EA6E483, 0x5CB0A9DCBD41FBD4, 0x76F988DA831153B5,
   0x983E5152EE66DFAB, 0xA831C66D2DB43210, 0xB00327C898FB213F, 0xBF597FC7BEEF0EE4,
   0xC6E00BF33DA88FC2, 0xD5A79147930AA725, 0x06CA6351E003826F, 0x142929670A0E6E70,
   0x27B70A8546D22FFC, 0x2E1B21385C26C926, 0x4D2C6DFC5AC42AED, 0x53380D139D95B3DF,
   0x650A73548BAF63DE, 0x766A0ABB3C77B2A8, 0x81C2C92E47EDAEE6, 0x92722C851482353B]

/-- Round constants 40 to 59 of SHA-384. -/
def shaK2 : List Word :=
  [0xA2BFE8A14CF10364, 0xA81A664BBC423001, 0xC24B8B70D0F89791, 0xC76C51A30654BE30,
   0xD192E819D6EF5218, 0xD69906245565A910, 0xF40E35855771202A, 0x106AA07032BBD1B8,
   0x19A4C116B8D2D0C8, 0x1E376C085141AB53, 0x2748774CDF8EEB99, 0x34B0BCB5E19B48A8,
   0x391C0CB3C5C95A63, 0x4ED8AA4AE3418ACB, 0x5B9CCA4F7763E373, 0x682E6FF3D6B2B8A3,
   0x748F82EE5DEFB2FC, 0x78A5636F43172F60, 0x84C87814A1F0AB72, 0x8CC702081A6439EC]

/-- Round constants 60 to 79 of SHA-384. -/
def shaK3 : List Word :=
  [0x90BEFFFA23631E28, 0xA4506CEBDE82BDE9, 0xBEF9A3F7B2C67915, 0xC67178F2E372532B,
   0xCA273ECEEA26619C, 0xD186B8C721C0C207, 0xEADA7DD6CDE0EB1E, 0xF57D4F7FEE6ED178,
   0x06F067AA72176FBA, 0x0A637DC5A2C898A6, 0x113F9804BEF90DAE, 0x1B710B35131C471B,
   0x28DB77F523047D84, 0x32CAAB7B40C72493, 0x3C9EBE0A15C9BEBC, 0x431D67C49C100D4C,
   0x4CC5D4BECB3E42B6, 0x597F299CFC657E2A, 0x5FCB6FAB3AD6FAEC, 0x6C44198C4A475817]

/-- The initial hash value of SHA-384. -/
def shaInit : List Word :=
  [0xCBBB9D5DC1059ED8, 0x629A292A367CD507, 0x9159015A3070DD17, 0x152FECD8F70E5939,
   0x67332667FFC00B31, 0x8EB44A8768581511, 0xDB0C2E0D64F98FA7, 0x47B5481DBEFA4FA4]

/-- The 80 round constants of SHA-384. -/
def shaK : List Word := shaK0 ++ shaK1 ++ shaK2 ++ shaK3

/-- Bytes read as a big-endian number. -/
def bigEndian (l : List Byte) : Nat := l.foldl (fun a b => 256 * a + b.toNat) 0

/-- A number as `n` big-endian bytes. -/
def toBig (n v : Nat) : List Byte := (toBytes n v).reverse

/-- A message with its padding: 0x80, zeros, and its length in bits in 16 bytes. -/
def shaPad (l : List Byte) : List Byte :=
  let z := (239 - l.length % 128) % 128
  l ++ [0x80] ++ List.replicate z 0 ++ toBig 16 (8 * l.length)

/-- The message schedule extended by `k` words; the newest word first. -/
def shaExtend (k : Nat) (w : List Word) : List Word :=
  match k with
  | 0 => w
  | k + 1 =>
    let a := w.getD 14 0
    let b := w.getD 1 0
    let s0 := a.rotateRight 1 ^^^ a.rotateRight 8 ^^^ (a >>> 7)
    let s1 := b.rotateRight 19 ^^^ b.rotateRight 61 ^^^ (b >>> 6)
    shaExtend k ((w.getD 15 0 + s0 + w.getD 6 0 + s1) :: w)

/-- One round on the eight working words. -/
def shaRound (v : List Word) (kw : Word × Word) : List Word :=
  match v with
  | [a, b, c, d, e, f, g, h] =>
    let s1 := e.rotateRight 14 ^^^ e.rotateRight 18 ^^^ e.rotateRight 41
    let ch := (e &&& f) ^^^ (~~~e &&& g)
    let t1 := h + s1 + ch + kw.1 + kw.2
    let s0 := a.rotateRight 28 ^^^ a.rotateRight 34 ^^^ a.rotateRight 39
    let mj := (a &&& b) ^^^ (a &&& c) ^^^ (b &&& c)
    [t1 + (s0 + mj), a, b, c, d + t1, e, f, g]
  | _ => v

/-- One block of 128 bytes compressed into the hash value. -/
def shaBlock (h : List Word) (l : List Byte) : List Word :=
  let w0 := (List.range 16).map fun i => BitVec.ofNat 64 (bigEndian ((l.drop (8 * i)).take 8))
  let w := (shaExtend 64 w0.reverse).reverse
  let v := (shaK.zip w).foldl shaRound h
  (h.zip v).map fun x => x.1 + x.2

/-- SHA-384 of bytes: 48 bytes. -/
def sha384 (l : List Byte) : List Byte :=
  let m := shaPad l
  let h := (pieces 128 (m.length / 128) m).foldl shaBlock shaInit
  (h.take 6).flatMap fun w => toBig 8 w.toNat

/-! ## Measurement (R332) -/

/-- A measurement register; all zero at power-good. -/
def Boot.reg (b : Boot) (i : Nat) : List Byte := Map.get b.meas i (List.replicate 48 0)

/-- Mi extended by an image (R332). -/
def Boot.extend (b : Boot) (i : Nat) (image : List Byte) : Boot :=
  { b with meas := Map.put b.meas i (sha384 (b.reg i ++ sha384 image)) }

/-- POWER_GOOD: the package starts from reset, and boot measures every image before any of its code runs; then the hallmark and FATALBASE are
set (R281, R331, R332). -/
def execPowerGood (rom ioFw dieFw training uefi : List Byte) (hallmark fatalBase : Word) (s : State) : Out :=
  let b := ((((State.reset.boot.extend 0 rom).extend 1 ioFw).extend 2 dieFw).extend 3 training).extend 4 uefi
  .next { State.reset with
    cyc := s.cyc, boot := { b with step := 7 }, sramMark := hallmark, fatalBase := fatalBase
    phase := s.phase, agenda := s.agenda, oracle := s.oracle, inbox := s.inbox, feed := s.feed, outbox := s.outbox }

/-- MEASUREMENT_EXTENSION: M5 to M15, from the drover cores; the firmware extends the others (R332). -/
def execMeasurementExtension (_hart reg : Nat) (image : List Byte) (s : State) : Out :=
  if 5 ≤ reg && reg < 16 then .next { s with boot := s.boot.extend reg image } else .next s

/-- FIRMWARE_LOG_READ: the running logs, the newest 8,192 entries (R337). -/
def execFirmwareLogRead (memoryLog : Bool) (s : State) : Out :=
  let l := if memoryLog then s.memLog else s.fabLog
  .next { s with outbox := s.outbox ++ [.log memoryLog (l.drop (l.length - 8192))] }

/-- POWER_REMOVED: nothing is kept but what is outside the package (R335; DESIGN CHOICE, log entry 3). -/
def execPowerRemoved (s : State) : Out :=
  .next { State.reset with cyc := s.cyc, phase := s.phase, oracle := s.oracle, inbox := s.inbox, feed := s.feed, outbox := s.outbox }

/-! ## SPDM (R333; PRESUMED, log entry 10) -/

/-- SPDM over one transport: TCP or MCTP. -/
def Boot.side (b : Boot) (tcp : Bool) : Spdm := if tcp then b.tcp else b.mctp

/-- SPDM over one transport replaced. -/
def Boot.put (b : Boot) (tcp : Bool) (x : Spdm) : Boot := if tcp then { b with tcp := x } else { b with mctp := x }

/-- What has been agreed on over one transport. -/
def State.side (s : State) (tcp : Bool) : Spdm := s.boot.side tcp

/-- What has been agreed on over one transport replaced. -/
def State.agree (s : State) (tcp : Bool) (x : Spdm) : State := { s with boot := s.boot.put tcp x }

/-- A response sent on the transport of its request: the response code of DMTF SPDM 1.3, and its content. The transcript grows. -/
def State.respond (s : State) (tcp : Bool) (code : Nat) (data : List Byte) : State :=
  { s.agree tcp { s.side tcp with log := (s.side tcp).log ++ data } with outbox := s.outbox ++ [.spdm tcp code data] }

/-- An error response: 4 for an unexpected request, 6 for a MAC that is wrong. -/
def State.spdmError (s : State) (tcp : Bool) (code : Nat) : State := { s with outbox := s.outbox ++ [.spdm tcp 0x7F [BitVec.ofNat 8 code]] }

/-- A request answered once firmware runs and what it needs has been agreed; over TCP, once the runtime has configured an address. -/
def State.spdm (s : State) (tcp ready : Bool) (f : State → State) : Out :=
  if s.boot.step < 7 || (tcp && s.boot.addr.isNone) then .next s else if ready then .next (f s) else .next (s.spdmError tcp 4)

/-- GET_VERSION: 1.3, and the agreement starts afresh (R333). -/
def execGetVersion (tcp : Bool) (s : State) : Out :=
  s.spdm tcp true fun s => (s.agree tcp { Spdm.reset with ver := true }).respond tcp 0x04 [0x00, 0x13]

/-- GET_CAPABILITIES: certificates, challenge, signed measurements, key exchange and sessions (R333). -/
def execGetCapabilities (tcp : Bool) (s : State) : Out :=
  s.spdm tcp (s.side tcp).ver fun s => s.respond tcp 0x61 (toBytes 4 0x000002D6)

/-- NEGOTIATE_ALGORITHMS: SHA-384, ECDSA P-384 and ECDHE P-384, and nothing else (R333). The lists hold the bits of SPDM 1.3. -/
def execNegotiateAlgorithms (tcp : Bool) (hashes signatures dheGroups : List Nat) (s : State) : Out :=
  s.spdm tcp ((s.side tcp).ver && hashes.contains 0x02 && signatures.contains 0x80) fun s =>
    (s.agree tcp { s.side tcp with alg := true, dhe := dheGroups.contains 0x10 }).respond tcp 0x63
      (toBytes 4 0x02 ++ toBytes 4 0x80 ++ toBytes 2 (if dheGroups.contains 0x10 then 0x10 else 0))

/-- The certificate chain of this boot's alias key, which M1 decides (R333). -/
def Boot.chain (b : Boot) : List Byte := Config.spdmCertificate (b.reg 1)

/-- GET_DIGESTS (R333). -/
def execGetDigests (tcp : Bool) (s : State) : Out :=
  s.spdm tcp (s.side tcp).alg fun s => s.respond tcp 0x01 (sha384 s.boot.chain)

/-- GET_CERTIFICATE (R333). -/
def execGetCertificate (tcp : Bool) (offset length : Nat) (s : State) : Out :=
  s.spdm tcp (s.side tcp).alg fun s => s.respond tcp 0x02 ((s.boot.chain.drop offset).take length)

/-- A fresh nonce or key share, and a signature of this boot's alias key, which M1 decides, over the transcript with what is signed (R333). -/
def State.signed (s : State) (tcp : Bool) (code : Nat) (request data : List Byte) : State :=
  let s1 := s.agree tcp { s.side tcp with log := (s.side tcp).log ++ request }
  let s2 := { s1 with boot := { s1.boot with nonces := s.boot.nonces + 1 } }
  let data := data ++ Config.spdmNonce s.boot.nonces
  s2.respond tcp code (data ++ Config.spdmSignature (s.boot.reg 1) s.boot.nonces ((s2.side tcp).log ++ data))

/-- The registers M0 to M15 as one summary. -/
def Boot.summary (b : Boot) : List Byte := sha384 ((List.range 16).flatMap b.reg)

/-- CHALLENGE (R333). -/
def execChallenge (tcp : Bool) (nonce : List Byte) (s : State) : Out :=
  s.spdm tcp (s.side tcp).alg fun s => s.signed tcp 0x03 nonce (sha384 s.boot.chain ++ s.boot.summary)

/-- One measurement block for a register (R333). -/
def Boot.block (b : Boot) (i : Nat) : List Byte := [BitVec.ofNat 8 (i + 1), 1] ++ toBytes 2 51 ++ [1] ++ toBytes 2 48 ++ b.reg i

/-- GET_MEASUREMENTS: the number of blocks, one block per register, or all of them; signed by the alias key on request (R333). -/
def execGetMeasurements (tcp : Bool) (index : Nat) (nonce : List Byte) (signed : Bool) (s : State) : Out :=
  s.spdm tcp ((s.side tcp).alg && (decide (index ≤ 16) || index == 0xFF)) fun s =>
    let data : List Byte :=
      if index = 0 then [16]
      else if index = 0xFF then (List.range 16).flatMap s.boot.block
      else s.boot.block (index - 1)
    if signed then s.signed tcp 0x60 nonce data else s.respond tcp 0x60 data

/-- KEY_EXCHANGE: a session with an ephemeral P-384 share, where ECDHE was agreed on (R333). -/
def execKeyExchange (tcp : Bool) (session : Nat) (peerKey : List Byte) (s : State) : Out :=
  s.spdm tcp ((s.side tcp).alg && (s.side tcp).dhe && (s.side tcp).session.isNone) fun s =>
    (s.agree tcp { s.side tcp with session := some session, finished := false }).signed tcp 0x64 peerKey s.boot.summary

/-- FINISH: the session's handshake ends; a MAC that is not that of the transcript ends the session (R333). -/
def execFinish (tcp : Bool) (session : Nat) (mac : List Byte) (s : State) : Out :=
  s.spdm tcp ((s.side tcp).session == some session && !(s.side tcp).finished) fun s =>
    let x := s.side tcp
    if mac = Config.spdmMac session x.log then (s.agree tcp { x with finished := true, log := x.log ++ mac }).respond tcp 0x65 []
    else (s.agree tcp { x with session := none }).spdmError tcp 6

/-- END_SESSION (R333). -/
def execEndSession (tcp : Bool) (session : Nat) (s : State) : Out :=
  s.spdm tcp ((s.side tcp).session == some session && (s.side tcp).finished) fun s =>
    (s.agree tcp { s.side tcp with session := none, finished := false }).respond tcp 0x6C []

end Sys2Proof.Machine
end

