-- ==== Sys2Proof/Machine/Power.lean ====
section
/-! DEFINITION. Power states, the emergency stop, a partition that halts and its fatal image, and its reset (spec/15 R313, R314;
spec/16 R334 to R337). -/

namespace Sys2Proof.Machine

open Sys2Proof

/-! ## Halting a partition (R248, R313, R335, R337) -/

/-- The clusters of a partition. -/
def Part.area (p : Part) : List Nat := rectangle p.row p.col p.rows p.cols

/-- The cores of a partition, ascending. -/
def Part.cores (p : Part) : List Nat := ordSort id (p.area.flatMap fun x => (List.range 8).map fun k => 8 * x + k)

/-- A core in firmware mode: it issues nothing (R229, R248). -/
def Core.halt (c : Core) : Core := { c with run := .dead, mode := 2, events := [], emits := [], line := none }

/-- The first 64 bytes of a fatal image (R337). -/
def fatalHeader (s : State) (part cause cores snaps : Nat) : List Byte :=
  toBytes 4 0x4C544146 ++ toBytes 2 1 ++ [BitVec.ofNat 8 cause, BitVec.ofNat 8 part] ++ toBytes 8 s.gt ++ toBytes 8 s.cyc ++ toBytes 2 cores ++
    toBytes 2 snaps ++ toBytes 2 (min 8192 s.fabLog.length) ++ toBytes 2 (min 8192 s.memLog.length)

/-- The record of one core, with the offset of its snapshot or all ones (R337). -/
def fatalRecord (s : State) (c : Core) (snap : Nat) : List Byte :=
  ([0x000, 0x001, 0x002, 0x003, 0x004, 0x006, 0x007, 0x009, 0x800].flatMap fun r => toBytes 8 (Core.sysRead s c r).toNat) ++ toBytes 8 snap

/-- One entry of the fabric error log (R337). -/
def fabEntry (e : LogEntry) : List Byte :=
  toBytes 8 e.gt.toNat ++ toBytes 8 (e.where_ % 256 + e.where_ / 256 % 16 * 256) ++ [BitVec.ofNat 8 e.kind, BitVec.ofNat 8 e.part] ++ toBytes 2 e.src ++
    toBytes 4 0 ++ toBytes 8 e.count

/-- One entry of the memory error log (R337). -/
def memEntry (e : LogEntry) : List Byte :=
  toBytes 8 e.gt.toNat ++ toBytes 8 e.where_ ++ [BitVec.ofNat 8 e.kind, BitVec.ofNat 8 e.part] ++ toBytes 6 e.src ++ toBytes 8 e.count

/-- The newest 8,192 entries of a log. -/
def newest (l : List LogEntry) : List LogEntry := l.drop (l.length - 8192)

/-- Firmware writes the fatal image of a partition (R337). -/
def State.writeFatal (s : State) (part cause : Nat) (p : Part) : State :=
  let base := s.fatalBase.toNat + 0x8000000 * part
  let ns := p.cores
  let snaps := ns.filter fun n => (s.core n).sh
  let place (n : Nat) : Nat := match snaps.findIdx? fun k => k == n with | some i => 0x31000 + 0x18000 * i | none => 2 ^ 64 - 1
  let m := memPutN (memClear s.mem base 0x8000000) base (fatalHeader s part cause ns.length snaps.length)
  let m := ns.zipIdx.foldl (fun m x => memPutN m (base + 0x40 + 256 * x.2) (fatalRecord s (s.core x.1) (place x.1))) m
  let m := snaps.foldl (fun m n => match (s.core n).held with | some x => writeImage m (base + place n) (s.core n) x 0 | none => m) m
  let m := memPutN m (base + 0x7F80000) ((newest s.fabLog).flatMap fabEntry)
  s.engineWrote part base 0x8000000 (memPutN m (base + 0x7FC0000) ((newest s.memLog).flatMap memEntry))

/-- Cores of the package that enter firmware mode, those with a unit, those without, and what a predecessor left beside a unit (R302, R335). -/
def State.haltCores (s : State) (ns : List Nat) : State :=
  let mine := s.cores.map fun x => if ns.contains (hwCore x.1) then (x.1, x.2.halt) else x
  { s with cores := ns.foldl (fun m n => if (Map.get? m n).isSome then m else Map.put m n Core.reset.halt) mine }

/-- The fatal image of a halted partition written, and then PARTITION_HALTED sent (R328, R337). -/
def State.fatal (s : State) (part cause : Nat) (p : Part) : State :=
  ((s.setPart part { p with halted := some cause }).writeFatal part cause p).sendEvent part 0x50C 0

/-- A partition halted with a cause: its cores enter firmware mode, the fatal image is written, and PARTITION_HALTED is sent. -/
def State.haltPart (s : State) (part cause : Nat) : State :=
  match Map.get? s.parts part with
  | none => s
  | some p => if p.halted.isSome then s else (s.haltCores p.cores).fatal part cause p

/-- PARTITION_HALTED: after a DOUBLE_FAULT of one of its cores, or a header error (R246, R248, R313, R337). -/
def execPartitionHalted (part : Nat) (s : State) : Out :=
  let double := s.cores.any fun x => x.2.runsIn part && x.2.run == .dead
  .next (s.haltPart part (if double then 0x11 else 0x20))

/-- EMERGENCY_STOP: over current for 20 µs, or a die above 110 °C: every core enters firmware mode in this cycle, a fatal image is written for
each partition, one that has halted before included, and power is to be removed (R335). -/
def execEmergencyStop (milliamps micros celsius : Nat) (s : State) : Out :=
  if (12600000 < milliamps && 20 ≤ micros) || 110 < celsius then
    .next (let s1 := s.parts.foldl (fun t x => t.fatal x.1 0x21 x.2) (s.haltCores (List.range 768))
           { s1 with outbox := s1.outbox ++ [.powerOffRequest] })
  else .next s

/-! ## Power states (R334) -/

/-- Cluster SRAM and scratchpads of a partition lost, and zero when next powered (R264, R334). Its cores hold nothing; one in firmware mode stays
there, since RESET alone brings it out (R336). -/
def State.powerOffPart (s : State) (p : Part) : State :=
  let s := p.area.foldl (fun s x => s.clearKey (sramSpa x) 0x1000000) s
  let s := p.cores.foldl (fun s n => s.clearKey (padKey n 0 0) 0x200000) s
  { s with
    cores := (s.cores.filter fun x => !(p.cores.contains (hwCore x.1)) || (x.2.run == .dead && decide (x.1 < 1024))).map fun x =>
      if p.cores.contains x.1 then (x.1, Core.reset.halt) else x
    clusters := p.area.foldl (fun t x => Map.put t x { s.cluster x with lastJob := none, landing := [] }) s.clusters }

/-- A partition brought to a power state. From OFF it goes to IDLE, and on to the state asked for 100 µs later; a transition waits for a
placement under way (R334). -/
def State.powerTo (s : State) (part state : Nat) (p : Part) : State :=
  if state = 3 then (s.setPart part { p with pstate := 3, onAt := none }).powerOffPart p
  else if p.pstate = 3 then
    s.setPart part { p with pstate := 2, onAt := if state = 2 then none else some (s.gt + 100 * gtMicro, state) }
  else if p.onAt.isSome && state != 2 && p.pstate == 2 then
    s.setPart part { p with onAt := p.onAt.map fun t => (t.1, state) }
  else if s.launches.any fun x => x.2.part == part && x.2.st == .loaded then s.setPart part { p with onAt := some (s.gt, state) }
  else s.setPart part { p with pstate := state, onAt := none }

/-- PSTATE_ON_DELAY: the delayed transition takes effect between two cycles, with no placement under way (R334). -/
def execPstateOnDelay (part : Nat) (s : State) : Out :=
  match Map.get? s.parts part with
  | none => .next s
  | some p =>
    match p.onAt with
    | none => .next s
    | some (t, state) =>
      if t ≤ s.gt && !(s.launches.any fun x => x.2.part == part && x.2.st == .loaded) then
        .next (s.setPart part { p with pstate := state, onAt := none })
      else .next s

/-! ## Reset of a partition (R314, R336) -/

/-- The timing group whose schedule a timed transfer is of: its sender's. -/
def State.flightGroup (s : State) (f : Flight) : Option Nat :=
  let n : Option Nat := match f.ev with
    | .coordinatePacket _ p => p.sent.map Prod.fst
    | .collectiveContribution _ n .. => some n
    | ev => arrivalCore ev
  n.map fun k => (s.core k).group

/-- Timing groups of other partitions with timed traffic on its way stop until the purge of a router on it ends, at most 256 cycles. Untimed
flits of the reset partition may stand in any router, so that which groups stop, and for how long, is free (R314; DESIGN CHOICE, log entry
21). -/
def State.purgeStalls (s : State) (part : Nat) : State :=
  let hit := s.flights.filter fun f => f.part != part && !f.path.isEmpty
  let gs := (hit.filterMap s.flightGroup).eraseDups
  gs.foldl (fun s g =>
    let k := Config.purgeCycles s.oracle % 257
    match Map.get? s.groups g with
    | none => s
    | some x =>
      let s := { s with oracle := s.oracle + 1 }
      if k = 0 then s
      else
        let ms := (s.groupCores g).filter fun n => (s.core n).live
        let tick := ((s.groupCores g).head?.map fun n => s.tickOf (s.core n)).getD 0
        let s1 := ms.foldl (fun s n => s.onCore n fun c => { c with stopAt := some (s.tickOf c) }) s
        s1.setGroup g { x with stalled := true, lastStop := max x.lastStop tick, due := some (tick + k) }) s

/-- RESET of a partition: launches stop as on cancel, flits are purged, cores leave firmware mode, cluster SRAM is zeroed, queues are
disabled and triggers disarmed (R336). -/
def State.resetPart (s : State) (part : Nat) (p : Part) : State :=
  let keys := (s.launches.filter fun x => x.2.part == part && x.2.alive).map Prod.fst
  let s1 := (s.purgeStalls part).cancelLaunches part keys none (fun _ => true)
  let p1 := (Map.get? s1.parts part).getD p
  let s1 := p.area.foldl (fun s x => s.clearKey (sramSpa x) 0x1000000) s1
  { s1.setPart part { p1 with
      queues := p1.queues.map fun q => (q.1, { q.2 with enabled := false, back := [] }), triggers := [], halted := none, lastQ := 7, marks := [] } with
    flights := s1.flights.filter fun f => f.part != part
    heldWrites := s1.heldWrites.filter fun w => w.1 != part
    incrs := s1.incrs.filter fun i => i.part != part
    cores := (s1.cores.filter fun x => !(p.cores.contains (hwCore x.1)) || decide (x.1 < 1024)).map fun x =>
      if p.cores.contains x.1 && x.2.run != .idle then (x.1, x.2.freed) else x
    clusters := p.area.foldl (fun t x => Map.put t x { (Map.get t x (s1.cluster x)) with busy := none, landing := [] }) s1.clusters }

/-! ## Harvest (R309, R336) -/

/-- The links and routers that the stitchings of resident launches use. -/
def State.usedLinks (s : State) : List (Nat × Nat) :=
  (s.launches.filter fun x => x.2.st == .resident || x.2.st == .loaded).flatMap fun x =>
    (stitchEdges x.2.stitch x.2.rows x.2.cols).flatMap fun e => meshLinks (x.2.cluster e.1) (x.2.cluster e.2)

/-- The routers that resident launches use. -/
def State.usedRouters (s : State) : List Nat :=
  ((s.launches.filter fun x => x.2.st == .resident || x.2.st == .loaded).flatMap fun x => rectangle x.2.row x.2.col x.2.rows x.2.cols) ++
    s.usedLinks.flatMap fun e => [e.1, e.2]

/-- A router or link marked harvested; none where the operands are reserved or a resident launch's stitching uses it (R336). -/
def State.markHarvested (s : State) (kind router port : Nat) : Option State :=
  if 96 ≤ router then none
  else
    match kind with
    | 0 => if s.usedRouters.contains router || port != 0 then none
      else some { s with clusters := Map.put s.clusters router { s.cluster router with dead := true } }
    | 1 =>
      match neighbour router port with
      | none => none
      | some y => if s.usedLinks.contains (router, y) || s.usedLinks.contains (y, router) then none
        else some { s with links := if s.linkWorks (router, y) then s.links ++ [(router, y)] else s.links }
    | _ => none

end Sys2Proof.Machine
end

