-- ==== Sys2Proof/Machine/Command.lean ====
section
/-! DEFINITION. The management commands, in the order in which a command page holds them (spec/14 R287 to R289, R294, R298; spec/16 R326,
R327). A command ends with STATUS 1 done, 2 refused or 3 not permitted. -/

namespace Sys2Proof.Machine

open Sys2Proof

/-- A command page: the hypervisor's under 0, partition p's under p + 1 (R325). -/
def State.page (s : State) (k : Nat) : CmdPage := Map.get s.pages k ⟨[], 0, 0, false⟩

/-- The key of a command page. -/
def pageKey (page : Option Nat) : Nat := match page with | none => 0 | some p => p + 1

/-- The head record of a ring ended: STATUS written in it, and then CMDHEAD (R326). -/
def CmdPage.ended (g : CmdPage) (st : Nat) : CmdPage :=
  let i := g.head.toNat % 32
  let r := Map.get g.ring i 0
  { g with ring := Map.put g.ring i ((r &&& ~~~(0xFFFF0000#256)) ||| (BitVec.ofNat 256 st <<< 16)), head := g.head + 1 }

/-- A command's STATUS reported, and where its record is the head of its page's ring, written there, with CMDHEAD after it (R326). -/
def State.status (s : State) (page : Option Nat) (code st : Nat) : State :=
  let s1 := { s with outbox := s.outbox ++ [.status page code st] }
  if s.taking then { s1 with taking := false, pages := Map.put s1.pages (pageKey page) ((s1.page (pageKey page)).ended st) } else s1

/-- A command on a partition: that of its page, or PART on the hypervisor's page; `hv` commands are taken from there alone (R326). -/
def State.command (s : State) (page : Option Nat) (part code : Nat) (hv : Bool) (f : Nat → Part → Option State) : Out :=
  if hv && page.isSome then .next (s.status page code 3)
  else
    let q := page.getD part
    match (Map.get? s.parts q).bind (f q) with
    | some s1 => .next (s1.status page code 1)
    | none => .next (s.status page code 2)

/-- The bytes that a command names by address: guest-physical for a runtime page, system-physical for the hypervisor's; none where they
cannot be read (R327). -/
def State.named (s : State) (page : Option Nat) (p : Part) (a n : Nat) : Option (List Byte) :=
  match page with
  | some _ => gpaBytes s.mem p a n
  | none => if inDevice a && inDevice (a + n - 1) then some (memGetN s.mem a n) else none

/-! ## Queues and counters -/

/-- The marks of cancelled records after a QSET: those of the queue's head record, which stays, and of the records of a ring that stays behind it,
by their new numbers; `old` numbers the record after the head, `new` is its number now (R298; DEDUCED, log entry 42). -/
def marksAfter (queue old new : Nat) (head same : Bool) (marks : List Nat) : List Nat :=
  marks.filterMap fun m =>
    let i := m % 2 ^ 64
    if m / 2 ^ 64 ≠ queue then some m
    else if head && i == (old + 2 ^ 64 - 1) % 2 ^ 64 then some (markKey queue (new + 2 ^ 64 - 1))
    else if same then some (markKey queue (i + 2 ^ 64 - old % 2 ^ 64 + new))
    else none

/-- QSET: sets or disables a launch queue. The count of records taken goes on from the head word; a head record that has been taken stays, and a
disabled queue keeps what it has seen (R288, R289, R298; DEDUCED, log entry 42). -/
def execQset (page : Option Nat) (part queue addr : Nat) (s : State) : Out :=
  s.command page part 1 false fun q p =>
    if 8 ≤ queue then none
    else
      match s.named page p addr 32 with
      | none => none
      | some b =>
        let d : Mask := BitVec.ofNat 256 (ofBytes b)
        if !(queueOk d) then none
        else
          let old := Map.get? p.queues queue
          let on := (byteField d 0x19 1).testBit 7
          match (if on then gpaBytes s.mem p (qdHEAD d) 8 else some []) with
          | none => none
          | some h =>
            match old with
            | none => some (s.setQueue q queue ⟨d, on, ofBytes h, ofBytes h, [], none, false, []⟩)
            | some x =>
              if !on then some (s.setQueue q queue { x with desc := d, enabled := false, stopped := false })
              else
                let same := qdBASE x.desc == qdBASE d && qdSIZE x.desc == qdSIZE d
                some ((s.setPart q { p with marks := marksAfter queue x.taken (ofBytes h) x.head.isSome same p.marks }).setQueue q queue
                  ⟨d, true, ofBytes h, ofBytes h, (x.head.map fun _ => x.times.headD s.gt).toList, x.head, false, x.back⟩)

/-- The words of a counter entry that CCSET selects (R294, R327). -/
def ccEntry (gt : Nat) (k : Counter) (words : BitVec 8) (b : List Byte) : Option Counter :=
  let w (i : Nat) : Word := BitVec.ofNat 64 (imgField b (8 * i) 8)
  let has (i : Nat) : Bool := words.getLsbD i
  let parent := imgField b 0x18 1
  let st := imgField b 0x19 1
  let bad := decide (16 ≤ words.toNat) ||
    (has 3 && (parent / 32 % 4 != 0 || decide (8 ≤ st) || decide (1024 < imgField b 0x1A 2) || decide (32 ≤ imgField b 0x1C 1) ||
      imgField b 0x1D 2 == 0 || decide (2048 ≤ imgField b 0x1D 2) || imgField b 0x1F 1 != 0))
  if bad then none
  else
    let k := if has 0 then { k with value := w 0 } else k
    let k := if has 1 then { k with notify := w 1, armed := true } else k
    let k := if has 2 then { k with limit := w 2 } else k
    let k := if has 3 then
        { k with
          parentNo := parent % 32, enabled := parent.testBit 7
          cancelled := k.cancelled && st.testBit 0, sent := k.sent && st.testBit 2
          window := imgField b 0x1A 2, hart := imgField b 0x1C 1, ident := imgField b 0x1D 2 }
      else k
    some (k.notice gt)

/-- CCSET: the selected words of a counter entry; a CCSET of NOTIFY arms it (R294, R296). -/
def execCcset (page : Option Nat) (part cc : Nat) (words : BitVec 8) (addr : Nat) (s : State) : Out :=
  s.command page part 2 false fun q p =>
    if 32 ≤ cc then none
    else
      match s.named page p addr 32 with
      | none => none
      | some b =>
        match ccEntry s.gt (Map.get p.counters cc Counter.zero) words b with
        | none => none
        | some k => some (s.setPart q { p with counters := Map.put p.counters cc k })

/-- CANCEL (R298). -/
def execCmdCancel (page : Option Nat) (part cc : Nat) (s : State) : Out :=
  s.command page part 3 false fun q _ => if 32 ≤ cc then none else some (s.cancelCounter q cc)

/-! ## Launches -/

/-- QUENCH: refused when the launch's SAVE is 0 (R253, R287). -/
def execCmdQuench (page : Option Nat) (part : Nat) (launchId : BitVec 32) (s : State) : Out :=
  s.command page part 4 false fun q p =>
    match s.findLaunch q launchId with
    | some (k, l) => if l.save = 0 then none else some (s.quench k l p.qlimit)
    | none => none

/-- The runtime hold of a launch placed or lifted (R251). -/
def State.setHold (s : State) (part : Nat) (launchId : BitVec 32) (b : Bool) : Option State :=
  (s.findLaunch part launchId).map fun x => s.setLaunch x.1 { x.2 with hold := b }

/-- HOLD (R251). -/
def execCmdHold (page : Option Nat) (part : Nat) (launchId : BitVec 32) (s : State) : Out :=
  s.command page part 5 false fun q _ => s.setHold q launchId true

/-- UNHOLD (R251). -/
def execCmdUnhold (page : Option Nat) (part : Nat) (launchId : BitVec 32) (s : State) : Out :=
  s.command page part 6 false fun q _ => s.setHold q launchId false

/-- QLIMIT: the partition's quench limit (R254). -/
def execQlimit (page : Option Nat) (part : Nat) (micros : Word) (s : State) : Out :=
  s.command page part 7 false fun q p => some (s.setPart q { p with qlimit := some micros.toNat })

/-! ## Memory -/

/-- MSUMAP: a map of a memory-side unit's landing table (R267). -/
def execMsumap (page : Option Nat) (part msu slot addr : Nat) (s : State) : Out :=
  s.command page part 8 false fun q p =>
    if 16 ≤ msu || 16 ≤ slot then none
    else
      match s.named page p addr 64 with
      | none => none
      | some b =>
        let d : BitVec 512 := BitVec.ofNat 512 (ofBytes b)
        if (lmBad d).isSome || lmBASE d < msuBase msu || msuBase msu + msuBytes msu ≤ lmBASE d then none
        else some (s.putSlot (.msu msu q) slot ⟨d, .active, BitVec.ofNat 16 (lmDRAIN d), 0⟩)

/-- MIGQ: the partition's migration queue (R274). -/
def execMigq (page : Option Nat) (part addr entries : Nat) (s : State) : Out :=
  s.command page part 9 false fun q p =>
    if addr % 32 ≠ 0 || entries = 0 || 65536 < entries then none else some (s.setPart q { p with migq := some (addr, entries) })

/-- ROOTS: the roots of the nested walk, from the hypervisor alone (R270). -/
def execRoots (page : Option Nat) (part : Nat) (guest system : Word) (s : State) : Out :=
  s.command page part 10 true fun q p => some (s.setPart q { p with guest := guest, system := system })

/-- INVTLB: nested TLB entries of a guest-physical range, or all of them (R272). -/
def execInvtlb (page : Option Nat) (part base len : Nat) (s : State) : Out :=
  s.command page part 11 true fun q p =>
    if base % 0x4000 ≠ 0 || len % 0x4000 ≠ 0 then none
    else some (s.setPart q (if len = 0 then { p with tlb := [] } else p.dropTlb base len))

/-- SCTPEER: an entry of the peer table; a flow to it that has failed begins afresh (R320, R321; DEDUCED, log entry 22). -/
def execSctpeer (page : Option Nat) (part index addr : Nat) (s : State) : Out :=
  s.command page part 12 false fun q p =>
    if 256 ≤ index then none
    else
      match s.named page p addr 32 with
      | none => none
      | some b =>
        let e : BitVec 256 := BitVec.ofNat 256 (ofBytes b)
        if !(peerOk e) then none
        else
          let fresh (t : TxFlow) : TxFlow := if t.failed && t.part == q && t.peer == index then { t with failed := false, unacked := [], tries := 0 } else t
          some { s.setPart q { p with peers := Map.put p.peers index e } with txs := s.txs.map fresh }

/-! ## Power, reset and handlers -/

/-- PSTATE: OFF is refused while a launch is resident or held (R334). -/
def execPstate (page : Option Nat) (part state : Nat) (s : State) : Out :=
  s.command page part 13 true fun q p =>
    let busy := s.launches.any fun x => x.2.part == q && x.2.alive && (x.2.st == .resident || x.2.st == .loaded || x.2.hold)
    if 4 ≤ state || (state == 3 && busy) then none else some (s.powerTo q state p)

/-- RESET of a partition (R336). -/
def execCmdReset (page : Option Nat) (part : Nat) (s : State) : Out :=
  s.command page part 14 true fun q p => some (s.resetPart q p)

/-- HARVEST: a router or link mapped out; it names no partition (R309, R336). -/
def execHarvest (page : Option Nat) (_part kind router port : Nat) (s : State) : Out :=
  if page.isSome then .next (s.status page 15 3)
  else
    match s.markHarvested kind router port with
    | some s1 => .next (s1.status page 15 1)
    | none => .next (s.status page 15 2)

/-- HANDLER: the partition's handler image for every later placement (R76). -/
def execHandler (page : Option Nat) (part base addr : Nat) (s : State) : Out :=
  s.command page part 16 false fun q p =>
    match s.named page p addr 256 with
    | none => none
    | some h =>
      match s.named page p (addr + imCODEOFF h) (32 * imCODELINES h) with
      | none => none
      | some code => if handlerOk base h code then some (s.setPart q { p with handler := some (base, code) }) else none

/-! ## Command rings (R287, R326, R327) -/

/-- The operand bytes that a command uses, by first byte and length; none for a reserved code (R327). -/
def operandsOf (code : Nat) : Option (List (Nat × Nat)) :=
  match code with
  | 1 => some [(8, 1), (0x10, 8)]
  | 2 => some [(8, 1), (9, 1), (0x10, 8)]
  | 3 => some [(8, 1)]
  | 4 => some [(8, 4)]
  | 5 => some [(8, 4)]
  | 6 => some [(8, 4)]
  | 7 => some [(8, 8)]
  | 8 => some [(8, 1), (9, 1), (0x10, 8)]
  | 9 => some [(8, 8), (0x10, 4)]
  | 10 => some [(8, 8), (0x10, 8)]
  | 11 => some [(8, 8), (0x10, 8)]
  | 12 => some [(8, 1), (0x10, 8)]
  | 13 => some [(8, 1)]
  | 14 => some []
  | 15 => some [(8, 1), (9, 1), (0xA, 1)]
  | 16 => some [(8, 1), (0x10, 8)]
  | _ => none

/-- Whether the bytes of a command record that its table does not list are zero: [7:4], and the operand bytes beside those it uses (R326,
R327). -/
def recordClean (code : Nat) (r : List Byte) : Bool :=
  match operandsOf code with
  | none => false
  | some l => (List.range 28).all fun i => (l.any fun x => decide (x.1 ≤ i + 4) && decide (i + 4 < x.1 + x.2)) || r.getD (i + 4) 0 == 0

/-- The command of a record of 32 bytes on a page executed, or ended at once: with STATUS 3 for a code that only the hypervisor's page takes, else
with 2 for a reserved code and for a byte that must be zero (R326, R327). PART counts on the hypervisor's page alone. -/
def takeCommand (page : Option Nat) (r : List Byte) (s : State) : Out :=
  let f (lo n : Nat) : Nat := imgField r lo n
  let part := f 1 1
  let code := f 0 1
  if page.isSome && [10, 11, 13, 14, 15].contains code then .next (s.status page code 3)
  else if !(recordClean code r) then .next (s.status page code 2)
  else
    match code with
    | 1 => execQset page part (f 8 1) (f 0x10 8) s
    | 2 => execCcset page part (f 8 1) (BitVec.ofNat 8 (f 9 1)) (f 0x10 8) s
    | 3 => execCmdCancel page part (f 8 1) s
    | 4 => execCmdQuench page part (BitVec.ofNat 32 (f 8 4)) s
    | 5 => execCmdHold page part (BitVec.ofNat 32 (f 8 4)) s
    | 6 => execCmdUnhold page part (BitVec.ofNat 32 (f 8 4)) s
    | 7 => execQlimit page part (BitVec.ofNat 64 (f 8 8)) s
    | 8 => execMsumap page part (f 8 1) (f 9 1) (f 0x10 8) s
    | 9 => execMigq page part (f 8 8) (f 0x10 4) s
    | 10 => execRoots page part (BitVec.ofNat 64 (f 8 8)) (BitVec.ofNat 64 (f 0x10 8)) s
    | 11 => execInvtlb page part (f 8 8) (f 0x10 8) s
    | 12 => execSctpeer page part (f 8 1) (f 0x10 8) s
    | 13 => execPstate page part (f 8 1) s
    | 14 => execCmdReset page part s
    | 15 => execHarvest page part (f 8 1) (f 9 1) (f 0xA 1) s
    | 16 => execHandler page part (f 8 1) (f 0x10 8) s
    | _ => .next (s.status page code 2)

/-- The state that an event leaves. -/
def nextOr (s : State) (o : Out) : State :=
  match o with
  | .next t => t
  | _ => s

/-- The command page of a key. -/
def pageOf (k : Nat) : Option Nat := if k = 0 then none else some (k - 1)

/-- Whether a command page has a record to be taken, or a tail too far ahead (R287, R289). -/
def CmdPage.ready (g : CmdPage) : Bool := !g.stopped && g.head != g.tail

/-- The pages with something to be taken: the hypervisor's, and those of partitions. -/
def State.rings (s : State) : List Nat := (s.pages.filter fun x => x.2.ready && (x.1 == 0 || (Map.get? s.parts (x.1 - 1)).isSome)).map Prod.fst

/-- The scheduler takes the head record of a page: its command takes effect, and STATUS and CMDHEAD are written. A tail more than 32 ahead stops
the ring, until CMDTAIL is written again, and a partition's runtime takes QUEUE_OVERRUN; the hypervisor's page has no runtime (R287, R289, R326,
R328; DEDUCED, log entry 42). -/
def State.takeRecord (s : State) (k : Nat) : State :=
  let g := s.page k
  if 32 < (g.tail - g.head).toNat then
    let t : State := { s with pages := Map.put s.pages k { g with stopped := true } }
    if k = 0 then t else t.sendEvent (k - 1) 0x500 0
  else
    let r := toBytes 32 (Map.get g.ring (g.head.toNat % 32) 0).toNat
    nextOr s (takeCommand (pageOf k) r { s with taking := true })

end Sys2Proof.Machine
end

