-- ==== Sys2Proof/Machine/Debugger.lean ====
section
/-! DEFINITION. The debugger: halts and breakpoints, launching the loaded image, scheduler commands by name, and displays
(spec/17 R338, R340, R342, R344, R348). Displays give their items as words; they change nothing but the output. -/

namespace Sys2Proof.Machine

open Sys2Proof

/-! ## Halts (R250, R338) -/

/-- DEBUGGER_HALT: a unit halts before its bundle, and the context that halted passes its breakpoint there once. In tenant code the halt is a
stall event of its group, and in a handler the group's resume waits for it; no handler runs (R30, R338). -/
def execDebuggerHalt (n : Nat) (s : State) : Out :=
  let c := s.core n
  if c.run != .run then .next s
  else
    let t := s.tickOf c
    let s1 := s.onCore n fun c => { c with run := .stop, line := none, ctx := { c.ctx with broke := true } }
    let s2 := if c.mode = 0 then
        s1.onCore n fun c => { c with stopped := some (c.ctx.clk - c.ctx.base, t), fresh := true }
      else s1
    match Map.get? s2.groups c.group with
    | none => .next s2
    | some g => .next (s2.setGroup c.group { g with halt := true, trap := g.trap || c.mode == 0, resumed := none })

/-- The launch that the debugger works on: the latest of the loaded image's partition that has not ended. -/
def State.dbgLaunchKey (s : State) : Option (Nat × Launch) :=
  ((s.launches.filter fun x => x.2.part == s.dbg.part && x.2.alive).getLast?)

/-- The core that runs unit `u` of the debugger's launch. -/
def State.dbgCore (s : State) (u : Nat) : Option Nat :=
  match s.dbgLaunchKey with
  | none => none
  | some (k, _) => (s.cores.find? fun x => x.2.launch == k && x.2.run != .idle && x.2.unitId.toNat == u && decide (x.1 < 1024)).map Prod.fst

/-- A breakpoint added once. -/
def State.addPoint (s : State) (p : Option Nat × Nat) : State :=
  { s with dbg := { s.dbg with points := if s.dbg.points.contains p then s.dbg.points else s.dbg.points ++ [p] } }

/-- BREAK: a breakpoint of one unit; it stays set for later launches of the image (R338, R348). -/
def execDbgBreak (unit addr : Nat) (s : State) : Out := .next (s.addPoint (some unit, addr))

/-- BREAK_ALL: a breakpoint of every unit (R348). -/
def execDbgBreakAll (addr : Nat) (s : State) : Out := .next (s.addPoint (none, addr))

/-- CONTINUE: the halts are lifted, and each halted unit issues past its breakpoint once; a handler goes on at once, and a group halted in
tenant code restarts by a group resume (R31, R338). -/
def execDbgContinue (s : State) : Out :=
  let gs := (s.groups.filter fun g => g.2.halt).map Prod.fst
  let at_ (c : Core) : Bool := c.run == .stop && gs.contains c.group && c.ctx.broke && c.mode != 0
  .next { s with
    groups := s.groups.map fun g => (g.1, { g.2 with halt := false })
    cores := s.cores.map fun x => if at_ x.2 then (x.1, { x.2 with run := .run }) else x }

/-- The key of a byte of the parameter block that the debugger has written for a launch (R348). -/
def stagedKey (launch : Nat) : Nat := 2 ^ 56 + launch * 2 ^ 14

/-- The launch record of the loaded image, in the shape that `launch` names (R341, R348). -/
def Debug.record (d : Debug) : BitVec 512 :=
  BitVec.ofNat 512 (d.image + d.rows % 256 * 2 ^ 208 + d.cols % 256 * 2 ^ 216 + d.cores % 256 * 2 ^ 224 + 0xFF * 2 ^ 232)

/-- LAUNCH: the loaded image launched with its words from byte 0 of the parameter block, and zero in the rest (R348). Nothing happens
where the scheduler refuses it, cannot place it, or admits nothing (R334). It returns from a quench by the debugger's own queue (R341). -/
def execDbgLaunch (params : List Word) (s : State) : Out :=
  match Map.get? s.parts s.dbg.part with
  | none => .next s
  | some p =>
    let k := s.nextLaunch
    if !p.admits then .next s
    else match planLaunch s s.dbg.part p debugQueue 0 s.dbg.record (stagedKey k) 0 none none s.dbg.save with
    | none => .next s
    | some l =>
      match s.considerLaunch p l with
      | .admits s1 ids =>
        let bytes := (params.flatMap fun w => toBytes 8 w.toNat).take l.psize
        let q := ((Map.get? p.queues debugQueue).map Queue.back).getD []
        .next (({ s1 with mem := memPutN s1.mem (stagedKey k) bytes }.setQueue s.dbg.part debugQueue ⟨0, true, 0, 0, [], none, true, q⟩).admitted
          s.dbg.part p.lastQ ids)
      | _ => .next s

/-! ## Scheduler commands by name (R340) -/

/-- The operand bytes of `rt`: QUENCH names the current launch (R340). -/
def State.rtOperands (s : State) (code : Nat) (o : List Byte) : List Byte :=
  match code, s.dbgLaunchKey with
  | 4, some (_, l) => toBytes 4 l.lid.toNat ++ (fit 24 o).drop 4
  | _, _ => o

/-- RT: a command's record written into the command page of the launch's partition behind its tail, as the runtime does; the scheduler takes it
when it is the head (R326, R340). -/
def execRt (code : Nat) (operands : List Byte) (s : State) : Out :=
  let k := s.dbg.part + 1
  let g := s.page k
  let r : Mask := BitVec.ofNat 256 (ofBytes (toBytes 8 (code % 256) ++ fit 24 (s.rtOperands code operands)))
  let s1 : State := { s with pages := Map.put s.pages k { g with ring := Map.put g.ring (g.tail.toNat % 32) r, tail := g.tail + 1 } }
  .next (if g.head == g.tail && !g.stopped then s1.takeRecord k else s1)

/-! ## Displays (R340, R342, R344, R348) -/

/-- A number as a displayed word. -/
def word (n : Nat) : Word := BitVec.ofNat 64 n

/-- A display: what it prints of the core that runs a unit. `kind` numbers the display form. -/
def State.display (s : State) (kind unit : Nat) (f : Core → List Word) : Out :=
  match s.dbgCore unit with
  | none => .next s
  | some n => .next { s with outbox := s.outbox ++ [.display kind unit (f (s.core n))] }

/-- Bytes displayed as little-endian words. -/
def wordsOf (l : List Byte) : List Word := (pieces 8 ((l.length + 7) / 8) l).map fun b => word (ofBytes b)

/-- FQ: the flight queue: how many results and stores it holds, and each with its kind, value, destination and remaining cycles, in the 288
bytes of R219 (R20, R340). -/
def execDbgFq (unit : Nat) (s : State) : Out :=
  s.display 0 unit fun c =>
    let x := c.held.getD c.ctx
    word x.queueLen :: (x.queueEntries c).flatMap wordsOf

/-- MTX: the matrix engine state of R182: the descriptor of R219 (band pairs, suspended instruction, zero marks), the issue counts of the
pending deliveries, the rows of each tile, and the split operands of a suspended MMA3 (R340). -/
def execDbgMtx (unit : Nat) (s : State) : Out :=
  s.display 1 unit fun c =>
    let x := c.held.getD c.ctx
    wordsOf (mdesc x 0) ++ [word x.mx.pend.length] ++ (x.mx.pend.flatMap fun d => [word d.acc, word d.start, word d.due]) ++
      (x.tileSlots.flatMap fun t => word t.acc :: word t.role :: word t.delay :: t.rows.flatMap fun v => wordsOf (toBytes 256 v.toNat)) ++
      wordsOf (msplit x)

/-- LTT: entries as two words each (R340). -/
def execDbgLtt (unit first count : Nat) (s : State) : Out :=
  s.display 2 unit fun c => (List.range count).flatMap fun i =>
    let e := Map.get c.ltt (first + i) 0
    [e.setWidth 64, e.extractLsb' 64 64]

/-- CNT words of a QSK context up to the highest that is not zero (R342). -/
def Assay.counts (a : Assay) : List Nat :=
  (List.range ((((List.range 15).filter fun h => Map.get a.cnt h 0 != 0).getLast?.map (· + 1)).getD 0)).map fun h => Map.get a.cnt h 0

/-- The weight of a QSK level (R141). -/
def Assay.weightOf (a : Assay) (h : Nat) : Nat := if h = 15 then 2 ^ a.t else 2 ^ h

/-- ASSAY: a context; of a QSK context its CNT words and FILL of the non-empty levels, each with how many there are, its bound, and each
non-empty level's weight with its valid entries in their order (R342). -/
def execDbgAssay (unit ctx : Nat) (s : State) : Out :=
  s.display 3 unit fun c =>
    let a := Map.get c.assay ctx Assay.empty
    [word a.kind, word a.coin, word a.n, word a.nans, word a.t, word a.etop, a.lfsr, a.seed, word a.counts.length] ++
      a.counts.map word ++ [word a.lev.length] ++ (a.lev.map fun l => word l.2.length) ++ [word a.bound] ++
      a.lev.flatMap fun l => word (a.weightOf l.1) :: l.2.map fun v => v.setWidth 64

/-- LANDLOG: one entry for each landed packet (R342). -/
def execLandlog (unit : Nat) (s : State) : Out :=
  match s.dbgCore unit with
  | none => .next s
  | some n => s.display 4 unit fun c =>
      ((Map.get s.dbg.lands n []).filter fun l => l.getD 8 0 == c.launch).flatMap fun l => (l.take 8).map word

/-- A signature record as it is shown: how many sums, the sums, one of them where all sixteen are equal, and the rest (R344). -/
def shownRecord (l : List Word) : List Word :=
  let sums := l.take 16
  if sums.all fun x => x == sums.headD 0 then word 1 :: sums.headD 0 :: l.drop 16 else word 16 :: l

/-- RH: a reheat region: descriptor, CFG and STEPS, then for each tile its skip bit, force flag, age and record; of a region never configured
the descriptor is zero (R344). -/
def execDbgRh (unit region : Nat) (s : State) : Out :=
  match s.dbgCore unit with
  | none => .next s
  | some n =>
    s.display 5 unit fun c =>
      match Map.get? c.reheat region with
      | none => List.replicate 8 0 ++ [0, (stepsOf c.sysCtx.rhSteps region).setWidth 64]
      | some g =>
        ((List.range 8).map fun i => g.desc.extractLsb' (64 * i) 64) ++ [word (if g.cfg then 1 else 0), (stepsOf c.sysCtx.rhSteps region).setWidth 64] ++
          (List.range (rhTILES g.desc)).flatMap fun t =>
            [word (if g.skip.getLsbD t then 1 else 0), word (if g.force.getLsbD t then 1 else 0), word (Map.get g.ages t 0)] ++
              shownRecord ((List.range 18).map fun i => word (c.loadNat s.mem n (BitVec.ofNat 64 (rhSIG g.desc + 72 * t + 4 * i)) 4))

/-- LOOP: the loop engine (R344). -/
def execEfdbLoop (unit : Nat) (s : State) : Out :=
  s.display 6 unit fun c =>
    let x := c.sysCtx
    [x.lcnt, x.lrot.setWidth 64, x.lN.setWidth 64, x.sv.setWidth 64, word (if x.lQD then 1 else 0), x.lFirst.setWidth 64, x.lLen.setWidth 64]

/-- GROUP: a unit's copy of an address group (R348). -/
def execDbgGroup (unit group : Nat) (s : State) : Out :=
  s.display 7 unit fun c =>
    match Map.get? c.agroups group with
    | none => []
    | some g =>
      [word (grCOUNT g.desc), g.seq.setWidth 64, word (if g.poison then 1 else 0)] ++
        (List.range (grCOUNT g.desc)).flatMap fun i => [word (grNODE g.desc i), word (if grABSENT g.desc i then 1 else 0), word (grWBASE g.desc i)]

/-- The clusters of a launch's reduction tree, deepest first and ascending at one depth. -/
def Launch.byDepth (l : Launch) : List Nat :=
  let depth (x : Nat) : Nat := (toRoot l.area (treeK l.stitch) l.area x).length
  ordSort (fun x => (l.area + 1 - depth x) * 1024 + x) (List.range l.area)

/-- REDLOG: the last MCLDR of a unit on a group that performed: its head line, the sums of each cluster, and the value delivered (R348).
An absent local value prints as all ones; nothing is listed where the unit's launch has performed none. -/
def execRedlog (unit group lane : Nat) (s : State) : Out :=
  match s.dbgCore unit with
  | none => .next s
  | some n =>
    match s.dbg.reds.find? fun (x : Nat × Nat × Coll) => x.1 == n && x.2.1 == group && x.2.2.launch == (s.core n).launch, s.launchOf (s.core n) with
    | some (_, _, k), some l =>
      let d := (Map.get k.dests n (0, 0, 0, false)).2.2.1
      let at_ (v : List Nat) : Word := word (v.getD lane 0)
      let cluster (x : Nat) : List Word :=
        let mine := (List.range 8).filterMap fun i => (Map.get? k.vals (8 * l.cluster x + i)).map (collLanes k.op)
        word x :: (match collFold k.op mine with | some v => at_ v | none => BitVec.allOnes 64) ::
          (l.children x).filterMap fun y => (l.subtotal k.op k.vals l.area y).map at_
      s.display 8 unit fun _ =>
        [k.seq.setWidth 64, word k.op, word k.count, word (k.count + 12 + 8 * d), word d, word k.vals.length] ++ l.byDepth.flatMap cluster ++
          [word (laneNat (l.collective k) lane (if k.op = 1 then 16 else 32))]
    | _, _ => s.display 8 unit fun _ => []

end Sys2Proof.Machine
end

