-- ==== Sys2Proof/Machine/Dispatch.lean ====
section
/-! DEFINITION. One arm per constructor of `Instr`, each one direct call of its meaning. -/

namespace Sys2Proof.Machine

/-- The meaning of an instruction in a state: one direct call per constructor. -/
def exec (i : Instr) (s : State) : Host.Outcome State Fault Refusal :=
  match i with
  | .nop t => Sys2Proof.Machine.execNop t s
  | .br t g o xw => Sys2Proof.Machine.execBr t g o xw s
  | .jmp t g a => Sys2Proof.Machine.execJmp t g a s
  | .call t g o xw => Sys2Proof.Machine.execCall t g o xw s
  | .ret t g a => Sys2Proof.Machine.execRet t g a s
  | .loop t g a n b xw => Sys2Proof.Machine.execLoop t g a n b xw s
  | .lexit t g => Sys2Proof.Machine.execLexit t g s
  | .sync t n => Sys2Proof.Machine.execSync t n s
  | .bar t n => Sys2Proof.Machine.execBar t n s
  | .barns t n => Sys2Proof.Machine.execBarns t n s
  | .waitt t g a xw => Sys2Proof.Machine.execWaitt t g a xw s
  | .twait t g m => Sys2Proof.Machine.execTwait t g m s
  | .ccwait t g a n => Sys2Proof.Machine.execCcwait t g a n s
  | .uend t g => Sys2Proof.Machine.execUend t g s
  | .qpoint t g => Sys2Proof.Machine.execQpoint t g s
  | .ifence t g => Sys2Proof.Machine.execIfence t g s
  | .bkacq t g s_ m => Sys2Proof.Machine.execBkacq t g s_ m s
  | .bkrel t g s_ m => Sys2Proof.Machine.execBkrel t g s_ m s
  | .drainnt t g => Sys2Proof.Machine.execDrainnt t g s
  | .qfence t g => Sys2Proof.Machine.execQfence t g s
  | .pack n => Sys2Proof.Machine.execPack n s
  | .trap t g c => Sys2Proof.Machine.execTrap t g c s
  | .brk t x => Sys2Proof.Machine.execBrk t x s
  | .eret t a => Sys2Proof.Machine.execEret t a s
  | .snapst t a => Sys2Proof.Machine.execSnapst t a s
  | .snaprel t => Sys2Proof.Machine.execSnaprel t s
  | .ctxsave t a => Sys2Proof.Machine.execCtxsave t a s
  | .ctxrest t a b m => Sys2Proof.Machine.execCtxrest t a b m s
  | .lttld t a b => Sys2Proof.Machine.execLttld t a b s
  | .lttinv t a => Sys2Proof.Machine.execLttinv t a s
  | .add g d a b => Sys2Proof.Machine.execAdd g d a b s
  | .addi g d a imm xw => Sys2Proof.Machine.execAddi g d a imm xw s
  | .sub g d a b => Sys2Proof.Machine.execSub g d a b s
  | .mul g d a b => Sys2Proof.Machine.execMul g d a b s
  | .mulh g d a b m => Sys2Proof.Machine.execMulh g d a b m s
  | .div g d a b m => Sys2Proof.Machine.execDiv g d a b m s
  | .and g d a b => Sys2Proof.Machine.execAnd g d a b s
  | .or g d a b => Sys2Proof.Machine.execOr g d a b s
  | .xor g d a b => Sys2Proof.Machine.execXor g d a b s
  | .andi g d a imm xw => Sys2Proof.Machine.execAndi g d a imm xw s
  | .ori g d a imm xw => Sys2Proof.Machine.execOri g d a imm xw s
  | .xori g d a imm xw => Sys2Proof.Machine.execXori g d a imm xw s
  | .shl g d a b => Sys2Proof.Machine.execShl g d a b s
  | .shr g d a b => Sys2Proof.Machine.execShr g d a b s
  | .sar g d a b => Sys2Proof.Machine.execSar g d a b s
  | .shli g d a imm xw => Sys2Proof.Machine.execShli g d a imm xw s
  | .shri g d a imm xw => Sys2Proof.Machine.execShri g d a imm xw s
  | .sari g d a imm xw => Sys2Proof.Machine.execSari g d a imm xw s
  | .minmax g d a b m => Sys2Proof.Machine.execMinmax g d a b m s
  | .cmp g d a b m => Sys2Proof.Machine.execCmp g d a b m s
  | .cmpi g c d a imm xw => Sys2Proof.Machine.execCmpi g c d a imm xw s
  | .sel g d a b m => Sys2Proof.Machine.execSel g d a b m s
  | .movi g d imm xw => Sys2Proof.Machine.execMovi g d imm xw s
  | .movhi g d imm xw => Sys2Proof.Machine.execMovhi g d imm xw s
  | .lea g d a b s_ => Sys2Proof.Machine.execLea g d a b s_ s
  | .plog g d a b m => Sys2Proof.Machine.execPlog g d a b m s
  | .bitc g d a m => Sys2Proof.Machine.execBitc g d a m s
  | .bitcTest g d a b => Sys2Proof.Machine.execBitcTest g d a b s
  | .ldb g d a imm xw => Sys2Proof.Machine.execLdb g d a imm xw s
  | .ldbu g d a imm xw => Sys2Proof.Machine.execLdbu g d a imm xw s
  | .ldh g d a imm xw => Sys2Proof.Machine.execLdh g d a imm xw s
  | .ldw g d a imm xw => Sys2Proof.Machine.execLdw g d a imm xw s
  | .ldhu g d a imm xw => Sys2Proof.Machine.execLdhu g d a imm xw s
  | .ldwu g d a imm xw => Sys2Proof.Machine.execLdwu g d a imm xw s
  | .ldd g d a imm xw => Sys2Proof.Machine.execLdd g d a imm xw s
  | .stb g d a imm xw => Sys2Proof.Machine.execStb g d a imm xw s
  | .sth g d a imm xw => Sys2Proof.Machine.execSth g d a imm xw s
  | .stw g d a imm xw => Sys2Proof.Machine.execStw g d a imm xw s
  | .std g d a imm xw => Sys2Proof.Machine.execStd g d a imm xw s
  | .atom g d a b m => Sys2Proof.Machine.execAtom g d a b m s
  | .acas g d a b => Sys2Proof.Machine.execAcas g d a b s
  | .mfs g d r => Sys2Proof.Machine.execMfs g d r s
  | .mts g d r => Sys2Proof.Machine.execMts g d r s
  | .rdcyc g d => Sys2Proof.Machine.execRdcyc g d s
  | .rdgt g d => Sys2Proof.Machine.execRdgt g d s
  | .ext g d a b m => Sys2Proof.Machine.execExt g d a b m s
  | .vadd k z d a b s_ => Sys2Proof.Machine.execVadd k z d a b s_ s
  | .vsub k z d a b s_ => Sys2Proof.Machine.execVsub k z d a b s_ s
  | .vmul k z d a b s_ => Sys2Proof.Machine.execVmul k z d a b s_ s
  | .vfma k z d a b s_ => Sys2Proof.Machine.execVfma k z d a b s_ s
  | .vfms k z d a b s_ => Sys2Proof.Machine.execVfms k z d a b s_ s
  | .vmin k z d a b s_ => Sys2Proof.Machine.execVmin k z d a b s_ s
  | .vmax k z d a b s_ => Sys2Proof.Machine.execVmax k z d a b s_ s
  | .vabs k z d a => Sys2Proof.Machine.execVabs k z d a s
  | .vneg k z d a => Sys2Proof.Machine.execVneg k z d a s
  | .vcmpeq k z d a b s_ => Sys2Proof.Machine.execVcmpeq k z d a b s_ s
  | .vcmplt k z d a b s_ => Sys2Proof.Machine.execVcmplt k z d a b s_ s
  | .vcmple k z d a b s_ => Sys2Proof.Machine.execVcmple k z d a b s_ s
  | .vcmpne k z d a b s_ => Sys2Proof.Machine.execVcmpne k z d a b s_ s
  | .viadd k z d a n b s_ => Sys2Proof.Machine.execViadd k z d a n b s_ s
  | .visub k z d a n b s_ => Sys2Proof.Machine.execVisub k z d a n b s_ s
  | .vimul k z d a n b s_ => Sys2Proof.Machine.execVimul k z d a n b s_ s
  | .vand k z d a n b s_ => Sys2Proof.Machine.execVand k z d a n b s_ s
  | .vor k z d a n b s_ => Sys2Proof.Machine.execVor k z d a n b s_ s
  | .vxor k z d a n b s_ => Sys2Proof.Machine.execVxor k z d a n b s_ s
  | .vshl k z d a n b s_ => Sys2Proof.Machine.execVshl k z d a n b s_ s
  | .vshr k z d a n b s_ => Sys2Proof.Machine.execVshr k z d a n b s_ s
  | .vsar k z d a n b s_ => Sys2Proof.Machine.execVsar k z d a n b s_ s
  | .vimin k z d a n b s_ => Sys2Proof.Machine.execVimin k z d a n b s_ s
  | .vimax k z d a n b s_ => Sys2Proof.Machine.execVimax k z d a n b s_ s
  | .vicmpeq k z d a n b s_ => Sys2Proof.Machine.execVicmpeq k z d a n b s_ s
  | .vicmplt k z d a n b s_ => Sys2Proof.Machine.execVicmplt k z d a n b s_ s
  | .vsel k z d a n b s_ => Sys2Proof.Machine.execVsel k z d a n b s_ s
  | .vcvt k z d a t f p => Sys2Proof.Machine.execVcvt k z d a t f p s
  | .vbcast k z d w b => Sys2Proof.Machine.execVbcast k z d w b s
  | .vbcastExt k z d w xw => Sys2Proof.Machine.execVbcastExt k z d w xw s
  | .vperm k z d a n b s_ => Sys2Proof.Machine.execVperm k z d a n b s_ s
  | .vrot k z d a n b s_ => Sys2Proof.Machine.execVrot k z d a n b s_ s
  | .vrsum k d a x f => Sys2Proof.Machine.execVrsum k d a x f s
  | .vrmax k d a x f => Sys2Proof.Machine.execVrmax k d a x f s
  | .vmov k z d a w => Sys2Proof.Machine.execVmov k z d a w s
  | .vld k z d w b xw => Sys2Proof.Machine.execVld k z d w b xw s
  | .vst k d w b xw => Sys2Proof.Machine.execVst k d w b xw s
  | .vgather k z d a b => Sys2Proof.Machine.execVgather k z d a b s
  | .vscatter k d a b => Sys2Proof.Machine.execVscatter k d a b s
  | .twrow k z d a b s_ => Sys2Proof.Machine.execTwrow k z d a b s_ s
  | .trdcol k z d a b s_ => Sys2Proof.Machine.execTrdcol k z d a b s_ s
  | .vqnt k d a => Sys2Proof.Machine.execVqnt k d a s
  | .vrng k z d => Sys2Proof.Machine.execVrng k z d s
  | .viadds k z d a n b s_ => Sys2Proof.Machine.execViadds k z d a n b s_ s
  | .vrcp k z d a => Sys2Proof.Machine.execVrcp k z d a s
  | .vrsq k z d a => Sys2Proof.Machine.execVrsq k z d a s
  | .vexp2 k z d a => Sys2Proof.Machine.execVexp2 k z d a s
  | .vlog2 k z d a => Sys2Proof.Machine.execVlog2 k z d a s
  | .vsin k z d a => Sys2Proof.Machine.execVsin k z d a s
  | .vcos k z d a => Sys2Proof.Machine.execVcos k z d a s
  | .vtanh k z d a => Sys2Proof.Machine.execVtanh k z d a s
  | .ascfg o k c s_ => Sys2Proof.Machine.execAscfg o k c s_ s
  | .asclr f c => Sys2Proof.Machine.execAsclr f c s
  | .asqu k c a => Sys2Proof.Machine.execAsqu k c a s
  | .ashh k c a b s_ => Sys2Proof.Machine.execAshh k c a b s_ s
  | .asdc k c a w => Sys2Proof.Machine.execAsdc k c a w s
  | .asmrg c b => Sys2Proof.Machine.execAsmrg c b s
  | .assv c b => Sys2Proof.Machine.execAssv c b s
  | .asqry k z d x c b s_ => Sys2Proof.Machine.execAsqry k z d x c b s_ s
  | .asest d c => Sys2Proof.Machine.execAsest d c s
  | .astopk d p c => Sys2Proof.Machine.execAstopk d p c s
  | .rhcfg r b => Sys2Proof.Machine.execRhcfg r b s
  | .rhsig r a b => Sys2Proof.Machine.execRhsig r a b s
  | .rhlist r a => Sys2Proof.Machine.execRhlist r a s
  | .rhstep f r a => Sys2Proof.Machine.execRhstep f r a s
  | .rhmap d p r => Sys2Proof.Machine.execRhmap d p r s
  | .mma g c a b t z y => Sys2Proof.Machine.execMma g c a b t z y s
  | .mma3 g c a b t z => Sys2Proof.Machine.execMma3 g c a b t z s
  | .mzero g c => Sys2Proof.Machine.execMzero g c s
  | .mband g c a => Sys2Proof.Machine.execMband g c a s
  | .tld g x y w m xw => Sys2Proof.Machine.execTld g x y w m xw s
  | .tst g x y w m xw => Sys2Proof.Machine.execTst g x y w m xw s
  | .tstnt g x y w m xw => Sys2Proof.Machine.execTstnt g x y w m xw s
  | .scld g x y => Sys2Proof.Machine.execScld g x y s
  | .pull g x y w => Sys2Proof.Machine.execPull g x y w s
  | .push g x y w => Sys2Proof.Machine.execPush g x y w s
  | .cxsend g x y w => Sys2Proof.Machine.execCxsend g x y w s
  | .cxtile g x w m => Sys2Proof.Machine.execCxtile g x w m s
  | .gather g x y w m => Sys2Proof.Machine.execGather g x y w m s
  | .rtset g x e => Sys2Proof.Machine.execRtset g x e s
  | .mapset g x c m => Sys2Proof.Machine.execMapset g x c m s
  | .mapret g n c m => Sys2Proof.Machine.execMapret g n c m s
  | .mapswap g x o c m => Sys2Proof.Machine.execMapswap g x o c m s
  | .mapq g y c m => Sys2Proof.Machine.execMapq g y c m s
  | .straypop g x y w => Sys2Proof.Machine.execStraypop g x y w s
  | .send g v s_ => Sys2Proof.Machine.execSend g v s_ s
  | .recv g v s_ => Sys2Proof.Machine.execRecv g v s_ s
  | .recvadd g v s_ f => Sys2Proof.Machine.execRecvadd g v s_ f s
  | .recvmax g v s_ f => Sys2Proof.Machine.execRecvmax g v s_ f s
  | .grpset g s_ n => Sys2Proof.Machine.execGrpset g s_ n s
  | .mcldr g v s_ o n => Sys2Proof.Machine.execMcldr g v s_ o n s
  | .wbrun g s_ n => Sys2Proof.Machine.execWbrun g s_ n s
  | .ttarm g s_ n t => Sys2Proof.Machine.execTtarm g s_ n t s
  | .ctarm g w s_ n t => Sys2Proof.Machine.execCtarm g w s_ n t s
  | .trdis g t => Sys2Proof.Machine.execTrdis g t s
  | .ccinc g s_ o n => Sys2Proof.Machine.execCcinc g s_ o n s
  | .iterationBoundary core => Sys2Proof.Machine.execIterationBoundary core s
  | .dynamicWaitRelease core => Sys2Proof.Machine.execDynamicWaitRelease core s
  | .barrierRelease core g => Sys2Proof.Machine.execBarrierRelease core g s
  | .groupStall core => Sys2Proof.Machine.execGroupStall core s
  | .groupResume group => Sys2Proof.Machine.execGroupResume group s
  | .pendingEvent core => Sys2Proof.Machine.execPendingEvent core s
  | .forcedQuench launch => Sys2Proof.Machine.execForcedQuench launch s
  | .watchdog launch => Sys2Proof.Machine.execWatchdog launch s
  | .debuggerHalt core => Sys2Proof.Machine.execDebuggerHalt core s
  | .coordinatePacket node pkt => Sys2Proof.Machine.execCoordinatePacket node pkt s
  | .directSend core src data bad => Sys2Proof.Machine.execDirectSend core src data bad s
  | .collectiveContribution coll core data bad => Sys2Proof.Machine.execCollectiveContribution coll core data bad s
  | .collectiveResult pkt core => Sys2Proof.Machine.execCollectiveResult pkt core s
  | .waybillMemoryTransfer core src data bad => Sys2Proof.Machine.execWaybillMemoryTransfer core src data bad s
  | .queuedRowPerform core slot perform => Sys2Proof.Machine.execQueuedRowPerform core slot perform s
  | .nonTemporalPerform core index perform => Sys2Proof.Machine.execNonTemporalPerform core index perform s
  | .counterIncrement index => Sys2Proof.Machine.execCounterIncrement index s
  | .timeTriggerFire part slot => Sys2Proof.Machine.execTimeTriggerFire part slot s
  | .counterInterrupt part cc => Sys2Proof.Machine.execCounterInterrupt part cc s
  | .nestedWalk core => Sys2Proof.Machine.execNestedWalk core s
  | .migrationRequest part index => Sys2Proof.Machine.execMigrationRequest part index s
  | .migrationCopy index => Sys2Proof.Machine.execMigrationCopy index s
  | .reKey msu hallmark => Sys2Proof.Machine.execReKey msu hallmark s
  | .patrolScrub addr uncorrectable => Sys2Proof.Machine.execPatrolScrub addr uncorrectable s
  | .launchRecord part queue => Sys2Proof.Machine.execLaunchRecord part queue s
  | .admission part => Sys2Proof.Machine.execAdmission part s
  | .launchStart launch => Sys2Proof.Machine.execLaunchStart launch s
  | .nodeStart replay node => Sys2Proof.Machine.execNodeStart replay node s
  | .handoverStart launch => Sys2Proof.Machine.execHandoverStart launch s
  | .bankPass core bank => Sys2Proof.Machine.execBankPass core bank s
  | .unitComplete core => Sys2Proof.Machine.execUnitComplete core s
  | .completionIncrement launch unit => Sys2Proof.Machine.execCompletionIncrement launch unit s
  | .cancelMark part cc => Sys2Proof.Machine.execCancelMark part cc s
  | .restoreStart launch => Sys2Proof.Machine.execRestoreStart launch s
  | .partitionHalted part => Sys2Proof.Machine.execPartitionHalted part s
  | .emergencyStop milliamps micros celsius => Sys2Proof.Machine.execEmergencyStop milliamps micros celsius s
  | .powerGood rom ioFw dieFw training uefi hallmark fatalBase => Sys2Proof.Machine.execPowerGood rom ioFw dieFw training uefi hallmark fatalBase s
  | .measurementExtension hart reg image => Sys2Proof.Machine.execMeasurementExtension hart reg image s
  | .firmwareLogRead memoryLog => Sys2Proof.Machine.execFirmwareLogRead memoryLog s
  | .pstateOnDelay part => Sys2Proof.Machine.execPstateOnDelay part s
  | .sctFrame port vlan flags flow psn pkt => Sys2Proof.Machine.execSctFrame port vlan flags flow psn pkt s
  | .sctAcknowledgement flow ackPsn => Sys2Proof.Machine.execSctAcknowledgement flow ackPsn s
  | .cumulativeAcknowledgement flow => Sys2Proof.Machine.execCumulativeAcknowledgement flow s
  | .retransmitTimeout flow => Sys2Proof.Machine.execRetransmitTimeout flow s
  | .rdmaWrite qp addr data marked => Sys2Proof.Machine.execRdmaWrite qp addr data marked s
  | .rdmaRead qp addr len marked => Sys2Proof.Machine.execRdmaRead qp addr len marked s
  | .roceSendRequest qp marked => Sys2Proof.Machine.execRoceSendRequest qp marked s
  | .roceAtomicRequest qp marked => Sys2Proof.Machine.execRoceAtomicRequest qp marked s
  | .ptpEventMessage port seqId oneStep => Sys2Proof.Machine.execPtpEventMessage port seqId oneStep s
  | .getVersion tcp => Sys2Proof.Machine.execGetVersion tcp s
  | .getCapabilities tcp => Sys2Proof.Machine.execGetCapabilities tcp s
  | .negotiateAlgorithms tcp hashes signatures dheGroups => Sys2Proof.Machine.execNegotiateAlgorithms tcp hashes signatures dheGroups s
  | .getDigests tcp => Sys2Proof.Machine.execGetDigests tcp s
  | .getCertificate tcp offset length => Sys2Proof.Machine.execGetCertificate tcp offset length s
  | .challenge tcp nonce => Sys2Proof.Machine.execChallenge tcp nonce s
  | .getMeasurements tcp index nonce signed => Sys2Proof.Machine.execGetMeasurements tcp index nonce signed s
  | .keyExchange tcp session peerKey => Sys2Proof.Machine.execKeyExchange tcp session peerKey s
  | .finish tcp session mac => Sys2Proof.Machine.execFinish tcp session mac s
  | .endSession tcp session => Sys2Proof.Machine.execEndSession tcp session s
  | .qset page part queue addr => Sys2Proof.Machine.execQset page part queue addr s
  | .ccset page part cc words addr => Sys2Proof.Machine.execCcset page part cc words addr s
  | .cmdCancel page part cc => Sys2Proof.Machine.execCmdCancel page part cc s
  | .cmdQuench page part launchId => Sys2Proof.Machine.execCmdQuench page part launchId s
  | .cmdHold page part launchId => Sys2Proof.Machine.execCmdHold page part launchId s
  | .cmdUnhold page part launchId => Sys2Proof.Machine.execCmdUnhold page part launchId s
  | .qlimit page part micros => Sys2Proof.Machine.execQlimit page part micros s
  | .msumap page part msu slot addr => Sys2Proof.Machine.execMsumap page part msu slot addr s
  | .migq page part addr entries => Sys2Proof.Machine.execMigq page part addr entries s
  | .roots page part guest system => Sys2Proof.Machine.execRoots page part guest system s
  | .invtlb page part base len => Sys2Proof.Machine.execInvtlb page part base len s
  | .sctpeer page part index addr => Sys2Proof.Machine.execSctpeer page part index addr s
  | .pstate page part state => Sys2Proof.Machine.execPstate page part state s
  | .cmdReset page part => Sys2Proof.Machine.execCmdReset page part s
  | .harvest page part kind router port => Sys2Proof.Machine.execHarvest page part kind router port s
  | .handler page part base addr => Sys2Proof.Machine.execHandler page part base addr s
  | .mtsCsw value => Sys2Proof.Machine.execMtsCsw value s
  | .mtsVstat value => Sys2Proof.Machine.execMtsVstat value s
  | .mtsRngpos value => Sys2Proof.Machine.execMtsRngpos value s
  | .mtsRngkey value => Sys2Proof.Machine.execMtsRngkey value s
  | .mtsWdog value => Sys2Proof.Machine.execMtsWdog value s
  | .mtsRhstat value => Sys2Proof.Machine.execMtsRhstat value s
  | .mtsAsstat value => Sys2Proof.Machine.execMtsAsstat value s
  | .mtsMapstat value => Sys2Proof.Machine.execMtsMapstat value s
  | .mtsStrayn value => Sys2Proof.Machine.execMtsStrayn value s
  | .mtsCollide value => Sys2Proof.Machine.execMtsCollide value s
  | .mtsGtadj value => Sys2Proof.Machine.execMtsGtadj value s
  | .dbgBreak unit addr => Sys2Proof.Machine.execDbgBreak unit addr s
  | .dbgBreakAll addr => Sys2Proof.Machine.execDbgBreakAll addr s
  | .dbgContinue => Sys2Proof.Machine.execDbgContinue s
  | .dbgLaunch params => Sys2Proof.Machine.execDbgLaunch params s
  | .rt code operands => Sys2Proof.Machine.execRt code operands s
  | .dbgFq unit => Sys2Proof.Machine.execDbgFq unit s
  | .dbgMtx unit => Sys2Proof.Machine.execDbgMtx unit s
  | .dbgLtt unit first count => Sys2Proof.Machine.execDbgLtt unit first count s
  | .dbgAssay unit ctx => Sys2Proof.Machine.execDbgAssay unit ctx s
  | .landlog unit => Sys2Proof.Machine.execLandlog unit s
  | .dbgRh unit region => Sys2Proof.Machine.execDbgRh unit region s
  | .efdbLoop unit => Sys2Proof.Machine.execEfdbLoop unit s
  | .dbgGroup unit group => Sys2Proof.Machine.execDbgGroup unit group s
  | .redlog unit group lane => Sys2Proof.Machine.execRedlog unit group lane s
  | .stackOffline stack => Sys2Proof.Machine.execStackOffline stack s
  | .powerRemoved => Sys2Proof.Machine.execPowerRemoved s
  | .partitionFormation part row col rows cols => Sys2Proof.Machine.execPartitionFormation part row col rows cols s
  | .compatibilityMode part msu table => Sys2Proof.Machine.execCompatibilityMode part msu table s
  | .priorityFlowControl port enable quanta => Sys2Proof.Machine.execPriorityFlowControl port enable quanta s

end Sys2Proof.Machine
end

