-- ==== Sys2Proof/Machine/Inputs.lean ====
section
/-! DEFINITION. What comes to the package from outside beside the rows of the table: the loads and stores of the drover cores, their control region
with the command pages and the firmware registers, queue pairs and their requests, and frames (spec/15 R320 to R322; spec/16 R325, R326,
R328 to R331; log entry 47). -/

namespace Sys2Proof.Machine

open Sys2Proof

/-! ## The control region (R325, R326) -/

/-- The first address of the control region. -/
def ctlBase : Nat := 0xE000000000000

/-- Whether an address lies in the control region, which no LTT entry can map (R325). -/
def inControl (a : Nat) : Bool := ctlBase ≤ a && decide (a < ctlBase + 0x1000000)

/-- The command page, by its key, and the offset of a byte of the control region; none where no page lies (R325). -/
def ctlPage (a : Nat) : Option (Nat × Nat) :=
  let o := a - ctlBase
  if o < 0x1000 then some (0, o)
  else if 0x10000 ≤ o && o < 0x10000 + 0x1000 * 48 then some (1 + (o - 0x10000) / 0x1000, o % 0x1000)
  else none

/-- The 32 bytes of a counter entry (R294). -/
def Counter.bytes (k : Counter) : List Byte :=
  toBytes 8 k.value.toNat ++ toBytes 8 k.notify.toNat ++ toBytes 8 k.limit.toNat ++
    [BitVec.ofNat 8 (k.parentNo + bit k.enabled 7), BitVec.ofNat 8 (bit k.cancelled 0 + bit k.armed 1 + bit k.sent 2)] ++
    toBytes 2 k.window ++ [BitVec.ofNat 8 k.hart] ++ toBytes 2 k.ident ++ [0]

/-- A byte of a command page: counter entries, queue descriptors as last set, event identities, the ring and its two words, and zero elsewhere
(R326). -/
def State.pageByte (s : State) (k o : Nat) : Byte :=
  let g := s.page k
  let p := if k = 0 then none else Map.get? s.parts (k - 1)
  if o < 0x400 then
    match p with
    | some p => (Map.get p.counters (o / 32) Counter.zero).bytes.getD (o % 32) 0
    | none => 0
  else if o < 0x500 then
    match p.bind fun p => Map.get? p.queues ((o - 0x400) / 32) with
    | some q => BitVec.ofNat 8 (byteField q.desc (o % 32) 1)
    | none => 0
  else if o < 0x520 then
    match p with
    | some p => BitVec.ofNat 8 (byteField (Map.get p.events (o / 4 * 4) 0) (o % 4) 1)
    | none => 0
  else if 0x800 ≤ o && o < 0xC00 then BitVec.ofNat 8 (byteField (Map.get g.ring ((o - 0x800) / 32) 0) (o % 32) 1)
  else if 0xC00 ≤ o && o < 0xC08 then BitVec.ofNat 8 (byteField g.tail (o % 8) 1)
  else if 0xC08 ≤ o && o < 0xC10 then BitVec.ofNat 8 (byteField g.head (o % 8) 1)
  else 0

/-- One byte of a bit vector replaced. -/
def putByte {w : Nat} (v : BitVec w) (i : Nat) (b : Byte) : BitVec w :=
  (v &&& ~~~((0xFF#w) <<< (8 * i))) ||| (b.setWidth w <<< (8 * i))

/-- A byte of a command page written: event identities, the ring and CMDTAIL; the rest is the scheduler's (R326; DESIGN CHOICE, log entry 47). A
write of CMDTAIL lets a stopped ring go on. -/
def State.putPageByte (s : State) (k o : Nat) (b : Byte) : State :=
  let g := s.page k
  if 0x500 ≤ o && o < 0x520 then
    match if k = 0 then none else Map.get? s.parts (k - 1) with
    | some p => s.setPart (k - 1) { p with events := Map.put p.events (o / 4 * 4) (putByte (Map.get p.events (o / 4 * 4) 0) (o % 4) b) }
    | none => s
  else if 0x800 ≤ o && o < 0xC00 then
    { s with pages := Map.put s.pages k { g with ring := Map.put g.ring ((o - 0x800) / 32) (putByte (Map.get g.ring ((o - 0x800) / 32) 0) (o % 32) b) } }
  else if 0xC00 ≤ o && o < 0xC08 then
    { s with pages := Map.put s.pages k { g with tail := putByte g.tail (o % 8) b, stopped := false } }
  else s

/-- The number of the firmware register at an address of the control region (R325, R330). -/
def ctlRegister (a : Nat) : Option Nat :=
  if ctlBase + 0x800000 ≤ a && a < ctlBase + 0x800020 then some (0xC00 + (a - ctlBase - 0x800000) / 8) else none

/-- A firmware register as machine mode reads it; a drover core has no partition state of its own (R330; DESIGN CHOICE, log entry 47). -/
def State.firmware (s : State) (n : Nat) : Word :=
  match n with
  | 0xC00 => s.gtRate
  | 0xC01 => s.gtAdj
  | 0xC02 => s.fatalBase
  | _ => 0

/-- Whether a value may be written to a firmware register: the must-be-zero bits of FATALBASE (R330). -/
def firmwareOk (n : Nat) (v : Word) : Bool := n != 0xC02 || (v.toNat % 4096 == 0 && decide (v.toNat < 2 ^ 52))

/-! ## Drover cores (R325) -/

/-- Whether a system-physical address is one of cluster SRAM or of a scratchpad face (R265). -/
def inSram (a : Nat) : Bool :=
  (0xF000000000000 ≤ a && decide (a < 0xF000060000000)) || (0xF000100000000 ≤ a && decide (a < 0xF000130000000))

/-- A byte that a drover core reads: the control region, its firmware registers in machine mode alone, or memory; 0 where nothing is. -/
def State.droverByte (s : State) (machine : Bool) (a : Nat) : Byte :=
  if inControl a then
    match ctlPage a with
    | some (k, o) => s.pageByte k o
    | none =>
      match ctlRegister a with
      | some n => if machine then BitVec.ofNat 8 (byteField (s.firmware n) (a % 8) 1) else 0
      | none => 0
  else if inDevice a || inSram a then memGet s.mem (s.spaKey a)
  else 0

/-- A store of a drover core: bytes of the control region, a firmware register as a whole in machine mode alone, device memory as an unmarked
write of a partition's virtual machine, or on-package memory (R282, R325). -/
def State.droverStore (s : State) (machine : Bool) (part a : Nat) (l : List Byte) : State :=
  if inControl a then
    match ctlRegister a with
    | some n =>
      let v : Word := BitVec.ofNat 64 (ofBytes l)
      if machine && a % 8 == 0 && l.length == 8 && firmwareOk n v then s.putFirmware n v else s
    | none => l.zipIdx.foldl (fun s x => match ctlPage (a + x.2) with | some (k, o) => s.putPageByte k o x.1 | none => s) s
  else if inDevice a then s.devWrite part a l
  else if inSram a then s.writeKey (s.spaKey a) l
  else s

/-! ## Ports (R320, R322) -/

/-- A frame at a port: what it acknowledges, and its packet, which a free step of this cycle delivers (R231, R320). -/
def State.frameAt (s : State) (port : Nat) (b : List Byte) : State :=
  match readSct b with
  | none => s
  | some (vlan, flags, flow, psn, ackPsn, body) =>
    let s1 := nextOr s (execSctAcknowledgement flow.toNat ackPsn s)
    if flags.getLsbD 0 then s1 else { s1 with inbox := s1.inbox ++ [⟨s1.cyc, .sctFrame port vlan flags flow psn (sctPacket body)⟩] }

/-- A request of a queue pair in its sequence: the next one is performed, one that was performed before is answered again, and one ahead is
answered with a sequence-error NAK (R322, as reliable connections have it: PRESUMED, log entry 22). -/
def State.request (s : State) (qp : Nat) (psn : BitVec 24) (ev : Instr) : State :=
  let q := s.qp qp
  let ahead := (psn - q.psn).toNat
  match ev with
  | .rdmaWrite k a data marked =>
    if ahead = 0 then nextOr s (execRdmaWrite k a data marked s)
    else if ahead < 2 ^ 23 then s.reply qp (.nak qp q.psn true)
    else s.reply qp (.rdmaAck qp (q.psn - 1))
  | .rdmaRead k a n marked =>
    if ahead = 0 then nextOr s (execRdmaRead k a n marked s)
    else if ahead < 2 ^ 23 then s.reply qp (.nak qp q.psn true)
    else
      match (s.regionFor qp a n).bind fun r => (Map.get? s.parts r.part).bind fun p => gpaBytes s.mem p a n with
      | some l => s.reply qp (.rdma qp psn l)
      | none => s.refused qp
  | .roceSendRequest k marked => nextOr s (execRoceSendRequest k marked s)
  | .roceAtomicRequest k marked => nextOr s (execRoceAtomicRequest k marked s)
  | _ => s

/-! ## All of it -/

/-- One thing that comes to the package. -/
def State.take (s : State) (f : Feed) : State :=
  match f with
  | .store machine part a l => s.droverStore machine part a l
  | .load machine a n => { s with outbox := s.outbox ++ [.loaded a ((List.range n).map fun i => s.droverByte machine (a + i))] }
  | .queuePair qp q => { s with qps := Map.put s.qps qp q }
  | .spdmAddress port addr => { s with boot := { s.boot with addr := some (port, addr) } }
  | .frame port b => s.frameAt port b
  | .rdma qp psn ev => s.request qp psn ev
  | .flitError i code => { s with flights := s.flights.modify i fun f => { f with ev := withError (code % 4) f.ev } }
  | .image part image rows cols cores save =>
    { s with dbg := { s.dbg with part := part, image := image, rows := rows, cols := cols, cores := cores, save := save } }

/-- What comes to the package in this cycle, in order; before power-good nothing runs, and it is lost (R331). -/
def State.feedNow (s : State) : State :=
  let now := (s.feed.filter fun x => decide (x.1 ≤ s.cyc)).map Prod.snd
  let s1 := { s with feed := s.feed.filter fun x => !(decide (x.1 ≤ s.cyc)) }
  if s.boot.step = 0 then s1 else now.foldl State.take s1

end Sys2Proof.Machine
end

