-- ==== Sys2Proof/Machine/Cycle.lean ====
section
/-! DEFINITION. One cycle of the package in small steps: what begins it, the forced steps, the issue of each core slot by slot, its end, and
the free steps (spec/01 R28 to R32; spec/11 R231; DESIGN CHOICE, log entry 1). -/

namespace Sys2Proof.Machine

open Sys2Proof

/-! ## Time (R323, R330, R334) -/

/-- Global time after one cycle: the rate with its fraction. While a backward offset is to be absorbed GT advances less, by a free amount that
leaves half of the nominal rate, 29,789 units and more (R323; DESIGN CHOICE, log entry 24). -/
def State.clock (s : State) : State :=
  if s.boot.step = 0 && s.parts.isEmpty then s
  else
    let frac := s.gtFrac + s.gtRate.toNat % 2 ^ 32
    let rate := s.gtRate.toNat / 2 ^ 32 + frac / 2 ^ 32
    if s.gtAdj.msb then
      let slow := min (-(s.gtAdj)).toNat (Config.gtSlow s.oracle % (s.gtRate.toNat / 2 ^ 32 - 29789 + 1))
      { s with gt := s.gt + (rate - slow), gtFrac := frac % 2 ^ 32, gtAdj := s.gtAdj + BitVec.ofNat 64 slow, oracle := s.oracle + 1 }
    else { s with gt := s.gt + rate, gtFrac := frac % 2 ^ 32 }

/-- Gating and ticks of the partitions: SLOW gates every second cycle of CYC, all in the same cycles (R334). -/
def State.gate (s : State) : State :=
  { s with parts := s.parts.map fun x =>
      let g := x.2.pstate == 1 && s.cyc % 2 == 1
      (x.1, { x.2 with gated := g, ticks := if g then x.2.ticks else x.2.ticks + 1 }) }

/-! ## What begins a cycle -/

/-- Members whose restart cycle has come issue again; one that stood at the end of a loop body passes its iteration boundary (R30, R102). -/
def State.restarts (s : State) : State :=
  let ns := (s.cores.filter fun x => !(s.isGated x.2) && x.2.restart.any fun t => decide (t ≤ s.tickOf x.2)).map Prod.fst
  let s1 := ns.foldl (fun s n => s.onCore n (Core.restartNow s.mem n)) s
  let bs := ns.filter fun n => (s1.core n).bound
  { s1 with
    cores := s1.cores.map fun x => if bs.contains x.1 then (x.1, { x.2 with bound := false }) else x
    agenda := s1.agenda ++ bs.map fun n => .iterationBoundary n }

/-- The rank of an input within its cycle: extensions of measurement registers go by drover core (R332). -/
def stimRank (i : Instr) : Nat := match i with | .measurementExtension hart .. => 1 + hart | _ => 0

/-- Whether an input is a frame of an inter-package channel, whose packet a free step delivers, after the forced steps (R231, R239). -/
def isFrame (i : Instr) : Bool := match i with | .sctFrame .. => true | _ => false

/-- Whether an input is the power-good signal, before which nothing on the package runs (R331). -/
def isPowerGood (i : Instr) : Bool := match i with | .powerGood .. => true | _ => false

/-- The inputs of this cycle that a test picks, on the agenda; before power-good all but that signal are lost (R331). -/
def State.inputs (s : State) (pick : Instr → Bool) : State :=
  let now (x : Stim) : Bool := decide (x.at_ ≤ s.cyc) && pick x.ev
  let l := (s.inbox.filter now).map Stim.ev
  { s with
    inbox := s.inbox.filter fun x => !(now x)
    agenda := s.agenda ++ ordSort stimRank (if s.boot.step = 0 then l.filter isPowerGood else l) }

/-- Stall events, events and restarts that are due. -/
def State.groupEvents (s : State) : List Instr :=
  (s.cores.filterMap fun x => if x.2.stopAt.any (fun t => decide (t ≤ s.tickOf x.2)) && !(s.isGated x.2) then some (.groupStall x.1) else none) ++
    (s.cores.filterMap fun x => if s.atBoundary x.2 && !x.2.pending.isEmpty then some (.pendingEvent x.1) else none) ++
    s.groups.filterMap fun g =>
      match s.restartCycle g.1 with
      | none => none
      | some _ =>
        if g.2.trap then some (.groupResume g.1)
        else
          match (s.groupCores g.1).find? fun n => match (s.core n).run with | .wait _ => true | _ => false with
          | some n => some (.dynamicWaitRelease n)
          | none => some (.groupResume g.1)

/-- What the scheduler, the counters, the clocks and the ports have due. -/
def State.schedulerEvents (s : State) : List Instr :=
  s.dueTriggers ++
    (s.parts.flatMap fun x => x.2.counters.filterMap fun k =>
      if k.2.dueAt.any (fun t => decide (t ≤ s.gt)) then some (.counterInterrupt x.1 k.1) else none) ++
    (s.parts.filterMap fun x => if x.2.onAt.any (fun t => decide (t.1 ≤ s.gt)) then some (.pstateOnDelay x.1) else none) ++
    (s.launches.filterMap fun x =>
      if x.2.st == .loaded && x.2.startAt.any (fun t => decide (t ≤ s.cyc)) then
        some (if x.2.vacatedUnits.isEmpty then .launchStart x.1 else .restoreStart x.1)
      else if x.2.st == .waiting && x.2.handover.isSome && s.handsOver x.2 then some (.handoverStart x.1)
      else none) ++
    (s.replays.flatMap fun x => if x.2.done then [] else
      x.2.launches.filterMap fun l => if (s.nodeReady x.2 l.1).isSome then some (.nodeStart x.1 l.1) else none) ++
    (s.cores.flatMap fun x => (List.range 16).filterMap fun b =>
      if x.2.passing.getLsbD b && !((s.touchedBanks x.1 x.2).getLsbD b) then some (.bankPass x.1 b) else none) ++
    (s.txs.zipIdx.filterMap fun x =>
      if !x.1.failed && !x.1.unacked.isEmpty && decide (x.1.since + 20 * gtMicro ≤ s.gt) then some (.retransmitTimeout x.2) else none) ++
    s.rxs.zipIdx.filterMap fun x =>
      if x.1.count != 0 && (decide (16 ≤ x.1.count) || decide (x.1.since + 2 * gtMicro ≤ s.gt)) then some (.cumulativeAcknowledgement x.2) else none

/-- Lane 0 of every partition whose clock runs in this cycle (R305, R334). -/
def State.allLanes (s : State) : State := s.parts.foldl (fun s x => if x.2.gated then s else s.lanes x.1 x.2.ticks) s

/-- The beginning of a cycle: time, the fabric, restarts, the traps and stops that come before it, and the results of collectives; then its
inputs, and what the groups and the scheduler have due. -/
def State.begin_ (s : State) : State :=
  let s1 := ({ s with undo := [] } : State).clock.gate.allLanes.restarts.barrierStalls.softTraps.lateQueues.waitQuench
  let s2 := ((s1.spread false).resumes.results.feedNow.inputs fun i => !(isFrame i)).watchdogs.quenchLimits
  { s2 with agenda := s2.agenda ++ s2.groupEvents ++ s2.schedulerEvents, phase := .tick }

/-! ## The forced steps and issue -/

/-- Whether a core issues in this cycle. -/
def State.issues (s : State) (c : Core) : Bool :=
  c.run == .run && decide (c.holdTo ≤ s.tickOf c) && c.fenceClear && !(s.isGated c)

/-- The cores that issue in this cycle. -/
def State.issuers (s : State) : List Nat := (s.cores.filter fun x => s.issues x.2).map Prod.fst

/-- Whether the bundle at a core's issue address holds a dynamic wait that would take QUENCH at its issue: that cycle is its stop cycle (R253,
R351). A BAR and a BARNS are known only once their cycle has ended. -/
def State.quenchesAt (s : State) (n : Nat) : Bool :=
  let c := s.atFetch n
  let l := bundleAt s.mem n c.ctx.pc
  c.ctx.qreq && c.mode == 0 && c.ctx.sres == 0 && waitsInSlot0 l && (s.fetchStop n).isNone &&
    match slotInstr l 0 with
    | none => false
    | some i =>
      match exec i { s.setCore n { c with line := some l } with cur := n, slot := 0 } with
      | .next t => match (t.core n).ctx.ctl.wait with | some (.barrier _) => false | some _ => true | none => false
      | _ => false

/-- The stop of a core that takes the place of its fetch: a debugger halt, or a trap (R247, R338). -/
def State.stopAtFetch (s : State) (n : Nat) : State :=
  let t := s.setCore n (s.atFetch n)
  if t.breakAt n then (match exec (.debuggerHalt n) t with | .next u => u | _ => s) else (s.fetchStop n).getD s

/-- The timed work of a cycle. A core whose fetch is a stop has the cycle as its stop cycle: what is due in it waits, and so does the matrix
engine of one that takes QUENCH at the issue of a wait, unless a late fault of the cycle goes first (R183, R246, R247). -/
def State.timed (s : State) : State :=
  let s1 := s.tick []
  let stops := s1.issuers.filter fun n => (s1.fetchStop n).isSome
  let waits := s1.issuers.filter s1.quenchesAt
  if stops.isEmpty && waits.isEmpty then s1
  else (stops.foldl State.stopAtFetch s).tick waits

/-- The forced steps of the cycle, with the triggers and cancels that follow from them; then the cores issue in order. -/
def State.forced (s : State) : State :=
  let s1 := (s.timed.spread false).fireArmed.phantomFaults
  { s1 with
    agenda := s1.agenda ++ s1.dueTriggers
    phase := .issue ((s1.cores.filter fun x => x.2.run == .run && decide (x.1 < 1024)).map Prod.fst) }

/-- The phase when the core at the head of the issue list has nothing more to issue in this cycle. -/
def State.nextIssue (s : State) (rest : List Nat) : State := { s with phase := .issue rest }

/-- The state after a slot of core `n`'s bundle has been executed. -/
def State.executed (s : State) (n k : Nat) (rest : List Nat) : State :=
  let s1 := s.afterSlot n k
  if (s1.core n).line.isNone then s1.nextIssue rest else s1

/-- The state after the PACK of a packed line has been executed. -/
def State.packed (s : State) (n : Nat) (rest : List Nat) : State :=
  let s1 := s.bundle n
  if (s1.core n).line.isNone then s1.nextIssue rest else s1

/-- An outcome with its next state changed. -/
def mapNext (f : State → State) (o : Out) : Out :=
  match o with
  | .next t => .next (f t)
  | .fault e => .fault e
  | .refused r => .refused r

/-- The PACK in slot 0 of a packed line; its template bits surrender no slot. None where R95 makes the word ILLEGAL (R82). -/
def packOf (l : Mask) : Option Instr := (decodeSlot 0 (slotWord l 0) none).toOption

/-- One small step of the issue of core `n`: its bundle begins, or its next slot is executed. -/
def issueStep (n : Nat) (rest : List Nat) (s : State) : Out :=
  let c := s.core n
  match c.line with
  | some l =>
    match nextSlot l s.slot with
    | none => .next ((s.endBundle n).nextIssue rest)
    | some k =>
      let t := { s with cur := n, slot := k }
      match slotInstr l k with
      | some i => mapNext (fun u => u.executed n k rest) (exec i t)
      | none => mapNext (fun u => u.executed n k rest) (t.act t.illegal)
  | none =>
    if c.pass then
      let t := s.setCore n { c with pass := false }
      mapNext (fun u => u.packed n rest) (match packOf (lineAt s.mem n (c.ctx.pc.toNat / 16)) with
        | some i => exec i t
        | none => t.act t.illegal)
    else if !(s.issues c) then .next (s.nextIssue rest)
    else
      let s1 := s.fetch n
      .next (if (s1.core n).line.isSome || (s1.core n).pass then s1 else s1.nextIssue rest)

/-! ## The end of a cycle and the free steps (R231) -/

/-- The end of the cycle for every core: packets to the ports, arrivals, schedule counts, barriers; then held writes that have room. -/
def State.finish (s : State) : State := { s.unpause.sendAll.endColls.finishCores.releaseWrites with phase := .free }

/-- The free steps that are enabled. -/
def State.candidates (s : State) : List Instr :=
  (s.cores.flatMap fun x => [5, 6].flatMap fun k =>
    if (x.2.queue k).isEmpty then [] else [.queuedRowPerform x.1 k (some 0), .queuedRowPerform x.1 k none]) ++
    (s.cores.flatMap fun x => (List.range x.2.nt.length).flatMap fun i => [.nonTemporalPerform x.1 i (some 0), .nonTemporalPerform x.1 i none]) ++
    (s.incrs.zipIdx.filterMap fun x => if s.covered x.1 then some (.counterIncrement x.2) else none) ++
    (s.cores.filterMap fun x => if x.2.walkOf.isSome then some (.nestedWalk x.1) else none) ++
    (s.parts.flatMap fun x => (x.2.queues.filterMap fun q => if q.2.enabled && !q.2.stopped then some (.launchRecord x.1 q.1) else none) ++
      (if x.2.admits && !(s.considered x.2).isEmpty then [.admission x.1] else [])) ++
    (s.launches.flatMap fun x => if x.2.st != .resident then [] else
      ((x.2.doneUnits.filter fun u => !(x.2.counted.contains u) && s.unitCovered x.1 x.2 u).map fun u => .completionIncrement x.1 (some u)) ++
        (if x.2.counted.length = x.2.units then [.completionIncrement x.1 none] else [])) ++
    (s.parts.flatMap fun x => (List.range ((x.2.migq.map Prod.snd).getD 0)).filterMap fun i =>
      if (s.migRecord x.1 i).any fun r => mqSTATUS r == 0 then some (.migrationRequest x.1 i) else none) ++
    (List.range s.migs.length).map fun i => .migrationCopy i

/-- One small step after the forced ones: what ends, then a free step that the free choice takes, the taking of a command among them, or the end
of the cycle (R231, R287; log entry 1). -/
def State.freeStep (s : State) : State :=
  let s1 := s.finishBounds
  if !s1.agenda.isEmpty then s1
  else
    let l := s1.candidates
    let s2 := { s1 with oracle := s1.oracle + 1 }
    let k := Config.freeChoice s1.oracle % (l.length + s1.rings.length + 1)
    match l[k]? with
    | some i => { s2 with agenda := [i] }
    | none =>
      match s1.rings[k - l.length]? with
      | some r => s2.takeRecord r
      | none => { s2.settle with cyc := s2.cyc + 1, phase := .start }

/-- One small step of the package with nothing on its agenda. -/
def phaseStep (s : State) : Out :=
  match s.phase with
  | .start => .next s.begin_
  | .tick => .next s.forced
  | .issue (n :: rest) => issueStep n rest s
  | .issue [] => .next { s.inputs isFrame with phase := .finish }
  | .finish => .next s.finish
  | .free => .next s.freeStep

/-! ## A single instruction placed to be fetched -/

/-- The line that holds a table word in its slot, with the template bit of a surrendered slot where the instruction needs an extension
(R73, R78, R79). -/
def wordLine (k w : Nat) (long : Bool) : Mask :=
  BitVec.ofNat 256 ((w % 2 ^ 32) <<< (32 * k)) ||| (if long then 1#256 <<< (25 + k) else 0)

/-- A core that runs the one unit of a launch, at issue address 0. -/
def placedCore : Core :=
  { Core.reset with launch := 1, group := 0, run := .run, launchId := 0, owned := 0xFFFF }

/-- A launch of one unit on core 0, resident. -/
def placedLaunch : Launch :=
  ⟨0, 0, 0, 0, .resident, 0, 0, 0, 0, 0, 0, 1, 1, 1, 0, none, none, 0, BitVec.allOnes 64, 0, 1, [], [], [],
    none, none, none, none, false, false, none, 0, [], [], []⟩

/-- The state with one unit resident on core 0 about to issue the bundle that holds a table word; the line stands in its instruction
scratchpad, and the issue of this cycle has come to that slot (DESIGN CHOICE, log entry 5). -/
def placeWord (s : State) (k w : Nat) (i : Instr) : State :=
  let l := wordLine k w ((decodeSlot k (BitVec.ofNat 32 w) none).toOption.isNone)
  let pack := match i with | .pack _ => true | _ => false
  let c := if pack then { placedCore with pass := true, ctx := { placedCore.ctx with pc := 1 } } else { placedCore with line := some l }
  { s with
    mem := memPutN s.mem (codeKey 0 0) (toBytes 32 l.toNat)
    parts := Map.put s.parts 0 (Part.formed 0 0 1 1)
    launches := Map.put s.launches 1 placedLaunch
    nextLaunch := max 2 s.nextLaunch
    groups := Map.put s.groups 0 ⟨[0], 1, false, false, false, 0, false, none, [], none⟩
    nextGroup := max 1 s.nextGroup
    cores := Map.put s.cores 0 c
    phase := .issue [0], agenda := [], cur := 0, slot := k }

end Sys2Proof.Machine
end

