-- ==== Sys2Proof/Machine/Step.lean ====
section
/-! DEFINITION. One step of the package: the head of its agenda is executed, or its phase goes on. -/

namespace Sys2Proof.Machine

open Sys2Proof

/-- The state without the head of its agenda. -/
def State.popAgenda (s : State) : State := { s with agenda := s.agenda.drop 1 }

/-- One step: the instruction at the head of the agenda, or else one small step of the phase. A state that names a core the package does not
have has no step. -/
def step (s : State) : Host.Outcome State Fault Refusal :=
  if s.cores.any (fun x => decide (16384 ≤ x.1)) then .fault .noSuchCore
  else
    match s.agenda with
    | i :: _ => exec i s.popAgenda
    | [] => phaseStep s

/-- A table word placed where the next step fetches it: the very next step executes it (DESIGN CHOICE, log entry 5). -/
def State.withFetchWord (s : State) (nbits w : Nat) : State :=
  match (if nbits = 32 && w < 2 ^ 32 then tableSlot w else none) with
  | some (k, i) => placeWord s k w i
  | none => placeWord s 0 w (.nop 0)

end Sys2Proof.Machine
end

