-- ==== Sys2Proof/Safety.lean ====
section
/-! DEFINITION. The terms in which the statements speak: the acting core, outcomes in which it alone has changed, the conditions under which a
slot's instruction performs, and what every step keeps. -/

namespace Sys2Proof

/-- An instruction of a bundle: one that stands in some slot (R91 to R94). The others are the package's own events. -/
def Instr.slotted (i : Instr) : Prop := i.slots ≠ []

/-- The guard of an instruction that has one (R90): those of slots 1 and 4 to 7 and the guarded ones of slot 0. -/
def Instr.guard (i : Instr) : Option (BitVec 4) :=
  match i with
  | .br _ g _ _ | .jmp _ g _ | .call _ g _ _ | .ret _ g _ | .loop _ g _ _ _ _ | .lexit _ g | .waitt _ g _ _ | .twait _ g _
  | .ccwait _ g _ _ | .uend _ g | .qpoint _ g | .ifence _ g | .bkacq _ g _ _ | .bkrel _ g _ _ | .drainnt _ g | .qfence _ g | .trap _ g _
  | .add g _ _ _ | .addi g _ _ _ _ | .sub g _ _ _ | .mul g _ _ _ | .mulh g _ _ _ _ | .div g _ _ _ _ | .and g _ _ _ | .or g _ _ _
  | .xor g _ _ _ | .andi g _ _ _ _ | .ori g _ _ _ _ | .xori g _ _ _ _ | .shl g _ _ _ | .shr g _ _ _ | .sar g _ _ _ | .shli g _ _ _ _
  | .shri g _ _ _ _ | .sari g _ _ _ _ | .minmax g _ _ _ _ | .cmp g _ _ _ _ | .cmpi g _ _ _ _ _ | .sel g _ _ _ _ | .movi g _ _ _
  | .movhi g _ _ _ | .lea g _ _ _ _ | .plog g _ _ _ _ | .bitc g _ _ _ | .bitcTest g _ _ _ | .ldb g _ _ _ _ | .ldbu g _ _ _ _
  | .ldh g _ _ _ _ | .ldw g _ _ _ _ | .ldhu g _ _ _ _ | .ldwu g _ _ _ _ | .ldd g _ _ _ _ | .stb g _ _ _ _ | .sth g _ _ _ _
  | .stw g _ _ _ _ | .std g _ _ _ _ | .atom g _ _ _ _ | .acas g _ _ _ | .mfs g _ _ | .mts g _ _ | .rdcyc g _ | .rdgt g _ | .ext g _ _ _ _
  | .mma g _ _ _ _ _ _ | .mma3 g _ _ _ _ _ | .mzero g _ | .mband g _ _ | .tld g _ _ _ _ _ | .tst g _ _ _ _ _ | .tstnt g _ _ _ _ _
  | .scld g _ _ | .pull g _ _ _ | .push g _ _ _ | .cxsend g _ _ _ | .cxtile g _ _ _ | .gather g _ _ _ _ | .rtset g _ _ | .mapset g _ _ _
  | .mapret g _ _ _ | .mapswap g _ _ _ _ | .mapq g _ _ _ | .straypop g _ _ _ | .send g _ _ | .recv g _ _ | .recvadd g _ _ _
  | .recvmax g _ _ _ | .grpset g _ _ | .mcldr g _ _ _ _ | .wbrun g _ _ | .ttarm g _ _ _ | .ctarm g _ _ _ _ | .trdis g _ | .ccinc g _ _ _ => some g
  | _ => none

/-- The instructions that add exactly one to the results and stores in flight when they issue: a result or a store, or a gather, scatter or
assay update, each of which counts as one item (R20). -/
def Instr.addsOne (i : Instr) : Bool :=
  match i with
  | .call .. | .add .. | .addi .. | .sub .. | .mul .. | .mulh .. | .div .. | .and .. | .or .. | .xor .. | .andi .. | .ori .. | .xori ..
  | .shl .. | .shr .. | .sar .. | .shli .. | .shri .. | .sari .. | .minmax .. | .cmp .. | .cmpi .. | .sel .. | .movi .. | .movhi ..
  | .lea .. | .plog .. | .bitc .. | .bitcTest .. | .ldb .. | .ldbu .. | .ldh .. | .ldw .. | .ldhu .. | .ldwu .. | .ldd .. | .stb ..
  | .sth .. | .stw .. | .std .. | .atom .. | .acas .. | .mfs .. | .rdcyc .. | .rdgt .. | .ext .. | .vadd .. | .vsub .. | .vmul ..
  | .vfma .. | .vfms .. | .vmin .. | .vmax .. | .vabs .. | .vneg .. | .vcmpeq .. | .vcmplt .. | .vcmple .. | .vcmpne .. | .viadd ..
  | .visub .. | .vimul .. | .vand .. | .vor .. | .vxor .. | .vshl .. | .vshr .. | .vsar .. | .vimin .. | .vimax .. | .vicmpeq ..
  | .vicmplt .. | .vsel .. | .vcvt .. | .vbcast .. | .vbcastExt .. | .vperm .. | .vrot .. | .vrsum .. | .vrmax .. | .vmov .. | .vld ..
  | .vst .. | .vgather .. | .vscatter .. | .twrow .. | .trdcol .. | .vqnt .. | .vrng .. | .viadds .. | .vrcp .. | .vrsq .. | .vexp2 ..
  | .vlog2 .. | .vsin .. | .vcos .. | .vtanh .. | .asqu .. | .ashh .. | .asdc .. | .asqry .. | .asest ..
  | .astopk .. | .rhmap .. | .mapq .. | .recv .. | .recvadd .. | .recvmax .. => true
  | _ => false

end Sys2Proof

namespace Sys2Proof.Machine

open Sys2Proof

/-! ## Outcomes of a slot's instruction -/

/-- The core whose slot executes. -/
abbrev State.me (s : State) : Core := s.core s.cur

/-- The outcome in which the acting core has become `c` and nothing else has changed: no other core, no byte of memory, no part of the
package. -/
abbrev State.becomes (s : State) (c : Core) : Out := .next (s.setCore s.cur c)

/-- The acting core with a result of its slot in flight, due `lat` cycles from now (R4, R20). -/
abbrev State.inFlight (s : State) (lat : Nat) (acts : List Act) : Core := s.me.addItem s.slot lat true false acts

/-- The outcome that puts a scalar result in flight: the physical entry of `d` holds `v` from c + `lat` on (R4, R10). -/
abbrev State.givesS (s : State) (lat : Nat) (d : BitVec 6) (v : Word) : Out :=
  s.becomes (s.inFlight lat [.setS (s.me.ctx.physS d.toNat) v])

/-- The outcome that puts a predicate result in flight. -/
abbrev State.givesP (s : State) (d : BitVec 4) (b : Bool) : Out := s.becomes (s.inFlight 1 [.setP d.toNat b])

/-- The outcome that puts a vector result in flight: the bits of `m` in the entry of `d` become those of `v`, and the flags join VSTAT. -/
abbrev State.givesV (s : State) (lat : Nat) (d : BitVec 7) (v m : Vec) (f : BitVec 7) : Out :=
  s.becomes (s.inFlight lat [.setV (s.me.ctx.physV d.toNat) v m, .flags f])

/-- The outcome of a lane-wise vector instruction (R120): lane i of `d` becomes `f i` where the mask holds, and 0 or its old value elsewhere. -/
abbrev State.givesLanes (s : State) (lat w : Nat) (d : BitVec 7) (k : BitVec 3) (z : BitVec 1) (f : Nat → Nat) (fl : BitVec 7) : Out :=
  s.givesV lat d (laneResult w (s.me.readK k) f) (writeMask w (s.me.readK k) z) fl

/-- Lane i of a vector operand, and of a float operand in either of its forms (R121). -/
abbrev State.laneA (s : State) (a : BitVec 7) (w i : Nat) : Nat := laneNat (s.me.readV a) i w
/-- Lane i of a float operand: of v[B], or the low half of a scalar (R121). -/
abbrev State.laneF (s : State) (b : BitVec 7) (sc : BitVec 1) (i : Nat) : Nat :=
  if sc = 1 then (s.me.readS (b.extractLsb' 0 6)).toNat % 2 ^ 32 else laneNat (s.me.readV b) i 32
/-- Lane i of an integer operand: of one of v0 to v63, or the low bits of a scalar (R121). -/
abbrev State.laneI (s : State) (n : BitVec 1) (b : BitVec 6) (sc : BitVec 1) (i : Nat) : Nat :=
  if sc = 1 then (s.me.readS b).toNat % 2 ^ intWidth n else laneNat (s.me.readV b) i (intWidth n)

/-- The flight queue has room for one more result (R20). -/
def State.roomy (s : State) : Prop := s.me.ctx.inFlight < 64

/-- The guard of the acting slot's instruction is true (R90). -/
def State.on (s : State) (g : BitVec 4) : Prop := s.me.readP g = true

/-- The acting core stands outside tenant mode (R22). -/
def State.priv (s : State) : Prop := s.me.mode ≠ 0

/-! ## What every step keeps -/

/-- The state names only cores that the package has, and those that run a unit's remaining copies beside its successor (R302). -/
def State.coresNamed (s : State) : Prop := ∀ x ∈ s.cores, x.1 < 16384

/-- Memory is in its canonical form. -/
def State.memInv (s : State) : Prop := s.mem.wf = true

end Sys2Proof.Machine
end

