-- ==== Sys2Proof/Certificates/Slice0/Obligations.lean ====
section
/-! DEFINITION. The statements for the provers. Each docstring says which rules of the spec its statement formalises. -/

open Sys2Proof Sys2Proof.Machine

/-! ## Encoding and decoding (R73, R78 to R95) -/

/-- Decoding the words that encode a well-formed instruction gives it back, in every slot in which it may stand and with every operand at every
value that its encoding admits. -/
def Obligations.EncodedInstructionDecodes : Prop :=
  ∀ (i : Instr) (k : Nat), i.wellFormedIn k = true → ∃ w x, encode i = w :: Option.toList x ∧ decodeSlot k w x = .ok i

/-- Each word has one meaning: an instruction that a slot's decoder reads encodes to exactly the words that it was read from, and holds no
reserved value. -/
def Obligations.DecodedWordEncodesBack : Prop :=
  ∀ (k : Nat) (w : BitVec 32) (x : Option (BitVec 32)) (i : Instr),
    decodeSlot k w x = .ok i → encode i = w :: Option.toList x ∧ i.wf = true

/-- Words written out from the field tables decode to the instructions that they stand for, one for each slot format and one with an extension; a
reserved opcode, a non-zero must-be-zero bit, a reserved value, and an extension where none is taken are each rejected by name. -/
def Obligations.SampleWordsDecode : Prop :=
  (decodeSlot 0 (0#7 ++ 0x02#6 ++ 5#4 ++ 31#6 ++ 0#9) none = .ok (.jmp 0 5 31) ∧
  decodeSlot 1 (0x01#6 ++ 0#4 ++ 6#6 ++ 4#6 ++ 5#6 ++ 0#4) none = .ok (.add 0 6 4 5) ∧
  decodeSlot 1 (0x17#6 ++ 3#4 ++ 9#6 ++ 0x1234#16) (some 0xDEADBEEF) = .ok (.movi 3 9 0x1234 (some 0xDEADBEEF)) ∧
  decodeSlot 2 (0x01#6 ++ 2#3 ++ 1#1 ++ 10#7 ++ 11#7 ++ 12#7 ++ 0#1) none = .ok (.vadd 2 1 10 11 12 0) ∧
  decodeSlot 3 (0x34#6 ++ 0#8 ++ 3#3 ++ 0#1 ++ 7#6 ++ 0#1 ++ 8#6 ++ 1#1) none = .ok (.rhsig 3 7 8) ∧
  decodeSlot 4 (0x03#6 ++ 4#4 ++ 1#1 ++ 0#21) none = .ok (.mzero 4 1) ∧
  decodeSlot 7 (0x08#6 ++ 0#4 ++ 0#7 ++ 9#6 ++ 17#5 ++ 3#4) none = .ok (.ttarm 0 9 17 3)) ∧
  (decodeSlot 1 (0x3F#6 ++ 0#26) none = .error .reservedOpcode ∧
  decodeSlot 1 (0x01#6 ++ 0#4 ++ 6#6 ++ 4#6 ++ 5#6 ++ 1#4) none = .error .mustBeZero ∧
  decodeSlot 1 (0x13#6 ++ 0#4 ++ 6#6 ++ 4#6 ++ 5#6 ++ 4#4) none = .error .reservedValue ∧
  decodeSlot 1 (0x01#6 ++ 0#4 ++ 6#6 ++ 4#6 ++ 5#6 ++ 0#4) (some 0) = .error .extension)

/-! ## The step -/

/-- A step executes the head of the agenda; and while a core issues, the instruction that its line holds in the next slot, after which the slot is
counted as executed. -/
def Obligations.StepRunsTheDecodedInstruction : Prop :=
  ∀ s : State, s.coresNamed →
    (∀ i r, s.agenda = i :: r → step s = exec i { s with agenda := r }) ∧
    (∀ n rest l k i, s.agenda = [] → s.phase = .issue (n :: rest) → (s.core n).line = some l → nextSlot l s.slot = some k →
      decodeSlot k (slotWord l k) (extensionOf l k) = .ok i →
      step s = mapNext (fun u => u.executed n k rest) (exec i { s with cur := n, slot := k }))

/-- A core that issues takes the line of its instruction scratchpad at its issue address, 32 bytes, and begins it at slot SRES. An address above
0x1FFFF, one past word 0 of a full line or past the count of a packed line, and a repeat of a full line raise ILLEGAL at the fetch, one in a page
of the other owner PRIVILEGE, with FVAL = 8 and FELEM the address; a template that R80 forbids raises TEMPLATE with the lowest slot, before any
slot commits. The trap's handler issues four cycles after the stop cycle. No byte of memory and no other core changes. That PRIVILEGE goes before
ILLEGAL where both apply, past word 0 or in a repeat, is the model's choice (log entry 59, DESIGN CHOICE). -/
def Obligations.FetchTakesTheLineAtThePc : Prop :=
  ∀ (s : State) (n : Nat) (rest : List Nat), s.coresNamed → s.agenda = [] → s.phase = .issue (n :: rest) →
    (s.core n).line = none → (s.core n).pass = false → s.issues (s.core n) = true → (s.core n).recv = none →
    (s.core n).ctx.wre = false → s.breakAt n = false →
    let c := s.core n
    let pc := c.ctx.pc
    let line := lineAt s.mem n (pc.toNat / 16)
    let kept (t : State) : Prop := t.mem = s.mem ∧ t.agenda = [] ∧ ∀ m, m ≠ n → t.core m = s.core m
    let traps (code fval : Nat) (felem : Word) (stop : Nat) : Prop := ∃ t x, step s = .next t ∧ kept t ∧ t.phase = .issue rest ∧
      (t.core n).mode = 1 ∧ (t.core n).tm = true ∧ (t.core n).sh = true ∧ (t.core n).holdTo = s.tickOf c + stop + 4 ∧ (t.core n).held = some x ∧
      x.cause = BitVec.ofNat 64 code ∧ x.fval = BitVec.ofNat 64 fval ∧ x.felem = felem ∧ x.sres = 0 ∧ x.epc.extractLsb' 0 17 = pc.setWidth 17 ∧
      x.mode = c.mode ∧ x.s = c.ctx.s ∧ x.p = c.ctx.p ∧ (t.core n).v = c.v ∧ (t.core n).k = c.k ∧ (t.core n).tiles = c.tiles
    let owned : Prop := c.mode = 2 ∨ c.mode = 3 ∨ c.owners.getLsbD (pc.toNat / 4096) = decide (c.mode ≠ 0)
    let fetched : Prop := fetchFault s.mem n c = none ∧ s.poison = [] ∧ isPacked line = false
    (fetched → templateFault line = none → ∃ t, step s = .next t ∧ kept t ∧ t.phase = s.phase ∧ (t.core n).line = some line ∧
      t.slot = c.ctx.sres.toNat ∧ (t.core n).ctx.pc = pc) ∧
    (pc.toNat < 2 ^ 17 → pc.toNat % 16 = 0 → c.ctx.rep = 0 → isPacked line = false → owned → fetchFault s.mem n c = none) ∧
    (c.tm = false →
      (0x1FFFF < pc.toNat → traps cILLEGAL 8 pc 0) ∧
      (pc.toNat < 2 ^ 17 → ¬owned → isPacked line = false → traps cPRIVILEGE 8 pc 0) ∧
      (pc.toNat < 2 ^ 17 → owned → isPacked line = false → pc.toNat % 16 ≠ 0 ∨ c.ctx.rep ≠ 0 → traps cILLEGAL 8 pc 0) ∧
      (pc.toNat < 2 ^ 17 → owned → isPacked line = true → 0 < packCount line → packCount line < 15 → packCount line < pc.toNat % 16 →
        traps cILLEGAL 8 pc 0) ∧
      (fetched → c.ctx.ctl.fin = [] → ∀ k, templateFault line = some k → traps cTEMPLATE k 0 1)) ∧
    -- what the template forbids (R80)
    ∀ l : Mask,
      let bad (k : Nat) : Prop := 1 ≤ k ∧ k ≤ 7 ∧ surrendered l k = true ∧
        ((2 ≤ k ∧ surrendered l (k - 1) = true) ∨ takesExtension (k - 1) (slotWord l (k - 1)) = false)
      (l.extractLsb' 25 7 = 0x7F → l.extractLsb' 19 6 ≠ 0x14 → templateFault l = some 1) ∧
      (l.extractLsb' 25 7 ≠ 0x7F → (templateFault l = none ↔ ∀ k, ¬bad k) ∧ ∀ k, templateFault l = some k ↔ bad k ∧ ∀ j, j < k → ¬bad j)

/-- No instruction stops the machine: every one of them answers a next state from every state, traps and waits among them, and a step does so from
every state that names only cores of the package. -/
def Obligations.EveryInstructionAnswers : Prop :=
  (∀ (i : Instr) (s : State), ∃ t, exec i s = .next t) ∧ ∀ s : State, s.coresNamed → ∃ t, step s = .next t

/-! ## Reset and memory -/

/-- Right after reset: GT runs at its nominal rate (R331), no partition, launch or core with a unit exists, nothing is in flight, and CYC and GT
are 0. That CYC and GT start at 0, and that a core with no unit holds the values with which a unit starts (R21 to R23, R178), are the model's
choice (log entry 2): the spec gives those values for a unit, and none for the clocks. -/
def Obligations.ResetState : Prop :=
  let s := State.reset
  s.cyc = 0 ∧ s.gt = 0 ∧ s.gtRate = 0x0000E8BA2E8BA2E8 ∧ s.parts = [] ∧ s.launches = [] ∧ s.flights = [] ∧ s.agenda = [] ∧
    ∀ n, (s.core n).run = .idle ∧ (s.core n).mode = 0 ∧ (s.core n).tm = false ∧ (s.core n).sh = false ∧ (s.core n).ctx.lrot = 0 ∧
      (s.core n).ctx.vrm = 0 ∧ (s.core n).ctx.vstat = 0 ∧ (s.core n).ctx.mx.band0 = 0x3F803F80 ∧ (s.core n).ctx.mx.band1 = 0x3F803F80

/-- Memory has its canonical form right after reset. -/
def Obligations.ResetKeepsMemoryForm : Prop :=
  State.reset.memInv

/-- Every step keeps the canonical form of memory: keys rise, and nothing is listed that reads as an unlisted byte. -/
def Obligations.StepKeepsMemoryForm : Prop :=
  ∀ s t : State, s.memInv → step s = .next t → t.memInv

/-- Bytes written in a row read back, and every other byte reads as before. -/
def Obligations.WrittenBytesReadBack : Prop :=
  ∀ (m : Memory) (k : Nat) (l : List Byte), m.wf = true →
    (memPutN m k l).wf = true ∧ (∀ i, (h : i < l.length) → memGet (memPutN m k l) (k + i) = l[i]) ∧
      ∀ a, a < k ∨ k + l.length ≤ a → memGet (memPutN m k l) a = memGet m a

/-! ## Registers and guards (R4, R8, R10, R20, R90, R232) -/

/-- s0, p0 and k0 read as 0, 1 and all ones whatever the core holds; an instruction that names one of them as its destination completes like any
other: a scalar result to s0, a load to s0, a predicate to p0, a vector compare to k0; and when its result commits nothing is written. -/
def Obligations.HardwiredRegisters : Prop :=
  (∀ c : Core, c.readS (0 : BitVec 6) = 0 ∧ c.readP 0 = true ∧ c.readK 0 = BitVec.allOnes 256) ∧
  (∀ (s : State) (g : BitVec 4) (a b : BitVec 6), s.on g → s.roomy →
    exec (.add g 0 a b) s = s.becomes (s.inFlight 1 [.setS 0 (s.me.readS a + s.me.readS b)]) ∧
    exec (.plog g 0 0 0 15) s = s.becomes (s.inFlight 1 [.setP 0 true])) ∧
  (∀ (s : State) (g m : BitVec 4) (a b : BitVec 6) (i : BitVec 10) (i16 : BitVec 16) (xw : Option (BitVec 32)), s.on g → s.roomy →
    let ea := s.me.readS a + (match xw with | none => i.signExtend 64 | some e => (e ++ i).signExtend 64)
    (∃ v, exec (.addi g 0 a i xw) s = s.becomes (s.inFlight 1 [.setS 0 v])) ∧ (∃ v, exec (.mul g 0 a b) s = s.becomes (s.inFlight 3 [.setS 0 v])) ∧
    (m.toNat < 4 → ∃ v, exec (.div g 0 a b m) s = s.becomes (s.inFlight 12 [.setS 0 v])) ∧
    (∃ v, exec (.movi g 0 i16 xw) s = s.becomes (s.inFlight 1 [.setS 0 v])) ∧ (∃ v, exec (.rdgt g 0) s = s.becomes (s.inFlight 1 [.setS 0 v])) ∧
    (s.me.check s.cur ea 8 8 true false [.face, .cluster] = none →
      ∃ lat n, exec (.ldd g 0 a i xw) s = s.becomes (s.inFlight lat [.load ea 8 false 0 n])) ∧
    (m.toNat < 6 → ∃ f, exec (.cmp g 0 a b m) s = s.becomes (s.inFlight 1 [.setP 0 f])) ∧
    (∃ f, exec (.bitcTest g 0 a b) s = s.becomes (s.inFlight 1 [.setP 0 f]))) ∧
  (∀ (s : State) (k : BitVec 3) (z n : BitVec 1) (a b : BitVec 7) (b6 : BitVec 6), s.roomy →
    (∃ x y, exec (.vcmpeq k z 0 a b 0) s = s.becomes (s.inFlight 4 [.setK 0 x y])) ∧
    (∃ x y, exec (.vcmplt k z 0 a b 0) s = s.becomes (s.inFlight 4 [.setK 0 x y])) ∧
    (∃ x y, exec (.vicmpeq k z 0 a n b6 0) s = s.becomes (s.inFlight 2 [.setK 0 x y])) ∧
    (∃ x y, exec (.vicmplt k z 0 a n b6 0) s = s.becomes (s.inFlight 2 [.setK 0 x y]))) ∧
  ∀ (m0 : Memory) (b : Core) (n : Nat) (i : Item) (s : State) (v : Word) (f : Bool) (x y : Mask),
    commitAct m0 b n i s (.setS 0 v) = s.setCore n (s.core n) ∧
    commitAct m0 b n i s (.setP 0 f) = s.setCore n (s.core n) ∧
    commitAct m0 b n i s (.setK 0 x y) = s.setCore n (s.core n)

/-- When a scalar or predicate result commits, the register named at issue reads as the value and every other one as before; vector, mask and tile
registers, every other core and every byte of memory are unchanged. The rotating names are distinct entries, and an entry named s[32 + i] is named
s[32 + i + 1] once LROT has been decremented. -/
def Obligations.RegisterResultsCommit : Prop :=
  (∀ (m0 : Memory) (b : Core) (n : Nat) (i : Item) (s : State) (d r : BitVec 6) (v : Word), d ≠ 0 →
    let t := commitAct m0 b n i s (.setS ((s.core n).ctx.physS d.toNat) v)
    (t.core n).readS d = v ∧ (r ≠ d → (t.core n).readS r = (s.core n).readS r) ∧
      (t.core n).v = (s.core n).v ∧ (t.core n).k = (s.core n).k ∧ (t.core n).tiles = (s.core n).tiles ∧
      (t.core n).ctx.p = (s.core n).ctx.p ∧ (t.core n).ctx.vstat = (s.core n).ctx.vstat ∧
      (∀ m, m ≠ n → t.core m = s.core m) ∧ ∀ a, memGet t.mem a = memGet s.mem a) ∧
  (∀ (m0 : Memory) (b : Core) (n : Nat) (i : Item) (s : State) (d r : BitVec 4) (v : Bool), d ≠ 0 →
    let t := commitAct m0 b n i s (.setP d.toNat v)
    (t.core n).readP d = v ∧ (r ≠ d → (t.core n).readP r = (s.core n).readP r) ∧ (t.core n).ctx.s = (s.core n).ctx.s ∧
      (t.core n).v = (s.core n).v ∧ (t.core n).k = (s.core n).k ∧ (∀ m, m ≠ n → t.core m = s.core m) ∧
      ∀ a, memGet t.mem a = memGet s.mem a) ∧
  (∀ (x : Ctx) (r q : Nat), r < 64 → q < 64 →
    (x.physS r = x.physS q → r = q) ∧ (r < 32 → x.physS r = r) ∧
      (32 ≤ r → r < 63 → { x with lrot := x.lrot - 1 }.physS (r + 1) = x.physS r) ∧
      ({ x with lrot := x.lrot - 1 }.physS 32 = x.physS 63))

/-- When a vector result commits under a bit mask, the bits of the mask read as the result and all others of the register as before; every other
vector register, every scalar, other cores and memory are unchanged. Lane by lane: an unmasked lane becomes the value modulo 2^w, a masked lane
becomes 0 under Z = 1 and keeps its value under Z = 0. A tile row lands in its row of its tile under its mask, and every other row stays; flags
join those of VSTAT and clear none. -/
def Obligations.VectorResultCommits : Prop :=
  (∀ (m0 : Memory) (b : Core) (n : Nat) (i : Item) (s : State) (d r : BitVec 7) (v m : Vec),
    let t := commitAct m0 b n i s (.setV ((s.core n).ctx.physV d.toNat) v m)
    (∀ j, j < 2048 → ((t.core n).readV d).getLsbD j = if m.getLsbD j then v.getLsbD j else ((s.core n).readV d).getLsbD j) ∧
      (r ≠ d → (t.core n).readV r = (s.core n).readV r) ∧ (t.core n).ctx = (s.core n).ctx ∧ (t.core n).k = (s.core n).k ∧
      (t.core n).tiles = (s.core n).tiles ∧ (∀ j, j ≠ n → t.core j = s.core j) ∧ ∀ a, memGet t.mem a = memGet s.mem a) ∧
  (∀ (m0 : Memory) (b : Core) (n : Nat) (i : Item) (s : State) (d : BitVec 7) (k : Mask) (z : BitVec 1) (f : Nat → Nat) (w j : Nat),
    w = 8 ∨ w = 16 ∨ w = 32 → j < 2048 / w →
    let t := commitAct m0 b n i s (.setV ((s.core n).ctx.physV d.toNat) (laneResult w k f) (writeMask w k z))
    laneNat ((t.core n).readV d) j w =
      if k.getLsbD j then f j % 2 ^ w else if z = 1 then 0 else laneNat ((s.core n).readV d) j w) ∧
  (∀ (m0 : Memory) (b : Core) (n : Nat) (i : Item) (s : State) (t r : Nat) (v m : Vec) (f : BitVec 7), t < 8 → r < 64 →
    let u := commitAct m0 b n i s (.tileRow t r v m)
    let w := commitAct m0 b n i s (.flags f)
    (∀ j, j < 2048 → ((u.core n).tileRow t r).getLsbD j = if m.getLsbD j then v.getLsbD j else ((s.core n).tileRow t r).getLsbD j) ∧
      (∀ q y, y < 64 → ¬(q = t ∧ y = r) → (u.core n).tileRow q y = (s.core n).tileRow q y) ∧ (u.core n).ctx = (s.core n).ctx ∧
      (u.core n).v = (s.core n).v ∧ (u.core n).k = (s.core n).k ∧ (∀ j, j ≠ n → u.core j = s.core j) ∧ (∀ a, memGet u.mem a = memGet s.mem a) ∧
    w = s.setCore n { s.core n with ctx := { (s.core n).ctx with vstat := (s.core n).ctx.vstat ||| f } })

/-- An instruction of a bundle changes no core but its own when it issues, no byte of memory and no other part of the package, and it writes no
scalar, vector, mask or tile register then, whether it performs or traps: results reach the registers only through the delay lines, at their
latency. -/
def Obligations.IssueChangesOneCore : Prop :=
  (∀ (i : Instr) (s t : State), i.slotted → exec i s = .next t →
    (∀ a, memGet t.mem a = memGet s.mem a) ∧ (∀ m, m ≠ s.cur → t.core m = s.core m) ∧
      (t = s ∨ t = s.setCore s.cur (t.core s.cur))) ∧
  (∀ (i : Instr) (s t : State), i.slotted → exec i s = .next t →
    (t.core s.cur).ctx.s = s.me.ctx.s ∧ (t.core s.cur).v = s.me.v ∧ (t.core s.cur).k = s.me.k ∧ (t.core s.cur).tiles = s.me.tiles)

/-- An instruction whose guard is false performs nothing, while a reserved value is ILLEGAL under a false guard too. With 64 results in flight an
instruction that adds one takes II_VIOLATION at its slot, before any check of its own. Stated over every constructor: Instr.guard names the guard
of each that has one, and Instr.addsOne those that add a result; an MCLDR of a present member is one of them. How many RHLIST, CXTILE and WBRUN
count, that CXTILE checks its map first, and what RHSIG, ASSV and ASMRG, whose results come late, count is the model's choice (log entry 56,
DESIGN CHOICE). -/
def Obligations.GuardsAndRoom : Prop :=
  (∀ (i : Instr) (g : BitVec 4) (s : State), i.guard = some g → s.me.readP g = false →
    (i.wf = false → exec i s = s.becomes (s.illegal s.me)) ∧
    (i.wf = true → (∀ t a n b xw, i = .loop t g a n b xw → s.me.ctx.la = false) → (∀ d r, i = .mts g d r → mtsAccess s.me.mode r.toNat = none) →
      (∀ d r, i = .mfs g d r → mfsCheck s.me.mode r.toNat = none) →
      (∀ c a b t z y, i = .mma g c a b t z y →
        (s.me.held.map fun h => !h.mx.runs.isEmpty).getD false = false ∧ s.me.startAt 0 < mxSteps false) →
      (∀ c a b t z, i = .mma3 g c a b t z →
        (s.me.held.map fun h => !h.mx.runs.isEmpty).getD false = false ∧ s.me.startAt 0 < mxSteps true) →
      exec i s = s.becomes s.me) ∧
    (∀ t a n b xw, i = .loop t g a n b xw → i.wf = true → s.me.ctx.la = true → exec i s = s.becomes (s.illegal s.me)) ∧
    (∀ d r code, i = .mts g d r → mtsAccess s.me.mode r.toNat = some code →
      exec i s = s.becomes (s.fault code (BitVec.ofNat 64 s.slot) 0 s.me)) ∧
    ∀ d r code, i = .mfs g d r → mfsCheck s.me.mode r.toNat = some code → exec i s = s.becomes (s.fault code (BitVec.ofNat 64 s.slot) 0 s.me)) ∧
  (∀ (i : Instr) (s : State), (∀ g, i.guard = some g → s.on g) → i.wf = true →
    let f := s.becomes (s.fault cII (BitVec.ofNat 64 s.slot) 0 s.me)
    (i.addsOne = true → 64 ≤ s.me.ctx.inFlight → (∀ g d r, i = .mfs g d r → mfsCheck s.me.mode r.toNat = none) → exec i s = f) ∧
    (∀ g x y w, i = .straypop g x y w → 64 < s.me.ctx.inFlight + 3 → exec i s = f) ∧
    (∀ r a h, i = .rhlist r a → Map.get? s.me.reheat r.toNat = some h → 64 < s.me.ctx.inFlight + (1 + (rhTILES h.desc + 127) / 128) → exec i s = f) ∧
    (∀ g v a o n d x, i = .mcldr g v a o n → Map.get? s.me.agroups n.toNat = some d → x < grCOUNT d.desc → grNODE d.desc x = s.me.node →
      (∀ y, y < x → grNODE d.desc y ≠ s.me.node) → grABSENT d.desc x = false → 64 ≤ s.me.ctx.inFlight → exec i s = f) ∧
    (∀ g a n, i = .wbrun g a n → 64 < s.me.ctx.inFlight + min 3 (n.toNat - s.me.startAt 6) → exec i s = f) ∧
    ∀ g x w m p, i = .cxtile g x w m → Map.get? s.me.landing ((s.me.readS w).toNat % 16) = some p → p.st ≠ .free →
      (s.me.readS w).toNat / 16 % 4 ≠ (s.me.readS w).toNat / 64 % 4 →
      tileBytes (landWritten (lmFMT p.desc) (s.me.pageFmt (BitVec.ofNat 64 (lmBASE p.desc)))) ≠ 0 →
      64 < s.me.ctx.inFlight + min 2 (64 - s.me.startAt (s.slot - 2)) → exec i s = f)

/-! ## Slot 1: arithmetic, logic, compares, constants (R57, R58, R112 to R114) -/

/-- Each instruction of the two-operand family puts the low 64 bits of its result in flight, from sources read at issue: at c+1, MUL and MULH at
c+3, DIV at c+12. The immediate forms take sext(I10), or the sign-extended 42-bit immediate. Division has no trap and sets no flag: the quotient
truncates towards zero and the remainder takes the sign of the dividend, a divisor of zero gives all ones and the dividend, and −2^63 by −1 gives
−2^63 and 0. M values not listed are ILLEGAL. -/
def Obligations.TwoOperandFamily : Prop :=
  (∀ (s : State) (g m : BitVec 4) (d a b : BitVec 6) (i : BitVec 10) (xw : Option (BitVec 32)), s.on g → s.roomy →
    let x := s.me.readS a
    let y := s.me.readS b
    let z : Word := match xw with | none => i.signExtend 64 | some e => (e ++ i).signExtend 64
    exec (.add g d a b) s = s.givesS 1 d (x + y) ∧ exec (.addi g d a i xw) s = s.givesS 1 d (x + z) ∧
    exec (.sub g d a b) s = s.givesS 1 d (x - y) ∧
    exec (.and g d a b) s = s.givesS 1 d (x &&& y) ∧ exec (.andi g d a i xw) s = s.givesS 1 d (x &&& z) ∧
    exec (.or g d a b) s = s.givesS 1 d (x ||| y) ∧ exec (.ori g d a i xw) s = s.givesS 1 d (x ||| z) ∧
    exec (.xor g d a b) s = s.givesS 1 d (x ^^^ y) ∧ exec (.xori g d a i xw) s = s.givesS 1 d (x ^^^ z) ∧
    exec (.shl g d a b) s = s.givesS 1 d (x <<< y.toNat) ∧ exec (.shli g d a i xw) s = s.givesS 1 d (x <<< z.toNat) ∧
    exec (.shr g d a b) s = s.givesS 1 d (x >>> y.toNat) ∧ exec (.shri g d a i xw) s = s.givesS 1 d (x >>> z.toNat) ∧
    exec (.sar g d a b) s = s.givesS 1 d (x.sshiftRight y.toNat) ∧ exec (.sari g d a i xw) s = s.givesS 1 d (x.sshiftRight z.toNat) ∧
    exec (.minmax g d a b 0) s = s.givesS 1 d (if x.toInt ≤ y.toInt then x else y) ∧
    exec (.minmax g d a b 1) s = s.givesS 1 d (if x.toInt ≤ y.toInt then y else x) ∧
    exec (.minmax g d a b 2) s = s.givesS 1 d (if x.toNat ≤ y.toNat then x else y) ∧
    exec (.minmax g d a b 3) s = s.givesS 1 d (if x.toNat ≤ y.toNat then y else x) ∧
    exec (.lea g d a b m) s = s.givesS 1 d (x + y <<< m.toNat) ∧ exec (.mul g d a b) s = s.givesS 3 d (x * y) ∧
    exec (.mulh g d a b 0) s = s.givesS 3 d ((x.signExtend 128 * y.signExtend 128).extractLsb' 64 64) ∧
    exec (.mulh g d a b 1) s = s.givesS 3 d ((x.setWidth 128 * y.setWidth 128).extractLsb' 64 64) ∧
    exec (.mulh g d a b 2) s = s.givesS 3 d ((x.signExtend 128 * y.setWidth 128).extractLsb' 64 64) ∧
    (y ≠ 0 → exec (.div g d a b 0) s = s.givesS 12 d (x.sdiv y) ∧ exec (.div g d a b 1) s = s.givesS 12 d (x / y) ∧
      exec (.div g d a b 2) s = s.givesS 12 d (x.srem y) ∧ exec (.div g d a b 3) s = s.givesS 12 d (x % y)) ∧
    (y = 0 → exec (.div g d a b 0) s = s.givesS 12 d (BitVec.allOnes 64) ∧ exec (.div g d a b 1) s = s.givesS 12 d (BitVec.allOnes 64) ∧
      exec (.div g d a b 2) s = s.givesS 12 d x ∧ exec (.div g d a b 3) s = s.givesS 12 d x) ∧
    (x = BitVec.intMin 64 → y = BitVec.allOnes 64 →
      exec (.div g d a b 0) s = s.givesS 12 d (BitVec.intMin 64) ∧ exec (.div g d a b 2) s = s.givesS 12 d 0)) ∧
  ∀ (s : State) (g m : BitVec 4) (d a b : BitVec 6),
    let illegal := s.becomes (s.fault cILLEGAL (BitVec.ofNat 64 s.slot) 0 s.me)
    (4 ≤ m.toNat → exec (.minmax g d a b m) s = illegal ∧ exec (.div g d a b m) s = illegal) ∧
      (3 ≤ m.toNat → exec (.mulh g d a b m) s = illegal)

/-- A scalar shift reads all 64 bits of its amount, a vector shift the whole lane or the low w bits of the scalar; a shift immediate is sign-
extended and then read unsigned, so a negative one is at least 2^63; an amount of the width or more gives 0, or copies of the sign bit. -/
def Obligations.ShiftAmounts : Prop :=
  ∀ (s : State) (g : BitVec 4) (d a b : BitVec 6) (i : BitVec 10) (xw : Option (BitVec 32)) (k : BitVec 3) (z n sc : BitVec 1) (vd va : BitVec 7),
    s.on g → s.roomy →
    let x := s.me.readS a
    let y := s.me.readS b
    let j : Word := match xw with | none => i.signExtend 64 | some e => (e ++ i).signExtend 64
    let sign : Word := if x.msb then BitVec.allOnes 64 else 0
    let w := intWidth n
    let amount (l : Nat) : Nat := if sc = 1 then (s.me.readS b).toNat % 2 ^ w else laneNat (s.me.readV b) l w
    let lane (l : Nat) : Nat := laneNat (s.me.readV va) l w
    (64 ≤ y.toNat → exec (.shl g d a b) s = s.givesS 1 d 0 ∧ exec (.shr g d a b) s = s.givesS 1 d 0 ∧ exec (.sar g d a b) s = s.givesS 1 d sign) ∧
    (y.toNat < 64 → exec (.shl g d a b) s = s.givesS 1 d (x <<< y.toNat) ∧ exec (.shr g d a b) s = s.givesS 1 d (x >>> y.toNat) ∧
      exec (.sar g d a b) s = s.givesS 1 d (x.sshiftRight y.toNat)) ∧
    (64 ≤ j.toNat → exec (.shli g d a i xw) s = s.givesS 1 d 0 ∧ exec (.shri g d a i xw) s = s.givesS 1 d 0 ∧
      exec (.sari g d a i xw) s = s.givesS 1 d sign) ∧
    (j.toNat < 64 → exec (.shli g d a i xw) s = s.givesS 1 d (x <<< j.toNat) ∧ exec (.shri g d a i xw) s = s.givesS 1 d (x >>> j.toNat) ∧
      exec (.sari g d a i xw) s = s.givesS 1 d (x.sshiftRight j.toNat)) ∧
    (j.msb = true → 2 ^ 63 ≤ j.toNat) ∧
    exec (.vshl k z vd va n b sc) s = s.givesLanes 2 w vd k z (fun l => if w ≤ amount l then 0 else lane l * 2 ^ amount l) 0 ∧
    exec (.vshr k z vd va n b sc) s = s.givesLanes 2 w vd k z (fun l => if w ≤ amount l then 0 else lane l / 2 ^ amount l) 0 ∧
    ∃ f, exec (.vsar k z vd va n b sc) s = s.givesLanes 2 w vd k z f 0 ∧
      ∀ l, f l % 2 ^ w = if w ≤ amount l then (if signed w (lane l) < 0 then 2 ^ w - 1 else 0) else (signed w (lane l) / 2 ^ amount l % 2 ^ w).toNat

/-- CMP and CMPI write the condition that M or D[5:4] names, PLOG a bit of its truth table, and BITC test a bit of a scalar, 0 from 64 on; SEL
chooses by a predicate; BITC counts; EXT takes the field that s[B] names, signed or not. M values above the listed ones are ILLEGAL. -/
def Obligations.ComparesAndBits : Prop :=
  (∀ (s : State) (g d p q m : BitVec 4) (a b : BitVec 6) (i : BitVec 10) (xw : Option (BitVec 32)), s.on g → s.roomy →
    let x := s.me.readS a
    let y := s.me.readS b
    let z : Word := match xw with | none => i.signExtend 64 | some e => (e ++ i).signExtend 64
    exec (.cmp g d a b 0) s = s.givesP d (decide (x = y)) ∧ exec (.cmp g d a b 1) s = s.givesP d (decide (x ≠ y)) ∧
    exec (.cmp g d a b 2) s = s.givesP d (decide (x.toInt < y.toInt)) ∧ exec (.cmp g d a b 3) s = s.givesP d (decide (y.toInt ≤ x.toInt)) ∧
    exec (.cmp g d a b 4) s = s.givesP d (decide (x.toNat < y.toNat)) ∧ exec (.cmp g d a b 5) s = s.givesP d (decide (y.toNat ≤ x.toNat)) ∧
    exec (.cmpi g 0 d a i xw) s = s.givesP d (decide (x = z)) ∧ exec (.cmpi g 1 d a i xw) s = s.givesP d (decide (x ≠ z)) ∧
    exec (.cmpi g 2 d a i xw) s = s.givesP d (decide (x.toInt < z.toInt)) ∧
    exec (.cmpi g 3 d a i xw) s = s.givesP d (decide (x.toNat < z.toNat)) ∧
    exec (.plog g d p q m) s = s.givesP d (m.getLsbD (2 * (s.me.readP p).toNat + (s.me.readP q).toNat)) ∧
    exec (.bitcTest g d a b) s = s.givesP d (decide (y.toNat < 64) && x.getLsbD y.toNat)) ∧
  (∀ (s : State) (g m : BitVec 4) (d a b : BitVec 6), s.on g → s.roomy →
    let x := s.me.readS a
    let y := s.me.readS b
    exec (.sel g d a b m) s = s.givesS 1 d (if s.me.readP m then x else y) ∧
    (∃ n ≤ 64, exec (.bitc g d a 0) s = s.givesS 1 d (BitVec.ofNat 64 n) ∧ n = ((List.range 64).filter fun i => x.getLsbD i).length) ∧
    (∃ n ≤ 64, exec (.bitc g d a 1) s = s.givesS 1 d (BitVec.ofNat 64 n) ∧
      (∀ i, 64 - n ≤ i → i < 64 → x.getLsbD i = false) ∧ (n < 64 → x.getLsbD (63 - n) = true)) ∧
    (∃ n ≤ 64, exec (.bitc g d a 2) s = s.givesS 1 d (BitVec.ofNat 64 n) ∧
      (∀ i, i < n → x.getLsbD i = false) ∧ (n < 64 → x.getLsbD n = true)) ∧
    ∃ u v : Word, exec (.ext g d a b 0) s = s.givesS 1 d u ∧ exec (.ext g d a b 1) s = s.givesS 1 d v ∧
      let w := min (y.toNat / 256 % 128) 64
      (∀ i, i < w → u.getLsbD i = x.getLsbD (y.toNat % 128 + i) ∧ v.getLsbD i = x.getLsbD (y.toNat % 128 + i)) ∧
      ∀ i, w ≤ i → i < 64 → u.getLsbD i = false ∧ v.getLsbD i = (decide (0 < w) && x.getLsbD (y.toNat % 128 + (w - 1)))) ∧
  ∀ (s : State) (g d m : BitVec 4) (e a b : BitVec 6),
    let illegal := s.becomes (s.fault cILLEGAL (BitVec.ofNat 64 s.slot) 0 s.me)
    (6 ≤ m.toNat → exec (.cmp g d a b m) s = illegal) ∧ (4 ≤ m.toNat → exec (.bitc g e a m) s = illegal)

/-- MOVI and MOVHI build constants in their short and long forms, at c+1, MOVHI from s[D] as read at issue; a long MOVI followed by a short MOVHI
makes any 64-bit constant. -/
def Obligations.Constants : Prop :=
  ∀ (s : State) (g : BitVec 4) (d : BitVec 6) (i : BitVec 16) (e : BitVec 32), s.on g → s.roomy →
    exec (.movi g d i none) s = s.givesS 1 d (i.signExtend 64) ∧
    exec (.movi g d i (some e)) s = s.givesS 1 d ((e ++ i).signExtend 64) ∧
    exec (.movhi g d i none) s = s.givesS 1 d ((i.setWidth 64 <<< 48) ||| (s.me.readS d &&& 0x0000FFFFFFFFFFFF)) ∧
    exec (.movhi g d i (some e)) s = s.givesS 1 d (((e ++ i).setWidth 64 <<< 16) ||| (s.me.readS d &&& 0xFFFF)) ∧
    -- a 64-bit constant from a long MOVI and a later short MOVHI
    ∀ (j : BitVec 16) (n : Nat) (m0 : Memory) (b : Core) (it : Item), d ≠ 0 →
      let t := commitAct m0 b n it s (.setS ((s.core n).ctx.physS d.toNat) ((e ++ i).signExtend 64))
      t.on g → t.roomy → t.cur = n → exec (.movhi g d j none) t = t.givesS 1 d (j ++ e ++ i)

/-! ## Slot 1: memory (R115 to R118) -/

/-- A scalar load, store or atomic whose checks pass joins the delay line, to perform at c+2 on the face and c+10 in cluster SRAM; a load or an
atomic delivers two or four cycles later, sign-extended for LDB, LDH and LDW; stores and atomics take the values read at issue. -/
def Obligations.ScalarAccesses : Prop :=
  (∀ (s : State) (g : BitVec 4) (d a : BitVec 6) (i : BitVec 10) (j : BitVec 6) (xw : Option (BitVec 32)), s.on g → s.roomy →
    let off : Word := match xw with | none => i.signExtend 64 | some e => (e ++ i).signExtend 64
    let off16 : Word := match xw with | none => (j ++ 0#4).signExtend 64 | some e => (e ++ (j ++ 0#4)).signExtend 64
    let loads (ea : Word) (size : Nat) (sg : Bool) : Out :=
      if winOf ea.toNat = some .face then s.becomes (s.inFlight 2 [.load ea size sg (s.me.ctx.physS d.toNat) 2])
      else s.becomes (s.inFlight 10 [.load ea size sg (s.me.ctx.physS d.toNat) 4])
    let ok (ea : Word) (size : Nat) : Prop := s.me.check s.cur ea size size true false [.face, .cluster] = none
    let x := s.me.readS a
    (ok (x + off) 1 → exec (.ldb g d a i xw) s = loads (x + off) 1 true) ∧
    (ok (x + off) 1 → exec (.ldbu g d a i xw) s = loads (x + off) 1 false) ∧
    (ok (x + off16) 2 → exec (.ldh g d a j xw) s = loads (x + off16) 2 true) ∧
    (ok (x + off16) 4 → exec (.ldw g d a j xw) s = loads (x + off16) 4 true) ∧
    (ok (x + off16) 2 → exec (.ldhu g d a j xw) s = loads (x + off16) 2 false) ∧
    (ok (x + off16) 4 → exec (.ldwu g d a j xw) s = loads (x + off16) 4 false) ∧
    (ok (x + off) 8 → exec (.ldd g d a i xw) s = loads (x + off) 8 false)) ∧
  (∀ (s : State) (g : BitVec 4) (d a b : BitVec 6) (i : BitVec 10) (xw : Option (BitVec 32)) (m : BitVec 4), s.on g → s.roomy →
    let off : Word := match xw with | none => i.signExtend 64 | some e => (e ++ i).signExtend 64
    let ea := s.me.readS a + off
    let at_ := s.me.readS a
    let lat (x : Word) : Nat := if winOf x.toNat = some .face then 2 else 10
    let back (x : Word) : Nat := if winOf x.toNat = some .face then 2 else 4
    let stores (size : Nat) : Out := s.becomes (s.inFlight (lat ea) [.store ea size (s.me.readS d)])
    let ok (size : Nat) : Prop := s.me.check s.cur ea size size false true [.face, .cluster] = none
    (ok 1 → exec (.stb g d a i xw) s = stores 1) ∧ (ok 2 → exec (.sth g d a i xw) s = stores 2) ∧
    (ok 4 → exec (.stw g d a i xw) s = stores 4) ∧ (ok 8 → exec (.std g d a i xw) s = stores 8) ∧
    (s.me.check s.cur at_ 8 8 true true [.face, .cluster] = none →
      (m.toNat < 9 → exec (.atom g d a b m) s =
        s.becomes (s.inFlight (lat at_) [.atom at_ (some m.toNat) (s.me.readS b) (s.me.readS d) (s.me.ctx.physS d.toNat) (back at_)])) ∧
      exec (.acas g d a b) s =
        s.becomes (s.inFlight (lat at_) [.atom at_ none (s.me.readS b) (s.me.readS d) (s.me.ctx.physS d.toNat) (back at_)])))

/-- A scalar load, store or atomic of any size that fails a check takes the fault of the first failing one, with FVAL the effective address, and
puts nothing in flight. The checks in their order, for an access within one page: an address in no window or that no entry covers is OUT_OF_TABLE;
one in the device window, or whose entry's frame is not of its window, ADDRESS_CLASS; a misaligned one ALIGN; an absent entry PAGE_ABSENT; and a
missing RD or WR, or a bank that the unit does not own, PERMISSION; with none of them the access goes on. -/
def Obligations.ScalarAccessFaults : Prop :=
  (∀ (s : State) (g m : BitVec 4) (d a b j : BitVec 6) (i : BitVec 10) (xw : Option (BitVec 32)), s.on g → s.roomy →
    let x := s.me.readS a
    let ea : Word := x + (match xw with | none => i.signExtend 64 | some e => (e ++ i).signExtend 64)
    let ea16 : Word := x + (match xw with | none => (j ++ 0#4).signExtend 64 | some e => (e ++ (j ++ 0#4)).signExtend 64)
    let stops (rd wr : Bool) (at_ : Word) (size : Nat) (o : Out) : Prop := ∀ code v,
      s.me.check s.cur at_ size size rd wr [.face, .cluster] = some (code, v) → o = s.becomes (s.fault code at_ 0 s.me)
    stops true false ea 1 (exec (.ldb g d a i xw) s) ∧ stops true false ea 1 (exec (.ldbu g d a i xw) s) ∧
    stops true false ea16 2 (exec (.ldh g d a j xw) s) ∧ stops true false ea16 2 (exec (.ldhu g d a j xw) s) ∧
    stops true false ea16 4 (exec (.ldw g d a j xw) s) ∧ stops true false ea16 4 (exec (.ldwu g d a j xw) s) ∧
    stops true false ea 8 (exec (.ldd g d a i xw) s) ∧
    stops false true ea 1 (exec (.stb g d a i xw) s) ∧ stops false true ea 2 (exec (.sth g d a i xw) s) ∧
    stops false true ea 4 (exec (.stw g d a i xw) s) ∧ stops false true ea 8 (exec (.std g d a i xw) s) ∧
    (m.toNat < 9 → stops true true x 8 (exec (.atom g d a b m) s)) ∧ stops true true x 8 (exec (.acas g d a b) s)) ∧
  -- what the first failing check says of the address (R116)
  ∀ (c : Core) (n : Nat) (x : Word) (z : Nat) (rd wr : Bool), z = 1 ∨ z = 2 ∨ z = 4 ∨ z = 8 →
    let first := c.check n x z z rd wr [.face, .cluster]
    (winOf x.toNat = none → c.lookup x.toNat = none) ∧ (c.lookup x.toNat = none → first = some (cTABLE, x)) ∧
    ∀ (k : Nat) (e : BitVec 128) (w : Win), c.lookup x.toNat = some (k, e) → winOf x.toNat = some w → x.toNat % 0x4000 + z ≤ 0x4000 →
      let denied : Prop := (rd = true ∧ lttRD e = false) ∨ (wr = true ∧ lttWR e = false) ∨
        (w = .face ∧ c.owned.getLsbD (x.toNat / 0x20000) = false)
      (w = .device ∨ frameOk n w e = false → first = some (cCLASS, x)) ∧
      (w ≠ .device → frameOk n w e = true →
        (x.toNat % z ≠ 0 → first = some (cALIGN, x)) ∧
        (x.toNat % z = 0 → lttP e = false → first = some (cPAGE, x)) ∧
        (x.toNat % z = 0 → lttP e = true → (denied → first = some (cPERM, x)) ∧ (¬denied → first = none)))

/-- When a store performs, the write it adds to the writes of the cycle holds the low bytes of the value at the key of its address, and applying
it leaves every other byte of memory and every register as they were. An atomic reads the word that the writes before it left and writes its new
word in the same step; the old word is in flight to its destination, and every other byte is as before. A load delivers the bytes as they stood at
the start of the cycle, sign-extended or zero-extended to 64 bits; an atomic that performs takes its turn among the writes of its cycle. -/
def Obligations.StoresAndAtomicsPerform : Prop :=
  (∀ (m0 : Memory) (b : Core) (n : Nat) (i : Item) (s : State) (ea v : Word) (z : Nat), z = 1 ∨ z = 2 ∨ z = 4 ∨ z = 8 → ea.toNat % z = 0 →
    ∃ w : Wr, commitAct m0 b n i s (.store ea z v) = { s with wq := s.wq ++ [w] } ∧ w.core = n ∧ w.seq = i.seq ∧ w.slot = i.slot ∧
      w.key = (s.core n).keyOf n ea.toNat ∧ w.data = toBytes z v.toNat ∧ w.atom = none ∧
      ∀ t : State, t.mem.wf = true →
        (∀ a, a < w.key ∨ w.key + z ≤ a → memGet (applyWrite t w).mem a = memGet t.mem a) ∧
        (∀ k, k < z → memGet (applyWrite t w).mem (w.key + k) = v.extractLsb' (8 * k) 8) ∧ (applyWrite t w).cores = t.cores) ∧
  (∀ (t : State) (w : Wr) (op : Option Nat) (v cmp : Word) (d lat : Nat), w.atom = some (op, v, cmp, d, lat) → t.mem.wf = true →
    let old : Word := BitVec.ofNat 64 (memNat t.mem w.key 8)
    let new : Word := match op with
      | some 0 => old + v | some 1 => old &&& v | some 2 => old ||| v | some 3 => old ^^^ v
      | some 4 => (if old.toInt ≤ v.toInt then old else v) | some 5 => (if old.toInt ≤ v.toInt then v else old)
      | some 6 => (if old.toNat ≤ v.toNat then old else v) | some 7 => (if old.toNat ≤ v.toNat then v else old)
      | some _ => v
      | none => if old = cmp then v else old
    let u := applyWrite t w
    BitVec.ofNat 64 (memNat u.mem w.key 8) = new ∧ (∀ a, a < w.key ∨ w.key + 8 ≤ a → memGet u.mem a = memGet t.mem a) ∧
      (w.tail = false → (u.core w.core).ctx.items =
        (t.core w.core).ctx.items ++ [⟨(t.core w.core).ctx.clk + lat, w.seq, w.slot, true, false, 0, [.setS d old]⟩]) ∧
      (w.tail = true → (u.core w.core).ctx = (t.core w.core).ctx ∧ ∀ x, (t.core w.core).tail = some x → ∃ y, (u.core w.core).tail = some y ∧
        y.items = x.items ++ [⟨x.clk + lat, w.seq, w.slot, true, false, 0, [.setS d old]⟩])) ∧
  (∀ (m0 : Memory) (b : Core) (n : Nat) (i : Item) (s : State) (ea : Word) (z d lat : Nat) (sg : Bool), z = 1 ∨ z = 2 ∨ z = 4 ∨ z = 8 →
    ea.toNat % 0x4000 + z ≤ 0x4000 →
    let c := s.core n
    let byte (k : Nat) : Byte := memGet m0 (c.keyOf n ea.toNat + k)
    ∃ v : Word, commitAct m0 b n i s (.load ea z sg d lat) = s.setCore n { c with ctx := { c.ctx with items := c.ctx.items ++
        [⟨c.ctx.clk + lat, i.seq, i.slot, true, false, i.uid, [.setS d v]⟩] } } ∧
      (∀ k, k < z → v.extractLsb' (8 * k) 8 = byte k) ∧
      ∀ j, 8 * z ≤ j → j < 64 → v.getLsbD j = (sg && (byte (z - 1)).getLsbD 7)) ∧
  (∀ (m0 : Memory) (b : Core) (n : Nat) (i : Item) (s : State) (ea v cmp : Word) (op : Option Nat) (d lat : Nat),
    ∃ w : Wr, commitAct m0 b n i s (.atom ea op v cmp d lat) = { s with wq := s.wq ++ [w] } ∧ w.core = n ∧ w.seq = i.seq ∧ w.slot = i.slot ∧
      w.key = (s.core n).keyOf n ea.toNat ∧ w.data = [] ∧ w.atom = some (op, v, cmp, d, lat) ∧ w.tail = false)

/-! ## Slot 1: system registers and clocks (R22 to R24, R119) -/

/-- MFS delivers a register at c+1 where the mode may read it; MTS takes effect for bundles issued from c+1 on; RDCYC and RDGT deliver the clocks
as at issue. Every number absent from the table of R23 is ILLEGAL; a register of a higher mode is PRIVILEGE for both; an MTS to a register that no
mode below firmware writes is ILLEGAL, and in firmware mode one to FQLEN or PSTAT; one that runtime mode alone writes is PRIVILEGE in tenant mode;
then non-zero must-be-zero bits of the value are ILLEGAL. -/
def Obligations.SystemRegisterMoves : Prop :=
  (∀ (s : State) (g : BitVec 4) (d : BitVec 6) (r : BitVec 12), s.on g →
    (s.roomy → mfsCheck s.me.mode r.toNat = none → exec (.mfs g d r) s = s.givesS 1 d (s.me.sysRead s r.toNat)) ∧
    (mtsCheck s.me.mode s.me.owners r.toNat (s.me.readS d) = none → exec (.mts g d r) s = s.becomes (s.me.addFin (.mts r.toNat (s.me.readS d)))) ∧
    (s.roomy → exec (.rdcyc g d) s = s.givesS 1 d (BitVec.ofNat 64 s.cyc)) ∧
    (s.roomy → exec (.rdgt g d) s = s.givesS 1 d (BitVec.ofNat 64 s.gt))) ∧
  (∀ (s : State) (g : BitVec 4) (d : BitVec 6) (r : BitVec 12),
    let f (code : Nat) : Out := s.becomes (s.fault code (BitVec.ofNat 64 s.slot) 0 s.me)
    let n := r.toNat
    let v := s.me.readS d
    let within (a b : Nat) : Prop := a ≤ n ∧ n ≤ b
    let listed : Prop := within 0 4 ∨ within 6 0xF ∨ within 0x100 0x106 ∨ within 0x200 0x203 ∨ within 0x300 0x302 ∨ within 0x400 0x401 ∨ n = 0x403 ∨
      within 0x800 0x803 ∨ 0xC00 ≤ n
    let widths : List (Nat × Nat) := [(0x000, 16), (0x001, 42), (0x002, 13), (0x00A, 2), (0x00B, 7), (0x201, 5), (0x202, 32), (0x203, 49),
      (0x300, 16), (0x302, 33), (0x400, 33), (0x401, 4), (0x403, 1), (0x801, 17), (0x802, 52), (0x803, 52)] ++
        (List.range 7).map fun i => (0x100 + i, 32)
    (¬listed → exec (.mfs g d r) s = f cILLEGAL ∧ exec (.mts g d r) s = f cILLEGAL) ∧
    (s.me.mode = 0 → 0x800 ≤ r.toNat → r.toNat ≤ 0x803 → exec (.mfs g d r) s = f cPRIVILEGE ∧ exec (.mts g d r) s = f cPRIVILEGE) ∧
    (s.me.mode.toNat < 2 → 0xC00 ≤ r.toNat → exec (.mfs g d r) s = f cPRIVILEGE ∧ exec (.mts g d r) s = f cPRIVILEGE) ∧
    (s.me.mode.toNat < 2 → within 6 9 ∨ n = 0x00C → exec (.mts g d r) s = f cILLEGAL) ∧
    (s.me.mode = 1 → r = 0x800 → exec (.mts g d r) s = f cILLEGAL) ∧
    (2 ≤ s.me.mode.toNat → n = 0x800 ∨ n = 0xC03 → exec (.mts g d r) s = f cILLEGAL) ∧
    (s.me.mode = 0 → within 0 4 ∨ n = 0x00F ∨ within 0x100 0x106 ∨ within 0x200 0x203 ∨ n = 0x301 → exec (.mts g d r) s = f cPRIVILEGE) ∧
    (s.on g → mtsAccess s.me.mode n = none →
      (∀ x ∈ widths, n = x.1 → 2 ^ x.2 ≤ v.toNat → exec (.mts g d r) s = f cILLEGAL) ∧
      (n = 0x202 → v.extractLsb' 5 3 ≠ 0 ∨ v.extractLsb' 9 7 ≠ 0 → exec (.mts g d r) s = f cILLEGAL) ∧
      (n = 0x203 → v.extractLsb' 17 15 ≠ 0 → exec (.mts g d r) s = f cILLEGAL) ∧
      (n = 0x801 → v.extractLsb' 0 4 ≠ 0 → exec (.mts g d r) s = f cILLEGAL) ∧
      (n = 0x802 ∨ n = 0x803 → v.extractLsb' 0 12 ≠ 0 → exec (.mts g d r) s = f cILLEGAL)))

/-- The effect of an MTS on each register whose write is not a plain store: CSW leaves MODE, TM and SH; the flag registers clear the bits written
as ones; the random-bits registers make the presented positions stale for seven cycles; RHSTAT writes every count; WDOG and GTADJ are handed on to
the launch and the package. While SH = 1, MTS reaches the held copy and leaves the live context as it is, and MFS reads the held copy, but for
MODE, TM and SH of CSW, which are live. An MTS takes effect at the end of its bundle. Firmware alone writes SQDEPTH: that the head entries stay
then, up to the depth written and 128, and that the values of entries added are free, is the model's choice (log entry 57, DESIGN CHOICE). -/
def Obligations.MtsEffects : Prop :=
  (∀ (s : State) (v : Word), s.me.sh = false →
    let c := s.me
    let x := c.ctx
    exec (.mtsCsw v) s = s.becomes { c with ctx := { x with sres := v.extractLsb' 4 3, la := v.getLsbD 7, qreq := v.getLsbD 8, rskew := v.extractLsb' 9 5, wre := v.getLsbD 14, pend := v.getLsbD 15 } } ∧
    exec (.mtsVstat v) s = s.becomes { c with ctx := { x with vstat := x.vstat &&& ~~~(v.extractLsb' 0 7) } } ∧
    exec (.mtsRngpos v) s = s.becomes { c with ctx := { x with rngPos := v, rngOld := x.clk + 8 } } ∧
    exec (.mtsRngkey v) s = s.becomes { c with ctx := { x with rngKey := v, rngOld := x.clk + 8 } } ∧
    exec (.mtsWdog v) s = s.becomes { c with ctx := { x with wdog := v }, emits := c.emits ++ [.wdog v] } ∧
    (∃ n : BitVec 56, exec (.mtsRhstat v) s = s.becomes { c with ctx := { x with rhSteps := n } } ∧
      ∀ i, i < 8 → stepsOf n i = v.extractLsb' (8 * i) 7) ∧
    exec (.mtsAsstat v) s = s.becomes { c with ctx := { x with hovf := x.hovf &&& ~~~(v.extractLsb' 8 4), badimg := x.badimg &&& ~~~(v.extractLsb' 12 4) } } ∧
    exec (.mtsMapstat v) s = s.becomes { c with ctx := { x with mapstat := x.mapstat &&& ~~~(v.extractLsb' 0 33) } } ∧
    exec (.mtsStrayn v) s = s.becomes { c with ctx := { x with strayOvf := x.strayOvf && !(v.getLsbD 3) } } ∧
    exec (.mtsCollide v) s = s.becomes { c with ctx := { x with collide := x.collide && !(v.getLsbD 0) } } ∧
    exec (.mtsGtadj v) s = s.becomes { c with emits := c.emits ++ [.gtAdj v] }) ∧
  ((∀ (c : Core) (r : Nat) (v : Word), c.ctx.ctl.fin = [.mts r v] →
    c.applyFin = ({ c with ctx := { c.ctx with ctl := { c.ctx.ctl with fin := [] } } } : Core).sysWrite r v) ∧
  (∀ (s : State) (v : Word) (h : Ctx), s.me.sh = true → s.me.held = some h →
    let c := s.me
    let holds (x : Ctx) (o : Out) : Prop := o = s.becomes { c with held := some x }
    let put (r : Nat) (x : Ctx) : Prop := c.sysWrite r v = { c with held := some x }
    holds { h with sres := v.extractLsb' 4 3, la := v.getLsbD 7, qreq := v.getLsbD 8, rskew := v.extractLsb' 9 5, wre := v.getLsbD 14, pend := v.getLsbD 15 } (exec (.mtsCsw v) s) ∧
    holds { h with vstat := h.vstat &&& ~~~(v.extractLsb' 0 7) } (exec (.mtsVstat v) s) ∧
    holds { h with rngPos := v } (exec (.mtsRngpos v) s) ∧ holds { h with rngKey := v } (exec (.mtsRngkey v) s) ∧
    exec (.mtsWdog v) s = s.becomes { c with held := some { h with wdog := v }, emits := c.emits ++ [.wdog v] } ∧
    (∃ n : BitVec 56, holds { h with rhSteps := n } (exec (.mtsRhstat v) s) ∧ ∀ i, i < 8 → stepsOf n i = v.extractLsb' (8 * i) 7) ∧
    holds { h with hovf := h.hovf &&& ~~~(v.extractLsb' 8 4), badimg := h.badimg &&& ~~~(v.extractLsb' 12 4) } (exec (.mtsAsstat v) s) ∧
    holds { h with mapstat := h.mapstat &&& ~~~(v.extractLsb' 0 33) } (exec (.mtsMapstat v) s) ∧
    holds { h with strayOvf := h.strayOvf && !(v.getLsbD 3) } (exec (.mtsStrayn v) s) ∧
    holds { h with collide := h.collide && !(v.getLsbD 0) } (exec (.mtsCollide v) s) ∧
    put 0x001 { h with epc := v } ∧ put 0x002 { h with cause := v } ∧ put 0x003 { h with fval := v } ∧ put 0x004 { h with felem := v } ∧
    put 0x00A { h with vrm := v.extractLsb' 0 2 } ∧ put 0x200 { h with lcnt := v } ∧ put 0x201 { h with lrot := v.extractLsb' 0 5 } ∧
    put 0x203 { h with lLen := v.extractLsb' 0 17, lFirst := v.extractLsb' 32 17 } ∧
    put 0x302 { h with trimCnt := v.extractLsb' 0 32, trim := v.getLsbD 32 } ∧ (∀ r, (c.sysWrite r v).ctx = c.ctx) ∧
    (let csw := c.sysRead s 0x000
     csw.extractLsb' 0 2 = c.mode ∧ csw.getLsbD 2 = c.tm ∧ csw.getLsbD 3 = true ∧ csw.extractLsb' 4 3 = h.sres ∧ csw.getLsbD 7 = h.la ∧
      csw.getLsbD 8 = h.qreq ∧ csw.extractLsb' 9 5 = h.rskew ∧ csw.getLsbD 14 = h.wre ∧ csw.getLsbD 15 = h.pend ∧ csw.extractLsb' 16 48 = 0) ∧
    c.sysRead s 0x001 = h.epc ∧ c.sysRead s 0x002 = h.cause ∧ c.sysRead s 0x003 = h.fval ∧ c.sysRead s 0x004 = h.felem ∧
    c.sysRead s 0x00A = h.vrm.setWidth 64 ∧ c.sysRead s 0x00B = h.vstat.setWidth 64 ∧ c.sysRead s 0x00D = h.rngPos ∧
    c.sysRead s 0x00E = h.rngKey ∧ c.sysRead s 0x00F = h.wdog ∧ c.sysRead s 0x200 = h.lcnt ∧ c.sysRead s 0x201 = h.lrot.setWidth 64 ∧
    c.sysRead s 0x400 = h.mapstat.setWidth 64) ∧
  ∀ (c : Core) (v : Word), c.sq.length ≤ 128 → mtsCheck 2 c.owners 0x00C v = none ∧ mtsAccess 1 0x00C = some cILLEGAL ∧
    mtsAccess 0 0x00C = some cILLEGAL ∧
    let d := c.sysWrite 0x00C v
    d.sq.length = min v.toNat 128 ∧ (∀ i, i < v.toNat → i < c.sq.length → d.sq[i]? = c.sq[i]?) ∧ d.ctx = c.ctx ∧ d.held = c.held ∧ d.v = c.v ∧
      d.k = c.k ∧ d.tiles = c.tiles)

/-! ## Slots 2 and 3: lanes (R9, R120 to R134) -/

/-- The floating-point family: each unmasked lane delivers at c+4 the exact value rounded once by VRM (SR rounds by RNE here); the flags of the
unmasked lanes join VSTAT; VABS and VNEG set none. The order of floating-point values: zeros of either sign compare equal, a compare with NaN is
false, and minimum and maximum put −0 below +0 and return the canonical NaN when an operand is NaN. -/
def Obligations.FloatLanes : Prop :=
  (∀ (s : State) (k : BitVec 3) (z sc : BitVec 1) (d a b : BitVec 7), s.roomy → sc = 0 ∨ b.getLsbD 6 = false →
    let m := s.me.readK k
    let r : Rnd := if s.me.ctx.vrm = 1 then .rtz else .rne
    let x (i : Nat) := s.laneA a 32 i
    let y (i : Nat) := s.laneF b sc i
    let e (i : Nat) := s.laneA d 32 i
    let gives (g : Nat → Nat × BitVec 7) : Out := s.givesLanes 4 32 d k z (fun i => (g i).1) (orFlags 64 m fun i => (g i).2)
    exec (.vadd k z d a b sc) s = gives (fun i => fpResult r [fp32 (x i), fp32 (y i)] ((fp32 (x i)).add (fp32 (y i)))) ∧
    exec (.vsub k z d a b sc) s = gives (fun i => fpResult r [fp32 (x i), fp32 (y i)] ((fp32 (x i)).add (fp32 (y i)).negate)) ∧
    exec (.vmul k z d a b sc) s = gives (fun i => fpResult r [fp32 (x i), fp32 (y i)] ((fp32 (x i)).mul (fp32 (y i)))) ∧
    exec (.vfma k z d a b sc) s =
      gives (fun i => fpResult r [fp32 (x i), fp32 (y i), fp32 (e i)] (((fp32 (x i)).mul (fp32 (y i))).add (fp32 (e i)))) ∧
    exec (.vfms k z d a b sc) s =
      gives (fun i => fpResult r [fp32 (x i), fp32 (y i), fp32 (e i)] (((fp32 (x i)).mul (fp32 (y i))).add (fp32 (e i)).negate)) ∧
    exec (.vmin k z d a b sc) s = gives (fun i => (rne32 ((fp32 (x i)).min (fp32 (y i))), 0)) ∧
    exec (.vmax k z d a b sc) s = gives (fun i => (rne32 ((fp32 (x i)).max (fp32 (y i))), 0)) ∧
    exec (.vabs k z d a) s = s.givesLanes 4 32 d k z (fun i => rne32 (Fv.abs (fp32 (x i)))) 0 ∧
    exec (.vneg k z d a) s = s.givesLanes 4 32 d k z (fun i => rne32 (Fv.negate (fp32 (x i)))) 0) ∧
  (∀ a b : Fv,
    (a = .nan ∨ b = .nan → a.eq b = false ∧ a.lt b = false ∧ b.lt a = false ∧ a.min b = .nan ∧ a.max b = .nan) ∧
    (∀ n1 n2 e1 e2, a = .fin n1 0 e1 → b = .fin n2 0 e2 → a.eq b = true ∧ a.lt b = false) ∧
    (∀ e1 e2, a = .fin true 0 e1 → b = .fin false 0 e2 →
      rne32 (a.min b) = 0x80000000 ∧ rne32 (b.min a) = 0x80000000 ∧ rne32 (a.max b) = 0 ∧ rne32 (b.max a) = 0) ∧
    rne32 .nan = 0x7FC00000)

/-- Every vector compare writes mask kD: the bit of an unmasked lane receives the result, that of a masked lane 0 or its old value by Z, and every
bit above the lanes is cleared; no flag is set, and a write to k0 is discarded. When the result commits, kD takes it bit by bit under its mask and
every other mask register stays. VCMP delivers at c+4 by the order of floating-point values, VICMP at c+2 by the signed order. -/
def Obligations.CompareMasks : Prop :=
  (∀ (s : State) (k d : BitVec 3) (z n sc : BitVec 1) (a b : BitVec 7) (bi : BitVec 6), s.roomy →
    let gives (lat lanes : Nat) (o : Out) (p : Nat → Bool) : Prop :=
      ∃ v w : Mask, o = s.becomes (s.inFlight lat [.setK d.toNat v w]) ∧
        ∀ i, i < 256 →
          (i < lanes → v.getLsbD i = ((s.me.readK k).getLsbD i && p i) ∧ w.getLsbD i = ((s.me.readK k).getLsbD i || z == 1)) ∧
          (lanes ≤ i → v.getLsbD i = false ∧ w.getLsbD i = true)
    let x (i : Nat) := fp32 (s.laneA a 32 i)
    let y (i : Nat) := fp32 (s.laneF b sc i)
    let u (i : Nat) := signed (intWidth n) (s.laneA a (intWidth n) i)
    let v (i : Nat) := signed (intWidth n) (s.laneI n bi sc i)
    (sc = 0 ∨ b.getLsbD 6 = false →
      gives 4 64 (exec (.vcmpeq k z d a b sc) s) (fun i => (x i).eq (y i)) ∧ gives 4 64 (exec (.vcmplt k z d a b sc) s) (fun i => (x i).lt (y i)) ∧
      gives 4 64 (exec (.vcmple k z d a b sc) s) (fun i => (x i).lt (y i) || (x i).eq (y i)) ∧
      gives 4 64 (exec (.vcmpne k z d a b sc) s) (fun i => !((x i).eq (y i)))) ∧
    gives 2 (2048 / intWidth n) (exec (.vicmpeq k z d a n bi sc) s) (fun i => decide (u i = v i)) ∧
    gives 2 (2048 / intWidth n) (exec (.vicmplt k z d a n bi sc) s) (fun i => decide (u i < v i))) ∧
  ∀ (m0 : Memory) (b : Core) (n : Nat) (i : Item) (s : State) (x y : Mask),
    commitAct m0 b n i s (.setK 0 x y) = s.setCore n (s.core n) ∧
    ∀ d r : BitVec 3, d ≠ 0 →
      let u := commitAct m0 b n i s (.setK d.toNat x y)
      (∀ j, j < 256 → ((u.core n).readK d).getLsbD j = if y.getLsbD j then x.getLsbD j else ((s.core n).readK d).getLsbD j) ∧
        (r ≠ d → (u.core n).readK r = (s.core n).readK r) ∧ (u.core n).v = (s.core n).v ∧ (u.core n).ctx = (s.core n).ctx ∧
        (u.core n).tiles = (s.core n).tiles ∧ (∀ j, j ≠ n → u.core j = s.core j) ∧ ∀ a, memGet u.mem a = memGet s.mem a

/-- The integer family over 64 lanes of 32 bits or 256 of 8, modulo 2^w, at c+2; a shift by w or more gives 0, or copies of the sign; VIADDS
saturates, and it alone sets a flag. -/
def Obligations.IntegerLanes : Prop :=
  ∀ (s : State) (k : BitVec 3) (z n sc : BitVec 1) (d a : BitVec 7) (b : BitVec 6), s.roomy →
    let w := intWidth n
    let x (i : Nat) := s.laneA a w i
    let y (i : Nat) := s.laneI n b sc i
    let gives (f : Nat → Nat) : Out := s.givesLanes 2 w d k z f 0
    let bits (f : BitVec w → BitVec w → BitVec w) (i : Nat) : Nat := (f (BitVec.ofNat w (x i)) (BitVec.ofNat w (y i))).toNat
    exec (.viadd k z d a n b sc) s = gives (fun i => x i + y i) ∧ exec (.visub k z d a n b sc) s = gives (fun i => x i + 2 ^ w - y i) ∧
    exec (.vimul k z d a n b sc) s = gives (fun i => x i * y i) ∧ exec (.vand k z d a n b sc) s = gives (bits (· &&& ·)) ∧
    exec (.vor k z d a n b sc) s = gives (bits (· ||| ·)) ∧
    (∃ f, exec (.vxor k z d a n b sc) s = gives f ∧ ∀ i, f i % 2 ^ w = bits (· ^^^ ·) i) ∧
    exec (.vshl k z d a n b sc) s = gives (fun i => if w ≤ y i then 0 else x i * 2 ^ y i) ∧
    exec (.vshr k z d a n b sc) s = gives (fun i => if w ≤ y i then 0 else x i / 2 ^ y i) ∧
    (∃ f, exec (.vsar k z d a n b sc) s = gives f ∧
      ∀ i, f i % 2 ^ w = if w ≤ y i then (if signed w (x i) < 0 then 2 ^ w - 1 else 0) else (signed w (x i) / 2 ^ y i % 2 ^ w).toNat) ∧
    exec (.vimin k z d a n b sc) s = gives (fun i => if signed w (y i) < signed w (x i) then y i else x i) ∧
    exec (.vimax k z d a n b sc) s = gives (fun i => if signed w (x i) < signed w (y i) then y i else x i) ∧
    (let sum (i : Nat) := signed w (x i) + signed w (y i)
     let sat (i : Nat) : Int := max (-(2 ^ (w - 1) : Int)) (min (sum i) (2 ^ (w - 1) - 1))
     exec (.viadds k z d a n b sc) s = s.givesLanes 2 w d k z (fun i => (sat i % 2 ^ w).toNat)
      (orFlags (2048 / w) (s.me.readK k) fun i => if sat i ≠ sum i then flSAT else 0))

/-- Moves of lanes at c+2: VSEL chooses by the mask and masks nothing, VPERM takes the named lane or 0, VROT moves lanes towards lane 0, VMOV
copies, VBCAST repeats a scalar or the extension word. TWROW writes a row of a tile at c+3 under its mask; TRDCOL delivers at c+3 a column as it
stood at issue, each cell of a tile that a load is writing being its old or its new value; which one, and that a row which the load has not
reached keeps its old value, is the model's (log entry 7, DESIGN CHOICE). -/
def Obligations.LaneMoves : Prop :=
  (∀ (s : State) (k : BitVec 3) (z n sc : BitVec 1) (d a : BitVec 7) (b : BitVec 6) (w2 : BitVec 2) (e : BitVec 32), s.roomy →
    let w := intWidth n
    let y (i : Nat) := s.laneI n b sc i
    let wm := w2Width w2
    exec (.vsel k 0 d a n b sc) s = s.givesV 2 d
      (laneResult w (BitVec.allOnes 256) fun i => if (s.me.readK k).getLsbD i then s.laneA a w i else y i) (writeMask w (BitVec.allOnes 256) 0) 0 ∧
    exec (.vperm k z d a n b sc) s = s.givesLanes 2 w d k z (fun i => if y i < 2048 / w then s.laneA a w (y i) else 0) 0 ∧
    exec (.vrot k z d a n b 0) s = s.givesLanes 2 w d k z (fun i => s.laneA a w ((i + b.toNat) % (2048 / w))) 0 ∧
    exec (.vrot k z d a n b 1) s = s.givesLanes 2 w d k z (fun i => s.laneA a w ((i + (s.me.readS b).toNat) % (2048 / w))) 0 ∧
    (w2 ≠ 3 → exec (.vmov k z d a w2) s = s.givesLanes 2 wm d k z (fun i => s.laneA a wm i) 0 ∧
      exec (.vbcast k z d w2 b) s = s.givesLanes 2 wm d k z (fun _ => (s.me.readS b).toNat) 0 ∧
      exec (.vbcastExt k z d w2 e) s = s.givesLanes 2 wm d k z (fun _ => e.toNat) 0)) ∧
  (∀ (s : State) (k t : BitVec 3) (z sc : BitVec 1) (d a : BitVec 7) (b : BitVec 6), s.roomy →
    let q := if sc = 1 then (s.me.readS b).toNat % 64 else b.toNat
    let m := s.me.readK k
    exec (.twrow k z t a b sc) s =
      s.becomes (s.inFlight 3 [.tileRow t.toNat q (laneResult 32 m fun i => s.laneA a 32 i) (writeMask 32 m z)]) ∧
    ∃ f, exec (.trdcol k z d t b sc) s = s.givesLanes 3 32 d k z f 0 ∧
      ∀ i, i < 64 →
        (s.me.tileBefore t.toNat = none → f i = laneNat (s.me.tileRow t.toNat i) q 32) ∧
        ∀ r old, s.me.tileBefore t.toNat = some (r, old) →
          f i = laneNat (s.me.tileRow t.toNat i) q 32 ∨ (i < r ∧ f i = laneNat (old.getD i 0) q 32))

/-- VCVT converts the part that P names at c+4, rounding by VRM; under SR it takes one random position for each 64 lanes. VQNT delivers eight FP4
blocks and their scales in lanes 0 to 10, with zeros in every bit beyond, under no mask, and the flags of its blocks join VSTAT: a block with a
NaN is 0 with scale 0x3FF and NV, one with every lane masked 0 with scale 1. VRNG delivers one random position under its mask, taking it whatever
the mask holds. -/
def Obligations.ConversionsAndRandomBits : Prop :=
  ∀ (s : State) (k : BitVec 3) (z : BitVec 1) (d a : BitVec 7) (t f : BitVec 3) (p : BitVec 2), s.roomy →
    let c := s.me
    let m := c.readK k
    let ws := cvtWidth f
    let wd := cvtWidth t
    let n := 2048 / max ws wd
    let sr := c.ctx.vrm == 2
    let rnd (i : Nat) : Rnd := if sr then .sr (laneNat (c.rngAt (i / 64)) (i % 64) 32) else if c.ctx.vrm = 1 then .rtz else .rne
    let g (i : Nat) := convert (rnd i) f.toNat t.toNat (s.laneA a ws (if wd ≤ ws then i else p.toNat * n + i))
    let place (x : Nat) : Vec := BitVec.ofNat 2048 (x <<< ((if wd ≤ ws then p.toNat * n else 0) * wd))
    let taken : Core := if sr then c.rngTake ((n + 63) / 64) else c
    (t ≠ f → p.toNat < cvtRatio t f →
      exec (.vcvt k z d a t f p) s = s.becomes (taken.addItem s.slot 4 true false
        [.setV (c.ctx.physV d.toNat) (place (packNat wd n fun i => if m.getLsbD i then (g i).1 else 0))
          (place (packNat wd n fun i => if m.getLsbD i || z == 1 then 2 ^ wd - 1 else 0)), .flags (orFlags n m fun i => (g i).2)])) ∧
    (∃ v fl, exec (.vqnt k d a) s = s.givesV 4 d v (BitVec.allOnes 2048) fl ∧
      ∀ b, b < 8 →
        let blk := quantBlock (fun j => s.laneA a 32 (8 * b + j)) (fun j => m.getLsbD (8 * b + j))
        laneNat v b 32 = blk.1 % 2 ^ 32 ∧ laneNat v (8 + b / 3) 32 / 2 ^ (10 * (b % 3)) % 2 ^ 10 = blk.2.1) ∧
    (∃ v fl, exec (.vqnt k d a) s = s.givesV 4 d v (BitVec.allOnes 2048) fl ∧
      (∀ i, 11 ≤ i → i < 64 → laneNat v i 32 = 0) ∧ laneNat v 8 32 < 2 ^ 30 ∧ laneNat v 9 32 < 2 ^ 30 ∧ laneNat v 10 32 < 2 ^ 20 ∧
      ∀ j, fl.getLsbD j = true ↔ ∃ b, b < 8 ∧
        (quantBlock (fun j => s.laneA a 32 (8 * b + j)) (fun j => m.getLsbD (8 * b + j))).2.2.getLsbD j = true) ∧
    (∀ (x : Nat → Nat) (use : Nat → Bool),
      ((∃ j, j < 8 ∧ use j = true ∧ fp32 (x j) = .nan) → quantBlock x use = (0, 0x3FF, flNV)) ∧
      ((∀ j, j < 8 → use j = false) → quantBlock x use = (0, 1, 0))) ∧
    exec (.vrng k z d) s = s.becomes ((c.rngTake 1).addItem s.slot 2 true false
      [.setV (c.ctx.physV d.toNat) (laneResult 32 m fun i => laneNat (c.rngAt 0) i 32) (writeMask 32 m z), .flags 0])

/-- VRSUM adds the unmasked lanes by the pairwise tree and VRMAX takes the greatest, −∞ with every lane masked; the result goes at c+6 to a vector
or to a scalar. The special functions deliver at c+8 and do not read VRM; where the spec gives a bound alone their value is free (log entry 8),
and at the arguments for which R139 states a value they give it. -/
def Obligations.ReductionsAndFunctions : Prop :=
  (∀ (s : State) (k : BitVec 3) (d a : BitVec 7) (x : BitVec 1) (f : BitVec 2), s.roomy → f ≠ 3 → x = 0 ∨ d.getLsbD 6 = false →
    let l := (reduceLanes f (s.me.readV a)).zipIdx
    let m := s.me.readK k
    let gives (r : Nat) : Out := s.becomes (s.inFlight 6
      [if x = 1 then .setS (s.me.ctx.physS (d.extractLsb' 0 6).toNat) (BitVec.ofNat 64 r)
       else .setV (s.me.ctx.physV d.toNat) (BitVec.ofNat 2048 r) (BitVec.allOnes 2048)])
    exec (.vrsum k d a x f) s = gives (treeSum (l.map fun y => if m.getLsbD y.2 then y.1 else 0x80000000)) ∧
    exec (.vrmax k d a x f) s = gives (l.foldl (fun r y => if m.getLsbD y.2 then max32 r y.1 else r) 0xFF800000) ∧
    (m = 0 → exec (.vrmax k d a x f) s = gives 0xFF800000)) ∧
  (∀ (s : State) (k : BitVec 3) (z : BitVec 1) (d a : BitVec 7), s.roomy →
    let gives (g : Nat → Nat × BitVec 7) : Out :=
      s.givesLanes 8 32 d k z (fun i => (g (s.laneA a 32 i)).1) (orFlags 64 (s.me.readK k) fun i => (g (s.laneA a 32 i)).2)
    exec (.vrcp k z d a) s = gives sfRcp ∧ exec (.vrsq k z d a) s = gives sfRsq ∧ exec (.vexp2 k z d a) s = gives sfExp2 ∧
    exec (.vlog2 k z d a) s = gives sfLog2 ∧ exec (.vsin k z d a) s = gives (sfTrig 0x30 false) ∧
    exec (.vcos k z d a) s = gives (sfTrig 0x31 true) ∧ exec (.vtanh k z d a) s = gives sfTanh) ∧
  ((∀ x : Nat, fp32 x = .nan → ∀ f ∈ [sfRcp, sfRsq, sfExp2, sfLog2, sfTrig 0x30 false, sfTrig 0x31 true, sfTanh], f x = (0x7FC00000, 0)) ∧
  -- +0, −0, +∞ and −∞
  ([0, 0x80000000, 0x7F800000, 0xFF800000].map sfRcp = [(0x7F800000, flDZ), (0xFF800000, flDZ), (0, 0), (0x80000000, 0)] ∧
    [0, 0x80000000, 0x7F800000, 0xFF800000].map sfRsq = [(0x7F800000, flDZ), (0xFF800000, flDZ), (0, 0), (0x7FC00000, flNV)] ∧
    [0, 0x80000000, 0x7F800000, 0xFF800000].map sfExp2 = [(0x3F800000, 0), (0x3F800000, 0), (0x7F800000, 0), (0, 0)] ∧
    [0, 0x80000000, 0x7F800000, 0xFF800000].map sfLog2 = [(0xFF800000, flDZ), (0xFF800000, flDZ), (0x7F800000, 0), (0x7FC00000, flNV)] ∧
    [0, 0x80000000, 0x7F800000, 0xFF800000].map (sfTrig 0x30 false) = [(0, 0), (0x80000000, 0), (0x7FC00000, flNV), (0x7FC00000, flNV)] ∧
    [0, 0x80000000, 0x7F800000, 0xFF800000].map (sfTrig 0x31 true) = [(0x3F800000, 0), (0x3F800000, 0), (0x7FC00000, flNV), (0x7FC00000, flNV)] ∧
    [0, 0x80000000, 0x7F800000, 0xFF800000].map sfTanh = [(0, 0), (0x80000000, 0), (0x3F800000, 0), (0xBF800000, 0)]) ∧
  -- exact cases: e is the exponent field of a power of two
  (∀ e : Nat, 1 ≤ e → e ≤ 254 →
    (e ≤ 253 → sfRcp (e * 2 ^ 23) = ((254 - e) * 2 ^ 23, 0) ∧ sfRcp (2 ^ 31 + e * 2 ^ 23) = (2 ^ 31 + (254 - e) * 2 ^ 23, 0)) ∧
    (e % 2 = 1 → sfRsq (e * 2 ^ 23) = ((381 - e) / 2 * 2 ^ 23, 0)) ∧
    sfLog2 (e * 2 ^ 23) = (rne32 (.fin (decide (e < 127)) ((e : Int) - 127).natAbs 0), 0) ∧
    ∀ n : Bool, ∀ i : Nat, e = (if n then 127 - i else 127 + i) → i < 127 → sfExp2 (rne32 (.fin n i 0)) = (e * 2 ^ 23, 0)) ∧
  (∀ (n : Bool) (i : Nat), 0 < i → i < 2 ^ 24 →
    sfTrig 0x30 false (rne32 (.fin n i 0)) = ((if n then 0x80000000 else 0), 0) ∧
    sfTrig 0x31 true (rne32 (.fin n i 0)) = ((if i % 2 = 0 then 0x3F800000 else 0xBF800000), 0)) ∧
  (∀ (n : Bool) (i : Nat), i < 2 ^ 22 →
    sfTrig 0x30 false (rne32 (.fin n (2 * i + 1) (-1))) = ((if (i % 2 == 0) != n then 0x3F800000 else 0xBF800000), 0) ∧
    sfTrig 0x31 true (rne32 (.fin n (2 * i + 1) (-1))) = (0, 0)) ∧
  -- beyond the ranges
  ∀ x : Nat,
    (0x80000000 < x → x ≤ 0xFF800000 → sfRsq x = (0x7FC00000, flNV) ∧ sfLog2 x = (0x7FC00000, flNV)) ∧
    (0x43000000 ≤ x → x < 0x7F800000 → sfExp2 x = (0x7F800000, flOF ||| flNX)) ∧
    (0xC3160000 < x → x < 0xFF800000 → sfExp2 x = (0, flUF ||| flNX)) ∧
    (0 < x → x < 0x200000 → sfRcp x = (0x7F800000, flOF ||| flNX) ∧ sfRcp (2 ^ 31 + x) = (0xFF800000, flOF ||| flNX)) ∧
    (0x4111999A ≤ x → x < 0x7F800000 → sfTanh x = (0x3F800000, flNX) ∧ sfTanh (2 ^ 31 + x) = (0xBF800000, flNX)))

/-! ## Slots 2 and 3: memory (R135, R136) -/

/-- VLD and VST whose checks pass access 256 bytes of the face at c+3; a load delivers its unmasked lanes, and zeros elsewhere under Z = 1; a
store writes the bytes of its unmasked lanes. VGATHER and VSCATTER begin a macro-instruction of 64 elements and hold the next one of their slot
off for 16 cycles; within them II_VIOLATION is taken, and a base in no window is OUT_OF_TABLE. A load that performs delivers the 256 bytes as they
stood at the start of the cycle; a store writes the bytes of its unmasked lanes alone; four elements of a gather or scatter perform in a cycle,
each lane at its own address. -/
def Obligations.VectorMemory : Prop :=
  (∀ (s : State) (k : BitVec 3) (z : BitVec 1) (d : BitVec 7) (w : BitVec 2) (b : BitVec 6) (xw : Option (BitVec 32)), s.roomy → w ≠ 3 →
    let ea := s.me.readS b + (match xw with | none => 0 | some e => e.signExtend 64)
    let m := laneMask (w2Width w) (2048 / w2Width w) fun i => (s.me.readK k).getLsbD i
    (s.me.check s.cur ea 256 256 true false [.face] = none →
      exec (.vld k z d w b xw) s = s.becomes (s.inFlight 3 [.vload ea (s.me.ctx.physV d.toNat) m (if z = 1 then ~~~m else 0)])) ∧
    (s.me.check s.cur ea 256 256 false true [.face] = none →
      ∃ bytes : Mask, exec (.vst k d w b xw) s = s.becomes (s.inFlight 3 [.vstore ea (s.me.readV d) bytes]) ∧
        ∀ i, i < 256 → bytes.getLsbD i = (s.me.readK k).getLsbD (8 * i / w2Width w)) ∧
    (∀ code v, s.me.check s.cur ea 256 256 true false [.face] = some (code, v) →
      exec (.vld k z d w b xw) s = s.becomes (s.fault code ea 0 s.me))) ∧
  (∀ (s : State) (k : BitVec 3) (z : BitVec 1) (d a : BitVec 7) (b : BitVec 6), s.roomy →
    let base := s.me.readS b
    let c := s.me.gatherIssued s.slot
    let n := s.me.startAt (if s.slot = 2 then 1 else 2)
    let m := (s.me.readK k).extractLsb' 0 64
    (s.me.ctx.gatherFree s.slot ≤ s.me.ctx.clk →
      (∀ cl : Bool, winOf base.toNat = some (if cl then .cluster else .face) →
        exec (.vgather k z d a b) s =
          s.becomes (c.addMacro s.slot n 64 (.gather base (s.me.readV a) m (z == 1) (s.me.ctx.physV d.toNat) cl 0 0)) ∧
        exec (.vscatter k d a b) s = s.becomes (c.addMacro s.slot n 64 (.scatter base (s.me.readV a) (s.me.readV d) m cl))) ∧
      (winOf base.toNat = none → exec (.vgather k z d a b) s = s.becomes (s.fault cTABLE base 0 s.me))) ∧
    (s.me.ctx.clk < s.me.ctx.gatherFree s.slot →
      exec (.vgather k z d a b) s = s.becomes (s.fault cII (BitVec.ofNat 64 s.slot) 0 s.me) ∧
      exec (.vscatter k d a b) s = s.becomes (s.fault cII (BitVec.ofNat 64 s.slot) 0 s.me))) ∧
  ((∀ (m0 : Memory) (b : Core) (n : Nat) (i : Item) (s : State) (ea : Word) (d : Nat) (m z : Vec),
    let c := s.core n
    ∃ v : Vec, commitAct m0 b n i s (.vload ea d m z) = s.setCore n { c with ctx := { c.ctx with items := c.ctx.items ++
        [⟨c.ctx.clk + 2, i.seq, i.slot, true, false, i.uid, [.setV d (v &&& m) (m ||| z)]⟩] } } ∧
      ∀ k, k < 256 → v.extractLsb' (8 * k) 8 = memGet m0 (c.keyOf n (ea.toNat + k))) ∧
  (∀ (m0 : Memory) (b : Core) (n : Nat) (i : Item) (s : State) (ea : Word) (v : Vec) (bytes : Mask),
    let key := (s.core n).keyOf n ea.toNat
    ∃ ws : List Wr, commitAct m0 b n i s (.vstore ea v bytes) = { s with wq := s.wq ++ ws } ∧
      (∀ w ∈ ws, w.core = n ∧ w.seq = i.seq ∧ w.slot = i.slot ∧ w.atom = none ∧ ∀ j y, w.data[j]? = some y →
        ∃ k, k < 256 ∧ bytes.getLsbD k = true ∧ w.key + j = key + k ∧ y = v.extractLsb' (8 * k) 8) ∧
      ∀ k, k < 256 → bytes.getLsbD k = true → ∃ w ∈ ws, ∃ j, w.key + j = key + k ∧ w.data[j]? = some (v.extractLsb' (8 * k) 8)) ∧
  (∀ (m0 : Memory) (n : Nat) (s : State) (m : Macro) (base : Word) (offs acc : Vec) (mask got : BitVec 64) (zero cl : Bool) (d : Nat),
    m.work = .gather base offs mask zero d cl acc got → m.total = 64 → m.next < 64 →
    let c := s.core n
    let last := 4 * (m.next / 4) + 4
    let at_ (i : Nat) : Word := base + BitVec.ofNat 64 (laneNat offs i 32)
    (c.ctx.clk < m.start + ((if cl then 10 else 2) + m.next / 4) → macroStep m0 n s m = (s, m, none)) ∧
    (m.start + ((if cl then 10 else 2) + m.next / 4) ≤ c.ctx.clk →
      ((∀ i, m.next ≤ i → i < last → mask.getLsbD i = true → elemFault s n m base offs cl true i = none) →
        (∀ i, m.next ≤ i → i < 64 → laneNat acc i 32 = 0) → ∃ u acc' got',
          macroStep m0 n s m = (u, { m with next := last, work := .gather base offs mask zero d cl acc' got' }, none) ∧
          (∀ i, i < 64 → got'.getLsbD i = (got.getLsbD i || (decide (m.next ≤ i ∧ i < last) && (mask.getLsbD i || zero)))) ∧
          (∀ i, i < 64 → laneNat acc' i 32 =
            if m.next ≤ i ∧ i < last then (if mask.getLsbD i then c.loadNat m0 n (at_ i) 4 else 0) else laneNat acc i 32) ∧
          (last < 64 → u = s) ∧
          (last = 64 → u = s.setCore n { c with ctx := { c.ctx with items := c.ctx.items ++
            [⟨max (c.ctx.clk + 1) (m.start + (if cl then 30 else 20)), m.seq, m.slot, true, false, m.uid,
              [.setV d acc' (laneMask 32 64 fun i => got'.getLsbD i)]⟩] } })) ∧
      ∀ i t, m.next ≤ i → i < last → mask.getLsbD i = true → elemFault s n m base offs cl true i = some t →
        (∀ j, m.next ≤ j → j < i → mask.getLsbD j = true → elemFault s n m base offs cl true j = none) →
        ∃ w, macroStep m0 n s m = (s, { m with next := i, work := w }, some t))) ∧
  (∀ (m0 : Memory) (n : Nat) (s : State) (m : Macro) (base : Word) (offs data : Vec) (mask : BitVec 64) (cl : Bool),
    m.work = .scatter base offs data mask cl → m.total = 64 → m.next < 64 → m.start + ((if cl then 10 else 2) + m.next / 4) ≤ (s.core n).ctx.clk →
    let last := 4 * (m.next / 4) + 4
    let writes (hi : Nat) : List Wr := (((List.range (hi - m.next)).map fun j => m.next + j).filter fun i => mask.getLsbD i).map fun i =>
      ⟨n, m.seq, m.slot, (s.core n).keyOf n (base + BitVec.ofNat 64 (laneNat offs i 32)).toNat, toBytes 4 (laneNat data i 32), none, cl, false⟩
    ((∀ i, m.next ≤ i → i < last → mask.getLsbD i = true → elemFault s n m base offs cl false i = none) →
      macroStep m0 n s m = ({ s with wq := s.wq ++ writes last }, { m with next := last }, none)) ∧
    ∀ i t, m.next ≤ i → i < last → mask.getLsbD i = true → elemFault s n m base offs cl false i = some t →
      (∀ j, m.next ≤ j → j < i → mask.getLsbD j = true → elemFault s n m base offs cl false j = none) →
      macroStep m0 n s m = ({ s with wq := s.wq ++ writes i }, { m with next := i }, some t)) ∧
  ∀ (s : State) (n : Nat) (m : Macro) (base : Word) (offs : Vec) (cl rd : Bool) (i : Nat) (code : Nat) (v : Word),
    let ea := base + BitVec.ofNat 64 (laneNat offs i 32)
    (s.core n).check n ea 4 4 rd (!rd) [if cl then .cluster else .face] = some (code, v) →
    elemFault s n m base offs cl rd i = some ⟨code, m.slot, true, ea, BitVec.ofNat 64 i⟩)

/-! ## Assay and reheat (R143 to R168) -/

/-- An assay instruction of the seven that keep the unit busy, issued outside a busy period on a context of the kind it needs, begins its work and
its busy period: 4 cycles for configuring and updates, 20 for ASSV, 40 for ASMRG. A QSK update whose coin is the random-bits queue takes one
position. Queries read the context as left by every earlier update and deliver at c+20, and keep no busy period. What the assay work leaves.
Sixteen lanes of an update fall due in each cycle; they change their context alone, and a count that saturates sets its HOVF. A lane of ASQU: a
NaN counts in NANS and is not stored, any other counts in N and joins level 0; a level that reaches 64 entries is sorted, and 32 entries of it,
every second from a coin, join the level above; no level holds 64 afterwards. A lane of ASHH raises the counter that holds its key, or takes the
lowest invalid counter, or of 64 valid ones the least. A lane of ASDC raises the register that its hash names to the rank of its zeros. ASMRG
leaves an EMPTY context as its image, another one merged, and refuses a bad image with BADIMG. NANS, and N of the HHL kind, stay at 2^64 − 1, and
N of the DCR kind wraps in a merge, by the model's choice (log entry 77, DESIGN CHOICE). -/
def Obligations.AssayInstructions : Prop :=
  (∀ (s : State) (k : BitVec 3) (c : BitVec 2) (a b7 : BitVec 7) (b : BitVec 6) (w sc f : BitVec 1) (o kind : BitVec 2), s.roomy →
    s.me.ctx.asBusy ≤ s.me.ctx.clk → kind ≠ 0 → o ≠ 3 → kind = 1 ∨ o = 0 → sc = 0 ∨ b7.getLsbD 6 = false →
    let x := s.me
    let view := x.assayView c.toNat
    let n := x.startAt 5
    let m := (x.readK k).extractLsb' 0 64
    let busy (t : Nat) (y : Core) : Out := s.becomes { y with ctx := { y.ctx with asBusy := y.ctx.clk + t } }
    let (r, y) : Vec × Core := if view.coin = 1 then (x.rngAt 0, x.rngTake 1) else (0, x)
    exec (.ascfg o kind c b) s =
      busy 4 (x.addMacro s.slot 0 1 (.assay c.toNat (.cfg kind.toNat o.toNat (if x.readS b = 0 then 1 else x.readS b)) 0)) ∧
    exec (.asclr f c) s = busy 4 (x.addMacro s.slot 0 1 (.assay c.toNat (if f = 1 then .free else .clr) 0)) ∧
    (view.kind = 1 → exec (.asqu k c a) s = busy 4 (y.addMacro s.slot n 64 (.assay c.toNat (.qu (x.readV a) m r) 0))) ∧
    (view.kind = 2 → exec (.ashh k c a b7 sc) s =
      busy 4 (x.addMacro s.slot n 64 (.assay c.toNat (.hh (x.readV a) (ofLanes 32 64 fun i => s.laneF b7 sc i) m) 0))) ∧
    (view.kind = 3 → exec (.asdc k c a w) s = busy 4 (x.addMacro s.slot n 64 (.assay c.toNat (.dc (x.readV a) m (w == 1)) 0))) ∧
    (x.check s.cur (x.readS b) 4224 128 true false [.face] = none →
      exec (.asmrg c b) s = busy 40 (y.addMacro s.slot n 17 (.asmrg c.toNat (x.readS b) (List.replicate 4224 0) r))) ∧
    (x.check s.cur (x.readS b) 4224 128 false true [.face] = none →
      exec (.assv c b) s = busy 20 (x.addMacro s.slot n 17 (.assv c.toNat (x.readS b))))) ∧
  (∀ (s : State) (k : BitVec 3) (z sc : BitVec 1) (d b : BitVec 7) (e : BitVec 6) (c p : BitVec 2), s.roomy → sc = 0 ∨ b.getLsbD 6 = false →
    let a := s.me.assayView c.toNat
    let q (i : Nat) := quantileOf a.entries a.n (s.laneF b sc i)
    (a.kind = 1 → exec (.asqry k z d 0 c b sc) s = s.givesLanes 20 32 d k z q 0 ∧
      (sc = 1 → d.getLsbD 6 = false → exec (.asqry 0 0 d 1 c b 1) s = s.givesS 20 (d.extractLsb' 0 6) (BitVec.ofNat 64 (q 0)))) ∧
    (a.kind ≠ 0 → exec (.asest e c) s =
      s.givesS 20 e (BitVec.ofNat 64 (match a.kind with | 1 => a.bound | 2 => a.n | _ => a.estimate))) ∧
    (a.kind = 2 → p ≠ 3 → ∃ v, exec (.astopk d p c) s = s.becomes (s.inFlight 20 [.setV (s.me.ctx.physV d.toNat) v (BitVec.allOnes 2048)]) ∧
      ∀ i, i < 64 →
        (∀ x, a.ranked[i]? = some x → laneNat v i 32 = (if p = 0 then x.2.1.toNat else if p = 1 then x.2.2.1 else x.2.2.2) % 2 ^ 32) ∧
        (a.ranked[i]? = none → laneNat v i 32 = 0))) ∧
  ((∀ (m0 : Memory) (n : Nat) (s : State) (m : Macro) (k : Nat) (u : AUpd) (d : Nat), m.work = .assay k u d → m.total = 64 → m.next < 64 →
    let c := s.core n
    let last := 16 * (m.next / 16) + 16
    let w := applyLanes u m.next last ⟨c.assayStored k, u.rng, d, false⟩
    (c.ctx.clk < m.start + m.offset → macroStep m0 n s m = (s, m, none)) ∧
    (m.start + m.offset ≤ c.ctx.clk → ∃ e, macroStep m0 n s m = (s.setCore n e, { m with next := last, work := .assay k u w.j }, none) ∧
      Map.get? e.assay k = some w.a ∧ (∀ j, j ≠ k → Map.get? e.assay j = Map.get? c.assay j) ∧ e.v = c.v ∧ e.k = c.k ∧ e.ctx.s = c.ctx.s ∧
      ∀ j, j < 4 → e.sysCtx.hovf.getLsbD j = (c.sysCtx.hovf.getLsbD j || (decide (j = k) && w.ovf)))) ∧
  -- the lanes of an update, configuring and clearing (R145, R148, R155)
  (∀ (w : AWork) (v r x : Vec) (mk : BitVec 64) (i k co : Nat) (sd : Word), i < 64 →
    (mk.getLsbD i = false → w.lane (.qu v mk r) i = w ∧ w.lane (.hh v x mk) i = w ∧ w.lane (.dc v mk false) i = w) ∧
    (mk.getLsbD i = true → w.lane (.qu v mk r) i = w.quLane (laneNat v i 32) ∧ w.lane (.hh v x mk) i = w.hhLane (laneNat v i 32) (laneNat x i 32) ∧
      w.lane (.dc v mk false) i = w.dcLane (BitVec.ofNat 64 (laneNat v i 32))) ∧
    (i < 32 → w.lane (.dc v mk true) (2 * i) = (if mk.getLsbD i then w.dcLane (v.extractLsb' (64 * i) 64) else w) ∧
      w.lane (.dc v mk true) (2 * i + 1) = w) ∧
    (k ≠ 0 → (w.lane (.cfg k co sd) 0).a = ⟨k, co, 15, 0, 0, 0, 0, sd, sd, [], [], 0, [], []⟩) ∧
    (w.a.kind ≠ 0 → (w.lane .clr 0).a = ⟨w.a.kind, w.a.coin, 15, 0, 0, 0, 0, w.a.seed, w.a.seed, [], [], 0, [], []⟩) ∧
    (w.lane .free 0).a = Assay.empty) ∧
  -- the quantile sketch (R149, R150)
  (∀ (w : AWork) (x : Nat), x < 2 ^ 32 →
    let counted : Nat := min (w.a.n + 1) (2 ^ 64 - 1)
    let l := w.a.level 0 ++ [BitVec.ofNat 32 x]
    let u := w.quLane x
    (fp32 x = .nan → u = { w with a := { w.a with nans := min (w.a.nans + 1) (2 ^ 64 - 1) } }) ∧
    (fp32 x ≠ .nan → (w.a.level 0).length < 63 → u.a.n = counted ∧ u.a.level 0 = l ∧ (∀ h, h ≠ 0 → u.a.level h = w.a.level h) ∧
      u.a.nans = w.a.nans ∧ u.a.etop = w.a.etop ∧ u.a.t = w.a.t ∧ u.a.cnt = w.a.cnt ∧ u.j = w.j) ∧
    (fp32 x ≠ .nan → (w.a.level 0).length = 63 → (w.a.level 1).length < 32 → ∃ b kept, b < 2 ∧ kept.length = 32 ∧
      (∀ i, i < 32 → kept[i]? = (sortLevel l)[2 * i + b]?) ∧ u.a.n = counted ∧ u.a.level 0 = [] ∧ u.a.level 1 = w.a.level 1 ++ kept ∧
      (∀ h, 2 ≤ h → u.a.level h = w.a.level h) ∧ Map.get u.a.cnt 0 0 = min (Map.get w.a.cnt 0 0 + 1) (2 ^ 32 - 1) ∧ u.a.etop = w.a.etop ∧
      u.a.t = w.a.t ∧ u.ovf = (w.ovf || decide (2 ^ 32 - 1 < Map.get w.a.cnt 0 0 + 1)) ∧
      (w.a.coin = 2 → b = w.a.alt.toNat % 2 ∧ u.a.alt = w.a.alt + 1) ∧ (w.a.coin = 1 → b = laneNat w.rng (w.j % 64) 32 % 2 ∧ u.j = w.j + 1) ∧
      (w.a.coin = 0 → ∃ bit : Bool, bit = (w.a.lfsr.getLsbD 63 != (w.a.lfsr.getLsbD 62 != (w.a.lfsr.getLsbD 60 != w.a.lfsr.getLsbD 59))) ∧
        b = bit.toNat ∧ u.a.lfsr = (w.a.lfsr <<< 1 ||| (if bit then 1 else 0)))) ∧
    ((∀ h, h < 16 → (w.a.level h).length < 64) → ∀ h, h < 16 → (u.a.level h).length < 64) ∧
    ((w.a.level 15).length = 63 → let t := AWork.append 0 w (BitVec.ofNat 32 x)
      t.a.etop = min (w.a.etop + 2 ^ w.a.t) (2 ^ 64 - 1) ∧ t.a.t = min 63 (w.a.t + 1) ∧ (t.a.level 15).length = 32)) ∧
  (∀ l, (sortLevel l).Perm l ∧ (sortLevel l).Pairwise fun a b => totalKey a.toNat ≤ totalKey b.toNat) ∧
  -- heavy hitters (R153)
  (∀ (w : AWork) (x : BitVec 32) (wt : Nat), w.hhLane x.toNat 0 = w ∧ (wt ≠ 0 →
    let u := w.hhLane x.toNat wt
    let held (j : Nat) : Prop := w.a.valid.getLsbD j = true ∧ (w.a.counter j).1 = x
    let sets (j n e : Nat) : Prop := u.a.counter j = (x, min n (2 ^ 32 - 1), e) ∧ u.ovf = (w.ovf || decide (2 ^ 32 - 1 < n)) ∧
      (∀ i, i ≠ j → u.a.counter i = w.a.counter i) ∧ u.a.valid = (w.a.valid ||| (1#64 <<< j))
    u.a.n = min (w.a.n + wt) (2 ^ 64 - 1) ∧
    (∀ j, j < 64 → held j → (∀ i, i < j → ¬ held i) → sets j ((w.a.counter j).2.1 + wt) (w.a.counter j).2.2) ∧
    ((∀ j, j < 64 → ¬ held j) →
      (∀ j, j < 64 → w.a.valid.getLsbD j = false → (∀ i, i < j → w.a.valid.getLsbD i = true) → sets j wt 0) ∧
      (w.a.valid = BitVec.allOnes 64 → ∀ j, j < 64 → (∀ i, i < 64 → (w.a.counter j).2.1 ≤ (w.a.counter i).2.1) →
        (∀ i, i < j → (w.a.counter j).2.1 < (w.a.counter i).2.1) → sets j ((w.a.counter j).2.1 + wt) (w.a.counter j).2.1)))) ∧
  -- distinct counts (R155)
  (∀ (w : AWork) (x : Word),
    let h1 := x * 0x9B1F52C73A64E8D5
    let h2 := (h1 ^^^ (h1 >>> 31)) * 0xC2B74E91D05A3F6B
    let h := h2 ^^^ (h2 >>> 29)
    let j := h.toNat / 2 ^ 52
    let low := h.toNat % 2 ^ 52
    let u := w.dcLane x
    ∃ rho, (low = 0 → rho = 53) ∧ (low ≠ 0 → 1 ≤ rho ∧ rho ≤ 52 ∧ 2 ^ (52 - rho) ≤ low ∧ low < 2 ^ (53 - rho)) ∧
      Map.get u.a.regs j 0 = max (Map.get w.a.regs j 0) rho ∧ (∀ i, i ≠ j → Map.get u.a.regs i 0 = Map.get w.a.regs i 0) ∧
      u.a.n = (w.a.n + 1) % 2 ^ 64) ∧
  -- merges (R158, R159)
  ∀ (c : Core) (k : Nat) (img : List Byte) (rng : Vec), k < 4 →
    let d := c.asMerge k img rng
    let a := c.assayStored k
    let refused : Prop := d.sysCtx.badimg.getLsbD k = true ∧ d.assay = c.assay
    d.v = c.v ∧ d.k = c.k ∧ d.ctx.s = c.ctx.s ∧ (parseImage img = none → refused) ∧
    ∀ b, parseImage img = some b →
      (b.kind = 0 → d.assayStored k = a ∧ d.sysCtx.badimg = c.sysCtx.badimg) ∧ (b.kind ≠ 0 → a.kind = 0 → d.assayStored k = b) ∧
      (b.kind ≠ 0 → a.kind ≠ 0 → b.kind ≠ a.kind → refused) ∧
      (b.kind = 1 → a.kind = 1 → (d.assayStored k).n = min (a.n + b.n) (2 ^ 64 - 1) ∧ (d.assayStored k).nans = min (a.nans + b.nans) (2 ^ 64 - 1) ∧
        ((∀ h, h < 16 → (a.level h).length < 64) → ∀ h, h < 16 → ((d.assayStored k).level h).length < 64)) ∧
      (b.kind = 2 → a.kind = 2 → (d.assayStored k).n = min (a.n + b.n) (2 ^ 64 - 1) ∧
        (a.counters.length + (b.counters.filter fun y => a.counters.all fun x => x.2.1 != y.2.1).length ≤ 64 →
          ∀ j, j < 64 → a.valid.getLsbD j = true →
            let other : Nat × Nat := match b.counters.find? fun y => y.2.1 == (a.counter j).1 with
              | some y => y.2.2
              | none => (b.least, b.least)
            (d.assayStored k).valid.getLsbD j = true ∧ (d.assayStored k).counter j =
              ((a.counter j).1, min ((a.counter j).2.1 + other.1) (2 ^ 32 - 1), min ((a.counter j).2.2 + other.2) (2 ^ 32 - 1)))) ∧
      (b.kind = 3 → a.kind = 3 → (d.assayStored k).n = (a.n + b.n) % 2 ^ 64 ∧
        ∀ j, Map.get (d.assayStored k).regs j 0 = max (Map.get a.regs j 0) (Map.get b.regs j 0)))

/-- Within a busy period of its unit, each of the seven assay instructions that keep it busy, RHCFG, RHSIG, RHLIST, RHSTEP, and each timed copy
takes II_VIOLATION at its slot; an assay update or query of a context of the wrong kind takes FORMAT with FVAL = c. -/
def Obligations.EngineGates : Prop :=
  (∀ (s : State) (k r : BitVec 3) (c kind o p : BitVec 2) (a b7 d : BitVec 7) (e b : BitVec 6) (w z sc : BitVec 1), s.roomy →
    kind ≠ 0 → o ≠ 3 → kind = 1 ∨ o = 0 → sc = 0 ∨ b7.getLsbD 6 = false → p ≠ 3 →
    let ii := s.becomes (s.fault cII (BitVec.ofNat 64 s.slot) 0 s.me)
    let format := s.becomes (s.fault cFORMAT (c.setWidth 64) 0 s.me)
    let view := (s.me.assayView c.toNat).kind
    (s.me.ctx.clk < s.me.ctx.asBusy →
      exec (.ascfg o kind c b) s = ii ∧ exec (.asclr w c) s = ii ∧ exec (.asqu k c a) s = ii ∧ exec (.ashh k c a b7 sc) s = ii ∧
      exec (.asdc k c a w) s = ii ∧ exec (.asmrg c b) s = ii ∧ exec (.assv c b) s = ii) ∧
    (s.me.ctx.clk < s.me.ctx.rhBusy →
      exec (.rhcfg r b) s = ii ∧ exec (.rhsig r e b) s = ii ∧ exec (.rhlist r e) s = ii ∧ exec (.rhstep 1 r a) s = ii ∧ exec (.rhstep 0 r 0) s = ii) ∧
    (s.me.ctx.asBusy ≤ s.me.ctx.clk →
      (view ≠ 1 → exec (.asqu k c a) s = format) ∧ (view ≠ 2 → exec (.ashh k c a b7 sc) s = format) ∧ (view ≠ 3 → exec (.asdc k c a w) s = format)) ∧
    (view ≠ 1 → exec (.asqry k z d 0 c b7 sc) s = format ∧ (d.getLsbD 6 = false → b7.getLsbD 6 = false → exec (.asqry 0 0 d 1 c b7 1) s = format)) ∧
    (view ≠ 2 → exec (.astopk d p c) s = format) ∧ (view = 0 → exec (.asest e c) s = format)) ∧
  (∀ (s : State) (g : BitVec 4) (x y w : BitVec 6) (m : BitVec 3), s.on g → s.me.ctx.clk < s.me.ctx.copyFree s.slot →
    let ii := s.becomes (s.fault cII (BitVec.ofNat 64 s.slot) 0 s.me)
    exec (.scld g x y) s = ii ∧ exec (.pull g x y w) s = ii ∧ exec (.push g x y w) s = ii ∧ exec (.cxsend g x y w) s = ii ∧
      exec (.cxtile g x w m) s = ii)

/-- The reheat instructions outside a busy period: RHCFG reads a descriptor at c+3, RHSIG signs a tile of a configured region row by row, RHLIST
writes the tiles to compute and their count, RHMAP reads a map; the busy periods are 6, 68 and 12 cycles, and an unconfigured region, or a tile
that it does not have, is FORMAT. That RHLIST needs room for its count and each of its stores is the model's choice (log entry 56, DESIGN CHOICE),
and so is that an RHSIG begun at a row checks the rows from there on alone (log entry 80, DESIGN CHOICE). What the reheat engine leaves. RHCFG at
c+6 leaves its region with every tile forced, no tile skipped and every age 0. A row of RHSIG adds its elements to the sums of its sub-blocks and
raises the greatest magnitude; the first reads the record, and at c+70 the tile's skip bit becomes the decision and a tile that is not skipped
leaves its signature in its record. A forced tile, one of age REFRESH and one with a NaN is not skipped; one whose signature is that of its record
is. RHMAP delivers the skip map with the force flags, or the ages, as they stand at c+3. -/
def Obligations.ReheatInstructions : Prop :=
  (∀ (s : State) (r p : BitVec 3) (a b : BitVec 6) (d : BitVec 7) (g : Reheat), s.roomy →
    let x := s.me
    let busy (t : Nat) (y : Core) : Out := s.becomes { y with ctx := { y.ctx with rhBusy := y.ctx.clk + t } }
    let out := BitVec.ofNat 64 (rhOUT g.desc)
    let t := (x.readS a).toNat
    (x.ctx.rhBusy ≤ x.ctx.clk → x.check s.cur (x.readS b) 64 64 true false [.face, .cluster] = none →
      exec (.rhcfg r b) s = busy 6 (x.addItem s.slot 3 false false [.rhRead r.toNat (x.readS b)])) ∧
    (x.ctx.rhBusy ≤ x.ctx.clk → Map.get? x.reheat r.toNat = some g →
      (t < rhTILES g.desc → rhSigCheck s.cur x g.desc t (x.startAt 2) (x.readS b) = none →
        exec (.rhsig r a b) s = busy 68 (x.addMacro s.slot (x.startAt 2) 65
          (if x.startAt 2 = 0 then .rhsig r.toNat t (x.readS b) (List.replicate 16 (.fin true 0 0)) (.fin false 0 0) (List.replicate 17 0)
           else .rhsig r.toNat t (x.readS b) g.sums g.maxm g.rec_))) ∧
      (rhTILES g.desc ≤ t → exec (.rhsig r a b) s = s.becomes (s.fault cFORMAT (r.setWidth 64) (x.readS a) x)) ∧
      (x.ctx.inFlight + (1 + (rhTILES g.desc + 127) / 128) ≤ 64 → x.check s.cur out (2 * rhTILES g.desc) 2 false true [.face] = none →
        exec (.rhlist r a) s = busy 12 ((x.addItem s.slot 3 true false [.rhCount r.toNat (x.ctx.physS a.toNat)]).addMacro s.slot 0
          ((rhTILES g.desc + 127) / 128) (.rhlist r.toNat out [])))) ∧
    (p.toNat < 5 → exec (.rhmap d p r) s = s.becomes (s.inFlight 3 [.rhMap (x.ctx.physV d.toNat) r.toNat p.toNat])) ∧
    -- an unconfigured region (R165 to R167)
    (x.ctx.rhBusy ≤ x.ctx.clk → Map.get? x.reheat r.toNat = none →
      exec (.rhlist r a) s = s.becomes (s.fault cFORMAT (r.setWidth 64) 0 x))) ∧
  ((∀ (c : Core) (r : Nat) (d : BitVec 512), r < 8 → rhTILES d ≤ 1024 →
    let t := c.rhPut r d
    ∃ g, Map.get? t.reheat r = some g ∧ g.desc = d ∧ g.skip = 0 ∧ (∀ i, i < 1024 → g.force.getLsbD i = decide (i < rhTILES d)) ∧
      (∀ i, Map.get g.ages i 0 = 0) ∧ stepsOf t.sysCtx.rhSteps r = 0 ∧
      ∀ q, q ≠ r → Map.get? t.reheat q = Map.get? c.reheat q ∧ (q < 8 → stepsOf t.sysCtx.rhSteps q = stepsOf c.sysCtx.rhSteps q)) ∧
  (∀ (m0 : Memory) (n : Nat) (s : State) (m : Macro) (r t : Nat) (addr : Word) (sums : List Fv) (mx : Fv) (old : List (BitVec 32)) (g : Reheat),
    m.work = .rhsig r t addr sums mx old → Map.get? (s.core n).reheat r = some g → s.poison = [] → sums.length = 16 →
    let c := s.core n
    let z := (rhElem g.desc).2
    let rec_ := BitVec.ofNat 64 (rhSIG g.desc + 72 * t)
    let row := c.loadBytes m0 n (addr + BitVec.ofNat 64 (m.next * rhSTRIDE g.desc)) (64 * z)
    let el (i : Nat) : Fv := (rhElem g.desc).1.decode (ofBytes ((row.drop (z * i)).take z))
    (m.next < 64 → m.start + 3 + m.next ≤ c.ctx.clk → ∃ sums' mx' old',
      macroStep m0 n s m = (s, { m with next := m.next + 1, work := .rhsig r t addr sums' mx' old' }, none) ∧ sums'.length = 16 ∧
      (∀ b, b < 16 → sums'[b]? = some (let x := sums.getD b .nan
        if b / 4 = m.next / 16 then (List.range 16).foldl (fun a i => a.add (el (16 * (b % 4) + i))) x else x)) ∧
      mx' = (List.range 64).foldl (fun a i => a.max (el i).abs) mx ∧ (m.next ≠ 0 → old' = old) ∧
      (m.next = 0 → ∀ i, i < 17 → old'[i]? = some (BitVec.ofNat 32 (c.loadNat m0 n (rec_ + BitVec.ofNat 64 (4 * i)) 4)))) ∧
    (m.next = 64 → m.start + 70 ≤ c.ctx.clk →
      let sg := rhSignature sums mx
      let skip := rhSkip g t sg old
      ∃ u, macroStep m0 n s m = (u, { m with next := 65 }, none) ∧
        (∃ h, Map.get? (u.core n).reheat r = some h ∧ h.desc = g.desc ∧ h.force = g.force ∧ h.ages = g.ages ∧
          ∀ j, j < 1024 → h.skip.getLsbD j = if j = t then skip else g.skip.getLsbD j) ∧
        u.mem = s.mem ∧ (∀ j, j ≠ n → u.core j = s.core j) ∧ (u.core n).ctx = c.ctx ∧
        u.wq = (if skip then s else s.writeAt n m.seq m.slot rec_ (rhRecord sg) false).wq)) ∧
  (∀ (g : Reheat) (t : Nat) (sg old : List (BitVec 32)),
    let x (l : List (BitVec 32)) (i : Nat) : Fv := fp32 (l.getD i 0).toNat
    (g.force.getLsbD t = true ∨ rhREFRESH g.desc ≤ Map.get g.ages t 0 ∨ fp32 (rhTHETA g.desc) = .nan ∨ (∃ i, i < 17 ∧ (x sg i = .nan ∨ x old i = .nan)) →
      rhSkip g t sg old = false) ∧
    (g.force.getLsbD t = false → Map.get g.ages t 0 < rhREFRESH g.desc → (∃ m e, fp32 (rhTHETA g.desc) = .fin false m e) →
      (∀ i, i < 17 → ∃ b m e, x sg i = .fin b m e ∧ x old i = x sg i) → rhSkip g t sg old = true)) ∧
  (∀ (sg : List (BitVec 32)), sg.length = 17 → (rhRecord sg).length = 72 ∧ ∀ i, i < 17 → ofBytes (((rhRecord sg).drop (4 * i)).take 4) = (sg.getD i 0).toNat) ∧
  ∀ (m0 : Memory) (b : Core) (n : Nat) (i : Item) (s : State) (d r part : Nat), part < 5 →
    let c := s.core n
    ∃ v : Vec, commitAct m0 b n i s (.rhMap d r part) = s.setCore n { c with ctx := { c.ctx with items := c.ctx.items ++
        [⟨c.ctx.clk + 2, i.seq, i.slot, true, false, i.uid, [.setV d v (BitVec.allOnes 2048)]⟩] } } ∧
      (Map.get? c.reheat r = none → v = 0) ∧
      ∀ g, Map.get? c.reheat r = some g →
        (part = 0 → ∀ j, j < 1024 → v.getLsbD j = (decide (j < rhTILES g.desc) && g.skip.getLsbD j) ∧ v.getLsbD (1024 + j) = g.force.getLsbD j) ∧
        (part ≠ 0 → ∀ j, j < 256 → laneNat v j 8 =
          if 256 * (part - 1) + j < rhTILES g.desc then Map.get g.ages (256 * (part - 1) + j) 0 % 256 else 0))

/-- RHSTEP at c+3: every tile of the region ages by its skip bit, the force flags become the bits given or 0, the skip map stays, and STEPS counts
modulo 128; other regions are unchanged. An unconfigured region is FORMAT at issue with FVAL = r. -/
def Obligations.ReheatStep : Prop :=
  (∀ (s : State) (f : BitVec 1) (r : BitVec 3) (v : BitVec 7), s.me.ctx.rhBusy ≤ s.me.ctx.clk → f = 1 ∨ v = 0 →
    (∀ g, Map.get? s.me.reheat r.toNat = some g → ∃ d, exec (.rhstep f r v) s = s.becomes d ∧ d.ctx.rhBusy = s.me.ctx.clk + 4 ∧
      d.reheat = s.me.reheat ∧ d.v = s.me.v ∧ d.ctx.items = s.me.ctx.items ++
        [⟨s.me.ctx.clk + 3, s.me.ctx.clk, s.slot, false, false, s.me.nextUid, [.rhStep r.toNat (if f = 1 then some (s.me.readV v) else none)]⟩]) ∧
    (Map.get? s.me.reheat r.toNat = none → exec (.rhstep f r v) s = s.becomes (s.fault cFORMAT (r.setWidth 64) 0 s.me))) ∧
  ∀ (m0 : Memory) (b : Core) (n : Nat) (i : Item) (s : State) (r : Nat) (f : Option Vec) (g : Reheat), r < 8 → Map.get? (s.core n).reheat r = some g →
    let t := (commitAct m0 b n i s (.rhStep r f)).core n
    ∃ h, Map.get? t.reheat r = some h ∧ h.skip = g.skip ∧ h.desc = g.desc ∧
      (∀ j, j < rhTILES g.desc → Map.get h.ages j 0 = if g.skip.getLsbD j then min (Map.get g.ages j 0 + 1) 255 else 1) ∧
      (∀ j, j < 1024 → h.force.getLsbD j = match f with | none => false | some v => decide (j < rhTILES g.desc) && v.getLsbD j) ∧
      (stepsOf t.sysCtx.rhSteps r).toNat = ((stepsOf (s.core n).sysCtx.rhSteps r).toNat + 1) % 128 ∧
      ∀ q, q ≠ r → Map.get? t.reheat q = Map.get? (s.core n).reheat q

/-! ## The matrix engine (R169 to R182) -/

/-- MMA and MMA3 whose checks pass outside the hazard interval begin a product on the operands and the band pair as read at issue; MZERO delivers
a zero mark at c+24; MBAND replaces the pair of its accumulator alone. That accumulators are the physical rows 64C to 64C + 63, whatever LROT is,
both where a base is read and where a delivery is written, is the model's reading (log entry 30, DEDUCED). The matrix engine's hazard: an MMA or
MMA3 issued before the engine is free of the last one, 8 cycles after an MMA and 48 after an MMA3, takes II_VIOLATION. A step that its checks let
pass updates every element of the tile by the step's products: those of an MMA with the scale entries it takes from the queue, those of a pass of
an MMA3 with the operands of its beat; it writes no register, and the last one leaves the delivery for c+24 or c+64 and hands its tile to what is
chained on it. When a delivery falls due its tile, or zeros for MZERO, is written into its accumulator and its flags join VSTAT. Each beat rounds
three times, or sums integers and saturates; the base of a product is zeros, the accumulator, or the tile of the latest-issued instruction to it
that has not delivered. Where the matrix engine stops. At issue, outside the hazard interval, in the order of R174: an operand under no entry is
OUT_OF_TABLE, one outside the face window ADDRESS_CLASS, formats that R170 does not pair FORMAT, a footprint that leaves the window ADDRESS_CLASS,
a misaligned base or stride ALIGN, and too few scale entries, landed or to come, SCALE_QUEUE_IMBALANCE. Before a step reads, in the order of R175:
a byte under no entry, an absent page, a page whose format or geometry has changed, one without RD or in a released bank, too few scale entries,
and a sparse mask with a wrong count; the lowest such address is named, and the step performs nothing. -/
def Obligations.MatrixInstructions : Prop :=
  (∀ (s : State) (g : BitVec 4) (acc z : BitVec 1) (a b t : BitVec 6) (y : BitVec 2), s.on g →
    let x := s.me
    let mx := x.ctx.mx
    let start := x.startAt 0
    let with_ (m : Matrix) : Out := s.becomes { x with ctx := { x.ctx with mx := m } }
    let last (v : Nat × Nat) (m : Matrix) : Matrix := if acc = 0 then { m with last0 := some v } else { m with last1 := some v }
    let run (word : BitVec 32) (three : Bool) (y : BitVec 2) : Out :=
      with_ (last (mx.nextSeq, x.ctx.clk + (if three then 64 else 24)) { mx with
        runs := mx.runs ++ [mxRun x word acc.toNat three y (x.readS a) (x.readS b) (x.readS t) (z == 1) start]
        nextSeq := mx.nextSeq + 1, busyTo := x.ctx.clk + mxSteps three })
    ((x.held.map fun h => !h.mx.runs.isEmpty).getD false = false → mx.busyTo ≤ x.ctx.clk →
      (start < mxSteps false → mxIssueCheck s.cur x false y (x.readS a) (x.readS b) (x.readS t) start = none →
        exec (.mma g acc a b t z y) s = run ((encode (.mma g acc a b t z y)).headD 0) false y) ∧
      (start < mxSteps true → mxIssueCheck s.cur x true 0 (x.readS a) (x.readS b) (x.readS t) start = none →
        exec (.mma3 g acc a b t z) s = run ((encode (.mma3 g acc a b t z)).headD 0) true 0)) ∧
    exec (.mzero g acc) s = with_ (last (mx.nextSeq, x.ctx.clk + 24) { mx with
      pend := mx.pend ++ [⟨mx.nextSeq, x.ctx.clk, acc.toNat, x.ctx.clk + 24, none, 0⟩], nextSeq := mx.nextSeq + 1 }) ∧
    exec (.mband g 0 a) s = with_ { mx with band0 := (x.readS a).extractLsb' 0 32 } ∧
    exec (.mband g 1 a) s = with_ { mx with band1 := (x.readS a).extractLsb' 0 32 }) ∧
  ((∀ (s : State) (g : BitVec 4) (acc z : BitVec 1) (a b t : BitVec 6) (y : BitVec 2), s.on g →
    (s.me.held.map fun h => !h.mx.runs.isEmpty).getD false = false → s.me.ctx.clk < s.me.ctx.mx.busyTo →
    let ii := s.becomes (s.fault cII (BitVec.ofNat 64 s.slot) 0 s.me)
    (s.me.startAt 0 < mxSteps false → exec (.mma g acc a b t z y) s = ii) ∧ (s.me.startAt 0 < mxSteps true → exec (.mma3 g acc a b t z) s = ii)) ∧
  (mxSteps false = 8 ∧ mxSteps true = 48) ∧
  (∀ (m : Memory) (n : Nat) (c : Core) (r : MxRun), c.ctx.mx.due c.ctx.clk = some r → r.tile.length = 64 →
    (∀ q ∈ c.ctx.mx.runs, q.seq = r.seq → q = r) → (r.three = false ∨ r.next < 8 → mxCheck m n c r r.next = none) →
    let bytes (x : Nat × Nat) : List Byte := c.loadBytes m n (BitVec.ofNat 64 x.1) x.2
    let words (k : Nat) (l : List Byte) : List (BitVec 32) := (List.range k).map fun i => BitVec.ofNat 32 (ofBytes ((l.drop (4 * i)).take 4))
    let ents := (mxShape r.fA).ents
    let scale (i j g : Nat) : Option (Nat × Nat) :=
      if ents = 0 then none else some (scaleAt ((c.sq.take ents).getD g 0) i, scaleAt ((c.sq.take ents).getD (ents / 2 + g) 0) j)
    let w := yWidth r.y
    let b := r.next % 8
    ∃ d r1, c.mxStep m n = (d, none) ∧ r1.next = r.next + 1 ∧ r1.seq = r.seq ∧ r1.tile.length = 64 ∧ d.v = c.v ∧ d.k = c.k ∧ d.tiles = c.tiles ∧
      d.ctx.s = c.ctx.s ∧ d.ctx.p = c.ctx.p ∧ d.ctx.vstat = c.ctx.vstat ∧ d.ctx.items = c.ctx.items ∧ d.sq = (if r.three then c.sq else c.sq.drop ents) ∧
      (r.three = false → ∀ i j, i < 64 → j < 64 → laneNat (r1.tile.getD i 0) j w =
        (mxLane r (stepRowA r.fA (bytes ((r.rangesA r.next).getD i (0, 0)))) (stepColB r.fB ((r.rangesB r.next).map bytes) j) (scale i j)
          (laneNat (r.tile.getD i 0) j w)).1 % 2 ^ w) ∧
      (r.three = true →
        (r.next < 8 → Map.get r1.opA b [] = (r.rangesA b).flatMap (fun x => words 4 (bytes x)) ∧
          Map.get r1.opB b [] = (r.rangesB b).flatMap fun x => words 64 (bytes x)) ∧
        (8 ≤ r.next → r1.opA = r.opA ∧ r1.opB = r.opB) ∧
        ∀ i j, i < 64 → j < 64 →
          let ra := ((Map.get r1.opA b []).drop (4 * i)).take 4
          let cb := (List.range 4).map fun k => (Map.get r1.opB b []).getD (64 * k + j) 0
          laneNat (r1.tile.getD i 0) j 32 = (beatUpdate 0 (beat3 (r.next / 8) ra cb) ((ra ++ cb).any fun x => (fp32 x.toNat).isNaN) r.bandA r.bandB
            (laneNat (r.tile.getD i 0) j 32)).1 % 2 ^ 32) ∧
      (r.next + 1 < r.total → d.ctx.mx.pend = c.ctx.mx.pend ∧ r1 ∈ d.ctx.mx.runs) ∧
      (r.total ≤ r.next + 1 →
        d.ctx.mx.pend = c.ctx.mx.pend ++ [⟨r.seq, r.start, r.acc, r.start + (if r.three then 64 else 24), some r1.tile, r1.flags⟩] ∧
        (∀ q ∈ d.ctx.mx.runs, q.seq ≠ r.seq) ∧
        ∀ q ∈ c.ctx.mx.runs, q.seq ≠ r.seq → q.chain = some r.seq → { q with chain := none, tile := r1.tile } ∈ d.ctx.mx.runs)) ∧
  (∀ (c : Core) (d : MxPend), (∀ l, d.tile = some l → l.length = 64) →
    let t := c.mxDeliver d
    (∀ i, i < 64 → Map.get t.v (64 * d.acc + i) 0 = match d.tile with | none => 0 | some l => l.getD i 0) ∧
      (∀ q, q < 64 * d.acc ∨ 64 * d.acc + 64 ≤ q → Map.get t.v q 0 = Map.get c.v q 0) ∧ t.ctx.vstat = c.ctx.vstat ||| d.flags ∧
      t.ctx.mx.pend = c.ctx.mx.pend.filter (fun x => x.seq != d.seq) ∧ t.ctx.s = c.ctx.s ∧ t.k = c.k ∧ t.tiles = c.tiles) ∧
  (∀ (c : Core) (d : MxPend), d ∈ c.ctx.mx.pend → (.inr d ∈ c.dueNow ↔ d.due ≤ c.ctx.clk)) ∧
  (∀ (y : BitVec 2) (t : Fv) (nan : Bool) (ba bb : BitVec 16) (old : Nat),
    let u := rne32 (((fp32 (rne32 t)).mul (Fmt.bf16.decode ba.toNat)).mul (Fmt.bf16.decode bb.toNat))
    (beatUpdate y t nan ba bb old).1 = ((yFmt y).round .rne (((yFmt y).decode old).add (fp32 u))).1) ∧
  (∀ (r : MxRun) (a : List (Nat × Nat)) (b : List Nat) (sc : Nat → Option (Nat × Nat)) (old : Nat), r.fA = 1 ∨ r.fA = 2 →
    let sum := signed 32 old + a.foldl (fun t x => t + intElem r.fA x.2 * intElem r.fB (b.getD x.1 0)) 0
    (mxLane r a b sc old).1 = (max (-2 ^ 31) (min sum (2 ^ 31 - 1)) % 2 ^ 32).toNat ∧
      (mxLane r a b sc old).2 = (if sum < -2 ^ 31 ∨ 2 ^ 31 ≤ sum then flSAT else 0)) ∧
  (List.range 6).map passParts = [(0, 0), (0, 1), (1, 0), (0, 2), (2, 0), (1, 1)] ∧
  ∀ (c : Core) (a : Nat), c.mxBase a true = (none, List.replicate 64 0) ∧ (c.ctx.mx.last a = none → c.mxBase a false = (none, c.acc a)) ∧
    ∀ q at_, c.ctx.mx.last a = some (q, at_) →
      ((∃ r ∈ c.ctx.mx.runs, r.seq = q) → c.mxBase a false = (some q, [])) ∧
      ((∀ r ∈ c.ctx.mx.runs, r.seq ≠ q) → c.held = none →
        (∀ d, (c.ctx.mx.pend.find? fun d => d.seq = q) = some d → c.mxBase a false = (none, d.tile.getD (List.replicate 64 0))) ∧
        ((∀ d ∈ c.ctx.mx.pend, d.seq ≠ q) → c.mxBase a false = (none, c.acc a)))) ∧
  ((∀ (s : State) (g : BitVec 4) (acc z : BitVec 1) (a b t : BitVec 6) (y : BitVec 2) (three : Bool), s.on g →
    let c := s.me
    let A := c.readS a
    let B := c.readS b
    let SA := (c.readS t).toNat % 2 ^ 32
    let SB := (c.readS t).toNat / 2 ^ 32
    let stops (code : Nat) (v : Word) : Prop := exec (if three then .mma3 g acc a b t z else .mma g acc a b t z y) s = s.becomes (s.fault code v 0 c)
    (c.held.map fun h => !h.mx.runs.isEmpty).getD false = false → c.ctx.mx.busyTo ≤ c.ctx.clk → c.startAt 0 < mxSteps three →
    (c.lookup A.toNat = none → stops cTABLE A) ∧
    ∀ ia ea, c.lookup A.toNat = some (ia, ea) →
      (c.lookup B.toNat = none → stops cTABLE B) ∧
      ∀ ib eb, c.lookup B.toNat = some (ib, eb) →
        let out (x : Word) (e : BitVec 128) : Prop := winOf x.toNat ≠ some .face ∨ frameOk s.cur .face e = false
        let sh := mxShape (lttFMT ea)
        let endA := A.toNat + 63 * SA + sh.rowA
        let endB := B.toNat + (8 * sh.rowsB - 1) * SB + sh.rowB
        (out A ea → stops cCLASS A) ∧ (¬ out A ea → out B eb → stops cCLASS B) ∧
        (¬ out A ea → ¬ out B eb →
          (mxAOk (lttFMT ea) (lttGEOM ea) = false → stops cFORMAT A) ∧
          (mxAOk (lttFMT ea) (lttGEOM ea) = true →
            let pair := mxBOk three (lttFMT ea) (lttFMT eb) (lttGEOM eb) (if three then 0 else y)
            (pair = false → stops cFORMAT B) ∧
            (pair = true →
              (0x100000 < endA → stops cCLASS A) ∧ (endA ≤ 0x100000 → 0x100000 < endB → stops cCLASS B) ∧
              (endA ≤ 0x100000 → endB ≤ 0x100000 →
                (A.toNat % 16 ≠ 0 → stops cALIGN A) ∧ (A.toNat % 16 = 0 → B.toNat % 16 ≠ 0 → stops cALIGN B) ∧
                (A.toNat % 16 = 0 → B.toNat % 16 = 0 → (SA % 16 ≠ 0 → stops cALIGN (BitVec.ofNat 64 SA)) ∧
                  (SA % 16 = 0 → SB % 16 ≠ 0 → stops cALIGN (BitVec.ofNat 64 SB)) ∧
                  (SA % 16 = 0 → SB % 16 = 0 → c.sqTotal < sh.ents * (8 - c.startAt 0) → stops cSCALE (BitVec.ofNat 64 c.sqTotal)))))))) ∧
  (∀ (m : Memory) (n : Nat) (c : Core) (r : MxRun) (b : Nat),
    let pa := touched (r.rangesA b)
    let pb := touched (r.rangesB b)
    let entry (x : Nat) : Option (BitVec 128) := (c.lookup x).map Prod.snd
    let reads (x : Nat) : Prop := x ∈ pa ∨ x ∈ pb
    let lowest (bad : Nat → Prop) (x : Nat) : Prop := reads x ∧ bad x ∧ ∀ y, reads y → bad y → x ≤ y
    let stops (code v felem : Nat) : Prop := mxCheck m n c r b = some ⟨code, 4, true, BitVec.ofNat 64 v, BitVec.ofNat 64 felem⟩
    let unlisted (x : Nat) : Prop := winOf x ≠ some .face ∨ entry x = none
    let absent (x : Nat) : Prop := ∃ e, entry x = some e ∧ lttP e = false
    let other (f g x : Nat) : Prop := ∃ e, entry x = some e ∧ (lttFMT e ≠ f ∨ (isFp4 f = true ∧ lttGEOM e ≠ g))
    let changed (x : Nat) : Prop := (x ∈ pa ∧ other r.fA r.gA x) ∨ (x ∈ pb ∧ other r.fB r.gB x)
    let denied (x : Nat) : Prop := ∃ e, entry x = some e ∧ (lttRD e = false ∨ c.owned.getLsbD (x / 0x20000) = false)
    let ents := (mxShape r.fA).ents
    (∀ x, lowest unlisted x → stops cTABLE x b) ∧
    ((∀ x, reads x → ¬ unlisted x) →
      (∀ x, lowest absent x → stops cPAGE x b) ∧
      ((∀ x, reads x → ¬ absent x) →
        (∀ x, lowest changed x → stops cFORMAT x b) ∧
        ((∀ x, reads x → ¬ changed x) → (∀ x e, reads x → entry x = some e → frameOk n .face e = true) →
          (∀ x, lowest denied x → stops cPERM x b) ∧
          ((∀ x, reads x → ¬ denied x) →
            (c.sq.length < ents → stops cSCALE c.sq.length b) ∧
            (ents ≤ c.sq.length →
              let rows := (r.rangesA b).map fun x => c.loadBytes m n (BitVec.ofNat 64 x.1) x.2
              (r.fA ≠ 10 ∧ r.fA ≠ 11 ∧ r.fA ≠ 12 ∨ badBlock r.fA rows = none → mxCheck m n c r b = none) ∧
              ∀ i k, r.fA = 10 ∨ r.fA = 11 ∨ r.fA = 12 → badBlock r.fA rows = some (i, k) →
                stops cFORMAT (r.sA.toNat + i * r.SA + b * (mxShape r.fA).stepA + k * (sparseShape r.fA).1) (b * (mxShape r.fA).kb + 8 * k))))))) ∧
  ∀ (m : Memory) (n : Nat) (c : Core) (r : MxRun) (t : Trap), c.ctx.mx.due c.ctx.clk = some r → r.three = false ∨ r.next < 8 →
    mxCheck m n c r r.next = some t → c.mxStep m n = (c, some t))

/-! ## Slots 5 and 6: queues, copies, routes and maps (R185 to R206) -/

/-- TLD, TST, TSTNT and GATHER whose checks pass join their queue, or the non-temporal buffer, with the tile pending; rows and columns above 64
are taken as 64, and the fields of s[Y] and s[W] that the rule ignores are ignored. Each begins at the row that its slot's progress register names
where no earlier entry of the slot stands, and otherwise at row 0. A pending tile is TIMING; then an address or base that no entry covers is
OUT_OF_TABLE, one outside the device window ADDRESS_CLASS, a page whose format no tile has FORMAT, and a misaligned address or stride ALIGN. -/
def Obligations.QueuedCopies : Prop :=
  ∀ (s : State) (g : BitVec 4) (x y w : BitVec 6) (t : BitVec 3) (xw : Option (BitVec 32)), s.on g →
    let c := s.me
    let ea := c.readS x + (match xw with | none => 0 | some e => e.signExtend 64)
    let sr := (c.readS y).toNat % 2 ^ 32
    let er := min 64 ((c.readS w).toNat % 2 ^ 8)
    let ec := min 64 ((c.readS w).toNat / 2 ^ 8 % 2 ^ 8)
    (queueCheck s.cur c t.toNat ea (c.readS x) (BitVec.ofNat 64 sr) = none →
      exec (.tld g x y w t xw) s = s.becomes (c.enqueue s.slot t.toNat (.tld t.toNat ea sr er ec (c.pageFmt ea) (c.tile t.toNat))) ∧
      exec (.tst g x y w t xw) s = s.becomes (c.enqueue s.slot t.toNat
        (.tst t.toNat ea sr er ec (c.pageFmt ea) (c.tile t.toNat) (List.replicate (c.queueStart s.slot) 0))) ∧
      exec (.tstnt g x y w t xw) s = s.becomes { c with
        nt := c.nt ++ [⟨c.nextUid, s.slot, .tst t.toNat ea sr er ec (c.pageFmt ea) (c.tile t.toNat) (List.replicate (c.queueStart s.slot) 0), c.queueStart s.slot,
          c.epoch, none, none, false, c.depth⟩]
        nextUid := c.nextUid + 1, tilePend := c.tilePend ||| (1#8 <<< t.toNat) }) ∧
    (∀ u, u = (c.readS w).toNat % 2 ^ 32 → queueCheck s.cur c t.toNat (c.readS x) (c.readS x) (BitVec.ofNat 64 u) = none →
      c.check s.cur (c.readS y) 256 4 true false [.face] = none →
      exec (.gather g x y w t) s = s.becomes ((c.enqueue s.slot t.toNat (.gather t.toNat (c.readS x) u
        (min 64 (laneNat (c.readS w) 5 8)) (min 64 (laneNat (c.readS w) 4 8)) (c.pageFmt (c.readS x)) (c.readS y) none (c.tile t.toNat))).addItem
        s.slot 2 false false [.gatherList c.nextUid (c.readS y)])) ∧
    (∀ slot, c.queueStart slot = if (c.oldest slot).isNone then ((c.ctx.progStored (slot - 2)).extractLsb' 20 12).toNat else 0) ∧
    -- the checks of R188 at issue
    (let stops (code : Nat) (v : Word) : Prop := ∀ i ∈ [Instr.tld g x y w t xw, .tst g x y w t xw, .tstnt g x y w t xw], exec i s = s.becomes (s.fault code v 0 c)
     let z (e : BitVec 128) : Nat := tileBytes (lttFMT e)
     (c.tilePend.getLsbD t.toNat = true → stops cTIMING (BitVec.ofNat 64 t.toNat) ∧
       exec (.gather g x y w t) s = s.becomes (s.fault cTIMING (BitVec.ofNat 64 t.toNat) 0 c)) ∧
     (c.tilePend.getLsbD t.toNat = false →
       (c.lookup ea.toNat = none → stops cTABLE ea) ∧
       ∀ k e, c.lookup ea.toNat = some (k, e) →
         (c.lookup (c.readS x).toNat = none → stops cTABLE (c.readS x)) ∧
         ((c.lookup (c.readS x).toNat).isSome = true →
           (winOf ea.toNat ≠ some .device ∨ frameOk s.cur .device e = false → stops cCLASS ea) ∧
           (winOf ea.toNat = some .device → frameOk s.cur .device e = true →
             (z e = 0 → stops cFORMAT ea) ∧
             (z e ≠ 0 → (ea.toNat % z e ≠ 0 → stops cALIGN ea) ∧
               (ea.toNat % z e = 0 → sr % z e ≠ 0 → stops cALIGN (BitVec.ofNat 64 sr)))))))

/-- The timed copies whose checks pass, outside a busy period of their slot, begin their macro-instruction and keep the slot busy for the cycles
of the table: SCLD through c + 4 + (n − 1)/4, PULL and PUSH through c + 20 + n·d, CXTILE through c + 65; a length of 0 does nothing. That an SCLD
with progress needs room in the scale queue for the entries still to come alone, and that a CXTILE needs room for two results, are the model's
choices (log entries 79 and 56, DESIGN CHOICE). -/
def Obligations.TimedCopies : Prop :=
  ∀ (s : State) (g : BitVec 4) (x y w : BitVec 6) (m : BitVec 3) (n : Nat), s.on g → s.me.ctx.copyFree s.slot ≤ s.me.ctx.clk → 0 < n →
    let c := s.me
    let start := c.startAt (s.slot - 2)
    let e : BitVec 128 := ((c.lookup (c.readS y).toNat).map Prod.snd).getD 0
    let through (k total : Nat) (wk : Work) (busy : Nat) : Out := s.becomes ((c.addMacro s.slot k total wk).copyBusy s.slot busy)
    let wv := (c.readS w).toNat
    ((c.readS y).toNat = n → c.check s.cur (c.readS x) (88 * n) 4 true false [.face] = none → n - start ≤ 128 - c.sqTotal →
      exec (.scld g x y) s = through start n (.scld (c.readS x) n []) (5 + (n - 1) / 4)) ∧
    (wv = 4096 * n → c.check s.cur (c.readS y) wv 4096 true false [.cluster] = none → c.check s.cur (c.readS x) wv 4096 false true [.face] = none →
      exec (.pull g x y w) s = through start (n + 1) (.pull (c.readS x) (c.readS y) n (lttCLASS e) (lttFMT e) []) (21 + n * blockCycles (lttCLASS e))) ∧
    (wv = 4096 * n → c.check s.cur (c.readS x) wv 4096 true false [.face] = none → c.check s.cur (c.readS y) wv 4096 false true [.cluster] = none →
      lttCLASS e = 0 ∨ lttFMT e < 10 →
      exec (.push g x y w) s = through start (n + 1) (.push (c.readS x) (c.readS y) n (lttCLASS e) (lttFMT e) []) (21 + n * blockCycles (lttCLASS e))) ∧
    (∀ p fmt, Map.get? c.landing (wv % 16) = some p → p.st ≠ .free → wv / 16 % 4 ≠ wv / 64 % 4 →
      fmt = landWritten (lmFMT p.desc) (c.pageFmt (BitVec.ofNat 64 (lmBASE p.desc))) → tileBytes fmt ≠ 0 → c.ctx.inFlight + min 2 (64 - start) ≤ 64 →
      exec (.cxtile g x w m) s = through start 64 (.cxtile m.toNat p.desc (c.readS x) (wv / 16 % 4) (wv / 64 % 4) fmt) 66) ∧
    (c.readS w = 0 → exec (.pull g x y w) s = s.becomes c ∧ exec (.push g x y w) s = s.becomes c) ∧
    (c.readS y = 0 → exec (.scld g x y) s = s.becomes c)

/-- CXSEND of a box whose elements all match a route and whose checks pass begins a macro-instruction of as many steps as its packets have flits,
one head and one for each 64 bytes of every packet, and keeps its slot busy through c + 1 + F; an element with no route is ROUTE with its index.
-/
def Obligations.CoordinateSends : Prop :=
  ∀ (s : State) (g : BitVec 4) (x y w : BitVec 6) (i : Nat) (entry : BitVec 128) (win : Win), s.on g → s.me.ctx.copyFree s.slot ≤ s.me.ctx.clk →
    let c := s.me
    let a := c.readS x
    let o := c.readS y
    let e (d : Nat) : Nat := laneNat (c.readS w) d 12
    let n := e 0 * e 1 * e 2 * e 3
    let fmt := lttFMT entry
    let z := elemBytes fmt
    c.lookup a.toNat = some (i, entry) → winOf a.toNat = some win → win ≠ .device → frameOk s.cur win entry = true → z ≠ 0 → n ≠ 0 → n ≤ 2 ^ 20 →
    (∀ d, d < 4 → coordOf o d + e d - 1 ≤ 0xFFFF) → c.check s.cur a (n * z) z true false [.face, .cluster] = none →
    (∀ cuts, cutBox c.routes (laneNat (c.readS w) 3 16) o e z (c.startAt (s.slot - 2)) = .ok cuts →
      let total := (cuts.map Cut.flits).sum
      exec (.cxsend g x y w) s = s.becomes ((c.addMacro s.slot 0 total
        (.cxsend a fmt (BitVec.ofNat 16 (laneNat (c.readS w) 3 16)) c.parity c.epoch cuts [])).copyBusy s.slot (total + 2)) ∧
      ∀ k ∈ cuts, k.flits = 1 + (k.count * z + 63) / 64) ∧
    ∀ j, cutBox c.routes (laneNat (c.readS w) 3 16) o e z (c.startAt (s.slot - 2)) = .error j →
      exec (.cxsend g x y w) s = s.becomes (s.fault cROUTE a (BitVec.ofNat 64 j) c)

/-- RTSET, MAPSET and MAPSWAP read their descriptors at c+2, MAPRET acts at the end of c+1, and STRAYPOP removes the oldest stray and delivers it,
or zeros, as three results at c+2. MAPQ delivers at c+2 the word of its slot: its state, remaining drain count and tag, of a FREE slot too, all
other bits 0; and 0 for one in which no map has stood. What the engine tables of a core hold once the work of RTSET, MAPSET, MAPSWAP, MAPRET,
GRPSET and LTTLD falls due. A descriptor that has been read is put into its table one cycle later, a group's two cycles later: a route entry of
KIND 0 is removed, a map stands ACTIVE with its DRAIN while the one that it replaces drains, or is FREE with a retire event where it has nothing
to drain, a group starts at sequence number 0 and unpoisoned, an LTT entry of zeros is none; the checks of the next cycle are the first to see it,
and an LTTINV of the same cycle applies last. MAPRET drains an ACTIVE slot, or frees one at once, tag and remaining count staying; every other
entry of the table, every other core and every byte of memory stays. -/
def Obligations.RoutesMapsAndStrays : Prop :=
  (∀ (s : State) (g : BitVec 4) (x y w : BitVec 6) (r : BitVec 5) (n cl : BitVec 1) (m o : BitVec 4), s.on g →
    let c := s.me
    let timed (lat : Nat) (eoc : Bool) (a : Act) : Out := s.becomes (c.addItem s.slot lat false eoc [a])
    (c.check s.cur (c.readS x) 32 32 true false [.face] = none → exec (.rtset g x r) s = timed 2 false (.rtRead r.toNat (c.readS x))) ∧
    (c.check s.cur (c.readS x) 64 64 true false [.face] = none →
      exec (.mapset g x cl m) s = timed 2 false (.mapRead m.toNat none (cl == 1) (c.readS x)) ∧
      exec (.mapswap g x o cl m) s = timed 2 false (.mapRead m.toNat (some o.toNat) (cl == 1) (c.readS x))) ∧
    exec (.mapret g n cl m) s = timed 1 true (.mapRet m.toNat (cl == 1) (n == 1)) ∧
    (c.ctx.inFlight + 3 ≤ 64 → ∀ p q v : Word, (c.strays = [] → p = 0 ∧ q = 0 ∧ v = 0) →
      (∀ e l, c.strays = e :: l → p.toNat = e.tag.toNat + (if e.parity then 2 ^ 16 else 0) + e.fmt.toNat * 2 ^ 17 + e.src.toNat * 2 ^ 32 + 2 ^ 63 ∧
        q = e.coord ∧ v = e.elem.setWidth 64) →
      exec (.straypop g x y w) s = s.becomes
        (((({ c with strays := c.strays.drop 1 }.addItem s.slot 2 true false [.setS (c.ctx.physS x.toNat) p]).addItem s.slot 2 true false
          [.setS (c.ctx.physS y.toNat) q]).addItem s.slot 2 true false [.setS (c.ctx.physS w.toNat) v])))) ∧
  ((∀ (s : State) (g : BitVec 4) (y : BitVec 6) (cl : BitVec 1) (m : BitVec 4), s.on g → s.roomy →
    exec (.mapq g y cl m) s = s.becomes (s.inFlight 2 [.mapQ (s.me.ctx.physS y.toNat) m.toNat (cl == 1)])) ∧
  ∀ (m0 : Memory) (b : Core) (n : Nat) (i : Item) (s : State) (y m : Nat) (cl : Bool), y ≠ 0 →
    let d := mapDest n cl
    let v := Map.get ((commitAct m0 b n i s (.mapQ y m cl)).core n).ctx.s y 0
    (Map.get? (s.landTable d) m = none → v = 0) ∧
    ∀ p, Map.get? (s.landTable d) m = some p →
      v.extractLsb' 0 2 = (match p.st with | .free => 0 | .active => 1 | .draining => 2) ∧ v.extractLsb' 2 14 = 0 ∧
        v.extractLsb' 16 16 = p.drain ∧ v.extractLsb' 32 16 = BitVec.ofNat 16 (lmTAG p.desc) ∧ v.extractLsb' 48 16 = 0) ∧
  (∀ (m0 : Memory) (b : Core) (n : Nat) (i : Item) (s : State),
    let c := s.core n
    let does (a : Act) : State := commitAct m0 b n i s a
    let quiet (u : State) : Prop := u.mem = s.mem ∧ ∀ j, j ≠ n → u.core j = s.core j
    let later (a : Act) (lat : Nat) (eoc : Bool) (x : Act) : Prop :=
      does a = s.setCore n { c with ctx := { c.ctx with items := c.ctx.items ++ [⟨c.ctx.clk + lat, i.seq, i.slot, false, eoc, i.uid, [x]⟩] } }
    (∀ e ea, later (.rtRead e ea) 1 false (.rtPut e (BitVec.ofNat 256 (c.loadNat m0 n ea 32)))) ∧
    (∀ m old cl ea, later (.mapRead m old cl ea) 1 true (.mapPut m old cl (BitVec.ofNat 512 (c.loadNat m0 n ea 64)))) ∧
    (∀ g ea, later (.grpRead g ea) 2 false (.grpPut g (c.loadBytes m0 n ea 520))) ∧
    (∀ e raw, quiet (does (.rtPut e raw)) ∧ Map.get? ((does (.rtPut e raw)).core n).routes e = (if rtKIND raw = 0 then none else some raw) ∧
      ∀ k, k ≠ e → Map.get? ((does (.rtPut e raw)).core n).routes k = Map.get? c.routes k) ∧
    (∀ g raw, quiet (does (.grpPut g raw)) ∧ Map.get? ((does (.grpPut g raw)).core n).agroups g = some ⟨raw, 0, false⟩ ∧
      ∀ k, k ≠ g → Map.get? ((does (.grpPut g raw)).core n).agroups k = Map.get? c.agroups k) ∧
    (∀ k e, quiet (does (.lttPut k e)) ∧ ((does (.lttPut k e)).core n).ltt = c.ltt ∧
      (c.lttDue = [] → let t := ((does (.lttPut k e)).core n).applyLtt.ltt
        Map.get? t k = (if e = 0 then none else some e) ∧ ∀ j, j ≠ k → Map.get? t j = Map.get? c.ltt j)) ∧
    (∀ (d : Core) (k : Nat) (e : BitVec 128), d.lttDue = [.inv k 1, .fill k e] ∨ d.lttDue = [.fill k e, .inv k 1] → lttV e = true →
      Map.get? d.applyLtt.ltt k = some (e &&& ~~~(1#128 <<< 39))) ∧
    ∀ (m : Nat) (cl : Bool),
      let d := mapDest n cl
      let slot (u : State) (k : Nat) : Option LMap := Map.get? (u.landTable d) k
      let drained (x : LMap) : LMap := if x.drain = 0 then { x with st := .free } else { x with st := .draining }
      (∀ old raw, (does (.mapPut m old cl raw)).mem = s.mem ∧ slot (does (.mapPut m old cl raw)) m = some ⟨raw, .active, BitVec.ofNat 16 (lmDRAIN raw), n⟩ ∧
        (∀ k, k ≠ m → old ≠ some k → slot (does (.mapPut m old cl raw)) k = slot s k) ∧
        ∀ o x, old = some o → o ≠ m → slot s o = some x → x.st = .active → slot (does (.mapPut m old cl raw)) o = some (drained x)) ∧
      ∀ now : Bool, (does (.mapRet m cl now)).mem = s.mem ∧ (∀ k, k ≠ m → slot (does (.mapRet m cl now)) k = slot s k) ∧
        (slot s m = none → does (.mapRet m cl now) = s) ∧
        ∀ x, slot s m = some x →
          (x.st = .free ∨ (x.st = .draining ∧ now = false) → does (.mapRet m cl now) = s) ∧
          (x.st = .active → now = false → slot (does (.mapRet m cl now)) m = some (drained x)) ∧
          (x.st ≠ .free → now = true → slot (does (.mapRet m cl now)) m = some { x with st := .free }) ∧
          (cl = false → m < 16 → x.st ≠ .free → now = true ∨ (x.st = .active ∧ x.drain = 0) →
            ((does (.mapRet m cl now)).core n).sysCtx.mapstat.getLsbD m = true))

/-! ## Slot 7 (R207 to R215) -/

/-- Slot 7 outside a waybill step: SEND hands its vector to the fabric for the partner's c + 6 + 2h; a receive of a present peer takes what
arrives in its cycle; GRPSET reads its descriptor at c+2; WBRUN begins its steps; the trigger instructions act at c+2; CCINC hands over its
increment. A node that is no peer is PEER; WBRUN while a waybill runs, and every one of these instructions in the cycle of a waybill step, is
II_VIOLATION. That a WBRUN needs room for three results is the model's choice (log entry 56, DESIGN CHOICE). MCLDR by a present member of an
unpoisoned group reads its operand at c+2, joins the collective of this schedule count with its sequence number and advances that number; an
absent unit does nothing, in a waybill-step cycle too; a poisoned group, or one that does not list the unit, is COLLECTIVE_ORDER. That a poisoned
group is reported whatever the address of its MCLDR is the model's (log entry 36, DEDUCED). -/
def Obligations.SlotSevenInstructions : Prop :=
  (∀ (s : State) (g t : BitVec 4) (v : BitVec 7) (a : BitVec 6) (f : BitVec 2) (n3 o : BitVec 3) (n w : BitVec 5) (n9 : BitVec 9), s.on g →
    let c := s.me
    let node := (c.readS a).toNat
    let dest := c.ctx.physV v.toNat
    let timed (a : Act) : Out := s.becomes (c.addItem s.slot 2 false false [a])
    let ii := s.becomes (s.fault cII (BitVec.ofNat 64 s.slot) 0 c)
    (c.ctx.wbAt ≠ c.ctx.clk + 1 →
      (∀ m l, s.peerCore c node = some m → Map.get? s.launches c.launch = some l →
        let path := l.path (c.node / 8) (node / 8)
        exec (.send g v a) s = s.becomes { c with emits := c.emits ++
          [.flight (s.tickOf c + 6 + 2 * path.length) path (.directSend m c.node (c.readV v) 0)] }) ∧
      (∀ m, s.peerCore c node = some m → s.roomy →
        exec (.recv g v a) s = s.becomes { c with recv := some (node, .vec dest) } ∧
        (f.toNat < 2 → exec (.recvadd g v a f) s = s.becomes { c with recv := some (node, .add dest f.toNat) } ∧
          exec (.recvmax g v a f) s = s.becomes { c with recv := some (node, .max dest f.toNat) })) ∧
      (s.peerCore c node = none → exec (.send g v a) s = s.becomes (s.fault cPEER (c.readS a) 0 c) ∧
        (s.roomy → exec (.recv g v a) s = s.becomes (s.fault cPEER (c.readS a) 0 c))) ∧
      (c.check s.cur (c.readS a) 520 8 true false [.face] = none → exec (.grpset g a n3) s = timed (.grpRead n3.toNat (c.readS a))) ∧
      ((∀ m ∈ c.ctx.macros, ∀ x k r q p l, m.work ≠ .waybill x k r q p l) → n9 ≠ 0 →
        c.ctx.inFlight + min 3 (n9.toNat - c.startAt 6) ≤ 64 → c.check s.cur (c.readS a) (32 * n9.toNat) 32 true false [.face] = none →
        let start := c.startAt 6
        let at_ := c.readS a + BitVec.ofNat 64 (32 * start)
        let e : BitVec 256 := BitVec.ofNat 256 (ofBytes ((List.range 32).map fun i => s.startByte (c.keyOf s.cur (at_.toNat + i))))
        let begins (read last : Nat) (l : List (BitVec 256)) : Out := s.becomes (c.addMacro s.slot start n9.toNat (.waybill (c.readS a) n9.toNat read last 1 l))
        (wbOFFSET e ≠ 2 → exec (.wbrun g a n9) s = begins start 1 []) ∧
        (wbOFFSET e = 2 → start < n9.toNat → s.poison = [] → exec (.wbrun g a n9) s = begins (start + 1) 2 [e])) ∧
      exec (.ttarm g a n t) s = timed (.armTime t.toNat (c.readS a) n.toNat) ∧
      exec (.ctarm g w a n t) s = timed (.armCounter t.toNat w.toNat (c.readS a) n.toNat) ∧
      exec (.trdis g t) s = timed (.disarm t.toNat) ∧
      (o.toNat < 5 → exec (.ccinc g a o n) s = s.becomes { c with emits := c.emits ++
        [.incr ⟨c.partId.toNat, c.launch, n.toNat, if a = 0 then 1 else BitVec.ofNat 64 ((c.readS a).toNat % 2 ^ 32), o.toNat, s.cur, c.cover⟩] })) ∧
    (c.ctx.wbAt = c.ctx.clk + 1 →
      exec (.send g v a) s = ii ∧ exec (.recv g v a) s = ii ∧
      (f.toNat < 2 → exec (.recvadd g v a f) s = ii ∧ exec (.recvmax g v a f) s = ii) ∧ exec (.grpset g a n3) s = ii ∧
      (n9 ≠ 0 → exec (.wbrun g a n9) s = ii) ∧ exec (.ttarm g a n t) s = ii ∧ exec (.ctarm g w a n t) s = ii ∧ exec (.trdis g t) s = ii ∧
      (o.toNat < 5 → exec (.ccinc g a o n) s = ii)) ∧
    -- a waybill that runs (R213)
    (∀ m ∈ c.ctx.macros, ∀ x k r q p l, m.work = .waybill x k r q p l → n9 ≠ 0 → exec (.wbrun g a n9) s = ii)) ∧
  (∀ (s : State) (g : BitVec 4) (v : BitVec 7) (a : BitVec 6) (o : BitVec 2) (n : BitVec 3) (gr : AGroup), s.on g → o ≠ 3 →
    Map.get? s.me.agroups n.toNat = some gr →
    let c := s.me
    let absent : Prop := ∃ i, ((List.range (grCOUNT gr.desc)).find? fun j => grNODE gr.desc j == c.node) = some i ∧ grABSENT gr.desc i = true
    (absent → exec (.mcldr g v a o n) s = s.becomes c) ∧
    (¬ absent → c.ctx.wbAt = c.ctx.clk + 1 → exec (.mcldr g v a o n) s = s.becomes (s.iiViolation c)) ∧
    (c.ctx.wbAt ≠ c.ctx.clk + 1 → ∀ i, ((List.range (grCOUNT gr.desc)).find? fun j => grNODE gr.desc j == c.node) = some i →
      (grABSENT gr.desc i = false → ¬ s.roomy → exec (.mcldr g v a o n) s = s.becomes (s.iiViolation c)) ∧
      let ea := BitVec.ofNat 64 (grWBASE gr.desc i) + c.readS a
      (grABSENT gr.desc i = false → s.roomy → gr.poison = true → exec (.mcldr g v a o n) s = s.becomes (s.fault cCOLL (n.setWidth 64) 0 c)) ∧
      (grABSENT gr.desc i = false → s.roomy → gr.poison = false → c.check s.cur ea 256 256 true false [.face] = none →
        ∃ d, exec (.mcldr g v a o n) s = s.becomes d ∧ Map.get? d.agroups n.toNat = some { gr with seq := gr.seq + 1 } ∧
          (∀ m, m ≠ n.toNat → Map.get? d.agroups m = Map.get? c.agroups m) ∧ d.v = c.v ∧ d.ctx.s = c.ctx.s ∧
          d.ctx.items = c.ctx.items ++ [⟨c.ctx.clk + 2, c.ctx.clk, s.slot, true, false, c.nextUid, [.mcRead n.toNat ea]⟩] ∧
          d.emits = c.emits ++ [.mcldr n.toNat o.toNat gr.seq (c.ctx.clk - c.ctx.base) gr.desc (c.ctx.physV v.toNat) (c.ctx.physS a.toNat)])) ∧
    (c.ctx.wbAt ≠ c.ctx.clk + 1 → ((List.range (grCOUNT gr.desc)).find? fun j => grNODE gr.desc j == c.node) = none →
      exec (.mcldr g v a o n) s = s.becomes (s.fault cCOLL (n.setWidth 64) 0 c)))

/-! ## Slot 0 (R98 to R111) -/

/-- NOP starts nothing. A taken transfer names its target: BR and CALL the address of their own bundle plus their signed offset, JMP and RET the
register's word; CALL puts the next sequential address in flight to s31. At the end of the bundle issue goes to that target, and with no transfer
to the next line. -/
def Obligations.ControlTransfers : Prop :=
  ∀ (s : State) (t : BitVec 7) (g : BitVec 4) (o : BitVec 15) (xw : Option (BitVec 32)) (a : BitVec 6), s.on g →
    let c := s.me
    let off : Word := match xw with | none => o.signExtend 64 | some e => (e ++ o).signExtend 64
    let full (x : Word) : Prop := isPacked (lineAt s.mem s.cur (x.toNat / 16)) = false
    exec (.nop t) s = .next s ∧
    exec (.br t g o xw) s = s.becomes (c.jumpTo (c.ctx.pc + off)) ∧
    exec (.jmp t g a) s = s.becomes (c.jumpTo (c.readS a)) ∧
    exec (.ret t g a) s = s.becomes (c.jumpTo (c.readS a)) ∧
    (s.roomy → exec (.call t g o xw) s =
      s.becomes ((c.addItem 0 1 true false [.setS 31 (normAt s.mem s.cur (seqNext s.mem s.cur c.ctx.pc))]).jumpTo (c.ctx.pc + off))) ∧
    -- the return address names word 1 of a packed line as line × 16 + 1 (R75)
    (∀ x : Word, x.toNat < 2 ^ 17 → x.toNat % 16 = 0 → isPacked (lineAt s.mem s.cur (x.toNat / 16)) = true → normAt s.mem s.cur x = x + 1) ∧
    (full c.ctx.pc → seqNext s.mem s.cur c.ctx.pc = BitVec.ofNat 64 ((c.ctx.pc.toNat / 16 + 1) * 16)) ∧
    (∀ x : Word, x.toNat < 2 ^ 17 → full x → ((c.jumpTo x).advance s.mem s.cur).ctx.pc = x ∧ ((c.jumpTo x).advance s.mem s.cur).ctx.rep = 0) ∧
    (c.ctx.ctl.jump = none → full c.ctx.pc → full (BitVec.ofNat 64 ((c.ctx.pc.toNat / 16 + 1) * 16)) →
      (c.advance s.mem s.cur).ctx.pc = BitVec.ofNat 64 ((c.ctx.pc.toNat / 16 + 1) * 16))

/-- LOOP outside a loop sets the loop engine from the next bundle on, with a count of 0 it issues on after the body, and within a loop it is
ILLEGAL; LEXIT leaves a loop for the position after the body and clears the stages, and outside a loop performs nothing. At an iteration boundary
with no quench requested LROT falls by one, the count by one down to 0, the stages shift and the first is set while iterations remain; the loop
goes on at FIRST while a stage is set and otherwise ends; no other core and no byte of memory changes. -/
def Obligations.LoopEngine : Prop :=
  (∀ (s : State) (t : BitVec 7) (g : BitVec 4) (a : BitVec 6) (n : BitVec 4) (b : BitVec 5) (xw : Option (BitVec 32)),
    s.on g → s.me.ctx.ctl.fin = [] → (Instr.loop t g a n b xw).wf = true →
    let c := s.me
    let first := seqNext s.mem s.cur c.ctx.pc
    let len : Nat := match xw with | none => b.toNat | some e => (e.extractLsb' 0 17).toNat
    (c.ctx.la = false → c.ctx.qreq = false → ∃ d, exec (.loop t g a n b xw) s = s.becomes d ∧ d.ctx.lcnt = c.ctx.lcnt ∧ d.ctx.la = false ∧
      d.ctx.ctl.jump = (if c.readS a = 0 then some (walkPositions s.mem s.cur len first) else c.ctx.ctl.jump) ∧
      let x := d.applyFin.ctx
      x.la = decide (c.readS a ≠ 0) ∧ x.lcnt = c.readS a ∧ x.lrot = 0 ∧ x.lN.toNat = n.toNat + 1 ∧ x.lQD = false ∧
        x.sv = (if c.readS a = 0 then 0 else 1) ∧ (first.toNat < 2 ^ 17 → x.lFirst.toNat = first.toNat) ∧ x.lLen.toNat = len ∧ x.s = c.ctx.s) ∧
    (c.ctx.la = true → exec (.loop t g a n b xw) s = s.becomes (s.illegal c)) ∧
    (c.ctx.la = true → ∃ d, exec (.lexit t g) s = s.becomes d ∧
      d.ctx.ctl.jump = some (walkPositions s.mem s.cur c.ctx.lLen.toNat (c.ctx.lFirst.setWidth 64)) ∧
      d.applyFin.ctx.la = false ∧ d.applyFin.ctx.sv = 0 ∧ d.applyFin.ctx.lcnt = c.ctx.lcnt) ∧
    (c.ctx.la = false → exec (.lexit t g) s = s.becomes c)) ∧
  (∀ (s : State) (n : Nat), (s.core n).ctx.la = true → (s.core n).ctx.qreq = false → (s.core n).ctx.items = [] →
    let c := (s.core n).ctx
    ∃ u, exec (.iterationBoundary n) s = .next u ∧ (∀ j, j ≠ n → u.core j = s.core j) ∧ u.mem = s.mem ∧
      let x := (u.core n).ctx
      x.lrot = c.lrot - 1 ∧ x.lcnt = (if c.lcnt = 0 then 0 else c.lcnt - 1) ∧
        (∀ i, i < 16 → x.sv.getLsbD i = if i = 0 then decide (1 < c.lcnt.toNat) else decide (i < c.lN.toNat) && c.sv.getLsbD (i - 1)) ∧
        x.la = decide (x.sv ≠ 0) ∧ (x.sv ≠ 0 → x.pc = normAt s.mem n (c.lFirst.setWidth 64)) ∧ x.s = c.s)

/-- A wait whose condition holds at issue performs nothing, and any other ends the bundle in a dynamic wait: on global time, the pending bits of
tiles, a counter that is not cancelled, or bank ownership. SYNC, BAR and BARNS count the arrival of a member and wait. BKREL joins the delay line
for c+4. A barrier group that is unused is ORPHAN_WAIT. -/
def Obligations.WaitsAndBarriers : Prop :=
  ∀ (s : State) (t : BitVec 7) (g : BitVec 4) (a : BitVec 6) (n : BitVec 3) (cc : BitVec 5) (m : BitVec 8) (sh : BitVec 1) (xw : Option (BitVec 32)),
    s.on g →
    let c := s.me
    let waits (cond : Prop) (w : Wait) (o : Out) : Prop := (cond → o = s.becomes c) ∧ (¬cond → o = s.becomes (c.waitFor w))
    let due : Int := ((c.readS a).toNat : Int) + match xw with | none => 0 | some e => e.toInt * 65536
    let banks : BitVec 16 := if sh = 1 then m ++ 0#8 else 0#8 ++ m
    waits (due ≤ (s.gt : Int)) (.time due) (exec (.waitt t g a xw) s) ∧
    (m ≠ 0 → (∀ i, i < 8 → m.getLsbD i = true → c.tilePend.getLsbD i = true → c.tileTargeted i = true) →
      waits (c.tilePend &&& m = 0) (.tiles m) (exec (.twait t g m) s)) ∧
    waits (c.readS a ≤ (s.counterOf c cc.toNat).1 ∧ (s.counterOf c cc.toNat).2 = false) (.counter cc.toNat (c.readS a)) (exec (.ccwait t g a cc) s) ∧
    (m ≠ 0 → banks &&& ~~~(c.owned ||| c.passing) = 0 → waits (c.owned &&& banks = banks) (.banks banks) (exec (.bkacq t g sh m) s)) ∧
    (m ≠ 0 → exec (.bkrel t g sh m) s = s.becomes (c.addItem 0 4 false false [.bkrel banks])) ∧
    (∀ b, Map.get? c.bgroups n.toNat = some b → b.members.contains c.unitId.toNat = true → c.ctx.wre = false →
      let arrived (bar sync : Bool) : Core := { c with bgroups := Map.put c.bgroups n.toNat { b with arrived := true, bar := bar, sync := sync } }
      exec (.sync t n) s = s.becomes ((arrived false true).waitFor (.sync n.toNat)) ∧
      exec (.barns t n) s = s.becomes ((arrived false false).waitFor (.barrier n.toNat)) ∧
      (c.lazyPages = 0 → exec (.bar t n) s = s.becomes ((arrived true false).waitFor (.barrier n.toNat)))) ∧
    (Map.get? c.bgroups n.toNat = none →
      exec (.sync t n) s = s.becomes (s.fault cORPHAN (n.setWidth 64) 0 c) ∧ exec (.barns t n) s = s.becomes (s.fault cORPHAN (n.setWidth 64) 0 c))

/-- UEND ends the unit after its bundle; QPOINT makes QUENCH due only where one is requested; IFENCE, DRAINNT and QFENCE place their fences; TRAP
makes SOFTWARE due with its code; BRK takes BREAKPOINT with its tag; PACK issues the table's bundle that the line's word names. -/
def Obligations.EndsFencesAndTraps : Prop :=
  ∀ (s : State) (t : BitVec 7) (g k : BitVec 4) (x : BitVec 8), s.on g →
    let c := s.me
    let due (t : Trap) : Out := s.becomes { c with ctx := { c.ctx with ctl := { c.ctx.ctl with soft := some t } } }
    exec (.uend t g) s = s.becomes { c with ctx := { c.ctx with ctl := { c.ctx.ctl with uend := true } } } ∧
    (c.ctx.qreq = true → c.mode = 0 → exec (.qpoint t g) s = due ⟨cQUENCH, 0, false, 1, 0⟩) ∧
    (c.ctx.qreq = false → exec (.qpoint t g) s = s.becomes c) ∧
    exec (.ifence t g) s = s.becomes { c with ctx := { c.ctx with fence := true } } ∧
    (∃ l : List QEntry, exec (.drainnt t g) s = s.becomes { c with nt := l } ∧ l.length = c.nt.length ∧
      ∀ (i : Nat) (e : QEntry), c.nt[i]? = some e → ∃ f : QEntry, l[i]? = some f ∧ f.drained = some (e.drained.getD c.epoch) ∧ f.uid = e.uid ∧ f.kind = e.kind ∧ f.row = e.row) ∧
    exec (.qfence t g) s = s.becomes { c with epoch := c.epoch + 1 } ∧
    exec (.trap t g x) s = due ⟨cSOFTWARE, 0, false, x.setWidth 64, 0⟩ ∧
    exec (.brk t x) s = s.becomes (s.fault cBREAK (x.setWidth 64) 0 c) ∧
    (let l := lineAt s.mem s.cur (c.ctx.pc.toNat / 16)
     let entry := BitVec.ofNat 256 (memNat s.mem (patKey s.cur (32 * ((packWord l (wordOf c.ctx.pc)).extractLsb' 7 9).toNat)) 32)
     k ≠ 0 → k ≠ 15 → c.line = none → isPacked l = true → c.mode = 0 → l.toNat >>> (32 + 16 * k.toNat) = 0 → isPacked entry = false →
      exec (.pack k) s = s.becomes { c with line := some entry })

/-! ## Runtime mode, traps and their return (R216 to R228, R244 to R248) -/

/-- The seven runtime instructions take PRIVILEGE in tenant mode. Outside it, with their checks passed, each performs: ERET and SNAPREL at the end
of their bundle or after 384 cycles, SNAPST, CTXSAVE and CTXREST in their cycles, LTTLD from c+2 on, LTTINV at c+1. A save area that is misaligned
is ALIGN, one with a page outside the partition's device memory, on an offline stack or unpinned SAVE_AREA with the first such address; an image
that is none, or whose MODE or FQN an ERET refuses, is FORMAT, a page that no face entry covers OUT_OF_TABLE, a range outside the table FORMAT, a
misaligned table image ALIGN, and the wrong ERET or SNAPST for SH is ILLEGAL. That CTXSAVE writes its whole area by one act in the last of its
10,384 cycles, after a drain that starts at the end of its bundle, and that LTTLD holds issue for 2 + ⌈N/4⌉ cycles, is the model's (log entry 38,
DEDUCED). -/
def Obligations.RuntimeInstructions : Prop :=
  ∀ (s : State) (t : BitVec 7) (a b : BitVec 6) (m : BitVec 2), a ≠ 0 → m ≠ 3 → m = 2 ∨ b = 0 →
    let c := s.me
    let p := c.readS a
    let held (n : Nat) (x : Act) : Out := s.becomes { c.addItem 0 (n - 1) false false [x] with holdTo := s.tickOf c + n }
    (c.mode = 0 →
      let f := s.becomes (s.fault cPRIVILEGE (BitVec.ofNat 64 s.slot) 0 c)
      exec (.eret t a) s = f ∧ exec (.snapst t a) s = f ∧ exec (.snaprel t) s = f ∧ exec (.ctxsave t a) s = f ∧ exec (.ctxrest t a b m) s = f ∧
        exec (.lttld t a b) s = f ∧ exec (.lttinv t a) s = f) ∧
    (c.mode ≠ 0 →
      (c.sh = true → exec (.eret t 0) s = s.becomes (c.addFin (.snapRest none))) ∧
      (c.sh = false → saveCheck s c p 0x18000 = none → imageMagic s.mem p.toNat = true → memNat s.mem (p.toNat + 0x100) 8 % 4 < 2 →
        memNat s.mem (p.toNat + 6) 1 ≤ 64 → exec (.eret t a) s = held 385 (.snapRest (some p))) ∧
      (c.sh = true → saveCheck s c p 0x18000 = none → exec (.snapst t a) s = held 384 (.snapSave p)) ∧
      exec (.snaprel t) s = s.becomes (c.addFin .snapRel) ∧
      (saveCheck s c p 0x2A1000 = none →
        exec (.ctxsave t a) s = s.becomes (c.addFin (.ctxDrain p)) ∧
        (imageMagic s.mem p.toNat = true → m ≠ 2 ∨ (winOf (c.readS b).toNat = some .face ∧ (c.lookup (c.readS b).toNat).isSome = true) →
          exec (.ctxrest t a b m) s = held (if m = 0 then 10384 else if m = 1 then 6288 else 64) (.ctxRest p m.toNat (c.readS b)))) ∧
      (∀ v e n : Nat, e = v % 2 ^ 10 → n = v / 2 ^ 16 % 2 ^ 11 → 1 ≤ n → e + n ≤ 1024 →
        ((c.readS b).toNat = v → p.toNat % 16 = 0 → exec (.lttld t a b) s =
          s.becomes { c.addMacro 0 0 n (.lttld p e n) with holdTo := s.tickOf c + (2 + (n + 3) / 4) }) ∧
        (p.toNat = v → exec (.lttinv t a) s = s.becomes (c.addFin (.lttInv e n))))) ∧
    -- where the runtime instructions stop (R218, R220, R221, R224, R227, R228)
    (c.mode ≠ 0 →
      let stops (i : Instr) (code : Nat) (v : Word) : Prop := exec i s = s.becomes (s.fault code v 0 c)
      let bad (v : Word) : Prop := (v.extractLsb' 16 11).toNat = 0 ∨ 1024 < (v.extractLsb' 16 11).toNat ∨
        1024 < (v.extractLsb' 0 10).toNat + (v.extractLsb' 16 11).toNat
      (c.sh = true → exec (.eret t a) s = s.becomes (s.illegal c)) ∧
      (c.sh = false → exec (.eret t 0) s = s.becomes (s.illegal c) ∧ exec (.snapst t a) s = s.becomes (s.illegal c)) ∧
      (∀ code v, (saveCheck s c p 0x18000 = some (code, v) → (c.sh = false → stops (.eret t a) code v) ∧ (c.sh = true → stops (.snapst t a) code v)) ∧
        (saveCheck s c p 0x2A1000 = some (code, v) → stops (.ctxsave t a) code v ∧ stops (.ctxrest t a b m) code v)) ∧
      (c.sh = false → saveCheck s c p 0x18000 = none → imageMagic s.mem p.toNat = false ∨ 2 ≤ memNat s.mem (p.toNat + 0x100) 8 % 4 ∨
        64 < memNat s.mem (p.toNat + 6) 1 → stops (.eret t a) cFORMAT p) ∧
      (saveCheck s c p 0x2A1000 = none → (imageMagic s.mem p.toNat = false → stops (.ctxrest t a b m) cFORMAT p) ∧
        (imageMagic s.mem p.toNat = true → m = 2 → winOf (c.readS b).toNat ≠ some .face ∨ c.lookup (c.readS b).toNat = none →
          stops (.ctxrest t a b m) cTABLE (c.readS b))) ∧
      (bad (c.readS b) → stops (.lttld t a b) cFORMAT (c.readS b)) ∧ (¬ bad (c.readS b) → p.toNat % 16 ≠ 0 → stops (.lttld t a b) cALIGN p) ∧
      (bad p → stops (.lttinv t a) cFORMAT p) ∧
      ∀ len, (p.extractLsb' 52 12 ≠ 0 ∨ p.extractLsb' 0 12 ≠ 0 → saveCheck s c p len = some (cALIGN, p)) ∧
        ∀ q, p.extractLsb' 52 12 = 0 → p.extractLsb' 0 12 = 0 → s.partOf c = some q →
          let kept (x : Nat) : Prop := inDevice x = true ∧ (s.msu (msuOf x)).offline = false ∧
            ∃ e, leafOver s.mem 3 q.system.toNat x = some e ∧ ptePIN e = true
          ((∀ x ∈ pageStarts p.toNat len, kept x) → saveCheck s c p len = none) ∧
          ∀ l x r, pageStarts p.toNat len = l ++ x :: r → (∀ y ∈ l, kept y) → ¬ kept x → saveCheck s c p len = some (cSAVE, BitVec.ofNat 64 x)) ∧
    -- CTXSAVE at the end of its bundle: it writes for 10,384 cycles from the cycle in which the handler's delay lines have drained (R222)
    ∀ (k first y : Nat), (s.core k).tail = none → (s.core k).ctx.drainedAt first = some y →
      let d := s.core k
      s.ctxDrain k p first = s.setCore k { d with
        ctx := { d.ctx with items := d.ctx.items ++ [⟨y + 10383, d.ctx.clk, 0, false, false, d.nextUid, [.ctxSave p]⟩] }
        nextUid := d.nextUid + 1, holdTo := s.tickOf d + (y - d.ctx.clk + 10384) }

/-- Taking a trap with TM clear: the delay lines and the saved registers stand in the held snapshot, MODE becomes runtime, TM and SH are set, and
the handler issues from HVEC four cycles after the stop cycle; vector, mask and tile registers are untouched. XFER of EPC is set for every
transfer taken, also for those of LEXIT and of a LOOP with count 0, which is the model's choice (log entry 60, DESIGN CHOICE). With TM set no
handler runs, and the core enters firmware mode and its partition is to halt. The return from a trap: the context held is live again, MODE is the
one that it stood in, TM and SH are clear, and the core waits ready for its group; issue goes on at EPC with its repeat count and its committed
transfer, whatever a handler has written there. A trap and its return leave scalars, predicates, delay lines and system registers as they stood.
-/
def Obligations.TrapEntryAndReturn : Prop :=
  (∀ (c : Core) (tick clk sres : Nat) (t : Trap) (pc : Word) (rep : BitVec 7),
    let d := c.takeTrap tick clk sres t pc rep
    (c.tm = false → d.mode = 1 ∧ d.tm = true ∧ d.sh = true ∧ d.run = .run ∧ d.holdTo = tick + 4 ∧ d.line = none ∧
      d.ctx.pc = BitVec.ofNat 64 (c.hvec.toNat % 2 ^ 17) ∧ d.ctx.items = [] ∧ d.ctx.macros = [] ∧ d.ctx.s = c.ctx.s ∧ d.ctx.p = c.ctx.p ∧
      d.v = c.v ∧ d.k = c.k ∧ d.tiles = c.tiles ∧ d.qa = c.qa ∧ d.qb = c.qb ∧
      ∃ x, d.held = some x ∧ x.items = c.ctx.items ∧ x.macros = c.ctx.macros ∧ x.mx = c.ctx.mx ∧ x.s = c.ctx.s ∧ x.p = c.ctx.p ∧ x.vstat = c.ctx.vstat ∧
        x.mode = c.mode ∧ x.clk = clk ∧ x.pc = pc ∧ x.rep = rep ∧ x.fval = t.fval ∧ x.felem = t.felem ∧ x.sres = BitVec.ofNat 3 sres ∧
        x.qreq = (c.ctx.qreq && decide (t.code ≠ cQUENCH)) ∧
        (t.code < 256 → t.orig < 16 → x.cause.extractLsb' 0 8 = BitVec.ofNat 8 t.code ∧ x.cause.extractLsb' 8 4 = BitVec.ofNat 4 t.orig ∧
          x.cause.getLsbD 12 = t.late ∧ x.cause.extractLsb' 13 51 = 0) ∧
        x.epc.extractLsb' 0 17 = pc.setWidth 17 ∧ x.epc.extractLsb' 17 7 = rep ∧ x.epc.getLsbD 24 = c.ctx.ctl.jump.isSome ∧
        (∀ j, c.ctx.ctl.jump = some j → x.epc.extractLsb' 25 17 = j.setWidth 17)) ∧
    (c.tm = true → d = { c with run := .dead, mode := 2, line := none, emits := c.emits ++ [.halt] })) ∧
  ((∀ (c : Core) (x : Ctx) (mode : BitVec 2),
    let d := c.eret mode x
    d.mode = mode ∧ d.tm = false ∧ d.sh = false ∧ d.held = none ∧ d.run = .ready ∧
      d.ctx.s = x.s ∧ d.ctx.items = x.items ∧ d.ctx.vstat = x.vstat ∧ d.ctx.pc = (x.epc.extractLsb' 0 17).setWidth 64 ∧
      d.ctx.rep = x.epc.extractLsb' 17 7 ∧
      d.ctx.ctl.jump = (if x.epc.getLsbD 24 then some ((x.epc.extractLsb' 25 17).setWidth 64) else none) ∧
      (x.lQD = false → d.ctx.p = x.p) ∧ d.v = c.v ∧ d.k = c.k ∧ d.tiles = c.tiles) ∧
  (∀ (c : Core) (tick clk sres : Nat) (t : Trap) (pc : Word) (rep : BitVec 7) (x : Ctx), c.tm = false → pc.toNat < 2 ^ 17 → c.ctx.lQD = false →
    (c.takeTrap tick clk sres t pc rep).held = some x →
    let d := (c.takeTrap tick clk sres t pc rep).eret x.mode x
    d.mode = c.mode ∧ d.tm = false ∧ d.ctx.pc = pc ∧ d.ctx.rep = rep ∧ d.ctx.s = c.ctx.s ∧ d.ctx.p = c.ctx.p ∧ d.ctx.items = c.ctx.items ∧
      d.ctx.lcnt = c.ctx.lcnt ∧ d.ctx.lrot = c.ctx.lrot ∧ d.ctx.la = c.ctx.la ∧ d.ctx.vstat = c.ctx.vstat ∧ d.ctx.vrm = c.ctx.vrm ∧
      d.v = c.v ∧ d.k = c.k ∧ d.tiles = c.tiles))

/-! ## Timing groups and arrivals (R28 to R32, R105, R106, R202 to R211, R246, R253 to R255, R312, R313, R338) -/

/-- The events of a timing group, each from every state in which it is due. A member that learns of a stall stops and records its schedule count;
a restart at Q gives every member outside SYNC its cycle Q + RSKEW; at a barrier's release each member leaves its arrival and one that issued BAR
swaps its banks, ownership and parity; a pending event is taken as a trap; past the quench limit every unit with QREQ is forced; the watchdog
counts one microsecond in every unit; a debugger halt stops its unit before its bundle. -/
def Obligations.GroupEvents : Prop :=
  ∀ (s : State) (n g : Nat),
    let c := s.core n
    let t := s.tickOf c
    (c.stopAt.isSome = true → c.live = true → c.ctx.qreq = false → ∃ u, exec (.groupStall n) s = .next u ∧ u.mem = s.mem ∧
      (u.core n).run = .stop ∧ (u.core n).stopAt = none ∧ (u.core n).stopped = some (c.ctx.clk - c.ctx.base, t)) ∧
    (∀ q x, s.restartCycle g = some q → Map.get? s.groups g = some x →
      ∃ u, exec (.groupResume g) s = .next u ∧ u.mem = s.mem ∧
        (∃ y, Map.get? u.groups g = some y ∧ y.stalled = false ∧ y.members = x.members) ∧
        ∀ m ∈ s.groupCores g, (s.core m).inSync = false → (u.core m).restart = some (q + (s.core m).ctx.rskew.toNat)) ∧
    (c.group = g → exec (.dynamicWaitRelease n) s = exec (.groupResume g) s) ∧
    (s.allArrived c g = true → (s.barrierCores c g).Nodup → (∀ m ∈ s.barrierCores c g, (s.core m).run = .wait (.barrier g)) →
      (∀ m ∈ s.barrierCores c g, ∀ b, Map.get? (s.core m).bgroups g = some b → b.sync = false) →
      s.justArrived n g = false → n ∈ s.barrierCores c g → ∃ u, exec (.barrierRelease n g) s = .next u ∧ u.mem = s.mem ∧
        ∀ m ∈ s.barrierCores c g, ∀ b, Map.get? (s.core m).bgroups g = some b →
          (u.core m).arrivedAt g = false ∧ (u.core m).sat = some t ∧ (u.core m).swapped = (b.bar != (s.core m).swapped) ∧
            (u.core m).parity = (b.bar != (s.core m).parity) ∧
            (u.core m).owned = (if b.bar then (s.core m).owned.extractLsb' 0 8 ++ (s.core m).owned.extractLsb' 8 8 else (s.core m).owned)) ∧
    (∀ e, s.atBoundary c = true → firstEvent c.pending = some e → ∃ u, exec (.pendingEvent n) s = .next u ∧ u.mem = s.mem ∧
      (∀ m, m ≠ n → u.core m = s.core m) ∧ (u.core n).mode = 1 ∧ (u.core n).tm = true ∧ (u.core n).holdTo = t + 4 ∧
      (u.core n).events = c.events.erase e ∧ ∃ x, (u.core n).held = some x ∧ x.cause = causeOf e ∧ x.fval = e.fval) ∧
    (∀ k l, Map.get? s.launches k = some l → ∃ u, exec (.forcedQuench k) s = .next u ∧ u.mem = s.mem ∧
      (∀ m, (s.core m).run ≠ .idle → (s.core m).launch = k → (s.core m).sysCtx.qreq = true → u.core m = { s.core m with forced := true }) ∧
      (∀ m, (s.core m).launch ≠ k → u.core m = s.core m)) ∧
    (∀ k l, Map.get? s.launches k = some l → s.watches k l = true → l.wdogAt + gtMicro ≤ s.gt → 1 < l.wdog →
      ∃ u, exec (.watchdog k) s = .next u ∧ u.mem = s.mem ∧ (∃ y, Map.get? u.launches k = some y ∧ y.wdog = l.wdog - 1 ∧ y.wdogAt = l.wdogAt + gtMicro) ∧
        (∀ m, (s.core m).run ≠ .idle → (s.core m).launch = k → (u.core m).ctx.wdog = l.wdog - 1 ∧ (u.core m).run = (s.core m).run) ∧
        ∀ m, (s.core m).launch ≠ k → u.core m = s.core m) ∧
    (∀ x, c.run = .run → c.mode = 0 → Map.get? s.groups c.group = some x → ∃ u, exec (.debuggerHalt n) s = .next u ∧ u.mem = s.mem ∧
      (∀ m, m ≠ n → u.core m = s.core m) ∧ (u.core n).run = .stop ∧ (u.core n).line = none ∧
      (u.core n).stopped = some (c.ctx.clk - c.ctx.base, t) ∧ ∃ y, Map.get? u.groups c.group = some y ∧ y.halt = true)

/-- What arrives: a direct send or a waybill's bytes join the arrivals of a core that runs, or are held with their due count for one that is
stopped, and with a bad header halt the partition; a contribution becomes its member's value, and with a bad header halts the partition; a
collective's result joins what its issuer commits in that cycle, in the order of its MCLDR, with its status, or its event is raised; one that is
poisoned is discarded and raises PAYLOAD_ERROR in every unit, and one with a bad header halts the partition; a packet lands element by element, is
held for a stopped core, and with an uncorrectable or reserved header halts its partition. The model's choices: which header values are reserved
and which router is logged (log entry 20, DESIGN CHOICE), and COLLECTIVE_ORDER alone, before a missing contribution (log entry 46, DEDUCED). An
element that one map alone takes: the map an ACTIVE one, its converted value is written at the address that its coordinates give, every other byte
of memory is unchanged, and no core changes. A packet for cores, whether its route names one or several: the sending of a multicast puts a copy on
its way to each node of MASK, every one due at its own h; a copy lands element by element in the table of a core that runs. Of several maps that
take an element the highest PRIO decides, then DRAINING over ACTIVE, then the lowest slot, with OVERLAP. The element is written into the shadow
bank, and a DRAINING map counts down and retires at 0. An element that no map takes enters the stray buffer of its core, a cluster's that of its
lowest core that runs a unit of the partition, or of the sender, and is otherwise discarded and logged; the buffer holds four, and a stray beyond
them sets OVF. -/
def Obligations.ArrivalEvents : Prop :=
  (∀ (s : State) (n src : Nat) (data : Vec),
    let c := s.core n
    (c.stopped = none →
      exec (.directSend n src data 0) s = .next (s.setCore n { c with arrived := c.arrived ++ [⟨src, some data⟩] }) ∧
      exec (.waybillMemoryTransfer n src data 0) s = .next (s.setCore n { c with arrived := c.arrived ++ [⟨src, some data⟩] })) ∧
    (∀ S k, c.stopped = some (S, k) → exec (.directSend n src data 0) s =
      .next (s.setCore n { c with xfers := c.xfers ++ [⟨.directSend n src data 0, S + (s.tickOf c - k)⟩] })) ∧
    (∀ id k, Map.get? s.colls id = some k →
      exec (.collectiveContribution id n data 0) s = .next { s with colls := Map.put s.colls id { k with vals := Map.put k.vals n data } } ∧
      (∀ l d sd depth mark, Map.get? s.launches k.launch = some l → Map.get? k.dests n = some (d, sd, depth, mark) → k.order = false → k.bad = none →
        l.missing k = none → Map.get? k.given n = none → ∃ u, exec (.collectiveResult ⟨id, 0⟩ n) s = .next u ∧ u.mem = s.mem ∧ (∀ m, m ≠ n → u.core m = s.core m) ∧
          u.core n = { c with nextUid := c.nextUid + 1, ctx := { c.ctx with items := c.ctx.items ++
            [⟨c.ctx.clk, c.ctx.base + k.count, 7, false, false, c.nextUid, [.setV d (l.collective k) (BitVec.allOnes 2048),
              .setS sd (BitVec.ofNat 64 ((if mark then 1 else 0) + k.vals.length * 2 ^ 32))]⟩] } }) ∧
      (∀ l, Map.get? s.launches k.launch = some l → k.order = true → ∃ u, exec (.collectiveResult ⟨id, 0⟩ n) s = .next u ∧ u.mem = s.mem ∧
        (u.core n).events = c.events ++ [⟨cCOLL, 7, false, BitVec.ofNat 64 k.group, 0⟩]) ∧
      -- a result with an error: a header error, a poisoned one, a corrected one (R311 to R313)
      ∀ l, Map.get? s.launches k.launch = some l →
        exec (.collectiveResult ⟨id, 2⟩ n) s = .next { s.logFabric 3 (clusterOf n) l.part 0 with agenda := s.agenda ++ [.partitionHalted l.part] } ∧
        (∃ u, exec (.collectiveResult ⟨id, 1⟩ n) s = .next u ∧ u.mem = s.mem ∧ u.fabLog = (s.logFabric 2 (clusterOf n) l.part 0).fabLog ∧
          ∀ m, (u.core m).ctx = (s.core m).ctx ∧
            ((s.core m).runsIn l.part = true → (s.core m).launchId.extractLsb' 0 16 = l.lid.extractLsb' 0 16 → m ∈ s.cores.map Prod.fst →
              (⟨cPAYLOAD, 9, false, 0, 0⟩ : Trap) ∈ (u.core m).events)) ∧
        ∃ u v, exec (.collectiveResult ⟨id, 3⟩ n) s = .next u ∧ exec (.collectiveResult ⟨id, 0⟩ n) s = .next v ∧ u.cores = v.cores ∧ u.mem = v.mem ∧
          u.fabLog = (s.logFabric 1 (clusterOf n) l.part 0).fabLog) ∧
    (∀ id k l, Map.get? s.colls id = some k → Map.get? s.launches k.launch = some l → exec (.collectiveContribution id n data 2) s =
      .next { s.logFabric 3 (clusterOf n) l.part ((k.members.find? fun x => l.coreOf x = n).getD 0) with
        agenda := s.agenda ++ [.partitionHalted l.part] }) ∧
    exec (.directSend n src data 2) s =
      .next { s.logFabric 3 (clusterOf n) c.partId.toNat src with agenda := s.agenda ++ [.partitionHalted c.partId.toNat] } ∧
    (∀ p : Packet, p.bad = 0 → pktChecked p = p →
      (p.dkind = 2 → exec (.coordinatePacket n p) s =
        .next (((List.range p.count).foldl (landElement (.cluster n) p) s).noteHeld s.heldWrites.length p.frame)) ∧
      (p.dkind = 3 → exec (.coordinatePacket n p) s =
        .next (((List.range p.count).foldl (landElement (.msu n p.part) p) s).noteHeld s.heldWrites.length p.frame)) ∧
      (p.dkind = 1 → s.waitAway p (.coordinatePacket n p) = none → s.packetCore p n = n → ∀ S k, c.stopped = some (S, k) →
        exec (.coordinatePacket n p) s = .next (s.setCore n { c with xfers := c.xfers ++ [⟨.coordinatePacket n p, S + (s.tickOf c - k)⟩] }))) ∧
    (∀ p : Packet, p.bad = 2 ∨ headerReserved (pktHeader p 1 (pktClass p) 0) = true → exec (.coordinatePacket n p) s =
      .next { s.logFabric 3 (pktRouter p n) p.part p.src with agenda := s.agenda ++ [.partitionHalted p.part] })) ∧
  (∀ (s : State) (k : Nat) (p : Packet) (i slot : Nat) (m : LMap) (a esz w : Nat), s.memInv →
    landDecide (s.cluster k).landing p.tag.toNat p.parity p.fmt.toNat (pktCoord p i) = some (slot, false) →
    Map.get? (s.cluster k).landing slot = some m → m.st = .active →
    landValue (lmFMT m.desc) p.fmt.toNat (pktElem p i) = (w, esz) → lmAddress m.desc esz (pktCoord p i) = a → 0 < esz →
    a % esz = 0 → 0x1000000 ≤ a → a + esz ≤ 0x2000000 →
    let t := landElement (.cluster k) p s i
    t.cores = s.cores ∧ (∀ j, j < esz → memGet t.mem (sramSpa k + (a - 0x1000000) + j) = BitVec.ofNat 8 (w / 2 ^ (8 * j))) ∧
      ∀ b, b < sramSpa k + (a - 0x1000000) ∨ sramSpa k + (a - 0x1000000) + esz ≤ b → memGet t.mem b = memGet s.mem b) ∧
  ((∀ (s : State) (n : Nat) (p : Packet), p.bad = 0 → pktChecked p = p → p.dkind = 1 ∨ p.dkind = 4 → s.waitAway p (.coordinatePacket n p) = none →
    s.packetCore p n = n → (s.core n).stopped = none → ∃ u, u.mem = s.mem ∧ u.cores = s.cores ∧
      exec (.coordinatePacket n p) s = .next ((List.range p.count).foldl (landElement (.core n) p) u)) ∧
  (∀ (s : State) (n : Nat) (m : Macro) (fmt : Nat) (tag : BitVec 16) (parity : Bool) (epoch : Nat) (k : Cut) (payload : List Byte) (l : Launch),
    s.launchOf (s.core n) = some l → rtKIND k.route = 4 →
    let c := s.core n
    let mask := BitVec.ofNat 64 (byteField k.route 0x18 8)
    ∃ fs : List Emit, launchPacket s n m fmt tag parity epoch k payload = s.setCore n { c with emits := c.emits ++ fs } ∧
      fs.length = ((List.range 64).filter mask.getLsbD).length ∧
      ∀ i, i < 64 → mask.getLsbD i = true →
        let node := rtNODE k.route + i
        let path := l.path (c.node / 8) (node / 8)
        ∃ p : Packet, .flight (s.tickOf c + 17 + 4 * path.length) path (.coordinatePacket (l.coreOf node) p) ∈ fs ∧ pktNode p = node ∧ p.dkind = 4 ∧
          p.tag = tag ∧ p.parity = parity ∧ p.origin = k.origin ∧ p.count = k.count ∧ p.payload = payload ∧ p.src = c.node) ∧
  (∀ (t : Map LMap) (tag : Nat) (parity : Bool) (fmt : Nat) (x : Word), (t.map Prod.fst).Pairwise (· < ·) →
    let takes (y : Nat × LMap) : Prop := y ∈ t ∧ lmCandidate y.2 tag parity fmt x = true
    ((∀ y, ¬ takes y) ↔ landDecide t tag parity fmt x = none) ∧
    ∀ slot tie, landDecide t tag parity fmt x = some (slot, tie) → ∃ m, takes (slot, m) ∧ Map.get? t slot = some m ∧
      let tied (y : Nat × LMap) : Prop := takes y ∧ lmPRIO y.2.desc = lmPRIO m.desc ∧ (y.2.st = .draining ↔ m.st = .draining)
      (∀ y, takes y → lmPRIO y.2.desc ≤ lmPRIO m.desc ∧ (lmPRIO y.2.desc = lmPRIO m.desc → y.2.st = .draining → m.st = .draining)) ∧
      (∀ y, tied y → slot ≤ y.1) ∧ (tie = true ↔ ∃ y, tied y ∧ y.1 ≠ slot)) ∧
  (∀ (s : State) (n : Nat) (p : Packet) (i slot : Nat) (tie : Bool) (m : LMap) (a esz w : Nat), s.memInv → slot < 16 →
    landDecide (s.core n).landing p.tag.toNat p.parity p.fmt.toNat (pktCoord p i) = some (slot, tie) → Map.get? (s.core n).landing slot = some m →
    landValue (lmFMT m.desc) p.fmt.toNat (pktElem p i) = (w, esz) → lmAddress m.desc esz (pktCoord p i) = a → 0 < esz → a % esz = 0 →
    a + esz ≤ 0x100000 →
    let c := s.core n
    let key := padKey n c.shadowHalf a
    let t := landElement (.core n) p s i
    (∀ j, j < esz → memGet t.mem (key + j) = BitVec.ofNat 8 (w / 2 ^ (8 * j))) ∧ (∀ b, b < key ∨ key + esz ≤ b → memGet t.mem b = memGet s.mem b) ∧
      (∀ j, j ≠ n → t.core j = s.core j) ∧ (t.core n).v = c.v ∧ (t.core n).ctx.s = c.ctx.s ∧ (t.core n).strayIn = c.strayIn ∧
      Map.get? (t.core n).landing slot = some (if m.st ≠ .draining then m else if m.drain ≤ 1 then { m with st := .free, drain := 0 }
        else { m with drain := m.drain - 1 }) ∧
      (m.st = .draining → m.drain ≤ 1 → (t.core n).sysCtx.mapstat.getLsbD slot = true) ∧ (tie = true → (t.core n).sysCtx.mapstat.getLsbD 32 = true) ∧
      (m.st ≠ .draining → tie = false → t.cores = (s.putSlot (.core n) slot m).cores)) ∧
  (∀ (s : State) (n k : Nat) (p : Packet) (i : Nat),
    let e : Stray := ⟨p.tag, p.parity, p.fmt, BitVec.ofNat 16 p.src, pktCoord p i, BitVec.ofNat 32 (pktElem p i)⟩
    let gives (x : Nat) (t : State) : Prop := t = s.setCore x { s.core x with strayIn := (s.core x).strayIn ++ [e] }
    let cl := landElement (.cluster k) p s i
    (landDecide (s.core n).landing p.tag.toNat p.parity p.fmt.toNat (pktCoord p i) = none → gives n (landElement (.core n) p s i)) ∧
    (landDecide (s.cluster k).landing p.tag.toNat p.parity p.fmt.toNat (pktCoord p i) = none →
      (∀ j, j < 8 → (s.core (8 * k + j)).runsIn p.part = true → (∀ h, h < j → (s.core (8 * k + h)).runsIn p.part = false) → gives (8 * k + j) cl) ∧
      ((∀ j, j < 8 → (s.core (8 * k + j)).runsIn p.part = false) →
        (∀ x uid, p.sent = some (x, uid) → p.spkg = 0 → (s.core x).runsIn p.part = true → gives x cl) ∧
        (p.sent = none → cl = s.logFabric 6 0 p.part p.src)))) ∧
  ∀ c : Core, c.strays.length ≤ 4 →
    let d := c.mergeStrays
    d.strays = (c.strays ++ c.strayIn).take 4 ∧ d.strayIn = [] ∧ d.v = c.v ∧ d.ctx.s = c.ctx.s ∧
      d.sysCtx.strayOvf = (c.sysCtx.strayOvf || decide (4 < c.strays.length + c.strayIn.length)) ∧
      ∀ e r, c.strayIn = e :: r → c.strays.length < 4 → (∀ t ∈ c.events, t.code ≠ cSTRAY) →
        d.events = c.events ++ [⟨cSTRAY, 8, false, e.tag.setWidth 64, 0⟩])

/-! ## Free steps and counters (R187, R214, R215, R234 to R242, R294 to R298) -/

/-- A row of a queued load or gather whose checks pass is written into its tile from memory, in one step; the entry goes on with its next row, and
after row 63 it leaves its queue and its tile is no longer pending. A store reads its rows out of its tile in order, each cell as at issue or as
it is then, the tile's pending bit clearing with the last; a row of it that has been read out and whose checks pass is written to memory, and
after row 63 the entry leaves its queue. A row of a load, a gather or a store that fails a check performs nothing, and its late fault stands on
the entry. The non-temporal buffer performs its rows alike. -/
def Obligations.QueuedRowsPerform : Prop :=
  (∀ (s : State) (n slot : Nat) (e : QEntry) (r : List QEntry), slot = 5 ∨ slot = 6 → (s.core n).queue slot = e :: r → entryReady (s.core n) e = true →
    (∀ q ∈ r, q.uid ≠ e.uid) →
    let c := s.core n
    let loads (t f : Nat) : Prop := (∃ ea sr er ec old, e.kind = .tld t ea sr er ec f old) ∨ ∃ b u er ec la idx old, e.kind = .gather t b u er ec f la idx old
    let after : List QEntry := if e.row < 63 then { e with row := e.row + 1 } :: r else r
    let quiet (u : State) : Prop := u.mem = s.mem ∧ ∀ m, m ≠ n → u.core m = s.core m
    let stands (o : Out) (trap : Trap) : Prop :=
      ∃ u, o = .next u ∧ quiet u ∧ (u.core n).tiles = c.tiles ∧ (u.core n).tilePend = c.tilePend ∧ (u.core n).queue slot = { e with faulted := some trap } :: r
    (∀ t f, loads t f → e.row < 64 → rowFault s n e e.row = none →
      ∃ u, exec (.queuedRowPerform n slot (some 0)) s = .next u ∧ quiet u ∧ (u.core n).queue slot = after ∧
        (u.core n).tilePend = (if e.row < 63 then c.tilePend else c.tilePend &&& ~~~(1#8 <<< t)) ∧
        (u.core n).tiles = (c.putTile t e.row (loadRow f (if (e.kind.rowAt e.row).2 = 0 then [] else
          c.loadBytes s.mem n (e.kind.rowAt e.row).1 (e.kind.rowAt e.row).2)) (BitVec.allOnes 2048)).tiles) ∧
    (∀ t f trap, loads t f → e.row < 64 → rowFault s n e e.row = some trap → stands (exec (.queuedRowPerform n slot (some 0)) s) trap) ∧
    ∀ t ea sr er ec f old out, e.kind = .tst t ea sr er ec f old out →
      (out.length < 64 → out.length < e.row ∨ rowFault s n e out.length = none →
        ∃ u v, exec (.queuedRowPerform n slot none) s = .next u ∧ quiet u ∧ (u.core n).tiles = c.tiles ∧
          (u.core n).queue slot = { e with kind := .tst t ea sr er ec f old (out ++ [v]) } :: r ∧
          (u.core n).tilePend = (if out.length < 63 then c.tilePend else c.tilePend &&& ~~~(1#8 <<< t)) ∧
          ∀ q, q < 64 → laneNat v q 32 = laneNat (old.getD out.length 0) q 32 ∨ laneNat v q 32 = laneNat (c.tileRow t out.length) q 32) ∧
      ∀ row, e.row < 64 → out[e.row]? = some row →
        (∀ trap, rowFault s n e e.row = some trap → stands (exec (.queuedRowPerform n slot (some 0)) s) trap) ∧
        let ps := storePieces n c e.kind e.row row
        rowFault s n e e.row = none → (ps.any fun p => s.writeHeld c.partId.toNat p.1 p.2) = false →
          ∃ u, exec (.queuedRowPerform n slot (some 0)) s = .next u ∧ u.mem = (ps.foldl (fun s p => s.devWrite c.partId.toNat p.1 p.2) s).mem ∧
            (∀ m, m ≠ n → u.core m = s.core m) ∧ (u.core n).queue slot = after ∧ (u.core n).tiles = c.tiles) ∧
  ∀ (s : State) (n i : Nat) (e : QEntry) (t : Nat) (ea : Word) (sr er ec f : Nat) (old out : List Vec) (row : Vec),
    (s.core n).nt[i]? = some e → e.faulted = none → e.held = false → (s.core n).performs = true →
    e.kind = .tst t ea sr er ec f old out → out[e.row]? = some row → rowFault s n e e.row = none →
    let part := (s.core n).partId.toNat
    let ps := storePieces n (s.core n) e.kind e.row row
    (ps.any fun p => s.writeHeld part p.1 p.2) = false →
    ∃ u, exec (.nonTemporalPerform n i (some 0)) s = .next u ∧ u.mem = (ps.foldl (fun v p => v.devWrite part p.1 p.2) s).mem ∧
      (∀ m, m ≠ n → u.core m = s.core m) ∧ (u.core n).tiles = (s.core n).tiles

/-- Counters and triggers: an increment whose coverage has performed leaves the list and is added in one step; a time trigger disarms and adds
one; an interrupt goes out at the end of its window, once for each arming; a cancel marks its counter. A counter with no armed trigger and no
parent receives exactly the amount, modulo 2^64, and no core, launch or byte of memory changes. -/
def Obligations.CountersAndTriggers : Prop :=
  ∀ (s : State) (part cc : Nat) (p : Part), Map.get? s.parts part = some p →
    (∀ (i : Nat) (x : Incr), s.incrs[i]? = some x → s.covered x = true →
      exec (.counterIncrement i) s = .next ({ s with incrs := s.incrs.eraseIdx i }.bump x.part x.cc x.amt.toNat)) ∧
    (∀ (amt : Nat), p.triggers = [] → (Map.get p.counters cc Counter.zero).parent = none →
      let t := s.bump part cc amt
      t.mem = s.mem ∧ t.cores = s.cores ∧ t.launches = s.launches ∧ t.outbox = s.outbox ∧
        ∃ q, Map.get? t.parts part = some q ∧
          (Map.get q.counters cc Counter.zero).value = (Map.get p.counters cc Counter.zero).value + BitVec.ofNat 64 amt ∧
          ∀ k, k ≠ cc → Map.get? q.counters k = Map.get? p.counters k) ∧
    (∀ (slot : Nat) (due : Word), Map.get? p.triggers slot = some (.time due cc) → due.toNat ≤ s.gt →
      exec (.timeTriggerFire part slot) s = .next ((s.setPart part { p with triggers := Map.del p.triggers slot }).bump part cc 1)) ∧
    (∀ (k : Counter) (due : Nat) (later : List Nat), Map.get? p.counters cc = some k → k.dueAt = due :: later → due ≤ s.gt → (∀ t ∈ later, s.gt < t) →
      exec (.counterInterrupt part cc) s = .next { s.setPart part { p with counters := Map.put p.counters cc { k with dueAt := later } } with
        outbox := s.outbox ++ [.interrupt part k.hart k.ident] }) ∧
    (∀ k : Counter, k.armed = true → k.cancelled = false →
      (k.notify ≤ k.value → (k.notice s.gt).dueAt = k.dueAt ++ [s.gt + k.window * gtMicro] ∧ (k.notice s.gt).armed = false) ∧
      (k.value < k.notify → k.notice s.gt = k)) ∧
    ∃ t q k, exec (.cancelMark part cc) s = .next t ∧ t.mem = s.mem ∧ t.cores = s.cores ∧ Map.get? t.parts part = some q ∧
      Map.get? q.counters cc = some k ∧ k.cancelled = true ∧ k.value = (Map.get p.counters cc Counter.zero).value

/-! ## The memory side and partitions (R264, R270, R274, R281 to R286, R309) -/

/-- The memory side's own events: a walk that ends in a leaf fills the LTT entry that started it, which checks see from the next cycle on; a
migration request that nothing forbids begins a move to a frame of the unit it names, and once no access at the old frame is outstanding the move
ends; a re-key gives its unit and its compressed frames the new hallmark and enters raw frames, at most 256; a scrub error is logged, and an
uncorrectable one poisons its granule; a stack goes offline, and its pages begin to move; a region table is set or removed. Forming a partition of
a free rectangle of two clusters or more: it is listed with that rectangle, its clusters are its own with no job and no landing map, their SRAM
reads as zero, and no core changes; one over a core that an emergency stop has left in firmware mode is halted until its RESET; a rectangle of one
cluster forms none. -/
def Obligations.MemorySideEvents : Prop :=
  (∀ (s : State) (n i u : Nat),
    let c := s.core n
    (∀ w p k e f, c.walkOf = some w → s.partOf c = some p → c.lookup (c.walkPage w).toNat = some (k, e) →
      nestedWalk s.mem p (s.tlbServes n) e (c.walkPage w).toNat = .fill f → ∃ t, exec (.nestedWalk n) s = .next t ∧ t.mem = s.mem ∧
        (t.core n).ltt = c.ltt ∧ (t.core n).lttDue = c.lttDue ++ [.fill k f] ∧ (c.lttDue = [] → Map.get? (t.core n).applyLtt.ltt k = some f) ∧
        ∀ m, m ≠ n → t.core m = s.core m) ∧
    (∀ part p r old leaf z at_ rest, s.migRecord part i = some r → mqSTATUS r = 0 → (s.migs.any fun g => g.part == part && g.index == some i) = false →
      mqPART r < 64 → mqDEST r < 40 → (s.msu (mqDEST r)).offline = false → zeros r 0x0B 0x0F = true → Map.get? s.parts (mqPART r) = some p → sysMoving s.mem p (mqGPA r) = false →
      sysLeaf s.mem p (mqGPA r) = some (old, leaf, z, at_ :: rest) → mqGPA r % z = 0 → inDevice old = true → pteSHR leaf = false → s.pinned (mqPART r) old z leaf = false →
      s.leafHeld (mqPART r) (at_ :: rest) (leaf ||| (1 <<< 6)) = false → 0 < z → z ≤ msuBytes (mqDEST r) →
      ∃ t g, exec (.migrationRequest part i) s = .next t ∧ t.migs = s.migs ++ [g] ∧ g.part = part ∧ g.index = some i ∧ g.gpa = mqGPA r ∧ g.old = old ∧
        g.size = z ∧ msuBase (mqDEST r) ≤ g.dest ∧ g.dest < msuBase (mqDEST r) + msuBytes (mqDEST r) ∧
        g.waits = s.pendingAt (mqPART r) (mqGPA r) old z) ∧
    (∀ g q, s.migs[i]? = some g → s.migOwner g = some q →
      ((s.pendingAt q g.gpa g.old g.size).any fun x => g.waits.contains x) = false → s.heldAt g.old g.size = false → s.clearing q = false →
      s.moveHeld g q = false → (∀ l e, (∀ a ∈ l, g.leafAt ≤ a ∧ a < g.leafAt + 2048) → s.leafHeld q l e = false) →
      ∃ t, exec (.migrationCopy i) s = .next t ∧ t.migs = s.migs.eraseIdx i ∧ Map.get? t.moves (q * 2 ^ 52 + g.gpa) = some [s.gt] ∧ t.cores = s.cores) ∧
    (∀ h : Word, u < 40 → s.heldWrites = [] → ∃ t, exec (.reKey u h) s = .next t ∧ (t.msu u).hallmark = h ∧ (t.msu u).offline = (s.msu u).offline ∧
      t.cores = s.cores ∧ (t.msu u).exc.length ≤ 256 ∧ (∀ f ∈ (t.msu u).exc, memNat s.mem (f + 0xFF8) 8 = h.toNat) ∧ (∀ v, v ≠ u → t.msu v = s.msu v) ∧
      (s.memInv → ∀ f ∈ s.framesWith u (s.msu u).hallmark, s.compressed f = true → s.rawForAny f = false → memNat t.mem (f + 0xFF8) 8 = h.toNat)) ∧
    (∀ a, exec (.patrolScrub a false) s = .next (s.logMemory 1 a) ∧
      ∃ t, exec (.patrolScrub a true) s = .next t ∧ t.mem = s.mem ∧ (granule (s.spaKey a)).1 ∈ t.poison ∧ (∀ x ∈ s.poison, x ∈ t.poison) ∧
        t.memLog = (s.logMemory 2 a).memLog) ∧
    (u < 16 → ∃ t, exec (.stackOffline u) s = .next t ∧ t.msu u = { s.msu u with offline := true } ∧ (∀ v, v ≠ u → t.msu v = s.msu v) ∧
      (∀ x, (t.core x).ctx = (s.core x).ctx) ∧ (s.parts = [] → s.migs = [] → t.mem = s.mem ∧ t.cores = s.cores ∧ t.migs = []) ∧
      ∀ part p base old leaf z ats, s.parts = [(part, p)] → s.pagesOn u part p = [(base, old, leaf, z, ats)] →
        (s.setMsu u { s.msu u with offline := true }).freeUnit.isSome = true →
        ∃ g ∈ t.migs, g.part = part ∧ g.index = none ∧ g.gpa = base ∧ g.old = old ∧ g.size = z) ∧
    (∀ part p table, u < 40 → Map.get? s.parts part = some p →
      exec (.compatibilityMode part u (some table)) s = .next (s.setMsu u { s.msu u with compat := Map.put (s.msu u).compat part table }) ∧
      exec (.compatibilityMode part u none) s = .next (s.setMsu u { s.msu u with compat := Map.del (s.msu u).compat part }))) ∧
  (∀ (s : State) (part row col rows cols : Nat), exec (.partitionFormation part row col 1 1) s = .next s ∧ (part < 48 → 2 ≤ rows * cols → row + rows ≤ 8 → col + cols ≤ 12 → Map.get? s.parts part = none →
    (∀ x ∈ rectangle row col rows cols, (s.cluster x).part = none) →
    ∃ t p, exec (.partitionFormation part row col rows cols) s = .next t ∧ Map.get? t.parts part = some p ∧ p.row = row ∧ p.col = col ∧
      p.rows = rows ∧ p.cols = cols ∧ p.counters = [] ∧ p.queues = [] ∧ t.cores = s.cores ∧
      p.halted = (if s.cores.any (fun y => y.2.run == .dead && (rectangle row col rows cols).contains (clusterOf y.1)) then some 0x21 else none) ∧
      ∀ x ∈ rectangle row col rows cols, (t.cluster x).part = some part ∧ (t.cluster x).lastJob = none ∧ (t.cluster x).landing = [] ∧
        (s.memInv → ∀ a, a < 0x1000000 → memGet t.mem (sramSpa x + a) = 0)))

/-! ## Launches (R289 to R302) -/

/-- The scheduler's events: a tail too far ahead stops its queue, and otherwise the head record is copied once and the head word follows it; a
head record is admitted in the region found or refused with its counter marked; in its start cycle every unit of a launch, of a graph's node or of
a successor on its predecessor's region begins in tenant mode; a vacated launch's units begin in runtime mode; a bank passes to its new owner. -/
def Obligations.SchedulerEvents : Prop :=
  ∀ (s : State) (part queue key n : Nat) (p : Part) (q : Queue) (l : Launch), Map.get? s.parts part = some p →
    let begun (k : Nat) (l : Launch) (m : BitVec 2) (u : State) (x : Nat) : Prop :=
      (∃ y, Map.get? u.launches k = some y ∧ y.st = .resident ∧ y.lid = l.lid) ∧
        (u.core x).run = .run ∧ (u.core x).mode = m ∧ (u.core x).launch = k ∧ (u.core x).launchId = l.lid.setWidth 64
    let starts (k : Nat) (l : Launch) (m : BitVec 2) (o : Out) : Prop :=
      ∃ u, o = .next u ∧ ∀ x ∈ l.members, begun k l m u x
    let loads (l : Launch) : Prop := s.launchMoves l = false ∧ s.powered l.part = true ∧ ∃ p i h, Map.get? s.parts l.part = some p ∧ l.hand = some h ∧
      (∀ t : State, (∃ xs : List Nat, t.mem = xs.foldl (fun m x => memClear m (sramSpa x) 0x1000000) s.mem) → readImageAt t.mem p l.image = some i)
    (∀ t, Map.get? p.queues queue = some q → q.enabled = true → q.stopped = false → s.tailOf p q = some t →
      let ahead := (t + 2 ^ 64 - q.taken % 2 ^ 64) % 2 ^ 64
      (2 ^ qdSIZE q.desc < ahead → exec (.launchRecord part queue) s =
        .next ((s.setQueue part queue { q with stopped := true }).sendEvent part 0x500 0)) ∧
      (0 < ahead → ahead ≤ 2 ^ qdSIZE q.desc → q.head = none →
        let q1 : Queue := { q with
          seen := q.taken + ahead, times := q.times ++ List.replicate (ahead - (q.seen - q.taken)) s.gt
          head := some (s.ringRecord p q q.taken), taken := q.taken + 1 }
        exec (.launchRecord part queue) s =
          .next ((s.setQueue part queue q1).gpaWrite part (qdHEAD q.desc) (toBytes 8 ((q.taken + 1) % 2 ^ 64))))) ∧
    (∀ r rest, p.admits = true → s.considered p = (queue, q) :: rest → q.back = [] → q.head = some r → p.marks.contains (markKey queue (q.taken - 1)) = false →
      (∀ v ids, s.considerRecord part p queue q r = .admits v ids → exec (.admission part) s = .next ((v.setQueue part queue q.drop).admitted part queue ids)) ∧
      (s.considerRecord part p queue q r = .refused → exec (.admission part) s = .next (s.refuse part queue q r)) ∧
      (s.considerRecord part p queue q r = .waits → exec (.admission part) s = .next s)) ∧
    (Map.get? s.launches key = some l → loads l → (∀ x ∈ l.members, x < 1024) →
      (l.st = .loaded → l.vacatedUnits = [] → s.startRefused l = false → (∃ c, l.startAt = some c ∧ c ≤ s.cyc) → starts key l 0 (exec (.launchStart key) s)) ∧
      (l.st = .waiting → l.handover.isSome = true → s.handsOver l = true → s.startRefused l = false → starts key l 0 (exec (.handoverStart key) s)) ∧
      (∀ r node handed, Map.get? s.replays n = some r → s.nodeReady r node = some (key, l, handed, false) → s.startRefused l = false →
        starts key l 0 (exec (.nodeStart n node) s)) ∧
      (l.st = .loaded → l.vacatedUnits ≠ [] → (∃ c, l.startAt = some c ∧ c ≤ s.cyc) →
        ∃ u, exec (.restoreStart key) s = .next u ∧ ∀ y ∈ l.places, l.vacatedUnits.contains (y.1 * l.cores + y.2) = true →
          begun key l 1 u (8 * l.cluster y.1 + y.2))) ∧
    (∀ b, (s.core n).passing.getLsbD b = true → (s.touchedBanks n (s.core n)).getLsbD b = false → exec (.bankPass n b) s =
      .next (s.setCore n { s.core n with passing := (s.core n).passing &&& ~~~(1#16 <<< b), owned := (s.core n).owned ||| (1#16 <<< b) }))

/-- A unit that has drained completes and leaves its core idle; its completion is counted once, and after the last one the launch is done, its
counter receives one, and its clusters are free but for those of a region that another launch waits for. -/
def Obligations.UnitsComplete : Prop :=
  ∀ (s : State) (n key u : Nat) (l : Launch), Map.get? s.launches key = some l →
    ((s.core n).launch = key → (s.core n).drained = true → (s.core n).mode = 0 → l.vacatedUnits = [] → n < 1024 →
      ∃ t y, exec (.unitComplete n) s = .next t ∧ t.mem = s.mem ∧ (t.core n).run = .idle ∧ (∀ m, m ≠ n → t.core m = s.core m) ∧
        Map.get? t.launches key = some y ∧ y.doneUnits = l.doneUnits ++ [(s.core n).unitId.toNat]) ∧
    (l.counted.contains u = false → s.unitCovered key l u = true → exec (.completionIncrement key (some u)) s =
      .next (match l.ccu with
        | some cc => (s.setLaunch key { l with counted := l.counted ++ [u] }).bump l.part cc 1
        | none => s.setLaunch key { l with counted := l.counted ++ [u] })) ∧
    (l.st = .resident → l.counted.length = l.units → l.replay = none → ∃ t y, exec (.completionIncrement key none) s = .next t ∧
      Map.get? t.launches key = some y ∧ y.st = .done ∧ t.mem = s.mem ∧ t.cores = s.cores ∧
      let next := (s.setLaunch key { l with st := .done }).heir key l
      ∀ x, (s.cluster x).busy = some key → (t.cluster x).busy = next.bind fun y =>
        if (rectangle y.2.row y.2.col y.2.rows y.2.cols).contains x then some y.1 else none)

/-! ## Power, boot, ports, attestation, commands and the debugger (R319 to R348) -/

/-- Power and boot: an emergency stop puts every core into firmware mode, halts every partition with cause 0x21 and asks for power to be removed;
power-good starts the package from reset and measures its five images in order; an extension of M5 to M15 extends that register alone; a log read
gives the newest 8,192 entries; a delayed power state takes effect; with power removed nothing is kept; a partition that halts leaves its cores in
firmware mode and sends its interrupt. That GT is 0 and that memory lists nothing after power-good and with power removed are the model's choices
(log entries 2 and 3, DESIGN CHOICE): the spec gives neither; and so is that CYC, which counts the cycles of the model, goes on when power is
removed (log entry 2). -/
def Obligations.PowerEvents : Prop :=
  ∀ (s : State) (part : Nat) (p : Part), Map.get? s.parts part = some p →
    let dead (t : State) (n : Nat) : Prop := (t.core n).mode = 2 ∧ (t.core n).run = .dead
    (p.halted = none → (∀ n ∈ p.cores, n < 768) → ∃ t y l, exec (.partitionHalted part) s = .next t ∧ Map.get? t.parts part = some y ∧
      y.halted = some (if s.cores.any (fun x => x.2.runsIn part && x.2.run == .dead) then 0x11 else 0x20) ∧ t.outbox = s.outbox ++ l ∧
      (let e := (Map.get p.events 0x50C 0).toNat
       e % 2 ^ 16 ≠ 0 → l.getLast? = some (.interrupt part (e / 2 ^ 16 % 256) (e % 2 ^ 16))) ∧
      (∀ n ∈ p.cores, dead t n) ∧ ∀ n, p.cores.contains (hwCore n) = false → t.core n = s.core n) ∧
    (∀ ma us deg, (12600000 < ma ∧ 20 ≤ us) ∨ 110 < deg → ∃ t l, exec (.emergencyStop ma us deg) s = .next t ∧ t.outbox = s.outbox ++ l ∧
      l.getLast? = some .powerOffRequest ∧ (∃ y, Map.get? t.parts part = some y ∧ y.halted = some 0x21) ∧ ∀ n, n < 768 → dead t n) ∧
    (∀ a b c d e h f, ∃ t, exec (.powerGood a b c d e h f) s = .next t ∧ t.parts = [] ∧ t.cores = [] ∧ t.mem = [] ∧ t.sramMark = h ∧ t.fatalBase = f ∧
      t.gt = 0 ∧ t.boot.reg 0 = sha384 (List.replicate 48 0 ++ sha384 a) ∧ t.boot.reg 1 = sha384 (List.replicate 48 0 ++ sha384 b) ∧
      t.boot.reg 2 = sha384 (List.replicate 48 0 ++ sha384 c) ∧ t.boot.reg 3 = sha384 (List.replicate 48 0 ++ sha384 d) ∧
      t.boot.reg 4 = sha384 (List.replicate 48 0 ++ sha384 e) ∧ t.boot.reg 5 = List.replicate 48 0) ∧
    (∀ hart i img, 5 ≤ i → i < 16 → ∃ t, exec (.measurementExtension hart i img) s = .next t ∧ t = { s with boot := t.boot } ∧
      t.boot.reg i = sha384 (s.boot.reg i ++ sha384 img) ∧ ∀ j, j ≠ i → t.boot.reg j = s.boot.reg j) ∧
    (∀ b, ∃ l, exec (.firmwareLogRead b) s = .next { s with outbox := s.outbox ++ [.log b l] } ∧ l.length ≤ 8192 ∧
      l <:+ (if b then s.memLog else s.fabLog)) ∧
    (∀ due st, p.onAt = some (due, st) → due ≤ s.gt → (∀ x ∈ s.launches, x.2.part = part → x.2.st ≠ .loaded) →
      exec (.pstateOnDelay part) s = .next (s.setPart part { p with pstate := st, onAt := none })) ∧
    ∃ t, exec .powerRemoved s = .next t ∧ t.mem = [] ∧ t.cores = [] ∧ t.parts = [] ∧ t.launches = [] ∧ t.outbox = s.outbox ∧ t.cyc = s.cyc

/-- The ports: the next frame of an accepted flow lands and is counted, any other is dropped, and one that no entry accepts is counted; an
acknowledgement removes the frames it covers; after 16 frames or 2 µs the frames of a flow that have been written are acknowledged, up to the
first that has not; 20 µs without progress retransmits, and the eighth time in a row the flow fails; RoCE v2 writes and reads its registered
regions, a write being acknowledged, and is refused elsewhere, SEND and atomics always; a PTP message is stamped with GT; a pause holds the frames
of its priorities, and its end sends them in order. ACKPSN as the last PSN covered, acceptance by the peer's package alone, the packets of a RoCE
sequence and the reading of pauses are the model's (log entry 22, DEDUCED and PRESUMED), and so is that a frame that no entry accepts is logged at
router 0 (log entry 20, DESIGN CHOICE). -/
def Obligations.PortEvents : Prop :=
  ∀ (s : State) (port qp : Nat),
    (∀ vlan flags flow psn pkt, flags.getLsbD 0 = false → pkt.payload.length ≤ 1024 →
      (s.accepts pkt = false → exec (.sctFrame port vlan flags flow psn pkt) s = .next (s.logFabric 5 (port * 256) pkt.part pkt.src)) ∧
      ∀ i r node, s.accepts pkt = true →
      (s.rxs.findIdx? fun r => r.port == port && r.flow == flow && r.spkg == pkt.spkg) = some i → s.rxs[i]? = some r → r.count < 15 →
      (psn = r.next → s.sctTarget pkt = some node → ∃ t, exec (.sctFrame port vlan flags flow psn pkt) s = .next t ∧
        t.agenda = s.agenda ++ [.coordinatePacket node { pkt with frame := some (i, psn) }] ∧ t.mem = s.mem ∧ t.cores = s.cores ∧
        ∃ q, t.rxs[i]? = some q ∧ q.next = r.next + 1 ∧ q.count = r.count + 1 ∧ ∀ j, j ≠ i → t.rxs[j]? = s.rxs[j]?) ∧
      (psn ≠ r.next → exec (.sctFrame port vlan flags flow psn pkt) s = .next s)) ∧
    (∀ (i : Nat) (t : TxFlow) (ack : BitVec 32), s.txs[i]? = some t → t.failed = false → (∃ u ∈ t.unacked, (ack - u.1).toNat < 2 ^ 31) →
      exec (.sctAcknowledgement i ack) s =
        .next { s with txs := s.txs.set i { t with unacked := t.unacked.filter (fun u => decide (2 ^ 31 ≤ (ack - u.1).toNat)), since := s.gt, tries := 0 } }) ∧
    (∀ (i : Nat) (r : RxFlow), s.rxs[i]? = some r → r.count ≠ 0 → 16 ≤ r.count ∨ r.since + 2 * gtMicro ≤ s.gt →
      let e := s.peerFrom r.port r.spkg
      let w := s.written i r
      -- of the frames not yet acknowledged those that have been written, up to the first that has not
      (w ≠ 0 → exec (.cumulativeAcknowledgement i) s =
        .next (({ s with rxs := s.rxs.set i { r with count := r.count - w, since := s.gt } } : State).transmit r.port (peerPRIO e)
          [.ack r.port r.flow.toNat (sctBytes e 1 r.flow.toNat 0 (r.next - 1 - BitVec.ofNat 32 (r.count - w)) [])])) ∧
      (w = 0 → exec (.cumulativeAcknowledgement i) s = .next s) ∧ w ≤ r.count ∧
      (s.waiting = [] → r.held = [] → w = r.count) ∧
      ∀ x psn, (psn, x) ∈ r.held → s.heldWrites.contains x = true → w ≤ (psn - (r.next - BitVec.ofNat 32 r.count)).toNat) ∧
    (∀ (i : Nat) (t : TxFlow), s.txs[i]? = some t → t.failed = false → t.unacked ≠ [] → t.since + 20 * gtMicro ≤ s.gt →
      let e := (s.peerEntry t.part t.peer).getD 0
      (t.tries < 7 → exec (.retransmitTimeout i) s = .next (({ s with txs := s.txs.set i { t with since := s.gt, tries := t.tries + 1 } } : State).transmit
        (peerPORT e) (peerPRIO e) (t.unacked.map fun u => s.dataFrame e i u.1 true u.2))) ∧
      (7 ≤ t.tries → ∃ v : State, exec (.retransmitTimeout i) s = .next (v.sendEvent t.part 0x508 0) ∧ v.txs = s.txs.set i { t with failed := true } ∧
        v.mem = s.mem ∧ v.outbox = s.outbox ∧ v.parts = s.parts ∧
        ∀ n, (s.core n).runsIn t.part = true → t.launches.contains (s.core n).launch = true → n ∈ s.cores.map Prod.fst →
          v.core n = (s.core n).addEvent ⟨cPAYLOAD, 9, false, BitVec.ofNat 64 t.peer, 0⟩)) ∧
    (∀ (a len : Nat) (data : List Byte) (marked : Bool),
      let x := s.qp qp
      let s1 : State := if marked then s.transmit x.port x.prio [.congestion qp] else s
      let nak : Out := .next (s1.transmit x.port x.prio [.nak qp x.psn false])
      let within (n : Nat) (r : Region) : Bool := decide (r.base ≤ a) && decide (a + n ≤ r.base + r.len)
      exec (.roceSendRequest qp marked) s = nak ∧ exec (.roceAtomicRequest qp marked) s = nak ∧
      (x.regions.find? (within data.length) = none → exec (.rdmaWrite qp a data marked) s = nak) ∧
      (x.regions.find? (within len) = none → exec (.rdmaRead qp a len marked) s = nak) ∧
      (∀ r, x.regions.find? (within data.length) = some r →
        let s2 := s1.gpaWrite r.part a data
        let y := { x with psn := x.psn + rocePackets data.length }
        exec (.rdmaWrite qp a data marked) s =
          .next (({ s2 with qps := Map.put s2.qps qp y } : State).transmit x.port x.prio [.rdmaAck qp (y.psn - 1)])) ∧
      ∀ r p l, x.regions.find? (within len) = some r → Map.get? s.parts r.part = some p → gpaBytes s.mem p a len = some l →
        exec (.rdmaRead qp a len marked) s =
          .next { s1.transmit x.port x.prio [.rdma qp x.psn l] with qps := Map.put s.qps qp { x with psn := x.psn + rocePackets len } }) ∧
    (∀ pr l, (s.isPaused port pr = false → s.transmit port pr l = { s with outbox := s.outbox ++ l }) ∧
      (s.isPaused port pr = true → s.transmit port pr l = { s with portQueue := s.portQueue ++ l.map fun o => (port, pr, o) })) ∧
    (∀ id one, exec (.ptpEventMessage port id one) s = .next { s with outbox := s.outbox ++ [.timestamp port id (BitVec.ofNat 64 s.gt) one] }) ∧
    ∀ (enable : Byte) (quanta : List Nat), ∃ (b : Byte) (m : Map Nat),
      exec (.priorityFlowControl port enable quanta) s = .next ({ s with paused := Map.put s.paused port b, pauseEnds := m } : State).release ∧
      ∀ i, i < 8 → b.getLsbD i = if enable.getLsbD i then decide (quanta.getD i 0 ≠ 0) else (Map.get s.paused port 0).getLsbD i

/-- The SPDM responder once firmware runs, over TCP once it has an address: each request is answered on its transport when what it needs has been
agreed there, the answer joins the outputs and nothing but the boot state of that transport changes; one that comes out of order receives an error
and changes nothing else; a FINISH whose MAC is not that of the transcript ends its session; before firmware runs nothing is answered. The
response codes, the error 0x7F with 0x04 or 0x06 and the MAC are the model's (log entry 10, PRESUMED, from DMTF SPDM 1.3): R333 names the
requests. -/
def Obligations.SpdmResponses : Prop :=
  ∀ (s : State) (tcp : Bool) (i : Instr) (ready : Bool) (code : Nat),
    let x := s.side tcp
    let runs : Prop := 7 ≤ s.boot.step ∧ (tcp = true → s.boot.addr.isSome = true)
    let error (b : Byte) (t : State) : Out := .next { t with outbox := t.outbox ++ [.spdm tcp 0x7F [b]] }
    (i = .getVersion tcp ∧ ready = true ∧ code = 0x04) ∨ (i = .getCapabilities tcp ∧ ready = x.ver ∧ code = 0x61) ∨
    (∃ h a d, i = .negotiateAlgorithms tcp h a d ∧ ready = (x.ver && h.contains 0x02 && a.contains 0x80) ∧ code = 0x63) ∨
    (i = .getDigests tcp ∧ ready = x.alg ∧ code = 0x01) ∨ (∃ o n, i = .getCertificate tcp o n ∧ ready = x.alg ∧ code = 0x02) ∨
    (∃ n, i = .challenge tcp n ∧ ready = x.alg ∧ code = 0x03) ∨
    (∃ k n g, i = .getMeasurements tcp k n g ∧ ready = (x.alg && (decide (k ≤ 16) || k == 0xFF)) ∧ code = 0x60) ∨
    (∃ k y, i = .keyExchange tcp k y ∧ ready = (x.alg && x.dhe && x.session.isNone) ∧ code = 0x64) ∨
    (∃ k m, i = .finish tcp k m ∧ ready = (x.session == some k && !x.finished) ∧ code = 0x65) ∨
    (∃ k, i = .endSession tcp k ∧ ready = (x.session == some k && x.finished) ∧ code = 0x6C) →
    (¬ runs → exec i s = .next s) ∧
    (runs → ready = false → exec i s = error 0x04 s) ∧
    (runs → ready = true → ∀ k m, i = .finish tcp k m → m ≠ Config.spdmMac k x.log →
      exec i s = error 0x06 (s.agree tcp { x with session := none })) ∧
    (runs → ready = true → (∀ k m, i = .finish tcp k m → m = Config.spdmMac k x.log) →
      ∃ data b, exec i s = .next { s with outbox := s.outbox ++ [.spdm tcp code data], boot := b } ∧
      b.meas = s.boot.meas ∧ b.step = s.boot.step ∧ b.addr = s.boot.addr ∧ b.side (!tcp) = s.boot.side (!tcp) ∧
      ((∃ o n, i = .getCertificate tcp o n) ∨ i = .getCapabilities tcp ∨ i = .getDigests tcp → (b.side tcp).session = x.session) ∧
      (∀ k y, i = .keyExchange tcp k y → (b.side tcp).session = some k) ∧ (∀ k m, i = .finish tcp k m → (b.side tcp).finished = true) ∧
      (∀ k, i = .endSession tcp k → (b.side tcp).session = none))

/-- A command that names a partition and whose operands are allowed takes its effect and ends with STATUS 1, from the partition's page as from the
hypervisor's; one that names no partition ends with STATUS 2, as do operands that are refused, and changes nothing; the five commands of the
hypervisor alone end with STATUS 3 from a runtime page, whatever their operands hold (STATUS 3 goes before STATUS 2: log entry 42, DEDUCED); a
LAUNCHID or PART that names nothing is STATUS 2 as an operand that is refused (R326; log entry 42, DEDUCED). Of QSET, that a head record already
taken, its time and its marks stay, that the count goes on from the head word, and that a disabled queue keeps what it has seen are the model's
(log entry 42, DEDUCED): R288 does not say it. -/
def Obligations.CommandsTakeEffect : Prop :=
  ∀ (s : State) (part : Nat) (p : Part), Map.get? s.parts part = some p →
    let done (t : State) (code : Nat) : Out := .next (t.status none code 1)
    let refused (code : Nat) : Out := .next (s.status none code 2)
    (∀ (q n a k r po : Nat) (w : BitVec 8) (lid : BitVec 32) (g y us : Word), Map.get? s.parts q = none →
      (∀ x ∈ [(Instr.qset none q n a, 1), (.ccset none q n w a, 2), (.cmdCancel none q n, 3), (.cmdQuench none q lid, 4), (.cmdHold none q lid, 5),
          (.cmdUnhold none q lid, 6), (.qlimit none q us, 7), (.msumap none q n k a, 8), (.migq none q a n, 9), (.roots none q g y, 10),
          (.invtlb none q a n, 11), (.sctpeer none q n a, 12), (.pstate none q n, 13), (.cmdReset none q, 14), (.handler none q n a, 16)],
        exec x.1 s = refused x.2) ∧
      ∀ x ∈ [(Instr.roots (some part) q g y, 10), (.invtlb (some part) q a n, 11), (.pstate (some part) q n, 13), (.cmdReset (some part) q, 14),
          (.harvest (some part) q k r po, 15)],
        exec x.1 s = .next (s.status (some part) x.2 3)) ∧
    (∀ (n a m k : Nat) (w : BitVec 8) (lid : BitVec 32), s.findLaunch part lid = none →
      (∀ x ∈ [(Instr.cmdQuench none part lid, 4), (.cmdHold none part lid, 5), (.cmdUnhold none part lid, 6)], exec x.1 s = refused x.2) ∧
      (8 ≤ n → exec (.qset none part n a) s = refused 1) ∧ (32 ≤ n → exec (.ccset none part n w a) s = refused 2 ∧ exec (.cmdCancel none part n) s = refused 3) ∧
      (16 ≤ m ∨ 16 ≤ k → exec (.msumap none part m k a) s = refused 8) ∧
      (a % 32 ≠ 0 ∨ n = 0 ∨ 65536 < n → exec (.migq none part a n) s = refused 9) ∧
      (a % 0x4000 ≠ 0 ∨ n % 0x4000 ≠ 0 → exec (.invtlb none part a n) s = refused 11) ∧ (256 ≤ n → exec (.sctpeer none part n a) s = refused 12) ∧
      (4 ≤ n → exec (.pstate none part n) s = refused 13)) ∧
    (∀ (q : Nat) (us : Word), exec (.qlimit (some part) q us) s = .next ((s.setPart part { p with qlimit := some us.toNat }).status (some part) 7 1)) ∧
    (∀ lid k l, s.findLaunch part lid = some (k, l) →
      (l.save ≠ 0 → exec (.cmdQuench none part lid) s = done (s.quench k l p.qlimit) 4) ∧ (l.save = 0 → exec (.cmdQuench none part lid) s = refused 4) ∧
      exec (.cmdHold none part lid) s = done (s.setLaunch k { l with hold := true }) 5 ∧
      exec (.cmdUnhold none part lid) s = done (s.setLaunch k { l with hold := false }) 6) ∧
    (∀ us : Word, exec (.qlimit none part us) s = done (s.setPart part { p with qlimit := some us.toNat }) 7) ∧
    (∀ cc, cc < 32 → exec (.cmdCancel none part cc) s = done (s.cancelCounter part cc) 3) ∧
    (∀ a n, a % 32 = 0 → 0 < n → n ≤ 65536 → exec (.migq none part a n) s = done (s.setPart part { p with migq := some (a, n) }) 9) ∧
    (∀ g y : Word, exec (.roots none part g y) s = done (s.setPart part { p with guest := g, system := y }) 10) ∧
    (exec (.invtlb none part 0 0) s = done (s.setPart part { p with tlb := [] }) 11) ∧
    (∀ st, st < 3 → exec (.pstate none part st) s = done (s.powerTo part st p) 13) ∧
    (exec (.cmdReset none part) s = done (s.resetPart part p) 14) ∧
    (∀ k r po, (∀ t, s.markHarvested k r po = some t → exec (.harvest none part k r po) s = done t 15) ∧
      (s.markHarvested k r po = none → exec (.harvest none part k r po) s = refused 15)) ∧
    (∀ a b d, s.named none p a 32 = some b → d = BitVec.ofNat 256 (ofBytes b) →
      (∀ i, i < 256 → peerOk d = true → ∃ f : TxFlow → TxFlow, exec (.sctpeer none part i a) s =
        done { s.setPart part { p with peers := Map.put p.peers i d } with txs := s.txs.map f } 12) ∧
      (∀ i, i < 8 → queueOk d = true →
        let sets (v : State) (q : Queue) : Prop := exec (.qset none part i a) s = done (v.setQueue part i q) 1
        ((byteField d 0x19 1).testBit 7 = false →
          (Map.get? p.queues i = none → sets s ⟨d, false, 0, 0, [], none, false, []⟩) ∧
          ∀ x, Map.get? p.queues i = some x → sets s { x with desc := d, enabled := false, stopped := false }) ∧
        ((byteField d 0x19 1).testBit 7 = true → ∀ h, gpaBytes s.mem p (qdHEAD d) 8 = some h →
          (Map.get? p.queues i = none → sets s ⟨d, true, ofBytes h, ofBytes h, [], none, false, []⟩) ∧
          ∀ x, Map.get? p.queues i = some x →
            sets (s.setPart part { p with
                marks := marksAfter i x.taken (ofBytes h) x.head.isSome (qdBASE x.desc == qdBASE d && qdSIZE x.desc == qdSIZE d) p.marks })
              ⟨d, true, ofBytes h, ofBytes h, (x.head.map fun _ => x.times.headD s.gt).toList, x.head, false, x.back⟩)) ∧
      (∀ cc words k, cc < 32 → ccEntry s.gt (Map.get p.counters cc Counter.zero) words b = some k →
        exec (.ccset none part cc words a) s = done (s.setPart part { p with counters := Map.put p.counters cc k }) 2)) ∧
    (∀ msu slot a b d, msu < 16 → slot < 16 → s.named none p a 64 = some b → d = BitVec.ofNat 512 (ofBytes b) → lmBad d = none →
      msuBase msu ≤ lmBASE d → lmBASE d < msuBase msu + msuBytes msu →
      exec (.msumap none part msu slot a) s = done (s.putSlot (.msu msu part) slot ⟨d, .active, BitVec.ofNat 16 (lmDRAIN d), 0⟩) 8) ∧
    (∀ base a h code, s.named none p a 256 = some h → s.named none p (a + imCODEOFF h) (32 * imCODELINES h) = some code → handlerOk base h code = true →
      exec (.handler none part base a) s = done (s.setPart part { p with handler := some (base, code) }) 16)

/-- The debugger: breakpoints are set once and stay; CONTINUE lifts every halt; LAUNCH places the loaded image, in its shape, with its words as
parameters, where the partition admits launches, and names the debugger's own queue, which the model gives it (log entry 78, DESIGN CHOICE); RT
writes a command's record behind the tail of the partition's page, and takes it at once where it is the head; and each display of a unit that runs
adds one output and changes nothing else. -/
def Obligations.DebuggerCommands : Prop :=
  ∀ (s : State) (u a n : Nat),
    (∃ t, exec (.dbgBreak u a) s = .next t ∧ (some u, a) ∈ t.dbg.points ∧ (∀ x ∈ s.dbg.points, x ∈ t.dbg.points) ∧ t.cores = s.cores ∧ t.mem = s.mem) ∧
    (∃ t, exec (.dbgBreakAll a) s = .next t ∧ (none, a) ∈ t.dbg.points ∧ (∀ x ∈ s.dbg.points, x ∈ t.dbg.points) ∧ t.cores = s.cores) ∧
    (∃ t, exec .dbgContinue s = .next t ∧ (∀ x ∈ t.groups, x.2.halt = false) ∧ t.groups.length = s.groups.length ∧ t.mem = s.mem) ∧
    (∀ p params, Map.get? s.parts s.dbg.part = some p → (p.admits = false → exec (.dbgLaunch params) s = .next s) ∧
      ∀ l w t ids q, p.admits = true → planLaunch s s.dbg.part p debugQueue 0 s.dbg.record (stagedKey s.nextLaunch) 0 none none s.dbg.save = some l →
        s.considerLaunch p l = .admits t ids → w = (params.flatMap fun x : Word => toBytes 8 x.toNat).take l.psize →
        q = ⟨0, true, 0, 0, [], none, true, ((Map.get? p.queues debugQueue).map Queue.back).getD []⟩ →
        exec (.dbgLaunch params) s =
          .next (({ t with mem := memPutN t.mem (stagedKey s.nextLaunch) w }.setQueue s.dbg.part debugQueue q).admitted s.dbg.part p.lastQ ids)) ∧
    (∀ (code : Nat) (o : List Byte),
      let k := s.dbg.part + 1
      let g := s.page k
      let r := toBytes 8 (code % 256) ++ fit 24 (s.rtOperands code o)
      let g1 : CmdPage := { g with ring := Map.put g.ring (g.tail.toNat % 32) (BitVec.ofNat 256 (ofBytes r)), tail := g.tail + 1 }
      let s1 : State := { s with pages := Map.put s.pages k g1 }
      (g.head = g.tail → g.stopped = false → exec (.rt code o) s = .next (nextOr s1 (takeCommand (some s.dbg.part) r { s1 with taking := true }))) ∧
      (g.head ≠ g.tail ∨ g.stopped = true → exec (.rt code o) s = .next s1)) ∧
    (s.dbgCore u = some n →
      let shows (kind : Nat) (o : Out) : Prop := ∃ l, o = .next { s with outbox := s.outbox ++ [.display kind u l] }
      shows 0 (exec (.dbgFq u) s) ∧ shows 1 (exec (.dbgMtx u) s) ∧ (∀ f k, shows 2 (exec (.dbgLtt u f k) s)) ∧ (∀ x, shows 3 (exec (.dbgAssay u x) s)) ∧
      shows 4 (exec (.landlog u) s) ∧ (∀ r, shows 5 (exec (.dbgRh u r) s)) ∧ shows 6 (exec (.efdbLoop u) s) ∧ (∀ g, shows 7 (exec (.dbgGroup u g) s)) ∧
      (∀ g lane, shows 8 (exec (.redlog u g lane) s)) ∧
      -- a launch in which the unit has performed no MCLDR on the group has nothing to show (R348)
      ∀ g lane, (∀ x ∈ s.dbg.reds, x.1 = n → x.2.1 = g → x.2.2.launch ≠ (s.core n).launch) →
        exec (.redlog u g lane) s = .next { s with outbox := s.outbox ++ [.display 8 u []] })

/-- Slot 0 and RT complete. NOP answers the same state in every state (R98); a taken BR, JMP, CALL or RET goes to its target, CALL with the next
sequential address in flight to s31 and II_VIOLATION where no room is left, and one whose guard is false lets issue continue in sequence (R99). RT
completes for every code and operands (R340): it writes the command's record into the page of the launch's partition, and taken at once a reserved
code ends with STATUS 2, as does an operand byte that must be zero, a code of the hypervisor's page alone with STATUS 3, whatever its operands
hold (log entry 42, DEDUCED), and QLIMIT, for one, sets the partition's quench limit. -/
def Obligations.TransfersAndCommandsComplete : Prop :=
  (∀ (s : State) (t : BitVec 7) (g : BitVec 4) (o : BitVec 15) (xw : Option (BitVec 32)) (a : BitVec 6),
    let c := s.me
    let off : Word := match xw with | none => o.signExtend 64 | some e => (e ++ o).signExtend 64
    let goesTo (d : Core) (x : Word) : Core := { d with ctx := { d.ctx with ctl := { d.ctx.ctl with jump := some x } } }
    exec (.nop t) s = .next s ∧
    (s.on g →
      exec (.br t g o xw) s = .next (s.setCore s.cur (goesTo c (c.ctx.pc + off))) ∧
      exec (.jmp t g a) s = .next (s.setCore s.cur (goesTo c (c.readS a))) ∧
      exec (.ret t g a) s = .next (s.setCore s.cur (goesTo c (c.readS a))) ∧
      (s.roomy → exec (.call t g o xw) s = .next (s.setCore s.cur
        (goesTo (c.addItem 0 1 true false [.setS 31 (normAt s.mem s.cur (seqNext s.mem s.cur c.ctx.pc))]) (c.ctx.pc + off)))) ∧
      (¬ s.roomy → exec (.call t g o xw) s = .next (s.setCore s.cur (s.iiViolation c)))) ∧
    (¬ s.on g → ∀ i ∈ [Instr.br t g o xw, .jmp t g a, .call t g o xw, .ret t g a], exec i s = .next (s.setCore s.cur c))) ∧
  ∀ (s : State) (code : Nat) (o : List Byte),
    let part := s.dbg.part
    let g := s.page (part + 1)
    let r := toBytes 8 (code % 256) ++ fit 24 (s.rtOperands code o)
    let g1 : CmdPage := { g with ring := Map.put g.ring (g.tail.toNat % 32) (BitVec.ofNat 256 (ofBytes r)), tail := g.tail + 1 }
    let s1 : State := { s with pages := Map.put s.pages (part + 1) g1 }
    let ends (t : State) (st : Nat) : Out := .next { t with
      outbox := t.outbox ++ [.status (some part) code st], pages := Map.put t.pages (part + 1) ((t.page (part + 1)).ended st) }
    (∃ t, exec (.rt code o) s = .next t) ∧
    (code < 256 → g.head = g.tail → g.stopped = false → s.taking = false →
      (code = 0 ∨ 17 ≤ code → exec (.rt code o) s = ends s1 2) ∧
      (code ∈ [10, 11, 13, 14, 15] → exec (.rt code o) s = ends s1 3) ∧
      (∀ p, Map.get? s.parts part = some p → code = 7 →
        ((∀ b ∈ (fit 24 o).drop 8, b = 0) → exec (.rt code o) s = ends (s1.setPart part { p with qlimit := some (imgField o 0 8) }) 1) ∧
        ((∃ b ∈ (fit 24 o).drop 8, b ≠ 0) → exec (.rt code o) s = ends s1 2)))
end

