-- ==== Sys2Proof/Laws/State.lean ====
section
/-! SUPPORT. The small lemmas of the maps and of the updates of `State` and `Core`: what each leaves and what it reads back. -/

namespace Sys2Proof

/-! ## Maps -/

/-- A key that was put reads as what was put. -/
@[simp] theorem Map.get?_put_self {α : Type} (m : Map α) (k : Nat) (a : α) : Map.get? (Map.put m k a) k = some a := by
  induction m with
  | nil => simp [Map.put, Map.get?]
  | cons x r ih =>
    obtain ⟨j, b⟩ := x
    simp only [Map.put]
    split
    · next h => simp [Map.get?, Nat.ne_of_lt h, ih]
    · split <;> simp [Map.get?]

/-- Another key reads as before. -/
theorem Map.get?_put_other {α : Type} (m : Map α) {k n : Nat} (a : α) (h : n ≠ k) : Map.get? (Map.put m k a) n = Map.get? m n := by
  induction m with
  | nil => simp [Map.put, Map.get?, h.symm]
  | cons x r ih =>
    obtain ⟨j, b⟩ := x
    simp only [Map.put]
    split
    · simp [Map.get?, ih]
    · split
      · next hj => subst hj; simp [Map.get?, h.symm]
      · simp [Map.get?, h.symm]

/-- The value at a key that was put. -/
@[simp] theorem Map.get_put_self {α : Type} (m : Map α) (k : Nat) (a d : α) : Map.get (Map.put m k a) k d = a := by simp [Map.get]

/-- The value at another key. -/
theorem Map.get_put_other {α : Type} (m : Map α) {k n : Nat} (a d : α) (h : n ≠ k) : Map.get (Map.put m k a) n d = Map.get m n d := by
  simp [Map.get, Map.get?_put_other m a h]

/-- The keys of a map with one value put. -/
theorem Map.mem_put {α : Type} {m : Map α} {k : Nat} {a : α} {x : Nat × α} (h : x ∈ Map.put m k a) : x = (k, a) ∨ x ∈ m := by
  induction m with
  | nil => simp_all [Map.put]
  | cons y r ih =>
    obtain ⟨j, b⟩ := y
    simp only [Map.put] at h
    split at h
    · rcases List.mem_cons.1 h with h | h
      · exact .inr (h ▸ List.mem_cons_self ..)
      · exact (ih h).imp_right (List.mem_cons_of_mem _)
    · split at h
      · exact (List.mem_cons.1 h).imp_right (List.mem_cons_of_mem _)
      · exact List.mem_cons.1 h

end Sys2Proof

namespace Sys2Proof.Machine

open Sys2Proof

/-! ## The core map of a state -/

@[simp] theorem State.core_setCore (s : State) (n : Nat) (c : Core) : (s.setCore n c).core n = c := by simp [State.core, State.setCore]
theorem State.core_setCore_other (s : State) {n m : Nat} (c : Core) (h : m ≠ n) : (s.setCore n c).core m = s.core m := by
  simp [State.core, State.setCore, Map.get_put_other _ _ _ h]
@[simp] theorem State.cores_setCore (s : State) (n : Nat) (c : Core) : (s.setCore n c).cores = Map.put s.cores n c := rfl
@[simp] theorem State.cyc_setCore (s : State) (n : Nat) (c : Core) : (s.setCore n c).cyc = s.cyc := rfl
@[simp] theorem State.gt_setCore (s : State) (n : Nat) (c : Core) : (s.setCore n c).gt = s.gt := rfl
@[simp] theorem State.gtFrac_setCore (s : State) (n : Nat) (c : Core) : (s.setCore n c).gtFrac = s.gtFrac := rfl
@[simp] theorem State.gtRate_setCore (s : State) (n : Nat) (c : Core) : (s.setCore n c).gtRate = s.gtRate := rfl
@[simp] theorem State.gtAdj_setCore (s : State) (n : Nat) (c : Core) : (s.setCore n c).gtAdj = s.gtAdj := rfl
@[simp] theorem State.fatalBase_setCore (s : State) (n : Nat) (c : Core) : (s.setCore n c).fatalBase = s.fatalBase := rfl
@[simp] theorem State.mem_setCore (s : State) (n : Nat) (c : Core) : (s.setCore n c).mem = s.mem := rfl
@[simp] theorem State.poison_setCore (s : State) (n : Nat) (c : Core) : (s.setCore n c).poison = s.poison := rfl
@[simp] theorem State.clusters_setCore (s : State) (n : Nat) (c : Core) : (s.setCore n c).clusters = s.clusters := rfl
@[simp] theorem State.parts_setCore (s : State) (n : Nat) (c : Core) : (s.setCore n c).parts = s.parts := rfl
@[simp] theorem State.launches_setCore (s : State) (n : Nat) (c : Core) : (s.setCore n c).launches = s.launches := rfl
@[simp] theorem State.nextLaunch_setCore (s : State) (n : Nat) (c : Core) : (s.setCore n c).nextLaunch = s.nextLaunch := rfl
@[simp] theorem State.replays_setCore (s : State) (n : Nat) (c : Core) : (s.setCore n c).replays = s.replays := rfl
@[simp] theorem State.groups_setCore (s : State) (n : Nat) (c : Core) : (s.setCore n c).groups = s.groups := rfl
@[simp] theorem State.nextGroup_setCore (s : State) (n : Nat) (c : Core) : (s.setCore n c).nextGroup = s.nextGroup := rfl
@[simp] theorem State.flights_setCore (s : State) (n : Nat) (c : Core) : (s.setCore n c).flights = s.flights := rfl
@[simp] theorem State.colls_setCore (s : State) (n : Nat) (c : Core) : (s.setCore n c).colls = s.colls := rfl
@[simp] theorem State.nextColl_setCore (s : State) (n : Nat) (c : Core) : (s.setCore n c).nextColl = s.nextColl := rfl
@[simp] theorem State.incrs_setCore (s : State) (n : Nat) (c : Core) : (s.setCore n c).incrs = s.incrs := rfl
@[simp] theorem State.msus_setCore (s : State) (n : Nat) (c : Core) : (s.setCore n c).msus = s.msus := rfl
@[simp] theorem State.sramMark_setCore (s : State) (n : Nat) (c : Core) : (s.setCore n c).sramMark = s.sramMark := rfl
@[simp] theorem State.migs_setCore (s : State) (n : Nat) (c : Core) : (s.setCore n c).migs = s.migs := rfl
@[simp] theorem State.moves_setCore (s : State) (n : Nat) (c : Core) : (s.setCore n c).moves = s.moves := rfl
@[simp] theorem State.links_setCore (s : State) (n : Nat) (c : Core) : (s.setCore n c).links = s.links := rfl
@[simp] theorem State.txs_setCore (s : State) (n : Nat) (c : Core) : (s.setCore n c).txs = s.txs := rfl
@[simp] theorem State.rxs_setCore (s : State) (n : Nat) (c : Core) : (s.setCore n c).rxs = s.rxs := rfl
@[simp] theorem State.qps_setCore (s : State) (n : Nat) (c : Core) : (s.setCore n c).qps = s.qps := rfl
@[simp] theorem State.pages_setCore (s : State) (n : Nat) (c : Core) : (s.setCore n c).pages = s.pages := rfl
@[simp] theorem State.taking_setCore (s : State) (n : Nat) (c : Core) : (s.setCore n c).taking = s.taking := rfl
@[simp] theorem State.feed_setCore (s : State) (n : Nat) (c : Core) : (s.setCore n c).feed = s.feed := rfl
@[simp] theorem State.paused_setCore (s : State) (n : Nat) (c : Core) : (s.setCore n c).paused = s.paused := rfl
@[simp] theorem State.pauseEnds_setCore (s : State) (n : Nat) (c : Core) : (s.setCore n c).pauseEnds = s.pauseEnds := rfl
@[simp] theorem State.portQueue_setCore (s : State) (n : Nat) (c : Core) : (s.setCore n c).portQueue = s.portQueue := rfl
@[simp] theorem State.boot_setCore (s : State) (n : Nat) (c : Core) : (s.setCore n c).boot = s.boot := rfl
@[simp] theorem State.fabLog_setCore (s : State) (n : Nat) (c : Core) : (s.setCore n c).fabLog = s.fabLog := rfl
@[simp] theorem State.memLog_setCore (s : State) (n : Nat) (c : Core) : (s.setCore n c).memLog = s.memLog := rfl
@[simp] theorem State.debug_setCore (s : State) (n : Nat) (c : Core) : (s.setCore n c).dbg = s.dbg := rfl
@[simp] theorem State.saves_setCore (s : State) (n : Nat) (c : Core) : (s.setCore n c).saves = s.saves := rfl
@[simp] theorem State.phase_setCore (s : State) (n : Nat) (c : Core) : (s.setCore n c).phase = s.phase := rfl
@[simp] theorem State.agenda_setCore (s : State) (n : Nat) (c : Core) : (s.setCore n c).agenda = s.agenda := rfl
@[simp] theorem State.cur_setCore (s : State) (n : Nat) (c : Core) : (s.setCore n c).cur = s.cur := rfl
@[simp] theorem State.slot_setCore (s : State) (n : Nat) (c : Core) : (s.setCore n c).slot = s.slot := rfl
@[simp] theorem State.wq_setCore (s : State) (n : Nat) (c : Core) : (s.setCore n c).wq = s.wq := rfl
@[simp] theorem State.oracle_setCore (s : State) (n : Nat) (c : Core) : (s.setCore n c).oracle = s.oracle := rfl
@[simp] theorem State.inbox_setCore (s : State) (n : Nat) (c : Core) : (s.setCore n c).inbox = s.inbox := rfl
@[simp] theorem State.outbox_setCore (s : State) (n : Nat) (c : Core) : (s.setCore n c).outbox = s.outbox := rfl
@[simp] theorem State.undo_setCore (s : State) (n : Nat) (c : Core) : (s.setCore n c).undo = s.undo := rfl
@[simp] theorem State.heldWrites_setCore (s : State) (n : Nat) (c : Core) : (s.setCore n c).heldWrites = s.heldWrites := rfl

/-- A change of the acting core is a core put in its place. -/
theorem State.onCur_eq (s : State) (f : Core → Core) : s.onCur f = s.setCore s.cur (f (s.core s.cur)) := rfl

/-! ## The head of the agenda taken -/

@[simp] theorem State.cyc_popAgenda (s : State) : s.popAgenda.cyc = s.cyc := rfl
@[simp] theorem State.gt_popAgenda (s : State) : s.popAgenda.gt = s.gt := rfl
@[simp] theorem State.gtFrac_popAgenda (s : State) : s.popAgenda.gtFrac = s.gtFrac := rfl
@[simp] theorem State.gtRate_popAgenda (s : State) : s.popAgenda.gtRate = s.gtRate := rfl
@[simp] theorem State.gtAdj_popAgenda (s : State) : s.popAgenda.gtAdj = s.gtAdj := rfl
@[simp] theorem State.fatalBase_popAgenda (s : State) : s.popAgenda.fatalBase = s.fatalBase := rfl
@[simp] theorem State.mem_popAgenda (s : State) : s.popAgenda.mem = s.mem := rfl
@[simp] theorem State.poison_popAgenda (s : State) : s.popAgenda.poison = s.poison := rfl
@[simp] theorem State.cores_popAgenda (s : State) : s.popAgenda.cores = s.cores := rfl
@[simp] theorem State.clusters_popAgenda (s : State) : s.popAgenda.clusters = s.clusters := rfl
@[simp] theorem State.parts_popAgenda (s : State) : s.popAgenda.parts = s.parts := rfl
@[simp] theorem State.launches_popAgenda (s : State) : s.popAgenda.launches = s.launches := rfl
@[simp] theorem State.nextLaunch_popAgenda (s : State) : s.popAgenda.nextLaunch = s.nextLaunch := rfl
@[simp] theorem State.replays_popAgenda (s : State) : s.popAgenda.replays = s.replays := rfl
@[simp] theorem State.groups_popAgenda (s : State) : s.popAgenda.groups = s.groups := rfl
@[simp] theorem State.nextGroup_popAgenda (s : State) : s.popAgenda.nextGroup = s.nextGroup := rfl
@[simp] theorem State.flights_popAgenda (s : State) : s.popAgenda.flights = s.flights := rfl
@[simp] theorem State.colls_popAgenda (s : State) : s.popAgenda.colls = s.colls := rfl
@[simp] theorem State.nextColl_popAgenda (s : State) : s.popAgenda.nextColl = s.nextColl := rfl
@[simp] theorem State.incrs_popAgenda (s : State) : s.popAgenda.incrs = s.incrs := rfl
@[simp] theorem State.msus_popAgenda (s : State) : s.popAgenda.msus = s.msus := rfl
@[simp] theorem State.sramMark_popAgenda (s : State) : s.popAgenda.sramMark = s.sramMark := rfl
@[simp] theorem State.migs_popAgenda (s : State) : s.popAgenda.migs = s.migs := rfl
@[simp] theorem State.moves_popAgenda (s : State) : s.popAgenda.moves = s.moves := rfl
@[simp] theorem State.links_popAgenda (s : State) : s.popAgenda.links = s.links := rfl
@[simp] theorem State.txs_popAgenda (s : State) : s.popAgenda.txs = s.txs := rfl
@[simp] theorem State.rxs_popAgenda (s : State) : s.popAgenda.rxs = s.rxs := rfl
@[simp] theorem State.qps_popAgenda (s : State) : s.popAgenda.qps = s.qps := rfl
@[simp] theorem State.pages_popAgenda (s : State) : s.popAgenda.pages = s.pages := rfl
@[simp] theorem State.taking_popAgenda (s : State) : s.popAgenda.taking = s.taking := rfl
@[simp] theorem State.feed_popAgenda (s : State) : s.popAgenda.feed = s.feed := rfl
@[simp] theorem State.paused_popAgenda (s : State) : s.popAgenda.paused = s.paused := rfl
@[simp] theorem State.pauseEnds_popAgenda (s : State) : s.popAgenda.pauseEnds = s.pauseEnds := rfl
@[simp] theorem State.portQueue_popAgenda (s : State) : s.popAgenda.portQueue = s.portQueue := rfl
@[simp] theorem State.boot_popAgenda (s : State) : s.popAgenda.boot = s.boot := rfl
@[simp] theorem State.fabLog_popAgenda (s : State) : s.popAgenda.fabLog = s.fabLog := rfl
@[simp] theorem State.memLog_popAgenda (s : State) : s.popAgenda.memLog = s.memLog := rfl
@[simp] theorem State.debug_popAgenda (s : State) : s.popAgenda.dbg = s.dbg := rfl
@[simp] theorem State.saves_popAgenda (s : State) : s.popAgenda.saves = s.saves := rfl
@[simp] theorem State.phase_popAgenda (s : State) : s.popAgenda.phase = s.phase := rfl
@[simp] theorem State.cur_popAgenda (s : State) : s.popAgenda.cur = s.cur := rfl
@[simp] theorem State.slot_popAgenda (s : State) : s.popAgenda.slot = s.slot := rfl
@[simp] theorem State.wq_popAgenda (s : State) : s.popAgenda.wq = s.wq := rfl
@[simp] theorem State.oracle_popAgenda (s : State) : s.popAgenda.oracle = s.oracle := rfl
@[simp] theorem State.inbox_popAgenda (s : State) : s.popAgenda.inbox = s.inbox := rfl
@[simp] theorem State.outbox_popAgenda (s : State) : s.popAgenda.outbox = s.outbox := rfl
@[simp] theorem State.undo_popAgenda (s : State) : s.popAgenda.undo = s.undo := rfl
@[simp] theorem State.heldWrites_popAgenda (s : State) : s.popAgenda.heldWrites = s.heldWrites := rfl
@[simp] theorem State.agenda_popAgenda (s : State) : s.popAgenda.agenda = s.agenda.drop 1 := rfl
@[simp] theorem State.core_popAgenda (s : State) (n : Nat) : s.popAgenda.core n = s.core n := rfl

/-! ## addItem -/

@[simp] theorem Core.ctx_addItem (c : Core) (k l : Nat) (q e : Bool) (a : List Act) :
    (c.addItem k l q e a).ctx = { c.ctx with items := c.ctx.items ++ [⟨c.ctx.clk + l, c.ctx.clk, k, q, e, c.nextUid, a⟩] } := rfl
@[simp] theorem Core.nextUid_addItem (c : Core) (k l : Nat) (q e : Bool) (a : List Act) : (c.addItem k l q e a).nextUid = c.nextUid + 1 := rfl
@[simp] theorem Core.held_addItem (c : Core) (k l : Nat) (q e : Bool) (a : List Act) : (c.addItem k l q e a).held = c.held := rfl
@[simp] theorem Core.mode_addItem (c : Core) (k l : Nat) (q e : Bool) (a : List Act) : (c.addItem k l q e a).mode = c.mode := rfl
@[simp] theorem Core.tm_addItem (c : Core) (k l : Nat) (q e : Bool) (a : List Act) : (c.addItem k l q e a).tm = c.tm := rfl
@[simp] theorem Core.sh_addItem (c : Core) (k l : Nat) (q e : Bool) (a : List Act) : (c.addItem k l q e a).sh = c.sh := rfl
@[simp] theorem Core.v_addItem (c : Core) (k l : Nat) (q e : Bool) (a : List Act) : (c.addItem k l q e a).v = c.v := rfl
@[simp] theorem Core.k_addItem (c : Core) (k l : Nat) (q e : Bool) (a : List Act) : (c.addItem k l q e a).k = c.k := rfl
@[simp] theorem Core.tiles_addItem (c : Core) (k l : Nat) (q e : Bool) (a : List Act) : (c.addItem k l q e a).tiles = c.tiles := rfl
@[simp] theorem Core.tilePend_addItem (c : Core) (k l : Nat) (q e : Bool) (a : List Act) : (c.addItem k l q e a).tilePend = c.tilePend := rfl
@[simp] theorem Core.sq_addItem (c : Core) (k l : Nat) (q e : Bool) (a : List Act) : (c.addItem k l q e a).sq = c.sq := rfl
@[simp] theorem Core.unitId_addItem (c : Core) (k l : Nat) (q e : Bool) (a : List Act) : (c.addItem k l q e a).unitId = c.unitId := rfl
@[simp] theorem Core.launchId_addItem (c : Core) (k l : Nat) (q e : Bool) (a : List Act) : (c.addItem k l q e a).launchId = c.launchId := rfl
@[simp] theorem Core.partId_addItem (c : Core) (k l : Nat) (q e : Bool) (a : List Act) : (c.addItem k l q e a).partId = c.partId := rfl
@[simp] theorem Core.grpPos_addItem (c : Core) (k l : Nat) (q e : Bool) (a : List Act) : (c.addItem k l q e a).grpPos = c.grpPos := rfl
@[simp] theorem Core.hvec_addItem (c : Core) (k l : Nat) (q e : Bool) (a : List Act) : (c.addItem k l q e a).hvec = c.hvec := rfl
@[simp] theorem Core.lttBase_addItem (c : Core) (k l : Nat) (q e : Bool) (a : List Act) : (c.addItem k l q e a).lttBase = c.lttBase := rfl
@[simp] theorem Core.savePtr_addItem (c : Core) (k l : Nat) (q e : Bool) (a : List Act) : (c.addItem k l q e a).savePtr = c.savePtr := rfl
@[simp] theorem Core.owners_addItem (c : Core) (k l : Nat) (q e : Bool) (a : List Act) : (c.addItem k l q e a).owners = c.owners := rfl
@[simp] theorem Core.assay_addItem (c : Core) (k l : Nat) (q e : Bool) (a : List Act) : (c.addItem k l q e a).assay = c.assay := rfl
@[simp] theorem Core.reheat_addItem (c : Core) (k l : Nat) (q e : Bool) (a : List Act) : (c.addItem k l q e a).reheat = c.reheat := rfl
@[simp] theorem Core.landing_addItem (c : Core) (k l : Nat) (q e : Bool) (a : List Act) : (c.addItem k l q e a).landing = c.landing := rfl
@[simp] theorem Core.strays_addItem (c : Core) (k l : Nat) (q e : Bool) (a : List Act) : (c.addItem k l q e a).strays = c.strays := rfl
@[simp] theorem Core.strayIn_addItem (c : Core) (k l : Nat) (q e : Bool) (a : List Act) : (c.addItem k l q e a).strayIn = c.strayIn := rfl
@[simp] theorem Core.routes_addItem (c : Core) (k l : Nat) (q e : Bool) (a : List Act) : (c.addItem k l q e a).routes = c.routes := rfl
@[simp] theorem Core.ltt_addItem (c : Core) (k l : Nat) (q e : Bool) (a : List Act) : (c.addItem k l q e a).ltt = c.ltt := rfl
@[simp] theorem Core.owned_addItem (c : Core) (k l : Nat) (q e : Bool) (a : List Act) : (c.addItem k l q e a).owned = c.owned := rfl
@[simp] theorem Core.parity_addItem (c : Core) (k l : Nat) (q e : Bool) (a : List Act) : (c.addItem k l q e a).parity = c.parity := rfl
@[simp] theorem Core.swapped_addItem (c : Core) (k l : Nat) (q e : Bool) (a : List Act) : (c.addItem k l q e a).swapped = c.swapped := rfl
@[simp] theorem Core.bgroups_addItem (c : Core) (k l : Nat) (q e : Bool) (a : List Act) : (c.addItem k l q e a).bgroups = c.bgroups := rfl
@[simp] theorem Core.agroups_addItem (c : Core) (k l : Nat) (q e : Bool) (a : List Act) : (c.addItem k l q e a).agroups = c.agroups := rfl
@[simp] theorem Core.qa_addItem (c : Core) (k l : Nat) (q e : Bool) (a : List Act) : (c.addItem k l q e a).qa = c.qa := rfl
@[simp] theorem Core.qb_addItem (c : Core) (k l : Nat) (q e : Bool) (a : List Act) : (c.addItem k l q e a).qb = c.qb := rfl
@[simp] theorem Core.nt_addItem (c : Core) (k l : Nat) (q e : Bool) (a : List Act) : (c.addItem k l q e a).nt = c.nt := rfl
@[simp] theorem Core.epoch_addItem (c : Core) (k l : Nat) (q e : Bool) (a : List Act) : (c.addItem k l q e a).epoch = c.epoch := rfl
@[simp] theorem Core.launch_addItem (c : Core) (k l : Nat) (q e : Bool) (a : List Act) : (c.addItem k l q e a).launch = c.launch := rfl
@[simp] theorem Core.group_addItem (c : Core) (k l : Nat) (q e : Bool) (a : List Act) : (c.addItem k l q e a).group = c.group := rfl
@[simp] theorem Core.run_addItem (c : Core) (k l : Nat) (q e : Bool) (a : List Act) : (c.addItem k l q e a).run = c.run := rfl
@[simp] theorem Core.sat_addItem (c : Core) (k l : Nat) (q e : Bool) (a : List Act) : (c.addItem k l q e a).sat = c.sat := rfl
@[simp] theorem Core.holdTo_addItem (c : Core) (k l : Nat) (q e : Bool) (a : List Act) : (c.addItem k l q e a).holdTo = c.holdTo := rfl
@[simp] theorem Core.stopAt_addItem (c : Core) (k l : Nat) (q e : Bool) (a : List Act) : (c.addItem k l q e a).stopAt = c.stopAt := rfl
@[simp] theorem Core.stopped_addItem (c : Core) (k l : Nat) (q e : Bool) (a : List Act) : (c.addItem k l q e a).stopped = c.stopped := rfl
@[simp] theorem Core.restart_addItem (c : Core) (k l : Nat) (q e : Bool) (a : List Act) : (c.addItem k l q e a).restart = c.restart := rfl
@[simp] theorem Core.fresh_addItem (c : Core) (k l : Nat) (q e : Bool) (a : List Act) : (c.addItem k l q e a).fresh = c.fresh := rfl
@[simp] theorem Core.events_addItem (c : Core) (k l : Nat) (q e : Bool) (a : List Act) : (c.addItem k l q e a).events = c.events := rfl
@[simp] theorem Core.late_addItem (c : Core) (k l : Nat) (q e : Bool) (a : List Act) : (c.addItem k l q e a).late = c.late := rfl
@[simp] theorem Core.forced_addItem (c : Core) (k l : Nat) (q e : Bool) (a : List Act) : (c.addItem k l q e a).forced = c.forced := rfl
@[simp] theorem Core.xfers_addItem (c : Core) (k l : Nat) (q e : Bool) (a : List Act) : (c.addItem k l q e a).xfers = c.xfers := rfl
@[simp] theorem Core.arrived_addItem (c : Core) (k l : Nat) (q e : Bool) (a : List Act) : (c.addItem k l q e a).arrived = c.arrived := rfl
@[simp] theorem Core.recv_addItem (c : Core) (k l : Nat) (q e : Bool) (a : List Act) : (c.addItem k l q e a).recv = c.recv := rfl
@[simp] theorem Core.saved_addItem (c : Core) (k l : Nat) (q e : Bool) (a : List Act) : (c.addItem k l q e a).saved = c.saved := rfl
@[simp] theorem Core.lazyPages_addItem (c : Core) (k l : Nat) (q e : Bool) (a : List Act) : (c.addItem k l q e a).lazyPages = c.lazyPages := rfl
@[simp] theorem Core.line_addItem (c : Core) (k l : Nat) (q e : Bool) (a : List Act) : (c.addItem k l q e a).line = c.line := rfl
@[simp] theorem Core.bound_addItem (c : Core) (k l : Nat) (q e : Bool) (a : List Act) : (c.addItem k l q e a).bound = c.bound := rfl
@[simp] theorem Core.pass_addItem (c : Core) (k l : Nat) (q e : Bool) (a : List Act) : (c.addItem k l q e a).pass = c.pass := rfl
@[simp] theorem Core.passing_addItem (c : Core) (k l : Nat) (q e : Bool) (a : List Act) : (c.addItem k l q e a).passing = c.passing := rfl
@[simp] theorem Core.emits_addItem (c : Core) (k l : Nat) (q e : Bool) (a : List Act) : (c.addItem k l q e a).emits = c.emits := rfl
@[simp] theorem Core.tail_addItem (c : Core) (k l : Nat) (q e : Bool) (a : List Act) : (c.addItem k l q e a).tail = c.tail := rfl
@[simp] theorem Core.tailAt_addItem (c : Core) (k l : Nat) (q e : Bool) (a : List Act) : (c.addItem k l q e a).tailAt = c.tailAt := rfl
@[simp] theorem Core.depth_addItem (c : Core) (k l : Nat) (q e : Bool) (a : List Act) : (c.addItem k l q e a).depth = c.depth := rfl
@[simp] theorem Core.lttDue_addItem (c : Core) (k l : Nat) (q e : Bool) (a : List Act) : (c.addItem k l q e a).lttDue = c.lttDue := rfl
@[simp] theorem Core.walked_addItem (c : Core) (k l : Nat) (q e : Bool) (a : List Act) : (c.addItem k l q e a).walked = c.walked := rfl

/-! ## addMacro -/

@[simp] theorem Core.ctx_addMacro (c : Core) (k i n : Nat) (w : Work) :
    (c.addMacro k i n w).ctx = { c.ctx with macros := c.ctx.macros ++ [⟨k, c.ctx.clk, c.ctx.clk, i, n, c.nextUid, w⟩] } := rfl
@[simp] theorem Core.nextUid_addMacro (c : Core) (k i n : Nat) (w : Work) : (c.addMacro k i n w).nextUid = c.nextUid + 1 := rfl
@[simp] theorem Core.held_addMacro (c : Core) (k i n : Nat) (w : Work) : (c.addMacro k i n w).held = c.held := rfl
@[simp] theorem Core.mode_addMacro (c : Core) (k i n : Nat) (w : Work) : (c.addMacro k i n w).mode = c.mode := rfl
@[simp] theorem Core.tm_addMacro (c : Core) (k i n : Nat) (w : Work) : (c.addMacro k i n w).tm = c.tm := rfl
@[simp] theorem Core.sh_addMacro (c : Core) (k i n : Nat) (w : Work) : (c.addMacro k i n w).sh = c.sh := rfl
@[simp] theorem Core.v_addMacro (c : Core) (k i n : Nat) (w : Work) : (c.addMacro k i n w).v = c.v := rfl
@[simp] theorem Core.k_addMacro (c : Core) (k i n : Nat) (w : Work) : (c.addMacro k i n w).k = c.k := rfl
@[simp] theorem Core.tiles_addMacro (c : Core) (k i n : Nat) (w : Work) : (c.addMacro k i n w).tiles = c.tiles := rfl
@[simp] theorem Core.tilePend_addMacro (c : Core) (k i n : Nat) (w : Work) : (c.addMacro k i n w).tilePend = c.tilePend := rfl
@[simp] theorem Core.sq_addMacro (c : Core) (k i n : Nat) (w : Work) : (c.addMacro k i n w).sq = c.sq := rfl
@[simp] theorem Core.unitId_addMacro (c : Core) (k i n : Nat) (w : Work) : (c.addMacro k i n w).unitId = c.unitId := rfl
@[simp] theorem Core.launchId_addMacro (c : Core) (k i n : Nat) (w : Work) : (c.addMacro k i n w).launchId = c.launchId := rfl
@[simp] theorem Core.partId_addMacro (c : Core) (k i n : Nat) (w : Work) : (c.addMacro k i n w).partId = c.partId := rfl
@[simp] theorem Core.grpPos_addMacro (c : Core) (k i n : Nat) (w : Work) : (c.addMacro k i n w).grpPos = c.grpPos := rfl
@[simp] theorem Core.hvec_addMacro (c : Core) (k i n : Nat) (w : Work) : (c.addMacro k i n w).hvec = c.hvec := rfl
@[simp] theorem Core.lttBase_addMacro (c : Core) (k i n : Nat) (w : Work) : (c.addMacro k i n w).lttBase = c.lttBase := rfl
@[simp] theorem Core.savePtr_addMacro (c : Core) (k i n : Nat) (w : Work) : (c.addMacro k i n w).savePtr = c.savePtr := rfl
@[simp] theorem Core.owners_addMacro (c : Core) (k i n : Nat) (w : Work) : (c.addMacro k i n w).owners = c.owners := rfl
@[simp] theorem Core.assay_addMacro (c : Core) (k i n : Nat) (w : Work) : (c.addMacro k i n w).assay = c.assay := rfl
@[simp] theorem Core.reheat_addMacro (c : Core) (k i n : Nat) (w : Work) : (c.addMacro k i n w).reheat = c.reheat := rfl
@[simp] theorem Core.landing_addMacro (c : Core) (k i n : Nat) (w : Work) : (c.addMacro k i n w).landing = c.landing := rfl
@[simp] theorem Core.strays_addMacro (c : Core) (k i n : Nat) (w : Work) : (c.addMacro k i n w).strays = c.strays := rfl
@[simp] theorem Core.strayIn_addMacro (c : Core) (k i n : Nat) (w : Work) : (c.addMacro k i n w).strayIn = c.strayIn := rfl
@[simp] theorem Core.routes_addMacro (c : Core) (k i n : Nat) (w : Work) : (c.addMacro k i n w).routes = c.routes := rfl
@[simp] theorem Core.ltt_addMacro (c : Core) (k i n : Nat) (w : Work) : (c.addMacro k i n w).ltt = c.ltt := rfl
@[simp] theorem Core.owned_addMacro (c : Core) (k i n : Nat) (w : Work) : (c.addMacro k i n w).owned = c.owned := rfl
@[simp] theorem Core.parity_addMacro (c : Core) (k i n : Nat) (w : Work) : (c.addMacro k i n w).parity = c.parity := rfl
@[simp] theorem Core.swapped_addMacro (c : Core) (k i n : Nat) (w : Work) : (c.addMacro k i n w).swapped = c.swapped := rfl
@[simp] theorem Core.bgroups_addMacro (c : Core) (k i n : Nat) (w : Work) : (c.addMacro k i n w).bgroups = c.bgroups := rfl
@[simp] theorem Core.agroups_addMacro (c : Core) (k i n : Nat) (w : Work) : (c.addMacro k i n w).agroups = c.agroups := rfl
@[simp] theorem Core.qa_addMacro (c : Core) (k i n : Nat) (w : Work) : (c.addMacro k i n w).qa = c.qa := rfl
@[simp] theorem Core.qb_addMacro (c : Core) (k i n : Nat) (w : Work) : (c.addMacro k i n w).qb = c.qb := rfl
@[simp] theorem Core.nt_addMacro (c : Core) (k i n : Nat) (w : Work) : (c.addMacro k i n w).nt = c.nt := rfl
@[simp] theorem Core.epoch_addMacro (c : Core) (k i n : Nat) (w : Work) : (c.addMacro k i n w).epoch = c.epoch := rfl
@[simp] theorem Core.launch_addMacro (c : Core) (k i n : Nat) (w : Work) : (c.addMacro k i n w).launch = c.launch := rfl
@[simp] theorem Core.group_addMacro (c : Core) (k i n : Nat) (w : Work) : (c.addMacro k i n w).group = c.group := rfl
@[simp] theorem Core.run_addMacro (c : Core) (k i n : Nat) (w : Work) : (c.addMacro k i n w).run = c.run := rfl
@[simp] theorem Core.sat_addMacro (c : Core) (k i n : Nat) (w : Work) : (c.addMacro k i n w).sat = c.sat := rfl
@[simp] theorem Core.holdTo_addMacro (c : Core) (k i n : Nat) (w : Work) : (c.addMacro k i n w).holdTo = c.holdTo := rfl
@[simp] theorem Core.stopAt_addMacro (c : Core) (k i n : Nat) (w : Work) : (c.addMacro k i n w).stopAt = c.stopAt := rfl
@[simp] theorem Core.stopped_addMacro (c : Core) (k i n : Nat) (w : Work) : (c.addMacro k i n w).stopped = c.stopped := rfl
@[simp] theorem Core.restart_addMacro (c : Core) (k i n : Nat) (w : Work) : (c.addMacro k i n w).restart = c.restart := rfl
@[simp] theorem Core.fresh_addMacro (c : Core) (k i n : Nat) (w : Work) : (c.addMacro k i n w).fresh = c.fresh := rfl
@[simp] theorem Core.events_addMacro (c : Core) (k i n : Nat) (w : Work) : (c.addMacro k i n w).events = c.events := rfl
@[simp] theorem Core.late_addMacro (c : Core) (k i n : Nat) (w : Work) : (c.addMacro k i n w).late = c.late := rfl
@[simp] theorem Core.forced_addMacro (c : Core) (k i n : Nat) (w : Work) : (c.addMacro k i n w).forced = c.forced := rfl
@[simp] theorem Core.xfers_addMacro (c : Core) (k i n : Nat) (w : Work) : (c.addMacro k i n w).xfers = c.xfers := rfl
@[simp] theorem Core.arrived_addMacro (c : Core) (k i n : Nat) (w : Work) : (c.addMacro k i n w).arrived = c.arrived := rfl
@[simp] theorem Core.recv_addMacro (c : Core) (k i n : Nat) (w : Work) : (c.addMacro k i n w).recv = c.recv := rfl
@[simp] theorem Core.saved_addMacro (c : Core) (k i n : Nat) (w : Work) : (c.addMacro k i n w).saved = c.saved := rfl
@[simp] theorem Core.lazyPages_addMacro (c : Core) (k i n : Nat) (w : Work) : (c.addMacro k i n w).lazyPages = c.lazyPages := rfl
@[simp] theorem Core.line_addMacro (c : Core) (k i n : Nat) (w : Work) : (c.addMacro k i n w).line = c.line := rfl
@[simp] theorem Core.bound_addMacro (c : Core) (k i n : Nat) (w : Work) : (c.addMacro k i n w).bound = c.bound := rfl
@[simp] theorem Core.pass_addMacro (c : Core) (k i n : Nat) (w : Work) : (c.addMacro k i n w).pass = c.pass := rfl
@[simp] theorem Core.passing_addMacro (c : Core) (k i n : Nat) (w : Work) : (c.addMacro k i n w).passing = c.passing := rfl
@[simp] theorem Core.emits_addMacro (c : Core) (k i n : Nat) (w : Work) : (c.addMacro k i n w).emits = c.emits := rfl
@[simp] theorem Core.tail_addMacro (c : Core) (k i n : Nat) (w : Work) : (c.addMacro k i n w).tail = c.tail := rfl
@[simp] theorem Core.tailAt_addMacro (c : Core) (k i n : Nat) (w : Work) : (c.addMacro k i n w).tailAt = c.tailAt := rfl
@[simp] theorem Core.depth_addMacro (c : Core) (k i n : Nat) (w : Work) : (c.addMacro k i n w).depth = c.depth := rfl
@[simp] theorem Core.lttDue_addMacro (c : Core) (k i n : Nat) (w : Work) : (c.addMacro k i n w).lttDue = c.lttDue := rfl
@[simp] theorem Core.walked_addMacro (c : Core) (k i n : Nat) (w : Work) : (c.addMacro k i n w).walked = c.walked := rfl

/-! ## addFin -/

@[simp] theorem Core.ctx_addFin (c : Core) (a : Act) :
    (c.addFin a).ctx = { c.ctx with ctl := { c.ctx.ctl with fin := c.ctx.ctl.fin ++ [a] } } := rfl
@[simp] theorem Core.held_addFin (c : Core) (a : Act) : (c.addFin a).held = c.held := rfl
@[simp] theorem Core.mode_addFin (c : Core) (a : Act) : (c.addFin a).mode = c.mode := rfl
@[simp] theorem Core.tm_addFin (c : Core) (a : Act) : (c.addFin a).tm = c.tm := rfl
@[simp] theorem Core.sh_addFin (c : Core) (a : Act) : (c.addFin a).sh = c.sh := rfl
@[simp] theorem Core.v_addFin (c : Core) (a : Act) : (c.addFin a).v = c.v := rfl
@[simp] theorem Core.k_addFin (c : Core) (a : Act) : (c.addFin a).k = c.k := rfl
@[simp] theorem Core.tiles_addFin (c : Core) (a : Act) : (c.addFin a).tiles = c.tiles := rfl
@[simp] theorem Core.tilePend_addFin (c : Core) (a : Act) : (c.addFin a).tilePend = c.tilePend := rfl
@[simp] theorem Core.sq_addFin (c : Core) (a : Act) : (c.addFin a).sq = c.sq := rfl
@[simp] theorem Core.unitId_addFin (c : Core) (a : Act) : (c.addFin a).unitId = c.unitId := rfl
@[simp] theorem Core.launchId_addFin (c : Core) (a : Act) : (c.addFin a).launchId = c.launchId := rfl
@[simp] theorem Core.partId_addFin (c : Core) (a : Act) : (c.addFin a).partId = c.partId := rfl
@[simp] theorem Core.grpPos_addFin (c : Core) (a : Act) : (c.addFin a).grpPos = c.grpPos := rfl
@[simp] theorem Core.hvec_addFin (c : Core) (a : Act) : (c.addFin a).hvec = c.hvec := rfl
@[simp] theorem Core.lttBase_addFin (c : Core) (a : Act) : (c.addFin a).lttBase = c.lttBase := rfl
@[simp] theorem Core.savePtr_addFin (c : Core) (a : Act) : (c.addFin a).savePtr = c.savePtr := rfl
@[simp] theorem Core.owners_addFin (c : Core) (a : Act) : (c.addFin a).owners = c.owners := rfl
@[simp] theorem Core.assay_addFin (c : Core) (a : Act) : (c.addFin a).assay = c.assay := rfl
@[simp] theorem Core.reheat_addFin (c : Core) (a : Act) : (c.addFin a).reheat = c.reheat := rfl
@[simp] theorem Core.landing_addFin (c : Core) (a : Act) : (c.addFin a).landing = c.landing := rfl
@[simp] theorem Core.strays_addFin (c : Core) (a : Act) : (c.addFin a).strays = c.strays := rfl
@[simp] theorem Core.strayIn_addFin (c : Core) (a : Act) : (c.addFin a).strayIn = c.strayIn := rfl
@[simp] theorem Core.routes_addFin (c : Core) (a : Act) : (c.addFin a).routes = c.routes := rfl
@[simp] theorem Core.ltt_addFin (c : Core) (a : Act) : (c.addFin a).ltt = c.ltt := rfl
@[simp] theorem Core.owned_addFin (c : Core) (a : Act) : (c.addFin a).owned = c.owned := rfl
@[simp] theorem Core.parity_addFin (c : Core) (a : Act) : (c.addFin a).parity = c.parity := rfl
@[simp] theorem Core.swapped_addFin (c : Core) (a : Act) : (c.addFin a).swapped = c.swapped := rfl
@[simp] theorem Core.bgroups_addFin (c : Core) (a : Act) : (c.addFin a).bgroups = c.bgroups := rfl
@[simp] theorem Core.agroups_addFin (c : Core) (a : Act) : (c.addFin a).agroups = c.agroups := rfl
@[simp] theorem Core.qa_addFin (c : Core) (a : Act) : (c.addFin a).qa = c.qa := rfl
@[simp] theorem Core.qb_addFin (c : Core) (a : Act) : (c.addFin a).qb = c.qb := rfl
@[simp] theorem Core.nt_addFin (c : Core) (a : Act) : (c.addFin a).nt = c.nt := rfl
@[simp] theorem Core.epoch_addFin (c : Core) (a : Act) : (c.addFin a).epoch = c.epoch := rfl
@[simp] theorem Core.nextUid_addFin (c : Core) (a : Act) : (c.addFin a).nextUid = c.nextUid := rfl
@[simp] theorem Core.launch_addFin (c : Core) (a : Act) : (c.addFin a).launch = c.launch := rfl
@[simp] theorem Core.group_addFin (c : Core) (a : Act) : (c.addFin a).group = c.group := rfl
@[simp] theorem Core.run_addFin (c : Core) (a : Act) : (c.addFin a).run = c.run := rfl
@[simp] theorem Core.sat_addFin (c : Core) (a : Act) : (c.addFin a).sat = c.sat := rfl
@[simp] theorem Core.holdTo_addFin (c : Core) (a : Act) : (c.addFin a).holdTo = c.holdTo := rfl
@[simp] theorem Core.stopAt_addFin (c : Core) (a : Act) : (c.addFin a).stopAt = c.stopAt := rfl
@[simp] theorem Core.stopped_addFin (c : Core) (a : Act) : (c.addFin a).stopped = c.stopped := rfl
@[simp] theorem Core.restart_addFin (c : Core) (a : Act) : (c.addFin a).restart = c.restart := rfl
@[simp] theorem Core.fresh_addFin (c : Core) (a : Act) : (c.addFin a).fresh = c.fresh := rfl
@[simp] theorem Core.events_addFin (c : Core) (a : Act) : (c.addFin a).events = c.events := rfl
@[simp] theorem Core.late_addFin (c : Core) (a : Act) : (c.addFin a).late = c.late := rfl
@[simp] theorem Core.forced_addFin (c : Core) (a : Act) : (c.addFin a).forced = c.forced := rfl
@[simp] theorem Core.xfers_addFin (c : Core) (a : Act) : (c.addFin a).xfers = c.xfers := rfl
@[simp] theorem Core.arrived_addFin (c : Core) (a : Act) : (c.addFin a).arrived = c.arrived := rfl
@[simp] theorem Core.recv_addFin (c : Core) (a : Act) : (c.addFin a).recv = c.recv := rfl
@[simp] theorem Core.saved_addFin (c : Core) (a : Act) : (c.addFin a).saved = c.saved := rfl
@[simp] theorem Core.lazyPages_addFin (c : Core) (a : Act) : (c.addFin a).lazyPages = c.lazyPages := rfl
@[simp] theorem Core.line_addFin (c : Core) (a : Act) : (c.addFin a).line = c.line := rfl
@[simp] theorem Core.bound_addFin (c : Core) (a : Act) : (c.addFin a).bound = c.bound := rfl
@[simp] theorem Core.pass_addFin (c : Core) (a : Act) : (c.addFin a).pass = c.pass := rfl
@[simp] theorem Core.passing_addFin (c : Core) (a : Act) : (c.addFin a).passing = c.passing := rfl
@[simp] theorem Core.emits_addFin (c : Core) (a : Act) : (c.addFin a).emits = c.emits := rfl
@[simp] theorem Core.tail_addFin (c : Core) (a : Act) : (c.addFin a).tail = c.tail := rfl
@[simp] theorem Core.tailAt_addFin (c : Core) (a : Act) : (c.addFin a).tailAt = c.tailAt := rfl
@[simp] theorem Core.depth_addFin (c : Core) (a : Act) : (c.addFin a).depth = c.depth := rfl
@[simp] theorem Core.lttDue_addFin (c : Core) (a : Act) : (c.addFin a).lttDue = c.lttDue := rfl
@[simp] theorem Core.walked_addFin (c : Core) (a : Act) : (c.addFin a).walked = c.walked := rfl

end Sys2Proof.Machine
end

