-- ==== Sys2Proof/Laws/Memory.lean ====
section
/-! SUPPORT. The laws of memory: a byte reads back, writes leave every other byte alone, and every operation keeps the canonical form. -/

namespace Sys2Proof.Machine

/-! ## The canonical form -/

/-- The canonical form said with the library's notions: keys rise strictly, and no byte equals what an unlisted one reads as. -/
theorem Memory.wf_iff (m : Memory) : m.wf = true ↔ m.Pairwise (fun x y => x.1 < y.1) ∧ ∀ x ∈ m, x.2 ≠ unlisted := by
  induction m with
  | nil => simp [Memory.wf]
  | cons x r ih =>
    obtain ⟨a, b⟩ := x
    cases r with
    | nil => simp [Memory.wf]
    | cons y r' =>
      obtain ⟨a', b'⟩ := y
      simp only [Memory.wf, Bool.and_eq_true, bne_iff_ne, ne_eq, decide_eq_true_eq] at ih ⊢
      constructor
      · rintro ⟨⟨hb, ha⟩, hr⟩
        obtain ⟨hp, hl⟩ := ih.1 hr
        refine ⟨List.pairwise_cons.2 ⟨fun z hz => ?_, hp⟩, fun z hz => ?_⟩
        · rcases List.mem_cons.1 hz with h | h
          · exact h ▸ ha
          · exact Nat.lt_trans ha ((List.pairwise_cons.1 hp).1 z h)
        · rcases List.mem_cons.1 hz with h | h
          · exact h ▸ hb
          · exact hl z h
      · rintro ⟨hp, hl⟩
        have hp' := List.pairwise_cons.1 hp
        exact ⟨⟨hl _ (List.mem_cons_self ..), hp'.1 _ (List.mem_cons_self ..)⟩,
          ih.2 ⟨hp'.2, fun z hz => hl z (List.mem_cons_of_mem _ hz)⟩⟩

/-- A part of a canonical memory is canonical. -/
theorem Memory.wf_sublist {l m : Memory} (h : m.wf = true) (s : List.Sublist l m) : l.wf = true := by
  rw [Memory.wf_iff] at h ⊢
  exact ⟨h.1.sublist s, fun x hx => h.2 x (s.subset hx)⟩

/-- Clearing a range keeps the canonical form. -/
theorem memClear_wf {m : Memory} (h : m.wf = true) (k n : Nat) : (memClear m k n).wf = true :=
  Memory.wf_sublist h List.filter_sublist

/-- The entries of a memory after one byte is written. -/
theorem mem_memPut {m : Memory} {k : Nat} {b : BitVec 8} {x : Host.Cell} (h : x ∈ memPut m k b) : x = (k, b) ∧ b ≠ unlisted ∨ x ∈ m := by
  induction m with
  | nil => simp only [memPut] at h; split at h <;> simp_all
  | cons y r ih =>
    obtain ⟨j, c⟩ := y
    simp only [memPut] at h
    split at h
    · rcases List.mem_cons.1 h with h | h
      · exact .inr (h ▸ List.mem_cons_self ..)
      · exact (ih h).imp_right (List.mem_cons_of_mem _)
    · split at h
      · split at h
        · exact .inr (List.mem_cons_of_mem _ h)
        · next hb => exact (List.mem_cons.1 h).imp (fun e => ⟨e, hb⟩) (List.mem_cons_of_mem _)
      · split at h
        · exact .inr h
        · next hb => exact (List.mem_cons.1 h).imp (fun e => ⟨e, hb⟩) id

/-- Writing a byte keeps the canonical form. -/
theorem memPut_wf {m : Memory} (h : m.wf = true) (k : Nat) (b : BitVec 8) : (memPut m k b).wf = true := by
  rw [Memory.wf_iff] at h ⊢
  refine ⟨?_, fun x hx => ?_⟩
  · obtain ⟨hp, -⟩ := h
    induction m with
    | nil => simp only [memPut]; split <;> simp
    | cons y r ih =>
      obtain ⟨j, c⟩ := y
      obtain ⟨h1, h2⟩ := List.pairwise_cons.1 hp
      simp only [memPut]
      split
      · next hj =>
        refine List.pairwise_cons.2 ⟨fun z hz => ?_, ih h2⟩
        rcases mem_memPut hz with ⟨e, -⟩ | hz
        · exact e ▸ hj
        · exact h1 z hz
      · split
        · next hj =>
          subst hj
          split
          · exact h2
          · exact List.pairwise_cons.2 ⟨fun z hz => h1 z hz, h2⟩
        · next hj1 hj2 =>
          split
          · exact hp
          · refine List.pairwise_cons.2 ⟨fun z hz => ?_, hp⟩
            rcases List.mem_cons.1 hz with e | hz
            · subst e; show k < j; omega
            · have := h1 z hz; show k < z.1; simp only at this; omega
  · rcases mem_memPut hx with ⟨e, hb⟩ | hx
    · exact e ▸ hb
    · exact h.2 x hx

/-- Writing bytes in a row keeps the canonical form. -/
theorem memPutN_wf {m : Memory} (h : m.wf = true) (k : Nat) (l : List (BitVec 8)) : (memPutN m k l).wf = true := by
  induction l generalizing m k with
  | nil => exact h
  | cons b r ih => exact ih (memPut_wf h k b) (k + 1)

/-- Writing listed bytes keeps the canonical form. -/
theorem memPutCells_wf {m : Memory} (h : m.wf = true) (l : List Host.Cell) : (memPutCells m l).wf = true := by
  induction l generalizing m with
  | nil => exact h
  | cons x r ih => exact ih (memPut_wf h x.1 x.2)

/-- Copying a range keeps the canonical form. -/
theorem memCopy_wf {m : Memory} (h : m.wf = true) (a b n : Nat) : (memCopy m a b n).wf = true := memPutCells_wf (memClear_wf h b n) _

/-! ## Reading back -/

/-- A key below every listed one reads as unlisted. -/
theorem memGet_absent {m : Memory} {k : Nat} (h : ∀ x ∈ m, x.1 ≠ k) : memGet m k = unlisted := by
  induction m with
  | nil => rfl
  | cons y r ih =>
    obtain ⟨j, c⟩ := y
    simp only [memGet, h _ (List.mem_cons_self ..), if_false]
    exact ih fun x hx => h x (List.mem_cons_of_mem _ hx)

/-- Another byte reads as before. -/
theorem memGet_memPut_other (m : Memory) {k a : Nat} (b : BitVec 8) (h : a ≠ k) : memGet (memPut m k b) a = memGet m a := by
  induction m with
  | nil => simp only [memPut]; split <;> simp [memGet, h.symm]
  | cons y r ih =>
    obtain ⟨j, c⟩ := y
    simp only [memPut]
    split
    · simp [memGet, ih]
    · split
      · next hj => subst hj; split <;> simp [memGet, h.symm]
      · split <;> simp [memGet, h.symm]

/-- The byte written reads back. -/
theorem memGet_memPut_self {m : Memory} (h : m.wf = true) (k : Nat) (b : BitVec 8) : memGet (memPut m k b) k = b := by
  have hs := ((Memory.wf_iff m).1 h).1
  clear h
  induction m with
  | nil => simp only [memPut]; split <;> simp_all [memGet]
  | cons y r ih =>
    obtain ⟨j, c⟩ := y
    obtain ⟨h1, h2⟩ := List.pairwise_cons.1 hs
    simp only [memPut]
    split
    · next hj => simp [memGet, Nat.ne_of_lt hj, ih h2]
    · split
      · next hj =>
        subst hj
        split
        · next hb => rw [hb]; exact memGet_absent fun x hx => (Nat.ne_of_gt (h1 x hx))
        · simp [memGet]
      · split
        · next hb =>
          rw [hb]
          refine memGet_absent fun x hx => ?_
          rcases List.mem_cons.1 hx with e | hx
          · subst e; show j ≠ k; omega
          · have := h1 x hx; simp only at this; omega
        · simp [memGet]

/-- A byte outside those written in a row reads as before. -/
theorem memGet_memPutN_other (m : Memory) {k a : Nat} (l : List (BitVec 8)) (h : a < k ∨ k + l.length ≤ a) :
    memGet (memPutN m k l) a = memGet m a := by
  induction l generalizing m k with
  | nil => rfl
  | cons b r ih =>
    simp only [List.length_cons] at h
    rw [memPutN, ih _ (by omega), memGet_memPut_other _ _ (by omega)]

/-- A byte written in a row reads back. -/
theorem memGet_memPutN_self {m : Memory} (h : m.wf = true) (k i : Nat) (l : List (BitVec 8)) (hi : i < l.length) :
    memGet (memPutN m k l) (k + i) = l[i] := by
  induction l generalizing m k i with
  | nil => simp at hi
  | cons b r ih =>
    cases i with
    | zero =>
      simp only [Nat.add_zero]
      rw [memPutN, memGet_memPutN_other _ _ (by omega), memGet_memPut_self h]
      rfl
    | succ j =>
      rw [memPutN, show k + (j + 1) = k + 1 + j by omega, ih (memPut_wf h k b) (k + 1) j (by simpa using hi)]
      rfl

/-- A byte outside a cleared range reads as before. -/
theorem memGet_memClear_other (m : Memory) {k n a : Nat} (h : a < k ∨ k + n ≤ a) : memGet (memClear m k n) a = memGet m a := by
  induction m with
  | nil => rfl
  | cons y r ih =>
    obtain ⟨j, c⟩ := y
    simp only [memClear, List.filter_cons] at ih ⊢
    split
    · simp only [memGet, ih]
    · next hj =>
      have : j ≠ a := by
        intro e; subst e
        simp only [Bool.or_eq_true, decide_eq_true_eq] at hj
        omega
      simp only [memGet, this, if_false, ih]

/-- A byte of a cleared range reads as unlisted. -/
theorem memGet_memClear_self (m : Memory) {k n a : Nat} (h : k ≤ a) (h' : a < k + n) : memGet (memClear m k n) a = unlisted := by
  refine memGet_absent fun x hx e => ?_
  have := (List.mem_filter.1 hx).2
  simp only [Bool.or_eq_true, decide_eq_true_eq] at this
  omega

end Sys2Proof.Machine
end

