-- ==== Sys2Proof/Laws/Ops.lean ====
section
/-! SUPPORT. What each shared operation of the meanings answers: guards, reserved values, privilege, room in the flight queue, checks, the trap
and the changes of an LTT. -/

namespace Sys2Proof.Machine

open Sys2Proof

/-! ## Guards and checks (R20, R22, R90, R95) -/

/-- An instruction that acts on its core changes that core alone. -/
theorem State.act_becomes (s : State) (f : Core → Core) : s.act f = s.becomes (f s.me) := rfl

/-- A true guard lets the instruction act. -/
theorem State.guarded_on {s : State} {g : BitVec 4} (h : s.on g) (f : Core → Core) : s.guarded g f = s.becomes (f s.me) := by
  have h' : (s.core s.cur).readP g = true := h
  simp only [State.guarded, State.act, State.onCur, h', if_true]

/-- A false guard leaves the core as it is. -/
theorem State.guarded_off {s : State} {g : BitVec 4} (h : s.me.readP g = false) (f : Core → Core) : s.guarded g f = s.becomes s.me := by
  have h' : (s.core s.cur).readP g = false := h
  simp only [State.guarded, State.act, State.onCur, h']
  rfl

/-- A word with no reserved value goes on. -/
@[simp] theorem State.checked_true (s : State) (k : Out) : s.checked true k = k := rfl

/-- A reserved value is ILLEGAL. -/
@[simp] theorem State.checked_false (s : State) (k : Out) : s.checked false k = s.becomes (s.illegal s.me) := rfl

/-- Outside tenant mode a runtime instruction acts. -/
theorem State.runtime_priv {s : State} (h : s.priv) (f : Core → Core) : s.runtime f = s.becomes (f s.me) := by
  have h' : ¬(s.core s.cur).mode = 0 := h
  simp only [State.runtime, State.act, State.onCur, h', if_false]

/-- In tenant mode it takes PRIVILEGE. -/
theorem State.runtime_tenant {s : State} (h : s.me.mode = 0) (f : Core → Core) : s.runtime f = s.becomes (s.privilege s.me) := by
  have h' : (s.core s.cur).mode = 0 := h
  simp only [State.runtime, State.act, State.onCur, h', if_true]

/-- With room in the flight queue the instruction goes on. -/
theorem State.room_of_lt {s : State} {c : Core} (h : c.ctx.inFlight < 64) (f : Core → Core) : s.room f c = f c := by
  simp [State.room, Nat.not_le.2 h]

/-- Beyond 64 results in flight it takes II_VIOLATION. -/
theorem State.room_of_full {s : State} {c : Core} (h : 64 ≤ c.ctx.inFlight) (f : Core → Core) : s.room f c = s.iiViolation c := by
  simp [State.room, h]

/-- A delivery with room puts its item in flight. -/
theorem State.deliver_of_lt {s : State} {c : Core} (h : c.ctx.inFlight < 64) (lat : Nat) (acts : List Act) :
    s.deliver lat acts c = c.addItem s.slot lat true false acts := State.room_of_lt h _

/-- A check that passes lets the instruction go on. -/
@[simp] theorem State.unless_none (s : State) (v : Word) (f : Core → Core) (c : Core) : s.unless none v f c = f c := rfl

/-- A check that fails faults with the value given. -/
@[simp] theorem State.unless_some (s : State) (p : Nat × Word) (v : Word) (f : Core → Core) (c : Core) :
    s.unless (some p) v f c = s.fault p.1 v 0 c := rfl

/-- A check that passes lets the instruction go on. -/
@[simp] theorem State.unlessAt_none (s : State) (f : Core → Core) (c : Core) : s.unlessAt none f c = f c := rfl

/-- A check that fails faults with the address it names. -/
@[simp] theorem State.unlessAt_some (s : State) (p : Nat × Word) (f : Core → Core) (c : Core) :
    s.unlessAt (some p) f c = s.fault p.1 p.2 0 c := rfl

/-! ## Results (R112, R113) -/

/-- A scalar result under a true guard with room. -/
theorem aluOp_gives {s : State} {g : BitVec 4} (h : s.on g) (hr : s.roomy) (d : BitVec 6) (lat : Nat) (f : Core → Word) :
    aluOp s g d lat f = s.givesS lat d (f s.me) := by
  rw [aluOp, State.guarded_on h, State.deliver_of_lt hr]

/-- A predicate result under a true guard with room. -/
theorem predOp_gives {s : State} {g : BitVec 4} (h : s.on g) (hr : s.roomy) (d : BitVec 4) (f : Core → Bool) :
    predOp s g d f = s.givesP d (f s.me) := by
  rw [predOp, State.guarded_on h, State.deliver_of_lt hr]

/-! ## One core alone -/

/-- An outcome in which the acting core alone may have changed. -/
def State.oneCore (s : State) (o : Out) : Prop := ∃ c, o = s.becomes c

theorem State.oneCore_becomes (s : State) (c : Core) : s.oneCore (s.becomes c) := ⟨c, rfl⟩
theorem State.oneCore_act (s : State) (f : Core → Core) : s.oneCore (s.act f) := ⟨_, rfl⟩
theorem State.oneCore_guarded (s : State) (g : BitVec 4) (f : Core → Core) : s.oneCore (s.guarded g f) := ⟨_, rfl⟩
theorem State.oneCore_runtime (s : State) (f : Core → Core) : s.oneCore (s.runtime f) := ⟨_, rfl⟩
theorem State.oneCore_checked {s : State} (b : Bool) {k : Out} (h : s.oneCore k) : s.oneCore (s.checked b k) := by
  cases b
  · exact ⟨_, rfl⟩
  · exact h

/-- What one core alone leaves: every other core, and the rest of the package, memory with it. -/
theorem State.oneCore_frame {s t : State} {o : Out} (h : s.oneCore o) (ht : o = .next t) :
    t.mem = s.mem ∧ (∀ m, m ≠ s.cur → t.core m = s.core m) ∧ t = s.setCore s.cur (t.core s.cur) := by
  obtain ⟨c, rfl⟩ := h
  cases ht
  exact ⟨rfl, fun m hm => s.core_setCore_other c hm, by simp⟩

/-! ## The trap (R247, R248) -/

/-- A trap while TM is set: no handler runs, and the core stands in firmware mode. -/
theorem Core.takeTrap_double {c : Core} (h : c.tm = true) (tick clk sres : Nat) (t : Trap) (pc : Word) (rep : BitVec 7) :
    c.takeTrap tick clk sres t pc rep = { c with run := .dead, mode := 2, line := none, emits := c.emits ++ [.halt] } := by
  simp [Core.takeTrap, h]

/-- What a trap with TM clear makes of the mode, the flags of the trap, the handler's address and its first issue. -/
theorem Core.takeTrap_enters {c : Core} (h : c.tm = false) (tick clk sres : Nat) (t : Trap) (pc : Word) (rep : BitVec 7) :
    let d := c.takeTrap tick clk sres t pc rep
    d.mode = 1 ∧ d.tm = true ∧ d.sh = true ∧ d.run = .run ∧ d.holdTo = tick + 4 ∧ d.line = none ∧
      d.ctx.pc = BitVec.ofNat 64 (c.hvec.toNat % 2 ^ 17) := by
  simp [Core.takeTrap, h]

/-! ## Changes of the LTT (R226) -/

/-- With no change pending, the end of a cycle leaves the LTT and the core. -/
theorem Core.applyLtt_none {c : Core} (h : c.lttDue = []) : c.applyLtt = c := by
  simp [Core.applyLtt, h]

/-- A pending change of an entry is the LTT's at the end of the cycle, and none is pending any more. -/
theorem Core.applyLtt_put {c : Core} {i : Nat} {e : BitVec 128} (h : c.lttDue = [.put i e]) (he : e ≠ 0) :
    c.applyLtt.ltt = Map.put c.ltt i e ∧ c.applyLtt.lttDue = [] := by
  simp [Core.applyLtt, Core.lttNext, LttWr.isInv, LttWr.apply, h]
  exact fun h0 => absurd h0 he

/-- A pending clearing is seen after every other change of its cycle. -/
theorem Core.lttNext_inv {c : Core} {l : List LttWr} {e n : Nat} (h : c.lttDue = l ++ [.inv e n]) (hl : ∀ w ∈ l, w.isInv = false) :
    c.lttNext = LttWr.apply (l.foldl LttWr.apply c.ltt) (.inv e n) := by
  have keep : l.filter (fun w => !w.isInv) = l := List.filter_eq_self.2 fun w hw => by simp [hl w hw]
  have drop : l.filter LttWr.isInv = [] := List.filter_eq_nil_iff.2 fun w hw => by simp [hl w hw]
  have one : [LttWr.inv e n].filter LttWr.isInv = [.inv e n] ∧ [LttWr.inv e n].filter (fun w => !w.isInv) = [] := ⟨rfl, rfl⟩
  rw [Core.lttNext, h, List.filter_append, List.filter_append, keep, drop, one.1, one.2]
  simp

end Sys2Proof.Machine
end

