-- ==== Sys2Proof/Laws/PerInstr.lean ====
section
/-! SUPPORT. For every constructor of the instruction type: how many words its encoding has, and that it has one exactly where the
instruction stands in a slot. -/

namespace Sys2Proof.Laws.Encoded

open Sys2Proof

/-- An encoding has at most two words (R85), and it has one exactly where the instruction stands in some slot (R91 to R94). -/
def Statement (i : Instr) : Prop := (encode i).length ≤ 2 ∧ (encode i = [] ↔ i.slots = [])

/-- An instruction of one word. -/
theorem ofWord {i : Instr} {w : BitVec 32} {k : Nat} {r : List Nat} (h : encode i = [w]) (hs : i.slots = k :: r) : Statement i := by
  simp [Statement, h, hs]

/-- An instruction of one word that may take an extension. -/
theorem ofWordAndExtension {i : Instr} {w : BitVec 32} {x : Option (BitVec 32)} {k : Nat} {r : List Nat} (h : encode i = w :: x.toList)
    (hs : i.slots = k :: r) : Statement i := by
  cases x <;> simp [Statement, h, hs]

/-- An instruction of one word and its extension. -/
theorem ofTwoWords {i : Instr} {w e : BitVec 32} {k : Nat} {r : List Nat} (h : encode i = [w, e]) (hs : i.slots = k :: r) : Statement i := by
  simp [Statement, h, hs]

/-- An event of the package, which no word encodes. -/
theorem ofNone {i : Instr} (h : encode i = []) (hs : i.slots = []) : Statement i := by simp [Statement, h, hs]

theorem nop (x1) : Statement (.nop x1) := ofWord rfl rfl
theorem br (x1 x2 x3 x4) : Statement (.br x1 x2 x3 x4) := ofWordAndExtension rfl rfl
theorem jmp (x1 x2 x3) : Statement (.jmp x1 x2 x3) := ofWord rfl rfl
theorem call (x1 x2 x3 x4) : Statement (.call x1 x2 x3 x4) := ofWordAndExtension rfl rfl
theorem ret (x1 x2 x3) : Statement (.ret x1 x2 x3) := ofWord rfl rfl
theorem loop (x1 x2 x3 x4 x5 x6) : Statement (.loop x1 x2 x3 x4 x5 x6) := ofWordAndExtension rfl rfl
theorem lexit (x1 x2) : Statement (.lexit x1 x2) := ofWord rfl rfl
theorem sync (x1 x2) : Statement (.sync x1 x2) := ofWord rfl rfl
theorem bar (x1 x2) : Statement (.bar x1 x2) := ofWord rfl rfl
theorem barns (x1 x2) : Statement (.barns x1 x2) := ofWord rfl rfl
theorem waitt (x1 x2 x3 x4) : Statement (.waitt x1 x2 x3 x4) := ofWordAndExtension rfl rfl
theorem twait (x1 x2 x3) : Statement (.twait x1 x2 x3) := ofWord rfl rfl
theorem ccwait (x1 x2 x3 x4) : Statement (.ccwait x1 x2 x3 x4) := ofWord rfl rfl
theorem uend (x1 x2) : Statement (.uend x1 x2) := ofWord rfl rfl
theorem qpoint (x1 x2) : Statement (.qpoint x1 x2) := ofWord rfl rfl
theorem ifence (x1 x2) : Statement (.ifence x1 x2) := ofWord rfl rfl
theorem bkacq (x1 x2 x3 x4) : Statement (.bkacq x1 x2 x3 x4) := ofWord rfl rfl
theorem bkrel (x1 x2 x3 x4) : Statement (.bkrel x1 x2 x3 x4) := ofWord rfl rfl
theorem drainnt (x1 x2) : Statement (.drainnt x1 x2) := ofWord rfl rfl
theorem qfence (x1 x2) : Statement (.qfence x1 x2) := ofWord rfl rfl
theorem pack (x1) : Statement (.pack x1) := ofWord rfl rfl
theorem trap (x1 x2 x3) : Statement (.trap x1 x2 x3) := ofWord rfl rfl
theorem brk (x1 x2) : Statement (.brk x1 x2) := ofWord rfl rfl
theorem eret (x1 x2) : Statement (.eret x1 x2) := ofWord rfl rfl
theorem snapst (x1 x2) : Statement (.snapst x1 x2) := ofWord rfl rfl
theorem snaprel (x1) : Statement (.snaprel x1) := ofWord rfl rfl
theorem ctxsave (x1 x2) : Statement (.ctxsave x1 x2) := ofWord rfl rfl
theorem ctxrest (x1 x2 x3 x4) : Statement (.ctxrest x1 x2 x3 x4) := ofWord rfl rfl
theorem lttld (x1 x2 x3) : Statement (.lttld x1 x2 x3) := ofWord rfl rfl
theorem lttinv (x1 x2) : Statement (.lttinv x1 x2) := ofWord rfl rfl
theorem add (x1 x2 x3 x4) : Statement (.add x1 x2 x3 x4) := ofWord rfl rfl
theorem addi (x1 x2 x3 x4 x5) : Statement (.addi x1 x2 x3 x4 x5) := ofWordAndExtension rfl rfl
theorem sub (x1 x2 x3 x4) : Statement (.sub x1 x2 x3 x4) := ofWord rfl rfl
theorem mul (x1 x2 x3 x4) : Statement (.mul x1 x2 x3 x4) := ofWord rfl rfl
theorem mulh (x1 x2 x3 x4 x5) : Statement (.mulh x1 x2 x3 x4 x5) := ofWord rfl rfl
theorem div (x1 x2 x3 x4 x5) : Statement (.div x1 x2 x3 x4 x5) := ofWord rfl rfl
theorem and (x1 x2 x3 x4) : Statement (.and x1 x2 x3 x4) := ofWord rfl rfl
theorem or (x1 x2 x3 x4) : Statement (.or x1 x2 x3 x4) := ofWord rfl rfl
theorem xor (x1 x2 x3 x4) : Statement (.xor x1 x2 x3 x4) := ofWord rfl rfl
theorem andi (x1 x2 x3 x4 x5) : Statement (.andi x1 x2 x3 x4 x5) := ofWordAndExtension rfl rfl
theorem ori (x1 x2 x3 x4 x5) : Statement (.ori x1 x2 x3 x4 x5) := ofWordAndExtension rfl rfl
theorem xori (x1 x2 x3 x4 x5) : Statement (.xori x1 x2 x3 x4 x5) := ofWordAndExtension rfl rfl
theorem shl (x1 x2 x3 x4) : Statement (.shl x1 x2 x3 x4) := ofWord rfl rfl
theorem shr (x1 x2 x3 x4) : Statement (.shr x1 x2 x3 x4) := ofWord rfl rfl
theorem sar (x1 x2 x3 x4) : Statement (.sar x1 x2 x3 x4) := ofWord rfl rfl
theorem shli (x1 x2 x3 x4 x5) : Statement (.shli x1 x2 x3 x4 x5) := ofWordAndExtension rfl rfl
theorem shri (x1 x2 x3 x4 x5) : Statement (.shri x1 x2 x3 x4 x5) := ofWordAndExtension rfl rfl
theorem sari (x1 x2 x3 x4 x5) : Statement (.sari x1 x2 x3 x4 x5) := ofWordAndExtension rfl rfl
theorem minmax (x1 x2 x3 x4 x5) : Statement (.minmax x1 x2 x3 x4 x5) := ofWord rfl rfl
theorem cmp (x1 x2 x3 x4 x5) : Statement (.cmp x1 x2 x3 x4 x5) := ofWord rfl rfl
theorem cmpi (x1 x2 x3 x4 x5 x6) : Statement (.cmpi x1 x2 x3 x4 x5 x6) := ofWordAndExtension rfl rfl
theorem sel (x1 x2 x3 x4 x5) : Statement (.sel x1 x2 x3 x4 x5) := ofWord rfl rfl
theorem movi (x1 x2 x3 x4) : Statement (.movi x1 x2 x3 x4) := ofWordAndExtension rfl rfl
theorem movhi (x1 x2 x3 x4) : Statement (.movhi x1 x2 x3 x4) := ofWordAndExtension rfl rfl
theorem lea (x1 x2 x3 x4 x5) : Statement (.lea x1 x2 x3 x4 x5) := ofWord rfl rfl
theorem plog (x1 x2 x3 x4 x5) : Statement (.plog x1 x2 x3 x4 x5) := ofWord rfl rfl
theorem bitc (x1 x2 x3 x4) : Statement (.bitc x1 x2 x3 x4) := ofWord rfl rfl
theorem bitcTest (x1 x2 x3 x4) : Statement (.bitcTest x1 x2 x3 x4) := ofWord rfl rfl
theorem ldb (x1 x2 x3 x4 x5) : Statement (.ldb x1 x2 x3 x4 x5) := ofWordAndExtension rfl rfl
theorem ldbu (x1 x2 x3 x4 x5) : Statement (.ldbu x1 x2 x3 x4 x5) := ofWordAndExtension rfl rfl
theorem ldh (x1 x2 x3 x4 x5) : Statement (.ldh x1 x2 x3 x4 x5) := ofWordAndExtension rfl rfl
theorem ldw (x1 x2 x3 x4 x5) : Statement (.ldw x1 x2 x3 x4 x5) := ofWordAndExtension rfl rfl
theorem ldhu (x1 x2 x3 x4 x5) : Statement (.ldhu x1 x2 x3 x4 x5) := ofWordAndExtension rfl rfl
theorem ldwu (x1 x2 x3 x4 x5) : Statement (.ldwu x1 x2 x3 x4 x5) := ofWordAndExtension rfl rfl
theorem ldd (x1 x2 x3 x4 x5) : Statement (.ldd x1 x2 x3 x4 x5) := ofWordAndExtension rfl rfl
theorem stb (x1 x2 x3 x4 x5) : Statement (.stb x1 x2 x3 x4 x5) := ofWordAndExtension rfl rfl
theorem sth (x1 x2 x3 x4 x5) : Statement (.sth x1 x2 x3 x4 x5) := ofWordAndExtension rfl rfl
theorem stw (x1 x2 x3 x4 x5) : Statement (.stw x1 x2 x3 x4 x5) := ofWordAndExtension rfl rfl
theorem std (x1 x2 x3 x4 x5) : Statement (.std x1 x2 x3 x4 x5) := ofWordAndExtension rfl rfl
theorem atom (x1 x2 x3 x4 x5) : Statement (.atom x1 x2 x3 x4 x5) := ofWord rfl rfl
theorem acas (x1 x2 x3 x4) : Statement (.acas x1 x2 x3 x4) := ofWord rfl rfl
theorem mfs (x1 x2 x3) : Statement (.mfs x1 x2 x3) := ofWord rfl rfl
theorem mts (x1 x2 x3) : Statement (.mts x1 x2 x3) := ofWord rfl rfl
theorem rdcyc (x1 x2) : Statement (.rdcyc x1 x2) := ofWord rfl rfl
theorem rdgt (x1 x2) : Statement (.rdgt x1 x2) := ofWord rfl rfl
theorem ext (x1 x2 x3 x4 x5) : Statement (.ext x1 x2 x3 x4 x5) := ofWord rfl rfl
theorem vadd (x1 x2 x3 x4 x5 x6) : Statement (.vadd x1 x2 x3 x4 x5 x6) := ofWord rfl rfl
theorem vsub (x1 x2 x3 x4 x5 x6) : Statement (.vsub x1 x2 x3 x4 x5 x6) := ofWord rfl rfl
theorem vmul (x1 x2 x3 x4 x5 x6) : Statement (.vmul x1 x2 x3 x4 x5 x6) := ofWord rfl rfl
theorem vfma (x1 x2 x3 x4 x5 x6) : Statement (.vfma x1 x2 x3 x4 x5 x6) := ofWord rfl rfl
theorem vfms (x1 x2 x3 x4 x5 x6) : Statement (.vfms x1 x2 x3 x4 x5 x6) := ofWord rfl rfl
theorem vmin (x1 x2 x3 x4 x5 x6) : Statement (.vmin x1 x2 x3 x4 x5 x6) := ofWord rfl rfl
theorem vmax (x1 x2 x3 x4 x5 x6) : Statement (.vmax x1 x2 x3 x4 x5 x6) := ofWord rfl rfl
theorem vabs (x1 x2 x3 x4) : Statement (.vabs x1 x2 x3 x4) := ofWord rfl rfl
theorem vneg (x1 x2 x3 x4) : Statement (.vneg x1 x2 x3 x4) := ofWord rfl rfl
theorem vcmpeq (x1 x2 x3 x4 x5 x6) : Statement (.vcmpeq x1 x2 x3 x4 x5 x6) := ofWord rfl rfl
theorem vcmplt (x1 x2 x3 x4 x5 x6) : Statement (.vcmplt x1 x2 x3 x4 x5 x6) := ofWord rfl rfl
theorem vcmple (x1 x2 x3 x4 x5 x6) : Statement (.vcmple x1 x2 x3 x4 x5 x6) := ofWord rfl rfl
theorem vcmpne (x1 x2 x3 x4 x5 x6) : Statement (.vcmpne x1 x2 x3 x4 x5 x6) := ofWord rfl rfl
theorem viadd (x1 x2 x3 x4 x5 x6 x7) : Statement (.viadd x1 x2 x3 x4 x5 x6 x7) := ofWord rfl rfl
theorem visub (x1 x2 x3 x4 x5 x6 x7) : Statement (.visub x1 x2 x3 x4 x5 x6 x7) := ofWord rfl rfl
theorem vimul (x1 x2 x3 x4 x5 x6 x7) : Statement (.vimul x1 x2 x3 x4 x5 x6 x7) := ofWord rfl rfl
theorem vand (x1 x2 x3 x4 x5 x6 x7) : Statement (.vand x1 x2 x3 x4 x5 x6 x7) := ofWord rfl rfl
theorem vor (x1 x2 x3 x4 x5 x6 x7) : Statement (.vor x1 x2 x3 x4 x5 x6 x7) := ofWord rfl rfl
theorem vxor (x1 x2 x3 x4 x5 x6 x7) : Statement (.vxor x1 x2 x3 x4 x5 x6 x7) := ofWord rfl rfl
theorem vshl (x1 x2 x3 x4 x5 x6 x7) : Statement (.vshl x1 x2 x3 x4 x5 x6 x7) := ofWord rfl rfl
theorem vshr (x1 x2 x3 x4 x5 x6 x7) : Statement (.vshr x1 x2 x3 x4 x5 x6 x7) := ofWord rfl rfl
theorem vsar (x1 x2 x3 x4 x5 x6 x7) : Statement (.vsar x1 x2 x3 x4 x5 x6 x7) := ofWord rfl rfl
theorem vimin (x1 x2 x3 x4 x5 x6 x7) : Statement (.vimin x1 x2 x3 x4 x5 x6 x7) := ofWord rfl rfl
theorem vimax (x1 x2 x3 x4 x5 x6 x7) : Statement (.vimax x1 x2 x3 x4 x5 x6 x7) := ofWord rfl rfl
theorem vicmpeq (x1 x2 x3 x4 x5 x6 x7) : Statement (.vicmpeq x1 x2 x3 x4 x5 x6 x7) := ofWord rfl rfl
theorem vicmplt (x1 x2 x3 x4 x5 x6 x7) : Statement (.vicmplt x1 x2 x3 x4 x5 x6 x7) := ofWord rfl rfl
theorem vsel (x1 x2 x3 x4 x5 x6 x7) : Statement (.vsel x1 x2 x3 x4 x5 x6 x7) := ofWord rfl rfl
theorem vcvt (x1 x2 x3 x4 x5 x6 x7) : Statement (.vcvt x1 x2 x3 x4 x5 x6 x7) := ofWord rfl rfl
theorem vbcast (x1 x2 x3 x4 x5) : Statement (.vbcast x1 x2 x3 x4 x5) := ofWord rfl rfl
theorem vbcastExt (x1 x2 x3 x4 x5) : Statement (.vbcastExt x1 x2 x3 x4 x5) := ofTwoWords rfl rfl
theorem vperm (x1 x2 x3 x4 x5 x6 x7) : Statement (.vperm x1 x2 x3 x4 x5 x6 x7) := ofWord rfl rfl
theorem vrot (x1 x2 x3 x4 x5 x6 x7) : Statement (.vrot x1 x2 x3 x4 x5 x6 x7) := ofWord rfl rfl
theorem vrsum (x1 x2 x3 x4 x5) : Statement (.vrsum x1 x2 x3 x4 x5) := ofWord rfl rfl
theorem vrmax (x1 x2 x3 x4 x5) : Statement (.vrmax x1 x2 x3 x4 x5) := ofWord rfl rfl
theorem vmov (x1 x2 x3 x4 x5) : Statement (.vmov x1 x2 x3 x4 x5) := ofWord rfl rfl
theorem vld (x1 x2 x3 x4 x5 x6) : Statement (.vld x1 x2 x3 x4 x5 x6) := ofWordAndExtension rfl rfl
theorem vst (x1 x2 x3 x4 x5) : Statement (.vst x1 x2 x3 x4 x5) := ofWordAndExtension rfl rfl
theorem vgather (x1 x2 x3 x4 x5) : Statement (.vgather x1 x2 x3 x4 x5) := ofWord rfl rfl
theorem vscatter (x1 x2 x3 x4) : Statement (.vscatter x1 x2 x3 x4) := ofWord rfl rfl
theorem twrow (x1 x2 x3 x4 x5 x6) : Statement (.twrow x1 x2 x3 x4 x5 x6) := ofWord rfl rfl
theorem trdcol (x1 x2 x3 x4 x5 x6) : Statement (.trdcol x1 x2 x3 x4 x5 x6) := ofWord rfl rfl
theorem vqnt (x1 x2 x3) : Statement (.vqnt x1 x2 x3) := ofWord rfl rfl
theorem vrng (x1 x2 x3) : Statement (.vrng x1 x2 x3) := ofWord rfl rfl
theorem viadds (x1 x2 x3 x4 x5 x6 x7) : Statement (.viadds x1 x2 x3 x4 x5 x6 x7) := ofWord rfl rfl
theorem vrcp (x1 x2 x3 x4) : Statement (.vrcp x1 x2 x3 x4) := ofWord rfl rfl
theorem vrsq (x1 x2 x3 x4) : Statement (.vrsq x1 x2 x3 x4) := ofWord rfl rfl
theorem vexp2 (x1 x2 x3 x4) : Statement (.vexp2 x1 x2 x3 x4) := ofWord rfl rfl
theorem vlog2 (x1 x2 x3 x4) : Statement (.vlog2 x1 x2 x3 x4) := ofWord rfl rfl
theorem vsin (x1 x2 x3 x4) : Statement (.vsin x1 x2 x3 x4) := ofWord rfl rfl
theorem vcos (x1 x2 x3 x4) : Statement (.vcos x1 x2 x3 x4) := ofWord rfl rfl
theorem vtanh (x1 x2 x3 x4) : Statement (.vtanh x1 x2 x3 x4) := ofWord rfl rfl
theorem ascfg (x1 x2 x3 x4) : Statement (.ascfg x1 x2 x3 x4) := ofWord rfl rfl
theorem asclr (x1 x2) : Statement (.asclr x1 x2) := ofWord rfl rfl
theorem asqu (x1 x2 x3) : Statement (.asqu x1 x2 x3) := ofWord rfl rfl
theorem ashh (x1 x2 x3 x4 x5) : Statement (.ashh x1 x2 x3 x4 x5) := ofWord rfl rfl
theorem asdc (x1 x2 x3 x4) : Statement (.asdc x1 x2 x3 x4) := ofWord rfl rfl
theorem asmrg (x1 x2) : Statement (.asmrg x1 x2) := ofWord rfl rfl
theorem assv (x1 x2) : Statement (.assv x1 x2) := ofWord rfl rfl
theorem asqry (x1 x2 x3 x4 x5 x6 x7) : Statement (.asqry x1 x2 x3 x4 x5 x6 x7) := ofWord rfl rfl
theorem asest (x1 x2) : Statement (.asest x1 x2) := ofWord rfl rfl
theorem astopk (x1 x2 x3) : Statement (.astopk x1 x2 x3) := ofWord rfl rfl
theorem rhcfg (x1 x2) : Statement (.rhcfg x1 x2) := ofWord rfl rfl
theorem rhsig (x1 x2 x3) : Statement (.rhsig x1 x2 x3) := ofWord rfl rfl
theorem rhlist (x1 x2) : Statement (.rhlist x1 x2) := ofWord rfl rfl
theorem rhstep (x1 x2 x3) : Statement (.rhstep x1 x2 x3) := ofWord rfl rfl
theorem rhmap (x1 x2 x3) : Statement (.rhmap x1 x2 x3) := ofWord rfl rfl
theorem mma (x1 x2 x3 x4 x5 x6 x7) : Statement (.mma x1 x2 x3 x4 x5 x6 x7) := ofWord rfl rfl
theorem mma3 (x1 x2 x3 x4 x5 x6) : Statement (.mma3 x1 x2 x3 x4 x5 x6) := ofWord rfl rfl
theorem mzero (x1 x2) : Statement (.mzero x1 x2) := ofWord rfl rfl
theorem mband (x1 x2 x3) : Statement (.mband x1 x2 x3) := ofWord rfl rfl
theorem tld (x1 x2 x3 x4 x5 x6) : Statement (.tld x1 x2 x3 x4 x5 x6) := ofWordAndExtension rfl rfl
theorem tst (x1 x2 x3 x4 x5 x6) : Statement (.tst x1 x2 x3 x4 x5 x6) := ofWordAndExtension rfl rfl
theorem tstnt (x1 x2 x3 x4 x5 x6) : Statement (.tstnt x1 x2 x3 x4 x5 x6) := ofWordAndExtension rfl rfl
theorem scld (x1 x2 x3) : Statement (.scld x1 x2 x3) := ofWord rfl rfl
theorem pull (x1 x2 x3 x4) : Statement (.pull x1 x2 x3 x4) := ofWord rfl rfl
theorem push (x1 x2 x3 x4) : Statement (.push x1 x2 x3 x4) := ofWord rfl rfl
theorem cxsend (x1 x2 x3 x4) : Statement (.cxsend x1 x2 x3 x4) := ofWord rfl rfl
theorem cxtile (x1 x2 x3 x4) : Statement (.cxtile x1 x2 x3 x4) := ofWord rfl rfl
theorem gather (x1 x2 x3 x4 x5) : Statement (.gather x1 x2 x3 x4 x5) := ofWord rfl rfl
theorem rtset (x1 x2 x3) : Statement (.rtset x1 x2 x3) := ofWord rfl rfl
theorem mapset (x1 x2 x3 x4) : Statement (.mapset x1 x2 x3 x4) := ofWord rfl rfl
theorem mapret (x1 x2 x3 x4) : Statement (.mapret x1 x2 x3 x4) := ofWord rfl rfl
theorem mapswap (x1 x2 x3 x4 x5) : Statement (.mapswap x1 x2 x3 x4 x5) := ofWord rfl rfl
theorem mapq (x1 x2 x3 x4) : Statement (.mapq x1 x2 x3 x4) := ofWord rfl rfl
theorem straypop (x1 x2 x3 x4) : Statement (.straypop x1 x2 x3 x4) := ofWord rfl rfl
theorem send (x1 x2 x3) : Statement (.send x1 x2 x3) := ofWord rfl rfl
theorem recv (x1 x2 x3) : Statement (.recv x1 x2 x3) := ofWord rfl rfl
theorem recvadd (x1 x2 x3 x4) : Statement (.recvadd x1 x2 x3 x4) := ofWord rfl rfl
theorem recvmax (x1 x2 x3 x4) : Statement (.recvmax x1 x2 x3 x4) := ofWord rfl rfl
theorem grpset (x1 x2 x3) : Statement (.grpset x1 x2 x3) := ofWord rfl rfl
theorem mcldr (x1 x2 x3 x4 x5) : Statement (.mcldr x1 x2 x3 x4 x5) := ofWord rfl rfl
theorem wbrun (x1 x2 x3) : Statement (.wbrun x1 x2 x3) := ofWord rfl rfl
theorem ttarm (x1 x2 x3 x4) : Statement (.ttarm x1 x2 x3 x4) := ofWord rfl rfl
theorem ctarm (x1 x2 x3 x4 x5) : Statement (.ctarm x1 x2 x3 x4 x5) := ofWord rfl rfl
theorem trdis (x1 x2) : Statement (.trdis x1 x2) := ofWord rfl rfl
theorem ccinc (x1 x2 x3 x4) : Statement (.ccinc x1 x2 x3 x4) := ofWord rfl rfl
theorem iterationBoundary (x1) : Statement (.iterationBoundary x1) := ofNone rfl rfl
theorem dynamicWaitRelease (x1) : Statement (.dynamicWaitRelease x1) := ofNone rfl rfl
theorem barrierRelease (x1 x2) : Statement (.barrierRelease x1 x2) := ofNone rfl rfl
theorem groupStall (x1) : Statement (.groupStall x1) := ofNone rfl rfl
theorem groupResume (x1) : Statement (.groupResume x1) := ofNone rfl rfl
theorem pendingEvent (x1) : Statement (.pendingEvent x1) := ofNone rfl rfl
theorem forcedQuench (x1) : Statement (.forcedQuench x1) := ofNone rfl rfl
theorem watchdog (x1) : Statement (.watchdog x1) := ofNone rfl rfl
theorem debuggerHalt (x1) : Statement (.debuggerHalt x1) := ofNone rfl rfl
theorem coordinatePacket (x1 x2) : Statement (.coordinatePacket x1 x2) := ofNone rfl rfl
theorem directSend (x1 x2 x3 x4) : Statement (.directSend x1 x2 x3 x4) := ofNone rfl rfl
theorem collectiveContribution (x1 x2 x3 x4) : Statement (.collectiveContribution x1 x2 x3 x4) := ofNone rfl rfl
theorem collectiveResult (x1 x2) : Statement (.collectiveResult x1 x2) := ofNone rfl rfl
theorem waybillMemoryTransfer (x1 x2 x3 x4) : Statement (.waybillMemoryTransfer x1 x2 x3 x4) := ofNone rfl rfl
theorem queuedRowPerform (x1 x2 x3) : Statement (.queuedRowPerform x1 x2 x3) := ofNone rfl rfl
theorem nonTemporalPerform (x1 x2 x3) : Statement (.nonTemporalPerform x1 x2 x3) := ofNone rfl rfl
theorem counterIncrement (x1) : Statement (.counterIncrement x1) := ofNone rfl rfl
theorem timeTriggerFire (x1 x2) : Statement (.timeTriggerFire x1 x2) := ofNone rfl rfl
theorem counterInterrupt (x1 x2) : Statement (.counterInterrupt x1 x2) := ofNone rfl rfl
theorem nestedWalk (x1) : Statement (.nestedWalk x1) := ofNone rfl rfl
theorem migrationRequest (x1 x2) : Statement (.migrationRequest x1 x2) := ofNone rfl rfl
theorem migrationCopy (x1) : Statement (.migrationCopy x1) := ofNone rfl rfl
theorem reKey (x1 x2) : Statement (.reKey x1 x2) := ofNone rfl rfl
theorem patrolScrub (x1 x2) : Statement (.patrolScrub x1 x2) := ofNone rfl rfl
theorem launchRecord (x1 x2) : Statement (.launchRecord x1 x2) := ofNone rfl rfl
theorem admission (x1) : Statement (.admission x1) := ofNone rfl rfl
theorem launchStart (x1) : Statement (.launchStart x1) := ofNone rfl rfl
theorem nodeStart (x1 x2) : Statement (.nodeStart x1 x2) := ofNone rfl rfl
theorem handoverStart (x1) : Statement (.handoverStart x1) := ofNone rfl rfl
theorem bankPass (x1 x2) : Statement (.bankPass x1 x2) := ofNone rfl rfl
theorem unitComplete (x1) : Statement (.unitComplete x1) := ofNone rfl rfl
theorem completionIncrement (x1 x2) : Statement (.completionIncrement x1 x2) := ofNone rfl rfl
theorem cancelMark (x1 x2) : Statement (.cancelMark x1 x2) := ofNone rfl rfl
theorem restoreStart (x1) : Statement (.restoreStart x1) := ofNone rfl rfl
theorem partitionHalted (x1) : Statement (.partitionHalted x1) := ofNone rfl rfl
theorem emergencyStop (x1 x2 x3) : Statement (.emergencyStop x1 x2 x3) := ofNone rfl rfl
theorem powerGood (x1 x2 x3 x4 x5 x6 x7) : Statement (.powerGood x1 x2 x3 x4 x5 x6 x7) := ofNone rfl rfl
theorem measurementExtension (x1 x2 x3) : Statement (.measurementExtension x1 x2 x3) := ofNone rfl rfl
theorem firmwareLogRead (x1) : Statement (.firmwareLogRead x1) := ofNone rfl rfl
theorem pstateOnDelay (x1) : Statement (.pstateOnDelay x1) := ofNone rfl rfl
theorem sctFrame (x1 x2 x3 x4 x5 x6) : Statement (.sctFrame x1 x2 x3 x4 x5 x6) := ofNone rfl rfl
theorem sctAcknowledgement (x1 x2) : Statement (.sctAcknowledgement x1 x2) := ofNone rfl rfl
theorem cumulativeAcknowledgement (x1) : Statement (.cumulativeAcknowledgement x1) := ofNone rfl rfl
theorem retransmitTimeout (x1) : Statement (.retransmitTimeout x1) := ofNone rfl rfl
theorem rdmaWrite (x1 x2 x3 x4) : Statement (.rdmaWrite x1 x2 x3 x4) := ofNone rfl rfl
theorem rdmaRead (x1 x2 x3 x4) : Statement (.rdmaRead x1 x2 x3 x4) := ofNone rfl rfl
theorem roceSendRequest (x1 x2) : Statement (.roceSendRequest x1 x2) := ofNone rfl rfl
theorem roceAtomicRequest (x1 x2) : Statement (.roceAtomicRequest x1 x2) := ofNone rfl rfl
theorem ptpEventMessage (x1 x2 x3) : Statement (.ptpEventMessage x1 x2 x3) := ofNone rfl rfl
theorem getVersion (x1) : Statement (.getVersion x1) := ofNone rfl rfl
theorem getCapabilities (x1) : Statement (.getCapabilities x1) := ofNone rfl rfl
theorem negotiateAlgorithms (x1 x2 x3 x4) : Statement (.negotiateAlgorithms x1 x2 x3 x4) := ofNone rfl rfl
theorem getDigests (x1) : Statement (.getDigests x1) := ofNone rfl rfl
theorem getCertificate (x1 x2 x3) : Statement (.getCertificate x1 x2 x3) := ofNone rfl rfl
theorem challenge (x1 x2) : Statement (.challenge x1 x2) := ofNone rfl rfl
theorem getMeasurements (x1 x2 x3 x4) : Statement (.getMeasurements x1 x2 x3 x4) := ofNone rfl rfl
theorem keyExchange (x1 x2 x3) : Statement (.keyExchange x1 x2 x3) := ofNone rfl rfl
theorem finish (x1 x2 x3) : Statement (.finish x1 x2 x3) := ofNone rfl rfl
theorem endSession (x1 x2) : Statement (.endSession x1 x2) := ofNone rfl rfl
theorem qset (x1 x2 x3 x4) : Statement (.qset x1 x2 x3 x4) := ofNone rfl rfl
theorem ccset (x1 x2 x3 x4 x5) : Statement (.ccset x1 x2 x3 x4 x5) := ofNone rfl rfl
theorem cmdCancel (x1 x2 x3) : Statement (.cmdCancel x1 x2 x3) := ofNone rfl rfl
theorem cmdQuench (x1 x2 x3) : Statement (.cmdQuench x1 x2 x3) := ofNone rfl rfl
theorem cmdHold (x1 x2 x3) : Statement (.cmdHold x1 x2 x3) := ofNone rfl rfl
theorem cmdUnhold (x1 x2 x3) : Statement (.cmdUnhold x1 x2 x3) := ofNone rfl rfl
theorem qlimit (x1 x2 x3) : Statement (.qlimit x1 x2 x3) := ofNone rfl rfl
theorem msumap (x1 x2 x3 x4 x5) : Statement (.msumap x1 x2 x3 x4 x5) := ofNone rfl rfl
theorem migq (x1 x2 x3 x4) : Statement (.migq x1 x2 x3 x4) := ofNone rfl rfl
theorem roots (x1 x2 x3 x4) : Statement (.roots x1 x2 x3 x4) := ofNone rfl rfl
theorem invtlb (x1 x2 x3 x4) : Statement (.invtlb x1 x2 x3 x4) := ofNone rfl rfl
theorem sctpeer (x1 x2 x3 x4) : Statement (.sctpeer x1 x2 x3 x4) := ofNone rfl rfl
theorem pstate (x1 x2 x3) : Statement (.pstate x1 x2 x3) := ofNone rfl rfl
theorem cmdReset (x1 x2) : Statement (.cmdReset x1 x2) := ofNone rfl rfl
theorem harvest (x1 x2 x3 x4 x5) : Statement (.harvest x1 x2 x3 x4 x5) := ofNone rfl rfl
theorem handler (x1 x2 x3 x4) : Statement (.handler x1 x2 x3 x4) := ofNone rfl rfl
theorem mtsCsw (x1) : Statement (.mtsCsw x1) := ofNone rfl rfl
theorem mtsVstat (x1) : Statement (.mtsVstat x1) := ofNone rfl rfl
theorem mtsRngpos (x1) : Statement (.mtsRngpos x1) := ofNone rfl rfl
theorem mtsRngkey (x1) : Statement (.mtsRngkey x1) := ofNone rfl rfl
theorem mtsWdog (x1) : Statement (.mtsWdog x1) := ofNone rfl rfl
theorem mtsRhstat (x1) : Statement (.mtsRhstat x1) := ofNone rfl rfl
theorem mtsAsstat (x1) : Statement (.mtsAsstat x1) := ofNone rfl rfl
theorem mtsMapstat (x1) : Statement (.mtsMapstat x1) := ofNone rfl rfl
theorem mtsStrayn (x1) : Statement (.mtsStrayn x1) := ofNone rfl rfl
theorem mtsCollide (x1) : Statement (.mtsCollide x1) := ofNone rfl rfl
theorem mtsGtadj (x1) : Statement (.mtsGtadj x1) := ofNone rfl rfl
theorem dbgBreak (x1 x2) : Statement (.dbgBreak x1 x2) := ofNone rfl rfl
theorem dbgBreakAll (x1) : Statement (.dbgBreakAll x1) := ofNone rfl rfl
theorem dbgContinue : Statement (.dbgContinue) := ofNone rfl rfl
theorem dbgLaunch (x1) : Statement (.dbgLaunch x1) := ofNone rfl rfl
theorem rt (x1 x2) : Statement (.rt x1 x2) := ofNone rfl rfl
theorem dbgFq (x1) : Statement (.dbgFq x1) := ofNone rfl rfl
theorem dbgMtx (x1) : Statement (.dbgMtx x1) := ofNone rfl rfl
theorem dbgLtt (x1 x2 x3) : Statement (.dbgLtt x1 x2 x3) := ofNone rfl rfl
theorem dbgAssay (x1 x2) : Statement (.dbgAssay x1 x2) := ofNone rfl rfl
theorem landlog (x1) : Statement (.landlog x1) := ofNone rfl rfl
theorem dbgRh (x1 x2) : Statement (.dbgRh x1 x2) := ofNone rfl rfl
theorem efdbLoop (x1) : Statement (.efdbLoop x1) := ofNone rfl rfl
theorem dbgGroup (x1 x2) : Statement (.dbgGroup x1 x2) := ofNone rfl rfl
theorem redlog (x1 x2 x3) : Statement (.redlog x1 x2 x3) := ofNone rfl rfl
theorem stackOffline (x1) : Statement (.stackOffline x1) := ofNone rfl rfl
theorem powerRemoved : Statement (.powerRemoved) := ofNone rfl rfl
theorem partitionFormation (x1 x2 x3 x4 x5) : Statement (.partitionFormation x1 x2 x3 x4 x5) := ofNone rfl rfl
theorem compatibilityMode (x1 x2 x3) : Statement (.compatibilityMode x1 x2 x3) := ofNone rfl rfl
theorem priorityFlowControl (x1 x2 x3) : Statement (.priorityFlowControl x1 x2 x3) := ofNone rfl rfl

end Sys2Proof.Laws.Encoded
end

