-- ==== Sys2Proof/Tests/Slice0.lean ====
section
/-! SUPPORT. Checks of the model's author: ill-formed terms that the check refuses, words that decode, states that meet the hypotheses of the
statements, and small steps whose results the spec's examples and tables give. -/

namespace Sys2Proof.Tests

open Sys2Proof Sys2Proof.Machine
set_option Elab.async false


/-! ## Well-formedness: an ill-formed term for each check, which the check refuses -/

/-- A short LOOP of length 0; a long one with a short length beside it, with bits above its length, and of length 0 (R101). -/
theorem test_wf_loop : (Instr.loop 0 0 1 0 0 none).wf = false ∧ (Instr.loop 0 0 1 0 3 (some 9)).wf = false ∧
    (Instr.loop 0 0 1 0 0 (some 0x00020009)).wf = false ∧ (Instr.loop 0 0 1 0 0 (some 0)).wf = false ∧
    (Instr.loop 0 0 1 0 3 none).wf = true ∧ (Instr.loop 0 0 1 0 0 (some 0x1FFFF)).wf = true := by decide
/-- Empty masks of tiles and banks; PACK's two reserved indexes (R98). -/
theorem test_wf_control : (Instr.twait 0 0 0).wf = false ∧ (Instr.bkacq 0 0 0 0).wf = false ∧ (Instr.bkrel 0 0 1 0).wf = false ∧
    (Instr.pack 0).wf = false ∧ (Instr.pack 15).wf = false ∧ (Instr.twait 0 0 1).wf = true ∧ (Instr.pack 14).wf = true := by decide
/-- The runtime instructions: address s0, mode 3, and a page operand outside mode 2 (R216). -/
theorem test_wf_runtime : (Instr.snapst 0 0).wf = false ∧ (Instr.ctxsave 0 0).wf = false ∧ (Instr.ctxrest 0 0 0 0).wf = false ∧
    (Instr.ctxrest 0 1 0 3).wf = false ∧ (Instr.ctxrest 0 1 2 1).wf = false ∧ (Instr.ctxrest 0 1 2 2).wf = true := by decide
/-- M values above those listed (R112, R113, R117). -/
theorem test_wf_scalar : (Instr.mulh 0 1 2 3 3).wf = false ∧ (Instr.div 0 1 2 3 4).wf = false ∧ (Instr.minmax 0 1 2 3 4).wf = false ∧
    (Instr.cmp 0 1 2 3 6).wf = false ∧ (Instr.bitc 0 1 2 3).wf = false ∧ (Instr.atom 0 1 2 3 9).wf = false ∧ (Instr.ext 0 1 2 3 2).wf = false ∧
    (Instr.atom 0 1 2 3 8).wf = true := by decide
/-- A scalar operand of a float instruction above s63 (R121), and each instruction that has the check. -/
theorem test_wf_float_operand : (Instr.vadd 0 0 0 0 64 1).wf = false ∧ (Instr.vsub 0 0 0 0 64 1).wf = false ∧ (Instr.vmul 0 0 0 0 64 1).wf = false ∧
    (Instr.vfma 0 0 0 0 64 1).wf = false ∧ (Instr.vfms 0 0 0 0 64 1).wf = false ∧ (Instr.vmin 0 0 0 0 64 1).wf = false ∧
    (Instr.vmax 0 0 0 0 64 1).wf = false ∧ (Instr.vcmpeq 0 0 0 0 64 1).wf = false ∧ (Instr.vcmplt 0 0 0 0 64 1).wf = false ∧
    (Instr.vcmple 0 0 0 0 64 1).wf = false ∧ (Instr.vcmpne 0 0 0 0 64 1).wf = false ∧ (Instr.ashh 0 0 0 64 1).wf = false ∧
    (Instr.vadd 0 0 0 0 64 0).wf = true ∧ (Instr.vadd 0 0 0 0 63 1).wf = true := by decide
/-- Widths, formats, parts and destinations of the vector instructions (R123, R128 to R136). -/
theorem test_wf_vector : (Instr.vsel 0 1 0 0 0 0 0).wf = false ∧ (Instr.vcvt 0 0 0 0 2 2 0).wf = false ∧ (Instr.vcvt 0 0 0 0 1 0 2).wf = false ∧
    (Instr.vbcast 0 0 0 3 0).wf = false ∧ (Instr.vbcastExt 0 0 0 3 0).wf = false ∧ (Instr.vrsum 0 0 0 0 3).wf = false ∧
    (Instr.vrsum 0 64 0 1 0).wf = false ∧ (Instr.vrmax 0 0 0 0 3).wf = false ∧ (Instr.vrmax 0 64 0 1 0).wf = false ∧ (Instr.vmov 0 0 0 0 3).wf = false ∧
    (Instr.vld 0 0 0 3 0 none).wf = false ∧ (Instr.vst 0 0 3 0 none).wf = false ∧ (Instr.vcvt 0 0 0 0 1 0 1).wf = true := by decide
/-- Kinds, coins, parts and flags of the assay and reheat instructions (R143, R161). -/
theorem test_wf_assay_reheat : (Instr.ascfg 0 0 0 0).wf = false ∧ (Instr.ascfg 3 1 0 0).wf = false ∧ (Instr.ascfg 1 2 0 0).wf = false ∧
    (Instr.asqry 0 1 0 1 0 0 1).wf = false ∧ (Instr.asqry 0 0 64 1 0 0 1).wf = false ∧ (Instr.asqry 0 0 0 1 0 0 0).wf = false ∧
    (Instr.asqry 0 0 0 0 0 64 1).wf = false ∧ (Instr.astopk 0 3 0).wf = false ∧ (Instr.rhstep 0 0 1).wf = false ∧ (Instr.rhmap 0 5 0).wf = false ∧
    (Instr.ascfg 2 1 0 0).wf = true := by decide
/-- Slot 7: formats, operations, a waybill of no step (R207). -/
theorem test_wf_communication : (Instr.recvadd 0 0 0 2).wf = false ∧ (Instr.recvmax 0 0 0 2).wf = false ∧ (Instr.mcldr 0 0 0 3 0).wf = false ∧
    (Instr.wbrun 0 0 0).wf = false ∧ (Instr.ccinc 0 0 5 0).wf = false ∧ (Instr.wbrun 0 0 511).wf = true := by decide
/-- A slot that an instruction does not stand in, and an event, which stands in none. -/
theorem test_wf_slot : (Instr.add 0 1 2 3).wellFormedIn 2 = false ∧ (Instr.vrcp 0 0 0 0).wellFormedIn 3 = false ∧
    (Instr.launchStart 1).wellFormedIn 0 = false ∧ (Instr.add 0 1 2 3).wellFormedIn 1 = true := by decide


/-! ## Decoding

Each word is written out from the field table of its format (spec/04 R91 to R94 and the tables of spec/05 to spec/10): the opcode and the
must-be-zero bits of its row, and in each field a value of its own. -/

/-- Slot `k` reads `i` from a word with no extension. -/
def readsAs (k : Nat) (w : BitVec 32) (x : Option (BitVec 32)) (i : Instr) : Bool :=
  match decodeSlot k w x with
  | .ok j => decide (j = i)
  | .error _ => false

/-- Words of slot 0. -/
theorem test_decode_control :
    ([(0x68000000, .nop 0x34),
      (0x680EA769, .br 0x34 0xD 0x2769 none),
      (0x6816D200, .jmp 0x34 0xD 0x29),
      (0x681EA769, .call 0x34 0xD 0x2769 none),
      (0x6826D200, .ret 0x34 0xD 0x29),
      (0x682ED267, .loop 0x34 0xD 0x29 3 7 none),
      (0x68368000, .lexit 0x34 0xD),
      (0x68380005, .sync 0x34 5),
      (0x68400005, .bar 0x34 5),
      (0x68480005, .barns 0x34 5),
      (0x6856D200, .waitt 0x34 0xD 0x29 none),
      (0x685E8069, .twait 0x34 0xD 0x69),
      (0x6866D203, .ccwait 0x34 0xD 0x29 3),
      (0x686E8000, .uend 0x34 0xD),
      (0x68768000, .qpoint 0x34 0xD),
      (0x687E8000, .ifence 0x34 0xD),
      (0x688681C3, .bkacq 0x34 0xD 1 0xC3),
      (0x688E81C3, .bkrel 0x34 0xD 1 0xC3),
      (0x68968000, .drainnt 0x34 0xD),
      (0x689E8000, .qfence 0x34 0xD),
      (0xFEA48000, .pack 9),
      (0x68AE8069, .trap 0x34 0xD 0x69),
      (0x68B0002D, .brk 0x34 0x2D),
      (0x68B85A00, .eret 0x34 0x2D)] : List (BitVec 32 × Instr)).all
      (fun x => readsAs 0 x.1 none x.2) = true := by decide +kernel

/-- Words of slot 0. -/
theorem test_decode_control_2 :
    ([(0x68C05A00, .snapst 0x34 0x2D),
      (0x68C80000, .snaprel 0x34),
      (0x68D05A00, .ctxsave 0x34 0x2D),
      (0x68D85B4C, .ctxrest 0x34 0x2D 0x29 2),
      (0x68E05B48, .lttld 0x34 0x2D 0x29),
      (0x68E85A00, .lttinv 0x34 0x2D)] : List (BitVec 32 × Instr)).all
      (fun x => readsAs 0 x.1 none x.2) = true := by decide +kernel

/-- Words of slot 1. -/
theorem test_decode_scalar :
    ([(0x052DA430, .add 4 0x2D 0x29 3),
      (0x092DA5C3, .addi 4 0x2D 0x29 0x1C3 none),
      (0x0D2DA430, .sub 4 0x2D 0x29 3),
      (0x112DA430, .mul 4 0x2D 0x29 3),
      (0x152DA432, .mulh 4 0x2D 0x29 3 2),
      (0x192DA433, .div 4 0x2D 0x29 3 3),
      (0x1D2DA430, .and 4 0x2D 0x29 3),
      (0x212DA430, .or 4 0x2D 0x29 3),
      (0x252DA430, .xor 4 0x2D 0x29 3),
      (0x292DA5C3, .andi 4 0x2D 0x29 0x1C3 none),
      (0x2D2DA5C3, .ori 4 0x2D 0x29 0x1C3 none),
      (0x312DA5C3, .xori 4 0x2D 0x29 0x1C3 none),
      (0x352DA430, .shl 4 0x2D 0x29 3),
      (0x392DA430, .shr 4 0x2D 0x29 3),
      (0x3D2DA430, .sar 4 0x2D 0x29 3),
      (0x412DA5C3, .shli 4 0x2D 0x29 0x1C3 none),
      (0x452DA5C3, .shri 4 0x2D 0x29 0x1C3 none),
      (0x492DA5C3, .sari 4 0x2D 0x29 0x1C3 none),
      (0x4D2DA433, .minmax 4 0x2D 0x29 3 3),
      (0x510DA435, .cmp 4 0xD 0x29 3 5),
      (0x55190E58, .cmpi 4 1 9 3 0x258 none),
      (0x592DA438, .sel 4 0x2D 0x29 3 8),
      (0x5D2D2769, .movi 4 0x2D 0x2769 none),
      (0x612D2769, .movhi 4 0x2D 0x2769 none)] : List (BitVec 32 × Instr)).all
      (fun x => readsAs 1 x.1 none x.2) = true := by decide +kernel

/-- Words of slot 1. -/
theorem test_decode_scalar_2 :
    ([(0x652DA438, .lea 4 0x2D 0x29 3 8),
      (0x690D2438, .plog 4 0xD 9 3 8),
      (0x6D2DA402, .bitc 4 0x2D 0x29 2),
      (0x6D0DA433, .bitcTest 4 0xD 0x29 3),
      (0x6D0DA403, .bitcTest 4 0xD 0x29 0),
      (0x712DA5C3, .ldb 4 0x2D 0x29 0x1C3 none),
      (0x752DA5C3, .ldbu 4 0x2D 0x29 0x1C3 none),
      (0x792DA430, .ldh 4 0x2D 0x29 3 none),
      (0x792DA431, .ldw 4 0x2D 0x29 3 none),
      (0x7D2DA430, .ldhu 4 0x2D 0x29 3 none),
      (0x7D2DA431, .ldwu 4 0x2D 0x29 3 none),
      (0x812DA5C3, .ldd 4 0x2D 0x29 0x1C3 none),
      (0x852DA5C3, .stb 4 0x2D 0x29 0x1C3 none),
      (0x892DA5C3, .sth 4 0x2D 0x29 0x1C3 none),
      (0x8D2DA5C3, .stw 4 0x2D 0x29 0x1C3 none),
      (0x912DA5C3, .std 4 0x2D 0x29 0x1C3 none),
      (0x952DA438, .atom 4 0x2D 0x29 3 8),
      (0x992DA430, .acas 4 0x2D 0x29 3),
      (0x9D2D7690, .mfs 4 0x2D 0x769),
      (0xA12D7690, .mts 4 0x2D 0x769),
      (0xA52D0000, .rdcyc 4 0x2D),
      (0xA92D0000, .rdgt 4 0x2D),
      (0xAD2DA431, .ext 4 0x2D 0x29 3 1)] : List (BitVec 32 × Instr)).all
      (fun x => readsAs 1 x.1 none x.2) = true := by decide +kernel

/-- Words of slots 2 and 3. -/
theorem test_decode_vector :
    ([(0x0614C330, .vadd 4 0 0x29 0x43 0x18 0),
      (0x0A14C330, .vsub 4 0 0x29 0x43 0x18 0),
      (0x0E14C330, .vmul 4 0 0x29 0x43 0x18 0),
      (0x1214C330, .vfma 4 0 0x29 0x43 0x18 0),
      (0x1614C330, .vfms 4 0 0x29 0x43 0x18 0),
      (0x1A14C330, .vmin 4 0 0x29 0x43 0x18 0),
      (0x1E14C330, .vmax 4 0 0x29 0x43 0x18 0),
      (0x2214C300, .vabs 4 0 0x29 0x43),
      (0x2614C300, .vneg 4 0 0x29 0x43),
      (0x2A00C330, .vcmpeq 4 0 1 0x43 0x18 0),
      (0x2E00C330, .vcmplt 4 0 1 0x43 0x18 0),
      (0x3200C330, .vcmple 4 0 1 0x43 0x18 0),
      (0x3600C330, .vcmpne 4 0 1 0x43 0x18 0),
      (0x3A14C3B9, .viadd 4 0 0x29 0x43 1 0x1C 1),
      (0x3E14C3B9, .visub 4 0 0x29 0x43 1 0x1C 1),
      (0x4214C3B9, .vimul 4 0 0x29 0x43 1 0x1C 1),
      (0x4614C3B9, .vand 4 0 0x29 0x43 1 0x1C 1),
      (0x4A14C3B9, .vor 4 0 0x29 0x43 1 0x1C 1),
      (0x4E14C3B9, .vxor 4 0 0x29 0x43 1 0x1C 1),
      (0x5214C3B9, .vshl 4 0 0x29 0x43 1 0x1C 1),
      (0x5614C3B9, .vshr 4 0 0x29 0x43 1 0x1C 1),
      (0x5A14C3B9, .vsar 4 0 0x29 0x43 1 0x1C 1),
      (0x5E14C3B9, .vimin 4 0 0x29 0x43 1 0x1C 1),
      (0x6214C3B9, .vimax 4 0 0x29 0x43 1 0x1C 1)] : List (BitVec 32 × Instr)).all
      (fun x => readsAs 2 x.1 none x.2 && readsAs 3 x.1 none x.2) = true := by decide +kernel

/-- Words of slots 2 and 3. -/
theorem test_decode_vector_2 :
    ([(0x6600C3B9, .vicmpeq 4 0 1 0x43 1 0x1C 1),
      (0x6A00C3B9, .vicmplt 4 0 1 0x43 1 0x1C 1),
      (0x6E14C3B9, .vsel 4 0 0x29 0x43 1 0x1C 1),
      (0x7214C321, .vcvt 4 0 0x29 0x43 1 0 1),
      (0x76148231, .vbcast 4 0 0x29 2 0x18),
      (0x7A14C3B9, .vperm 4 0 0x29 0x43 1 0x1C 1),
      (0x7E14C3B9, .vrot 4 0 0x29 0x43 1 0x1C 1),
      (0x8216E904, .vrsum 4 0x2D 0x69 0 2),
      (0x8616E904, .vrmax 4 0x2D 0x69 0 2),
      (0x8A14C304, .vmov 4 0 0x29 0x43 2),
      (0x8E148231, .vld 4 0 0x29 2 0x18 none),
      (0x92168207, .vst 4 0x2D 2 3 none),
      (0x9614C331, .vgather 4 0 0x29 0x43 0x18),
      (0x9A16E907, .vscatter 4 0x2D 0x69 3),
      (0x9E00C330, .twrow 4 0 1 0x43 0x18 0),
      (0xA2148330, .trdcol 4 0 0x29 3 0x18 0),
      (0xA616E900, .vqnt 4 0x2D 0x69),
      (0xAA148000, .vrng 4 0 0x29),
      (0xAE14C3B9, .viadds 4 0 0x29 0x43 1 0x1C 1)] : List (BitVec 32 × Instr)).all
      (fun x => readsAs 2 x.1 none x.2 && readsAs 3 x.1 none x.2) = true := by decide +kernel

/-- Words of slot 2. -/
theorem test_decode_function_and_assay :
    ([(0xB214C300, .vrcp 4 0 0x29 0x43),
      (0xB614C300, .vrsq 4 0 0x29 0x43),
      (0xBA14C300, .vexp2 4 0 0x29 0x43),
      (0xBE14C300, .vlog2 4 0 0x29 0x43),
      (0xC214C300, .vsin 4 0 0x29 0x43),
      (0xC614C300, .vcos 4 0 0x29 0x43),
      (0xCA14C300, .vtanh 4 0 0x29 0x43),
      (0xCC13802B, .ascfg 2 1 3 0x15),
      (0xD0028000, .asclr 1 1),
      (0xD600E900, .asqu 4 1 0x69),
      (0xDA00E907, .ashh 4 1 0x69 3 1),
      (0xDE00E900, .asdc 4 1 0x69 0),
      (0xE000005B, .asmrg 0 0x2D),
      (0xE400005B, .assv 0 0x2D),
      (0xEA148039, .asqry 4 0 0x29 0 0 0x1C 1),
      (0xEC1A0100, .asest 0x34 1),
      (0xF01A0900, .astopk 0x34 2 1)] : List (BitVec 32 × Instr)).all
      (fun x => readsAs 2 x.1 none x.2) = true := by decide +kernel

/-- Words of slot 3. -/
theorem test_decode_reheat :
    ([(0xCC02005B, .rhcfg 4 0x2D),
      (0xD0022D53, .rhsig 4 0x2D 0x29),
      (0xD4022D00, .rhlist 4 0x2D),
      (0xD806E900, .rhstep 1 5 0x69),
      (0xDC1A2100, .rhmap 0x34 4 1)] : List (BitVec 32 × Instr)).all
      (fun x => readsAs 3 x.1 none x.2) = true := by decide +kernel

/-- Words of slot 4. -/
theorem test_decode_matrix :
    ([(0x051486C3, .mma 4 0 0x29 3 0x18 0 3),
      (0x091486C0, .mma3 4 0 0x29 3 0x18 0),
      (0x0D000000, .mzero 4 0),
      (0x11148000, .mband 4 0 0x29)] : List (BitVec 32 × Instr)).all
      (fun x => readsAs 4 x.1 none x.2) = true := by decide +kernel

/-- Words of slots 5 and 6. -/
theorem test_decode_copy :
    ([(0x052DA430, .tld 4 0x2D 0x29 3 0 none),
      (0x092DA430, .tst 4 0x2D 0x29 3 0 none),
      (0x0D2DA430, .tstnt 4 0x2D 0x29 3 0 none),
      (0x112DA400, .scld 4 0x2D 0x29),
      (0x152DA430, .pull 4 0x2D 0x29 3),
      (0x192DA430, .push 4 0x2D 0x29 3),
      (0x1D2DA430, .cxsend 4 0x2D 0x29 3),
      (0x212D0293, .cxtile 4 0x2D 0x29 3),
      (0x252DA430, .gather 4 0x2D 0x29 3 0),
      (0x292D0090, .rtset 4 0x2D 9),
      (0x2D2D0013, .mapset 4 0x2D 1 3),
      (0x31000013, .mapret 4 0 1 3),
      (0x352D0128, .mapswap 4 0x2D 9 0 8),
      (0x3900B413, .mapq 4 0x2D 1 3),
      (0x3D2DA430, .straypop 4 0x2D 0x29 3)] : List (BitVec 32 × Instr)).all
      (fun x => readsAs 5 x.1 none x.2 && readsAs 6 x.1 none x.2) = true := by decide +kernel

/-- Words of slot 7. -/
theorem test_decode_communication :
    ([(0x0516D200, .send 4 0x2D 0x29),
      (0x0916D200, .recv 4 0x2D 0x29),
      (0x0D16D201, .recvadd 4 0x2D 0x29 1),
      (0x1116D201, .recvmax 4 0x2D 0x29 1),
      (0x15005A01, .grpset 4 0x2D 1),
      (0x1916D210, .mcldr 4 0x2D 0x29 2 0),
      (0x1D005B69, .wbrun 4 0x2D 0x169),
      (0x21005A93, .ttarm 4 0x2D 9 3),
      (0x2506D238, .ctarm 4 0xD 0x29 3 8),
      (0x2900000D, .trdis 4 0xD),
      (0x2D005A83, .ccinc 4 0x2D 4 3)] : List (BitVec 32 × Instr)).all
      (fun x => readsAs 7 x.1 none x.2) = true := by decide +kernel

/-- Words that carry an extension word (R85). -/
theorem test_decode_extension_1 :
    ([(0, 0x680EA769, 0x89ABCDEF, .br 0x34 0xD 0x2769 (some 0x89ABCDEF)),
      (0, 0x681EA769, 0x89ABCDEF, .call 0x34 0xD 0x2769 (some 0x89ABCDEF)),
      (0, 0x682ED260, 0x0001ABCD, .loop 0x34 0xD 0x29 3 0 (some 0x0001ABCD)),
      (0, 0x6856D200, 0x89ABCDEF, .waitt 0x34 0xD 0x29 (some 0x89ABCDEF)),
      (1, 0x092DA5C3, 0x89ABCDEF, .addi 4 0x2D 0x29 0x1C3 (some 0x89ABCDEF)),
      (1, 0x292DA5C3, 0x89ABCDEF, .andi 4 0x2D 0x29 0x1C3 (some 0x89ABCDEF)),
      (1, 0x2D2DA5C3, 0x89ABCDEF, .ori 4 0x2D 0x29 0x1C3 (some 0x89ABCDEF)),
      (1, 0x312DA5C3, 0x89ABCDEF, .xori 4 0x2D 0x29 0x1C3 (some 0x89ABCDEF)),
      (1, 0x412DA5C3, 0x89ABCDEF, .shli 4 0x2D 0x29 0x1C3 (some 0x89ABCDEF)),
      (1, 0x452DA5C3, 0x89ABCDEF, .shri 4 0x2D 0x29 0x1C3 (some 0x89ABCDEF)),
      (1, 0x492DA5C3, 0x89ABCDEF, .sari 4 0x2D 0x29 0x1C3 (some 0x89ABCDEF)),
      (1, 0x55190E58, 0x89ABCDEF, .cmpi 4 1 9 3 0x258 (some 0x89ABCDEF)),
      (1, 0x5D2D2769, 0x89ABCDEF, .movi 4 0x2D 0x2769 (some 0x89ABCDEF)),
      (1, 0x612D2769, 0x89ABCDEF, .movhi 4 0x2D 0x2769 (some 0x89ABCDEF)),
      (1, 0x712DA5C3, 0x89ABCDEF, .ldb 4 0x2D 0x29 0x1C3 (some 0x89ABCDEF)),
      (1, 0x752DA5C3, 0x89ABCDEF, .ldbu 4 0x2D 0x29 0x1C3 (some 0x89ABCDEF))] : List (Nat × BitVec 32 × BitVec 32 × Instr)).all
      (fun x => readsAs x.1 x.2.1 (some x.2.2.1) x.2.2.2) = true := by decide +kernel

/-- Words that carry an extension word (R85). -/
theorem test_decode_extension_2 :
    ([(1, 0x792DA430, 0x89ABCDEF, .ldh 4 0x2D 0x29 3 (some 0x89ABCDEF)),
      (1, 0x792DA431, 0x89ABCDEF, .ldw 4 0x2D 0x29 3 (some 0x89ABCDEF)),
      (1, 0x7D2DA430, 0x89ABCDEF, .ldhu 4 0x2D 0x29 3 (some 0x89ABCDEF)),
      (1, 0x7D2DA431, 0x89ABCDEF, .ldwu 4 0x2D 0x29 3 (some 0x89ABCDEF)),
      (1, 0x812DA5C3, 0x89ABCDEF, .ldd 4 0x2D 0x29 0x1C3 (some 0x89ABCDEF)),
      (1, 0x852DA5C3, 0x89ABCDEF, .stb 4 0x2D 0x29 0x1C3 (some 0x89ABCDEF)),
      (1, 0x892DA5C3, 0x89ABCDEF, .sth 4 0x2D 0x29 0x1C3 (some 0x89ABCDEF)),
      (1, 0x8D2DA5C3, 0x89ABCDEF, .stw 4 0x2D 0x29 0x1C3 (some 0x89ABCDEF)),
      (1, 0x912DA5C3, 0x89ABCDEF, .std 4 0x2D 0x29 0x1C3 (some 0x89ABCDEF)),
      (2, 0x76148200, 0x89ABCDEF, .vbcastExt 4 0 0x29 2 0x89ABCDEF),
      (3, 0x8E148231, 0x89ABCDEF, .vld 4 0 0x29 2 0x18 (some 0x89ABCDEF)),
      (3, 0x92168207, 0x89ABCDEF, .vst 4 0x2D 2 3 (some 0x89ABCDEF)),
      (6, 0x052DA430, 0x89ABCDEF, .tld 4 0x2D 0x29 3 0 (some 0x89ABCDEF)),
      (6, 0x092DA430, 0x89ABCDEF, .tst 4 0x2D 0x29 3 0 (some 0x89ABCDEF)),
      (6, 0x0D2DA430, 0x89ABCDEF, .tstnt 4 0x2D 0x29 3 0 (some 0x89ABCDEF))] : List (Nat × BitVec 32 × BitVec 32 × Instr)).all
      (fun x => readsAs x.1 x.2.1 (some x.2.2.1) x.2.2.2) = true := by decide +kernel

/-! ## Small states -/

/-- A core that runs one unit, with its face, its cluster's SRAM and a gigabyte of device memory mapped. -/
def core0 : Core :=
  { Core.reset with
    run := .run, launch := 1, launchId := 1
    ltt := [(0, lttMake 0 2 4 0 0 true true true true (faceSpa 0)), (64, lttMake 0x1000000 3 4 0 0 true true true true (sramSpa 0)),
      (128, lttMake 0x100000000 4 4 0 0 true true true true 0)] }

/-- A state in which core `c` acts at slot `k`. -/
def at_ (k : Nat) (c : Core) : State := { State.reset with cores := [(0, c)], slot := k }

/-- Core 0 acts at slot 1. -/
def w0 : State := at_ 1 core0

/-- The core with scalars set. -/
def regs (l : Map Word) (c : Core) : Core := { c with ctx := { c.ctx with s := l } }

/-- What an outcome holds, where it is a next state. -/
def next (o : Out) (p : State → Bool) : Bool := match o with | .next t => p t | _ => false

/-- The results that an outcome leaves in flight on core 0, with their due counts. -/
def flies (o : Out) (l : List (Nat × List Act)) : Bool := next o fun t => (t.core 0).ctx.items.map (fun i => (i.due, i.acts)) == l

/-- The trap that an outcome takes on core 0: its CAUSE and FVAL. -/
def traps (o : Out) (cause fval : Word) : Bool :=
  next o fun t => (t.core 0).tm && ((t.core 0).held.map fun x => (x.cause, x.fval)) == some (cause, fval)

/-- The guard p0 is true. -/
theorem w0_on : w0.on 0 := by show w0.me.readP 0 = true; decide +kernel
/-- The flight queue has room. -/
theorem w0_roomy : w0.roomy := by show w0.me.ctx.inFlight < 64; decide +kernel

/-! ## Witnesses: states and operands that meet the hypotheses of each statement -/

/-- Instructions of every slot, in short and extended forms, that are well-formed there. -/
theorem witness_EncodedInstructionDecodes :
    ([(0, .loop 0 0 1 3 0 (some 0x1FFFF)), (1, .movi 15 63 0xFFFF (some 0xFFFFFFFF)), (2, .vrcp 7 1 127 127), (3, .vadd 7 1 127 127 63 1),
      (3, .rhmap 127 4 7), (4, .mma 15 1 63 63 63 1 3), (5, .tld 15 63 63 63 7 (some 0)), (6, .straypop 15 63 63 63), (7, .wbrun 15 63 511)] :
      List (Nat × Instr)).all (fun x => x.2.wellFormedIn x.1) = true := by decide +kernel

/-- A word with an extension that slot 1 reads. -/
theorem witness_DecodedWordEncodesBack : ∃ i, decodeSlot 1 0x5CC91234 (some 0xDEADBEEF) = .ok i := ⟨_, rfl⟩

/-- A line whose slot 1 adds. -/
def addLine : Mask := BitVec.ofNat 256 (0x04064050 * 2 ^ 32)
/-- Core 0 issues that line, and has come to slot 1. -/
def issuing : State := { at_ 1 { core0 with line := some addLine } with phase := .issue [0] }
/-- The head of an agenda, and the slot of a line, with the instruction that it holds. -/
theorem witness_StepRunsTheDecodedInstruction :
    (w0.coresNamed ∧ { w0 with agenda := [.launchStart 1] }.agenda = .launchStart 1 :: []) ∧
    issuing.coresNamed ∧ issuing.agenda = [] ∧ issuing.phase = .issue (0 :: []) ∧ (issuing.core 0).line = some addLine ∧
      nextSlot addLine issuing.slot = some 1 ∧ decodeSlot 1 (slotWord addLine 1) (extensionOf addLine 1) = .ok (.add 0 6 16 5) := by
  refine ⟨⟨by unfold State.coresNamed; decide +kernel, rfl⟩, by unfold State.coresNamed; decide +kernel, rfl, rfl, rfl, by decide +kernel, rfl⟩

/-- Core 0 is about to fetch the line of zeros at issue address 0. -/
def fetching : State := { w0 with phase := .issue [0] }
theorem witness_FetchTakesTheLineAtThePc :
    fetching.coresNamed ∧ fetching.agenda = [] ∧ fetching.phase = .issue (0 :: []) ∧
    (fetching.core 0).line = none ∧ (fetching.core 0).pass = false ∧ fetching.issues (fetching.core 0) = true ∧ (fetching.core 0).recv = none ∧
    (fetching.core 0).ctx.wre = false ∧ fetching.breakAt 0 = false ∧ fetchFault fetching.mem 0 (fetching.core 0) = none ∧ fetching.poison = [] ∧
    isPacked (lineAt fetching.mem 0 ((fetching.core 0).ctx.pc.toNat / 16)) = false ∧
    templateFault (lineAt fetching.mem 0 ((fetching.core 0).ctx.pc.toNat / 16)) = none := by
  refine ⟨by unfold State.coresNamed; decide +kernel, ?_⟩
  decide +kernel

theorem witness_EveryInstructionAnswers : State.reset.coresNamed ∧ w0.coresNamed := by unfold State.coresNamed; decide +kernel

theorem witness_StepKeepsMemoryForm : State.reset.memInv ∧ ∃ t, step State.reset = .next t := ⟨rfl, _, rfl⟩

theorem witness_WrittenBytesReadBack : Memory.wf [(5, 1), (9, 255)] = true ∧ 1 < [(7 : Byte), 0].length := by decide +kernel

theorem witness_HardwiredRegisters : w0.on 0 ∧ w0.roomy := ⟨w0_on, w0_roomy⟩

theorem witness_RegisterResultsCommit : (63 : BitVec 6) ≠ 0 ∧ (15 : BitVec 4) ≠ 0 ∧ (62 : BitVec 6) ≠ 63 ∧ 63 < 64 ∧ 32 ≤ 62 ∧ 62 < 63 := by decide

theorem witness_VectorResultCommits : (255 < 2048 / 8 ∧ 127 < 2048 / 16 ∧ 63 < 2048 / 32) ∧ (126 : BitVec 7) ≠ 127 := by decide

/-- An addition that performs, and one that traps since the flight queue is full. -/
theorem witness_IssueChangesOneCore : (Instr.add 0 1 2 3).slotted ∧ (∃ t, exec (.add 0 1 2 3) w0 = .next t) ∧ 1 ≠ w0.cur :=
  ⟨by unfold Instr.slotted; decide, ⟨_, rfl⟩, by decide⟩

/-- Sixty-four results in flight. -/
def full : State := at_ 1 { core0 with ctx := { core0.ctx with items := List.replicate 64 ⟨9, 0, 1, true, false, 0, []⟩ } }
theorem witness_GuardsAndRoom : (w0.me.readP 1 = false ∧ (3 : BitVec 4).toNat < 4 ∧ 4 ≤ (4 : BitVec 4).toNat ∧ mtsAccess w0.me.mode 0x00A = none ∧
      mfsCheck w0.me.mode 0x00A = none ∧ (w0.me.held.map fun h => !h.mx.runs.isEmpty).getD false = false ∧ w0.me.startAt 0 < mxSteps false ∧
      (Instr.loop 0 1 0 2 5 none).wf = true) ∧ full.on 0 ∧
    64 ≤ full.me.ctx.inFlight ∧ (2 : BitVec 2) ≠ 3 :=
  ⟨by decide +kernel, by show full.me.readP 0 = true; decide +kernel, by decide +kernel, by decide⟩

/-- Divisors other than 0, 0, and −1 under −2^63; and M values not listed. -/
def divs : State := at_ 1 (regs [(1, 0x8000000000000000), (2, 0xFFFFFFFFFFFFFFFF)] core0)
theorem witness_TwoOperandFamily : (w0.on 0 ∧ w0.roomy) ∧ (divs.on 0 ∧ divs.roomy) ∧ divs.me.readS (2 : BitVec 6) ≠ 0 ∧ divs.me.readS (3 : BitVec 6) = 0 ∧
    (divs.me.readS (1 : BitVec 6) = BitVec.intMin 64 ∧ divs.me.readS (2 : BitVec 6) = BitVec.allOnes 64) ∧
    4 ≤ (4 : BitVec 4).toNat ∧ 3 ≤ (3 : BitVec 4).toNat :=
  ⟨⟨w0_on, w0_roomy⟩, ⟨by show divs.me.readP 0 = true; decide +kernel, by show divs.me.ctx.inFlight < 64; decide +kernel⟩, by decide +kernel⟩

/-- Amounts of 63, 64 and −1. -/
def amounts : State := at_ 1 (regs [(1, 63), (2, 64)] core0)
theorem witness_ShiftAmounts : (amounts.on 0 ∧ amounts.roomy) ∧ (amounts.me.readS (1 : BitVec 6)).toNat < 64 ∧ 64 ≤ (amounts.me.readS (2 : BitVec 6)).toNat ∧
    ((63 : BitVec 10).signExtend 64).toNat < 64 ∧ 64 ≤ ((64 : BitVec 10).signExtend 64).toNat ∧ ((0x3FF : BitVec 10).signExtend 64).msb = true :=
  ⟨⟨by show amounts.me.readP 0 = true; decide +kernel, by show amounts.me.ctx.inFlight < 64; decide +kernel⟩, by decide +kernel⟩

theorem witness_ComparesAndBits : (w0.on 0 ∧ w0.roomy) ∧ 6 ≤ (6 : BitVec 4).toNat ∧ 4 ≤ (4 : BitVec 4).toNat := ⟨⟨w0_on, w0_roomy⟩, by decide⟩

/-- The state after the long MOVI has committed. -/
def moved : State := commitAct [] core0 0 ⟨0, 0, 1, true, false, 0, []⟩ w0 (.setS (core0.ctx.physS 5) 0x123456789ABC)
theorem witness_Constants : (w0.on 0 ∧ w0.roomy) ∧ (5 : BitVec 6) ≠ 0 ∧ moved.on 0 ∧ moved.roomy ∧ moved.cur = 0 :=
  ⟨⟨w0_on, w0_roomy⟩, by decide, by show moved.me.readP 0 = true; decide +kernel, by show moved.me.ctx.inFlight < 64; decide +kernel, by decide +kernel⟩

/-- Addresses on the face, at the end of a page, and in cluster SRAM. -/
def bases : State := at_ 1 (regs [(1, 0x3FF8), (2, 0x1000000), (3, 0x200000), (4, 0x3FFC)] core0)
theorem bases_on : bases.on 0 := by show bases.me.readP 0 = true; decide +kernel
theorem bases_roomy : bases.roomy := by show bases.me.ctx.inFlight < 64; decide +kernel
theorem witness_ScalarAccesses : (bases.on 0 ∧ bases.roomy) ∧
    ([(0x3FFF, 1), (0x3FFE, 2), (0x3FFC, 4), (0x3FF8, 8), (0x1000000, 1), (0x1FFFFFE, 2), (0x1000004, 4), (0x1FFFFF8, 8)] : List (Word × Nat)).all
      (fun x => bases.me.check bases.cur x.1 x.2 x.2 true false [.face, .cluster] == none &&
        bases.me.check bases.cur x.1 x.2 x.2 false true [.face, .cluster] == none) = true ∧
    bases.me.check bases.cur (bases.me.readS (1 : BitVec 6)) 8 8 true true [.face, .cluster] = none ∧
    bases.me.check bases.cur (bases.me.readS (2 : BitVec 6)) 8 8 true true [.face, .cluster] = none ∧ (8 : BitVec 4).toNat < 9 :=
  ⟨⟨bases_on, bases_roomy⟩, by decide +kernel⟩

theorem witness_ScalarAccessFaults : (bases.on 0 ∧ bases.roomy) ∧
    bases.me.check bases.cur (bases.me.readS (3 : BitVec 6)) 8 8 true false [.face, .cluster] = some (cTABLE, 0x200000) ∧
    bases.me.check bases.cur (bases.me.readS (4 : BitVec 6)) 8 8 false true [.face, .cluster] = some (cALIGN, 0x3FFC) ∧
    bases.me.check bases.cur (bases.me.readS (4 : BitVec 6)) 8 8 true true [.face, .cluster] = some (cALIGN, 0x3FFC) ∧
    winOf (0x200000 : Word).toNat = none ∧
    ((bases.me.lookup (0x10 + 1)).isSome = true ∧ winOf (0x10 + 1) = some .face ∧
      ((bases.me.lookup (0x10 + 1)).map fun x => frameOk bases.cur .face x.2) = some true ∧ (0x10 + 1) % 8 ≠ 0 ∧ (0x10 + 1) % 0x4000 + 8 ≤ 0x4000) :=
  ⟨⟨bases_on, bases_roomy⟩, by decide +kernel⟩

/-- A store of 8 aligned bytes; and an atomic addition in the writes of a cycle. -/
theorem witness_StoresAndAtomicsPerform : ((1 = 1 ∧ (3 : Word).toNat % 1 = 0) ∧ (0x3FF8 : Word).toNat % 8 = 0) ∧ State.reset.mem.wf = true ∧
    (⟨0, 0, 1, 8, [], some (some 0, 5, 0, 6, 2), true, false⟩ : Wr).atom = some (some 0, 5, 0, 6, 2) := by decide +kernel

/-- Tenant, runtime and firmware mode. -/
def inMode (m : BitVec 2) : State := at_ 1 { core0 with mode := m }
theorem witness_SystemRegisterMoves : (w0.on 0 ∧ w0.roomy) ∧ mfsCheck w0.me.mode 0x00A = none ∧ mtsCheck w0.me.mode w0.me.owners 0x00A (w0.me.readS (0 : BitVec 6)) = none ∧
    (([0x005, 0x010, 0x0FF, 0x107, 0x1FF, 0x204, 0x303, 0x402, 0x404, 0x7FF, 0x804, 0xBFF] : List Nat).all fun n =>
      !(decide (n ≤ 4) || decide (6 ≤ n ∧ n ≤ 0xF) || decide (0x100 ≤ n ∧ n ≤ 0x106) || decide (0x200 ≤ n ∧ n ≤ 0x203) || decide (0x300 ≤ n ∧ n ≤ 0x302) ||
        decide (0x400 ≤ n ∧ n ≤ 0x401) || n == 0x403 || decide (0x800 ≤ n ∧ n ≤ 0x803) || decide (0xC00 ≤ n))) = true ∧
    ((inMode 0).me.mode = 0 ∧ 0x800 ≤ (0x803 : BitVec 12).toNat) ∧
    ((inMode 1).me.mode.toNat < 2 ∧ 0xC00 ≤ (0xC00 : BitVec 12).toNat) ∧ (inMode 1).me.mode = 1 ∧ 2 ≤ (inMode 2).me.mode.toNat :=
  ⟨⟨w0_on, w0_roomy⟩, by decide +kernel⟩

/-- The must-be-zero bits of a value: a runtime core with such values, whose access passes. -/
def reserved : State := at_ 1 (regs [(1, 0xFFFFFFFFFFFFFFFF)] { core0 with mode := 1 })
theorem witness_SystemRegisterMoves_reserved : reserved.on 0 ∧
    (([(0x000, 16), (0x001, 42), (0x002, 13), (0x106, 32), (0x201, 5), (0x202, 32), (0x203, 49), (0x801, 17), (0x802, 52)] : List (Nat × Nat)).map fun x =>
      (mtsAccess reserved.me.mode x.1, decide (2 ^ x.2 ≤ (reserved.me.readS (1 : BitVec 6)).toNat))) = List.replicate 9 (none, true) ∧
    (reserved.me.readS (1 : BitVec 6)).extractLsb' 5 3 ≠ 0 :=
  ⟨by show reserved.me.readP 0 = true; decide +kernel, by decide +kernel⟩

theorem witness_MtsEffects : w0.me.sh = false := by decide +kernel

theorem witness_FloatLanes : w0.roomy ∧ ((1 : BitVec 1) = 0 ∨ (63 : BitVec 7).getLsbD 6 = false) ∧
    (∃ a b : Fv, a = .fin true 0 3 ∧ b = .fin false 0 (-7)) ∧ (∃ a : Fv, a = .nan) := ⟨w0_roomy, by decide, ⟨_, _, rfl, rfl⟩, ⟨_, rfl⟩⟩

theorem witness_CompareMasks : w0.roomy ∧ ((1 : BitVec 1) = 0 ∨ (63 : BitVec 7).getLsbD 6 = false) ∧ 63 < 64 ∧ 64 ≤ 255 ∧ 255 < 256 := ⟨w0_roomy, by decide⟩

theorem witness_IntegerLanes : w0.roomy := w0_roomy

/-- Tile 1 with a load that has performed 10 of its rows. -/
def loading : State := at_ 2 { core0 with
  qa := [⟨0, 5, .tld 1 0x100000000 256 64 64 4 (List.replicate 64 0), 10, 0, none, none, false, 0⟩], tilePend := 2 }
theorem witness_LaneMoves : w0.roomy ∧ (2 : BitVec 2) ≠ 3 ∧ w0.me.tileBefore 1 = none ∧ (loading.me.tileBefore 1).isSome = true := ⟨w0_roomy, by decide +kernel⟩

theorem witness_ConversionsAndRandomBits : w0.roomy ∧ (1 : BitVec 3) ≠ 0 ∧ (1 : BitVec 2).toNat < cvtRatio 1 0 ∧ (3 : BitVec 2).toNat < cvtRatio 3 0 :=
  ⟨w0_roomy, by decide +kernel⟩

theorem witness_ReductionsAndFunctions : w0.roomy ∧ (2 : BitVec 2) ≠ 3 ∧ ((1 : BitVec 1) = 0 ∨ (63 : BitVec 7).getLsbD 6 = false) := ⟨w0_roomy, by decide⟩

/-- Vector addresses; a base in each window that a gather reaches and one in none; and a gather under way. -/
def vecs : State := at_ 2 (regs [(1, 0x3F00), (2, 0x1000000), (3, 0x200000)] core0)
def gathering : State := at_ 2 { core0 with ctx := { core0.ctx with gs2 := 100 } }
theorem witness_VectorMemory : vecs.roomy ∧ (2 : BitVec 2) ≠ 3 ∧
    vecs.me.check vecs.cur (vecs.me.readS (1 : BitVec 6)) 256 256 true false [.face] = none ∧
    vecs.me.check vecs.cur (vecs.me.readS (1 : BitVec 6)) 256 256 false true [.face] = none ∧
    vecs.me.check vecs.cur (vecs.me.readS (2 : BitVec 6)) 256 256 true false [.face] = some (cCLASS, 0x1000000) ∧
    vecs.me.ctx.gatherFree vecs.slot ≤ vecs.me.ctx.clk ∧ winOf (vecs.me.readS (1 : BitVec 6)).toNat = some .face ∧
    winOf (vecs.me.readS (2 : BitVec 6)).toNat = some .cluster ∧ winOf (vecs.me.readS (3 : BitVec 6)).toNat = none ∧
    gathering.me.ctx.clk < gathering.me.ctx.gatherFree gathering.slot :=
  ⟨by show vecs.me.ctx.inFlight < 64; decide +kernel, by decide +kernel⟩

/-- Contexts of the three kinds. -/
def sketches : State := at_ 2 { regs [(1, 0x3F80)] core0 with
  assay := [(0, { Assay.empty with kind := 1 }), (1, { Assay.empty with kind := 2, valid := 1, keys := [(0, (7, 3, 1))] }), (2, { Assay.empty with kind := 3 })] }
theorem witness_AssayInstructions : sketches.roomy ∧ sketches.me.ctx.asBusy ≤ sketches.me.ctx.clk ∧ (1 : BitVec 2) ≠ 0 ∧ (2 : BitVec 2) ≠ 3 ∧
    ((1 : BitVec 2) = 1 ∨ (2 : BitVec 2) = 0) ∧ ((1 : BitVec 1) = 0 ∨ (63 : BitVec 7).getLsbD 6 = false) ∧
    (sketches.me.assayView 0).kind = 1 ∧ (sketches.me.assayView 1).kind = 2 ∧ (sketches.me.assayView 2).kind = 3 ∧
    sketches.me.check sketches.cur (sketches.me.readS (1 : BitVec 6)) 4224 128 true false [.face] = none ∧
    sketches.me.check sketches.cur (sketches.me.readS (1 : BitVec 6)) 4224 128 false true [.face] = none ∧
    ((sketches.me.assayView 1).ranked[0]?).isSome = true ∧ (sketches.me.assayView 1).ranked[63]? = none :=
  ⟨by show sketches.me.ctx.inFlight < 64; decide +kernel, by decide +kernel⟩

/-- All engines busy. -/
def busy : State := at_ 5 { core0 with ctx := { core0.ctx with asBusy := 4, rhBusy := 6, copyA := 9 } }
theorem witness_EngineGates : (busy.roomy ∧ busy.me.ctx.clk < busy.me.ctx.asBusy ∧ busy.me.ctx.clk < busy.me.ctx.rhBusy) ∧
    (sketches.me.ctx.asBusy ≤ sketches.me.ctx.clk ∧ (sketches.me.assayView 1).kind ≠ 1 ∧ (sketches.me.assayView 3).kind = 0) ∧
    busy.on 0 ∧ busy.me.ctx.clk < busy.me.ctx.copyFree busy.slot :=
  ⟨⟨by show busy.me.ctx.inFlight < 64; decide +kernel, by decide +kernel⟩, by decide +kernel, by show busy.me.readP 0 = true; decide +kernel, by decide +kernel⟩

/-- A core whose face holds pages of one format, and whose device page holds another. -/
def paged (face device : Nat) (l : Map Word) : Core :=
  { regs l core0 with
    ltt := [(0, lttMake 0 2 face 0 0 true true true true (faceSpa 0)), (64, lttMake 0x1000000 3 4 0 0 true true true true (sramSpa 0)),
      (128, lttMake 0x100000000 4 device 0 0 true true true true 0)] }
theorem on_of {c : Core} {k : Nat} (h : (at_ k c).me.readP 0 = true) : (at_ k c).on 0 := h
theorem roomy_of {c : Core} {k : Nat} (h : decide ((at_ k c).me.ctx.inFlight < 64) = true) : (at_ k c).roomy := by
  unfold State.roomy; exact of_decide_eq_true h

/-- A region of two tiles, rows of 256 bytes, signatures at 0x8000 and lists at 0x9000. -/
def region : Reheat := rhConfigured (BitVec.ofNat 512 (2 + 0x100 * 2 ^ 64 + 0x8000 * 2 ^ 128 + 0x9000 * 2 ^ 192))
/-- Region 1 is configured. -/
def heated : Core := { regs [(1, 1), (2, 0x2000)] core0 with reheat := [(1, region)] }
theorem witness_ReheatInstructions : (at_ 3 heated).roomy ∧ heated.ctx.rhBusy ≤ heated.ctx.clk ∧
    heated.check 0 (heated.readS (2 : BitVec 6)) 64 64 true false [.face, .cluster] = none ∧ Map.get? heated.reheat 1 = some region ∧
    (heated.readS (1 : BitVec 6)).toNat < rhTILES region.desc ∧ heated.ctx.inFlight + (1 + (rhTILES region.desc + 127) / 128) ≤ 64 ∧ heated.startAt 2 = 0 ∧ rhSigCheck 0 heated region.desc 1 0 (heated.readS (2 : BitVec 6)) = none ∧
    heated.check 0 (BitVec.ofNat 64 (rhOUT region.desc)) (2 * rhTILES region.desc) 2 false true [.face] = none ∧ (4 : BitVec 3).toNat < 5 ∧
    Map.get? heated.reheat 0 = none := ⟨roomy_of (by decide +kernel), by decide +kernel⟩

theorem witness_ReheatStep : (at_ 3 heated).me.ctx.rhBusy ≤ (at_ 3 heated).me.ctx.clk ∧ ((1 : BitVec 1) = 1 ∨ (5 : BitVec 7) = 0) ∧
    Map.get? (at_ 3 heated).me.reheat 1 = some region ∧ Map.get? (at_ 3 heated).me.reheat 7 = none ∧ 1 < rhTILES region.desc ∧ (0 : Nat) ≠ 1 := by decide +kernel

/-- Operands at 0 and 0x10000 with rows 64 bytes apart, on pages of INT8 and of FP32. -/
def operands (f : Nat) : Core := paged f 8 [(2, 0x10000), (3, 0x4000000040)]
theorem witness_MatrixInstructions : (at_ 4 (operands 1)).on 0 ∧
    (((operands 1).held.map fun h => !h.mx.runs.isEmpty).getD false = false ∧ (operands 1).ctx.mx.busyTo ≤ (operands 1).ctx.clk) ∧
    ((operands 1).startAt 0 < mxSteps false ∧ mxIssueCheck 0 (operands 1) false 1 0 0x10000 0x4000000040 ((operands 1).startAt 0) = none) ∧
    ((operands 8).startAt 0 < mxSteps true ∧ mxIssueCheck 0 (operands 8) true 0 0 0x10000 0x4000000040 ((operands 8).startAt 0) = none) :=
  ⟨on_of (by decide +kernel), by decide +kernel⟩

/-- A device address with a stride, sizes of 64 and 255, and a list on the face. -/
def queuing : Core := paged 8 8 [(1, 0x100000000), (2, 0x100), (3, 0xFF40)]
theorem witness_QueuedCopies : (at_ 5 queuing).on 0 ∧
    queueCheck 0 queuing 3 (queuing.readS (1 : BitVec 6)) (queuing.readS (1 : BitVec 6)) (BitVec.ofNat 64 ((queuing.readS (2 : BitVec 6)).toNat % 2 ^ 32)) = none ∧
    (queueCheck 0 queuing 3 (queuing.readS (1 : BitVec 6)) (queuing.readS (1 : BitVec 6)) (BitVec.ofNat 64 ((queuing.readS (3 : BitVec 6)).toNat % 2 ^ 32)) = none ∧
      queuing.check 0 (queuing.readS (2 : BitVec 6)) 256 4 true false [.face] = none) ∧
    { queuing with tilePend := 0x80 }.tilePend.getLsbD 7 = true := ⟨on_of (by decide +kernel), by decide +kernel⟩

/-- One entry of scales, one page of 4 KiB, and a landing map in slot 5 written as BF16. -/
def copying : Core :=
  { paged 8 8 [(1, 0), (2, 0x1000000), (3, 4096), (4, 1), (5, 5 + 16)] with landing := [(5, ⟨BitVec.ofNat 512 (2 * 2 ^ 16 + 1 * 2 ^ 24), .active, 0, 0⟩)] }
theorem witness_TimedCopies : ((at_ 5 copying).on 0 ∧ (at_ 5 copying).me.ctx.copyFree 5 ≤ (at_ 5 copying).me.ctx.clk ∧ 0 < 1) ∧
    ((copying.readS (4 : BitVec 6)).toNat = 1 ∧ copying.check 0 (copying.readS (1 : BitVec 6)) (88 * 1) 4 true false [.face] = none ∧
      1 - copying.startAt 3 ≤ 128 - copying.sqTotal ∧ copying.ctx.inFlight + min 2 (64 - copying.startAt 3) ≤ 64) ∧
    ((copying.readS (3 : BitVec 6)).toNat = 4096 * 1 ∧ copying.check 0 (copying.readS (2 : BitVec 6)) 4096 4096 true false [.cluster] = none ∧
      copying.check 0 (copying.readS (1 : BitVec 6)) 4096 4096 false true [.face] = none) ∧
    (copying.check 0 (copying.readS (1 : BitVec 6)) 4096 4096 true false [.face] = none ∧
      copying.check 0 (copying.readS (2 : BitVec 6)) 4096 4096 false true [.cluster] = none ∧
      lttCLASS (((copying.lookup 0x1000000).map Prod.snd).getD 0) = 0) ∧
    ((copying.readS (5 : BitVec 6)).toNat % 16 = 5 ∧ ((Map.get? copying.landing 5).map fun p => decide (p.st ≠ .free)) = some true ∧
      (copying.readS (5 : BitVec 6)).toNat / 16 % 4 ≠ (copying.readS (5 : BitVec 6)).toNat / 64 % 4 ∧
      ((Map.get? copying.landing 5).map fun p => tileBytes (landWritten (lmFMT p.desc) (copying.pageFmt (BitVec.ofNat 64 (lmBASE p.desc)))) ≠ 0) = some True) ∧
    copying.readS (1 : BitVec 6) = 0 := by
  refine ⟨⟨on_of (by decide +kernel), by decide +kernel⟩, by decide +kernel, by decide +kernel, by decide +kernel, ⟨by decide +kernel, by decide +kernel, by decide +kernel, ?_⟩,
    by decide +kernel⟩
  exact congrArg some (eq_true (by decide +kernel))

/-- A box of two elements of FP32 with tag 7, the route of that tag, and the tag 8 that no route has. -/
def sending : Core :=
  { paged 8 8 [(1, 0x100), (2, 0), (3, 0x0007001001001002), (4, 0x0008001001001002)] with
    routes := [(0, BitVec.ofNat 256 (7 + 2 ^ 16 + 0xFFFFFFFFFFFFFFFF * 2 ^ 128))] }
theorem witness_CoordinateSends : (at_ 5 sending).on 0 ∧ (at_ 5 sending).me.ctx.copyFree 5 ≤ (at_ 5 sending).me.ctx.clk ∧
    (match sending.lookup 0x100 with
      | some (_, e) => winOf 0x100 == some .face && frameOk 0 .face e && elemBytes (lttFMT e) == 4
      | none => false) = true ∧
    (let e (d : Nat) : Nat := laneNat (sending.readS (3 : BitVec 6)) d 12
     e 0 * e 1 * e 2 * e 3 = 2 ∧ (∀ d, d < 4 → coordOf (sending.readS (2 : BitVec 6)) d + e d - 1 ≤ 0xFFFF) ∧
      sending.check 0 0x100 (2 * 4) 4 true false [.face, .cluster] = none ∧
      (match cutBox sending.routes 7 0 e 4 (sending.startAt 3) with | .ok l => l.length == 1 | .error _ => false) = true ∧
      (match cutBox sending.routes 8 0 e 4 (sending.startAt 3) with | .ok _ => false | .error j => j == 0) = true) :=
  ⟨on_of (by decide +kernel), by decide +kernel⟩

/-- One stray element, and landing maps ACTIVE and FREE. -/
def strayed : Core :=
  { regs [(1, 0x40)] core0 with
    strays := [⟨0x31, false, 8, 1, 12, 5⟩]
    landing := [(0, ⟨0x31, .active, 9, 0⟩), (1, ⟨0x31, .free, 0, 0⟩)] }
theorem witness_RoutesMapsAndStrays : ((at_ 5 strayed).on 0 ∧ (at_ 5 strayed).roomy) ∧
    strayed.check 0 (strayed.readS (1 : BitVec 6)) 32 32 true false [.face] = none ∧
    strayed.check 0 (strayed.readS (1 : BitVec 6)) 64 64 true false [.face] = none ∧ strayed.ctx.inFlight + 3 ≤ 64 ∧ core0.strays = [] ∧
    (strayed.strays = ⟨0x31, false, 8, 1, 12, 5⟩ :: [] ∧ BitVec.ofNat 64 (0x31 + 0 + 8 * 2 ^ 17 + 1 * 2 ^ 32 + 2 ^ 63) = 0x8000000100100031) ∧
    ((at_ 5 strayed).landTable (mapDest 0 false)).map (fun x => (x.1, x.2.st, decide (lmTAG x.2.desc < 2 ^ 16))) = [(0, .active, true), (1, .free, true)] ∧
    Map.get? ((at_ 5 strayed).landTable (mapDest 0 false)) 2 = none :=
  ⟨⟨on_of (by decide +kernel), roomy_of (by decide +kernel)⟩, by decide +kernel⟩

/-- Two units of one launch in one timing group; core 0 acts. -/
def pair (k : Nat) (c d : Core) : State :=
  { at_ k c with
    cores := [(0, c), (1, d)]
    parts := [(0, Part.formed 0 0 1 1)]
    launches := [(1, { placedLaunch with cores := 2, units := 2, lid := 1, wdog := 1000 })]
    groups := [(0, ⟨[0, 1], 1, false, false, false, 0, false, none, [], none⟩)] }
/-- The second unit. -/
def core1 : Core := { core0 with unitId := 1, grpPos := grpPosOf 0 1 }
/-- A group of the two, a poisoned one, one that holds this unit absent, and one of the other unit alone. -/
def groupOf2 (absent : Bool) (first n : Nat) : List Byte :=
  toBytes 8 n ++ toBytes 8 (first + (if absent then 2 ^ 16 else 0)) ++ toBytes 8 1
def comm : State :=
  pair 7 { regs [(1, 1), (2, 999), (3, 0x200)] core0 with
    agroups := [(0, ⟨groupOf2 false 0 2, 5, false⟩), (1, ⟨groupOf2 false 0 2, 5, true⟩), (2, ⟨groupOf2 true 0 2, 5, false⟩), (3, ⟨groupOf2 false 1 1, 5, false⟩)] } core1
theorem witness_SlotSevenInstructions : (comm.me.readP 0 = true ∧ comm.me.ctx.inFlight < 64 ∧ comm.me.ctx.wbAt ≠ comm.me.ctx.clk + 1) ∧
    (comm.peerCore comm.me (comm.me.readS (1 : BitVec 6)).toNat = some 1 ∧ (Map.get? comm.launches comm.me.launch).isSome = true) ∧
    comm.peerCore comm.me (comm.me.readS (2 : BitVec 6)).toNat = none ∧ (1 : BitVec 2).toNat < 2 ∧
    comm.me.check comm.cur (comm.me.readS (3 : BitVec 6)) 520 8 true false [.face] = none ∧ comm.me.ctx.inFlight + min 3 (511 - comm.me.startAt 6) ≤ 64 ∧
    (comm.me.ctx.macros = [] ∧ (511 : BitVec 9) ≠ 0 ∧ comm.me.check comm.cur (comm.me.readS (3 : BitVec 6)) (32 * 511) 32 true false [.face] = none) ∧
    (4 : BitVec 3).toNat < 5 ∧ { core0 with ctx := { core0.ctx with wbAt := 1 } }.ctx.wbAt = core0.ctx.clk + 1 := by decide +kernel
/-- A waybill that runs. -/
theorem witness_SlotSevenInstructions_runs : (511 : BitVec 9) ≠ 0 ∧ ((core0.addMacro 7 0 4 (.waybill 0x200 4 0 1 1 [])).ctx.macros.map Macro.work) =
    [.waybill 0x200 4 0 1 1 []] := by decide +kernel
/-- A waybill whose first entry has OFFSET 2. -/
def early : State := { comm with mem := memPutN [] (core0.keyOf 0 0x200) [2] }
theorem witness_SlotSevenInstructions_first : early.poison = [] ∧ early.me.startAt 6 < (511 : BitVec 9).toNat ∧
    wbOFFSET (BitVec.ofNat 256 (ofBytes ((List.range 32).map fun i =>
      early.startByte (early.me.keyOf early.cur ((early.me.readS (3 : BitVec 6) + BitVec.ofNat 64 (32 * early.me.startAt 6)).toNat + i))))) = 2 := by decide +kernel
/-- The same for MCLDR: a present unit, an absent one, a poisoned group, and a group that does not list the unit. -/
theorem witness_SlotSevenInstructions_groups : (2 : BitVec 2) ≠ 3 ∧
    ([0, 1, 2, 3].map fun n => (Map.get? comm.me.agroups n).map fun g =>
      (((List.range (grCOUNT g.desc)).find? fun j => grNODE g.desc j == comm.me.node), grABSENT g.desc 0, g.poison)) =
      [some (some 0, false, false), some (some 0, false, true), some (some 0, true, false), some (none, false, false)] ∧
    comm.me.check comm.cur (BitVec.ofNat 64 (grWBASE (groupOf2 false 0 2) 0) + comm.me.readS (3 : BitVec 6)) 256 256 true false [.face] = none := by decide +kernel

theorem witness_ControlTransfers : (w0.on 0 ∧ w0.roomy) ∧ isPacked (lineAt w0.mem w0.cur (w0.me.ctx.pc.toNat / 16)) = false ∧
    ((0x1FFF0 : Word).toNat < 2 ^ 17 ∧ isPacked (lineAt w0.mem w0.cur ((0x1FFF0 : Word).toNat / 16)) = false) ∧ w0.me.ctx.ctl.jump = none ∧
    isPacked (lineAt w0.mem w0.cur ((BitVec.ofNat 64 ((w0.me.ctx.pc.toNat / 16 + 1) * 16)).toNat / 16)) = false := ⟨⟨w0_on, w0_roomy⟩, by decide +kernel⟩

/-- A core in a loop of three stages. -/
def looping : Core := { core0 with ctx := { core0.ctx with la := true, lcnt := 2, lN := 3, lrot := 4 } }
theorem witness_LoopEngine : (w0.on 0 ∧ w0.me.ctx.ctl.fin = [] ∧ (Instr.loop 0 0 0 2 5 none).wf = true ∧ (Instr.loop 0 0 0 2 0 (some 0x1FFFF)).wf = true) ∧
    (w0.me.ctx.la = false ∧ w0.me.ctx.qreq = false) ∧ ((at_ 0 looping).me.ctx.la = true ∧ (at_ 0 looping).on 0 ∧ (at_ 0 looping).me.ctx.ctl.fin = []) ∧
    (((at_ 0 looping).core 0).ctx.la = true ∧ ((at_ 0 looping).core 0).ctx.qreq = false ∧ ((at_ 0 looping).core 0).ctx.items = []) :=
  ⟨⟨w0_on, by decide +kernel⟩, by decide +kernel, ⟨by decide +kernel, on_of (by decide +kernel), by decide +kernel⟩, by decide +kernel⟩

/-- Waits that hold and that do not: a time, a tile that a load will write, a counter, banks; and a barrier group with its member. -/
def waiting : Core :=
  { regs [(1, 1)] core0 with
    tilePend := 2, qa := [⟨0, 5, .tld 1 0x100000000 256 64 64 4 (List.replicate 64 0), 0, 0, none, none, false, 0⟩]
    owned := 0x00FF, passing := 0xFF00, bgroups := [(3, ⟨[0, 1], false, false, false, false⟩)] }
theorem witness_WaitsAndBarriers : (at_ 0 waiting).on 0 ∧
    ((((waiting.readS (1 : BitVec 6)).toNat : Int) + 0 ≤ ((at_ 0 waiting).gt : Int)) = False ∧ (((waiting.readS (0 : BitVec 6)).toNat : Int) ≤ ((at_ 0 waiting).gt : Int)) = True) ∧
    ((2 : BitVec 8) ≠ 0 ∧ (∀ i, i < 8 → (2 : BitVec 8).getLsbD i = true → waiting.tilePend.getLsbD i = true → waiting.tileTargeted i = true) ∧
      waiting.tilePend &&& 2 ≠ 0 ∧ waiting.tilePend &&& 1 = 0) ∧
    (¬(waiting.readS (1 : BitVec 6) ≤ ((at_ 0 waiting).counterOf waiting 31).1) ∧ waiting.readS (0 : BitVec 6) ≤ ((at_ 0 waiting).counterOf waiting 31).1 ∧
      ((at_ 0 waiting).counterOf waiting 31).2 = false) ∧
    (((0x80 : BitVec 8) ++ 0#8) &&& ~~~(waiting.owned ||| waiting.passing) = 0 ∧ waiting.owned &&& ((0x80 : BitVec 8) ++ 0#8) ≠ (0x80 : BitVec 8) ++ 0#8 ∧
      waiting.owned &&& (0#8 ++ (0x80 : BitVec 8)) = 0#8 ++ (0x80 : BitVec 8)) ∧
    (((Map.get? waiting.bgroups 3).map fun b => b.members.contains waiting.unitId.toNat) = some true ∧ waiting.ctx.wre = false ∧ waiting.lazyPages = 0) ∧
    Map.get? waiting.bgroups 7 = none :=
  ⟨on_of (by decide +kernel), ⟨eq_false (by decide +kernel), eq_true (by decide +kernel)⟩, by decide +kernel⟩

/-- A line at issue address 0 that packs one word, which names pattern 0; and a unit whose quench is requested. -/
def packing : State := { at_ 0 core0 with mem := memPutN [] (codeKey 0 0) (toBytes 4 0xFEA08000) }
def quenching : Core := { core0 with ctx := { core0.ctx with qreq := true } }
theorem witness_EndsFencesAndTraps : w0.on 0 ∧ ((at_ 0 quenching).on 0 ∧ quenching.ctx.qreq = true ∧ quenching.mode = 0) ∧ w0.me.ctx.qreq = false ∧
    ((1 : BitVec 4) ≠ 0 ∧ (1 : BitVec 4) ≠ 15 ∧ packing.me.line = none ∧ isPacked (lineAt packing.mem packing.cur (packing.me.ctx.pc.toNat / 16)) = true ∧
      packing.me.mode = 0 ∧ (lineAt packing.mem packing.cur (packing.me.ctx.pc.toNat / 16)).toNat >>> (32 + 16 * (1 : BitVec 4).toNat) = 0 ∧
      isPacked (BitVec.ofNat 256 (memNat packing.mem (patKey packing.cur (32 * ((packWord (lineAt packing.mem packing.cur 0) (wordOf packing.me.ctx.pc)).extractLsb' 7 9).toNat)) 32)) = false) :=
  ⟨w0_on, ⟨on_of (by decide +kernel), by decide +kernel⟩, by decide +kernel, by decide +kernel⟩

theorem witness_ControlTransfers_packed : (0 : Word).toNat < 2 ^ 17 ∧ (0 : Word).toNat % 16 = 0 ∧
    isPacked (lineAt packing.mem packing.cur ((0 : Word).toNat / 16)) = true := by decide +kernel

/-! ### Page tables -/

/-- System tables at 0x10000 that map the first 64 GiB onto themselves, pinned or not, and guest tables at 0x18000 that do the same for pages of
FP32. -/
def tables (pin : Nat) : Memory :=
  [(0x10000, 0x01), (0x10001, 0x40), (0x10002, 0x01), (0x14000, BitVec.ofNat 8 (0x1F + 32 * pin)), (0x18000, 0x01), (0x18001, 0xC0), (0x18002, 0x01),
    (0x1C000, 0x1F), (0x1C007, 0x80)]
/-- The partition whose roots they are. -/
def part0 : Part := { Part.formed 0 0 1 1 with system := 0x10000, guest := 0x18000 }
/-- An image at 0x100000 with its MAGIC and VERSION, of a context in tenant mode. -/
def saved (c : Core) : State :=
  { at_ 0 c with mem := tables 1 ++ [(0x100000, 0x53), (0x100001, 0x4E), (0x100002, 0x50), (0x100003, 0x58), (0x100004, 1)], parts := [(0, part0)] }
/-- A handler of the runtime, with or without a held snapshot. -/
def handling (sh : Bool) : Core := { regs [(1, 0x100000), (2, 0x2000400), (3, 0x4000)] core0 with mode := 1, sh := sh, tm := sh }
theorem witness_RuntimeInstructions : ((1 : BitVec 6) ≠ 0 ∧ (2 : BitVec 2) ≠ 3 ∧ ((2 : BitVec 2) = 2 ∨ (3 : BitVec 6) = 0)) ∧ w0.me.mode = 0 ∧
    ((saved (handling true)).me.mode ≠ 0 ∧ (saved (handling true)).me.sh = true ∧ saveCheck (saved (handling true)) (handling true) 0x100000 0x18000 = none) ∧
    ((saved (handling false)).me.sh = false ∧ saveCheck (saved (handling false)) (handling false) 0x100000 0x18000 = none ∧
      imageMagic (saved (handling false)).mem 0x100000 = true ∧ memNat (saved (handling false)).mem (0x100000 + 0x100) 8 % 4 < 2 ∧
      memNat (saved (handling false)).mem (0x100000 + 6) 1 ≤ 64) ∧
    (winOf ((handling true).readS (3 : BitVec 6)).toNat = some .face ∧ ((handling true).lookup ((handling true).readS (3 : BitVec 6)).toNat).isSome = true) ∧
    (((handling true).readS (2 : BitVec 6)).toNat = 0x2000400 ∧ 0x2000400 % 2 ^ 10 = 0 ∧ 0x2000400 / 2 ^ 16 % 2 ^ 11 = 512 ∧ 1 ≤ 512 ∧ 0 + 512 ≤ 1024 ∧
      ((handling true).readS (1 : BitVec 6)).toNat % 16 = 0) := by decide +kernel
/-- A handler whose delay line drains. -/
theorem witness_RuntimeInstructions_drain : ((saved (handling true)).core 0).tail = none ∧
    (((saved (handling true)).core 0).ctx.drainedAt 0).isSome = true := by decide +kernel
/-- The range of a save area. -/
theorem witness_RuntimeInstructions_save : saveCheck (saved (handling true)) (handling true) 0x100000 0x2A1000 = none := by decide +kernel

theorem witness_TrapEntryAndReturn : core0.tm = false ∧ { core0 with tm := true }.tm = true ∧ cTIMING < 256 ∧ 7 < 16 ∧ (0x1FFFF : Word).toNat < 2 ^ 17 ∧
    core0.ctx.lQD = false ∧ ((core0.takeTrap 5 4 2 ⟨cTIMING, 7, false, 1, 0⟩ 0x20 3).held.isSome = true) ∧
    { core0.ctx with ctl := { core0.ctx.ctl with jump := some 0x40 } }.ctl.jump = some 0x40 := by decide +kernel

/-! ### Groups and arrivals -/

/-- A pair of which core 0 is to stop. -/
def stopping : State := pair 0 { core0 with stopAt := some 0 } core1
/-- A pair that stands stopped by a trap that has returned. -/
def stopped2 : State :=
  { pair 0 { core0 with run := .ready, stopped := some (4, 4) } { core1 with run := .stop, stopped := some (5, 5) } with
    groups := [(0, ⟨[0, 1], 1, true, true, false, 4, false, none, [], some 5⟩)] }
/-- A pair that waits at barrier group 3, core 0 by BAR. -/
def meeting : State :=
  pair 0 { core0 with run := .wait (.barrier 3), bgroups := [(3, ⟨[0, 1], true, true, false, false⟩)] }
    { core1 with run := .wait (.barrier 3), bgroups := [(3, ⟨[0, 1], true, false, false, false⟩)] }
/-- A pair with an event of core 0. -/
def raised : State := pair 0 { core0 with events := [⟨cSTRAY, 5, false, 9, 0⟩] } core1
theorem witness_GroupEvents : ((stopping.core 0).stopAt.isSome = true ∧ (stopping.core 0).live = true ∧ (stopping.core 0).ctx.qreq = false) ∧
    ((stopped2.restartCycle 0).isSome = true ∧ (Map.get? stopped2.groups 0).isSome = true ∧ stopped2.groupCores 0 = [0, 1] ∧ (stopped2.core 1).inSync = false) ∧
    (stopped2.core 0).group = 0 ∧
    (meeting.allArrived (meeting.core 0) 3 = true ∧ (meeting.barrierCores (meeting.core 0) 3).Nodup ∧
      (∀ m ∈ meeting.barrierCores (meeting.core 0) 3, (meeting.core m).run = .wait (.barrier 3)) ∧ meeting.justArrived 0 3 = false ∧
      (∀ m ∈ meeting.barrierCores (meeting.core 0) 3, ((Map.get? (meeting.core m).bgroups 3).map BGroup.sync) = some false) ∧
      0 ∈ meeting.barrierCores (meeting.core 0) 3) ∧
    (raised.atBoundary (raised.core 0) = true ∧ firstEvent (raised.core 0).pending = some ⟨cSTRAY, 5, false, 9, 0⟩) ∧
    ((raised.core 1).run ≠ .idle ∧ (raised.core 1).launch = 1) ∧ ((raised.core 0).run = .run ∧ (raised.core 0).mode = 0 ∧ (Map.get? raised.groups (raised.core 0).group).isSome = true) := by
  decide +kernel
/-- A launch whose watchdog counts, one microsecond on. -/
def watched : State := { raised with gt := gtMicro }
theorem witness_GroupEvents_watchdog : ((Map.get? watched.launches 1).map fun l => (watched.watches 1 l, decide (l.wdogAt + gtMicro ≤ watched.gt), decide (1 < l.wdog))) =
    some (true, true, true) := by decide +kernel

/-- A packet of two FP32 elements with tag 0x31 for a place of a kind. -/
def packet (kind bad : Nat) : Packet := ⟨0, 1, 0x31, 8, false, kind, 1, 0, 0, 4, 3, 2, toBytes 8 0x3F80000040000000, bad, none, 0, none⟩
/-- A collective of both units that has all its values, one whose members differ, and a stopped core. -/
def arriving (order : Bool) : State :=
  { pair 0 { core0 with stopped := some (4, 4), run := .stop } core1 with
    colls := [(6, ⟨1, 0, 0, 0, 5, 9, [0, 1], [0, 1], [(0, 1), (1, 2)], [], none, order, [(0, (3, 7, 1, false)), (1, (3, 7, 1, true))], [], []⟩)] }
theorem witness_ArrivalEvents : ((arriving false).core 1).stopped = none ∧ ((arriving false).core 0).stopped = some (4, 4) ∧
    ((match Map.get? (arriving false).colls 6 with
        | some k => k.launch == 1 && Map.get? k.dests 1 == some (3, 7, 1, true) && !k.order && k.bad.isNone && (Map.get? k.given 1).isNone
        | none => false) = true ∧
      ((Map.get? (arriving false).launches 1).bind fun l => (Map.get? (arriving false).colls 6).map l.missing) = some none) ∧
    ((Map.get? (arriving true).colls 6).map Coll.order) = some true ∧
    ((packet 1 0).bad = 0 ∧ pktChecked (packet 1 0) = packet 1 0 ∧ pktChecked (packet 2 0) = packet 2 0 ∧ pktChecked (packet 3 0) = packet 3 0 ∧
      headerReserved (pktHeader (packet 5 0) 1 (pktClass (packet 5 0)) 0) = true ∧ (packet 2 0).dkind = 2 ∧ (packet 3 0).dkind = 3 ∧ (packet 1 0).dkind = 1 ∧
      (arriving false).waitAway (packet 1 0) (.coordinatePacket 0 (packet 1 0)) = none ∧ (arriving false).packetCore (packet 1 0) 0 = 0) ∧ (packet 1 2).bad = 2 := by
  decide +kernel
/-- A cluster with a landing map of FP32 elements along one dimension. -/
def mapped : State :=
  { State.reset with clusters := [(2, ⟨none, none, none, false, [(4, ⟨BitVec.ofNat 512 (0x31 + 2 ^ 16 + 0x10 * 2 ^ 32 + 7 * 2 ^ 128 + 0x1000100 * 2 ^ 192 + 2 ^ 256), .active, 2, 0⟩)]⟩)] }
theorem witness_ArrivalEvents_element : mapped.memInv ∧
    landDecide (mapped.cluster 2).landing (packet 2 0).tag.toNat (packet 2 0).parity (packet 2 0).fmt.toNat (pktCoord (packet 2 0) 1) = some (4, false) ∧
    (match Map.get? (mapped.cluster 2).landing 4 with
      | some m => m.st == .active && landValue (lmFMT m.desc) (packet 2 0).fmt.toNat (pktElem (packet 2 0) 1) == (0x3F800000, 4) &&
          lmAddress m.desc 4 (pktCoord (packet 2 0) 1) == 0x1000114
      | none => false) = true ∧ 0x1000114 % 4 = 0 ∧ 0x1000000 ≤ 0x1000114 ∧ 0x1000114 + 4 ≤ 0x2000000 := ⟨rfl, by decide +kernel⟩

/-! ### Queues and counters -/

/-- A load with a store behind it in QA; a store with its rows read out, in QB; and a non-temporal store. -/
def store (uid slot : Nat) : QEntry := ⟨uid, slot, .tst 2 0x100000000 256 2 4 8 [] [7, 8], 1, 0, none, none, false, 0⟩
def queues : State :=
  at_ 5 { paged 8 8 [] with
    qa := [⟨1, 5, .tld 1 0x100000000 256 64 64 8 (List.replicate 64 0), 10, 0, none, none, false, 0⟩, store 2 5], qb := [store 3 6], nt := [store 4 5] }
theorem witness_QueuedRowsPerform :
    ((queues.core 0).queue 5).length = 2 ∧ ((queues.core 0).queue 5).map (fun e => (entryReady (queues.core 0) e, e.uid)) = [(true, 1), (true, 2)] ∧
    (((queues.core 0).queue 5).head?.map fun e => (rowFault queues 0 e e.row, decide (e.row < 63))) = some (none, true) ∧
    ((queues.core 0).queue 6 = [store 3 6] ∧ entryReady (queues.core 0) (store 3 6) = true ∧ (store 3 6).row < 63 ∧
      ((storePieces 0 (queues.core 0) (store 3 6).kind 1 8).any fun p => queues.writeHeld (queues.core 0).partId.toNat p.1 p.2) = false) ∧
    ((queues.core 0).nt[0]? = some (store 4 5) ∧ (store 4 5).faulted = none ∧ (store 4 5).held = false ∧ (queues.core 0).saved = none ∧
      rowFault queues 0 (store 4 5) 1 = none ∧ ((storePieces 0 (queues.core 0) (store 4 5).kind 1 8).any fun p => queues.writeHeld (queues.core 0).partId.toNat p.1 p.2) = false) := by decide +kernel

/-- A load whose page no table entry maps. -/
def unmapped : QEntry := ⟨1, 5, .tld 1 0x4000000000000 256 64 64 8 (List.replicate 64 0), 63, 0, none, none, false, 0⟩
theorem witness_QueuedRowsPerform_fault : entryReady core0 unmapped = true ∧ unmapped.row < 64 ∧
    (rowFault (at_ 5 { core0 with qa := [unmapped] }) 0 unmapped unmapped.row).isSome = true := by decide +kernel

/-- The last row of a load and of a store; a gather; a store with a row to be read out, its last too; and a store whose page no entry maps. -/
def lastRow : QEntry := ⟨1, 5, .tld 1 0x100000000 256 64 64 8 (List.replicate 64 0), 63, 0, none, none, false, 0⟩
def gathered : QEntry := ⟨1, 5, .gather 1 0x100000000 256 64 64 8 0 (some (List.replicate 64 3)) [], 63, 0, none, none, false, 0⟩
def storing (rows : Nat) (ea : Word) : QEntry := ⟨1, 5, .tst 2 ea 256 64 64 8 [] (List.replicate rows 7), min rows 63, 0, none, none, false, 0⟩
theorem witness_QueuedRowsPerform_ends :
    ([lastRow, gathered, storing 64 0x100000000].map fun e =>
      (entryReady { paged 8 8 [] with qa := [e] } e, e.row, (rowFault (at_ 5 { paged 8 8 [] with qa := [e] }) 0 e 63).isNone)) =
      [(true, 63, true), (true, 63, true), (true, 63, true)] ∧
    ([0, 63].map fun k => (rowFault (at_ 5 { paged 8 8 [] with qa := [storing k 0x100000000] }) 0 (storing k 0x100000000) k).isNone) = [true, true] ∧
    (rowFault (at_ 5 { paged 8 8 [] with qa := [storing 64 0x4000000000000] }) 0 (storing 64 0x4000000000000) 63).isSome = true := by decide +kernel

/-- A pending increment, a time trigger due, and an interrupt due. -/
def counting : State :=
  { w0 with
    parts := [(0, { Part.formed 0 0 1 1 with triggers := [(3, .time 0 9)], counters := [(9, { Counter.zero with dueAt := [0, 7], ident := 5 })] }), (1, Part.formed 0 1 1 1)]
    incrs := [⟨0, 1, 9, 2, 0, 0, []⟩] }
theorem witness_CountersAndTriggers : (Map.get? counting.parts 0).isSome = true ∧ (counting.incrs[0]?.map counting.covered) = some true ∧
    ((Map.get? counting.parts 1).map fun p => (p.triggers, (Map.get p.counters 9 Counter.zero).parent)) = some ([], none) ∧
    ((Map.get? counting.parts 0).bind fun p => Map.get? p.triggers 3) = some (.time 0 9) ∧ (0 : Word).toNat ≤ counting.gt ∧
    (((Map.get? counting.parts 0).bind fun p => Map.get? p.counters 9).map Counter.dueAt) = some [0, 7] ∧ counting.gt < 7 ∧
    (∃ k : Counter, k.armed = true ∧ k.cancelled = false ∧ k.notify ≤ k.value) ∧ ∃ k : Counter, k.armed = true ∧ k.cancelled = false ∧ k.value < k.notify := by
  refine ⟨by decide +kernel, by decide +kernel, by decide +kernel, by decide +kernel, by decide +kernel, by decide +kernel, by decide +kernel,
    ⟨{ Counter.zero with armed := true }, by decide⟩, ⟨{ Counter.zero with armed := true, notify := 1 }, by decide⟩⟩

/-! ### The memory side, launches and the rest of the package -/

/-- A core that walks for a device page, in a partition whose tables map it; and a migration queue at 0x30000 whose first record asks for the page at
0 to go to stack 1. -/
def walking : State :=
  { at_ 0 { core0 with
      run := .wait (.walk 0x100000000 ⟨cPAGE, 1, true, 0x100000000, 0⟩)
      ltt := [(128, lttMake 0x100000000 4 8 0 0 false true true false 0)] } with
    mem := tables 0 ++ [(0x30009, 1)], parts := [(0, { part0 with migq := some (0x30000, 4) })] }
/-- A migration under way. -/
def moving : State := { walking with migs := [⟨0, some 0, 0, 0, 0x4000, 0x1000000000, 0x14000, []⟩] }
theorem witness_MemorySideEvents_walk : (match (walking.core 0).walkOf, walking.partOf (walking.core 0), (walking.core 0).lookup 0x100000000 with
    | some w, some p, some (_, e) => (walking.core 0).walkPage w == 0x100000000 && (match nestedWalk walking.mem p (walking.tlbServes 0) e 0x100000000 with | .fill _ => true | _ => false)
    | _, _, _ => false) = true := by
  have h : ∀ b ∈ [none, some 0], (match (walking.core 0).walkOf, walking.partOf (walking.core 0), (walking.core 0).lookup 0x100000000 with
      | some w, some p, some (_, e) => (walking.core 0).walkPage w == 0x100000000 && (match nestedWalk walking.mem p b e 0x100000000 with | .fill _ => true | _ => false)
      | _, _, _ => false) = true := by decide +kernel
  have t : walking.tlbServes 0 = none ∨ walking.tlbServes 0 = some 0 := by
    unfold State.tlbServes; split
    · exact .inr (by decide +kernel)
    · exact .inl rfl
  rcases t with t | t
  · rw [t]; exact h none (by simp)
  · rw [t]; exact h (some 0) (by simp)
theorem witness_MemorySideEvents_migration : (match walking.migRecord 0 0, Map.get? walking.parts 0 with
    | some r, some p => mqSTATUS r == 0 && (walking.migs.any fun g => g.part == 0 && g.index == some 0) == false && decide (mqPART r < 64) && mqDEST r == 1 &&
        !((walking.msu (mqDEST r)).offline) && zeros r 0x0B 0x0F && !(sysMoving walking.mem p (mqGPA r)) && (match sysLeaf walking.mem p (mqGPA r) with
          | some (old, leaf, z, _ :: _) => mqGPA r % z == 0 && inDevice old && !(pteSHR leaf) && !(walking.pinned (mqPART r) old z leaf) && !(walking.leafHeld (mqPART r) [0x14000] (leaf ||| (1 <<< 6))) && decide (0 < z) && decide (z ≤ msuBytes (mqDEST r))
          | _ => false)
    | _, _ => false) = true := by decide +kernel
/-- Entries of the leaf's table that hold its mark are none: they are rewritten at once. -/
theorem witness_MemorySideEvents_leaf : ∀ l e, (∀ a ∈ l, 0x14000 ≤ a ∧ a < 0x14000 + 2048) → moving.leafHeld 0 l e = false := by
  intro l e h
  refine List.any_eq_false.2 fun a ha => ?_
  have : a % 0x1000 ≠ 0xFF8 := by have := h a ha; omega
  simp [this]
theorem witness_MemorySideEvents : (match moving.migs[0]?, Map.get? moving.parts 0 with
    | some g, some _ => moving.migOwner g == some 0 && !((moving.pendingAt 0 g.gpa g.old g.size).any fun x => g.waits.contains x) && !(moving.heldAt g.old g.size) && !(moving.clearing 0) && !(moving.moveHeld g 0)
    | _, _ => false) = true ∧ 39 < 40 ∧ 15 < 16 ∧
    (47 < 48 ∧ 2 ≤ 8 * 12 ∧ 2 ≤ 1 * 2 ∧ 0 + 8 ≤ 8 ∧ 0 + 12 ≤ 12 ∧ Map.get? State.reset.parts 47 = none ∧
      ∀ x ∈ rectangle 0 0 8 12, (State.reset.cluster x).part = none) := by decide +kernel

/-- A frame of unit 0 that ends in its hallmark: compressed. -/
def keyed : State := ({ State.reset with mem := [(0xFF8, 7)] } : State).setMsu 0 { State.reset.msu 0 with hallmark := 7 }
theorem witness_MemorySideEvents_rekey : keyed.heldWrites = [] ∧ keyed.memInv ∧ 0 ∈ keyed.framesWith 0 (keyed.msu 0).hallmark ∧
    keyed.compressed 0 = true ∧ keyed.rawForAny 0 = false := ⟨rfl, rfl, by decide +kernel⟩
/-- A stack whose one page may move, with units left that work. -/
theorem witness_MemorySideEvents_stack : 15 < 16 ∧ State.reset.parts = [] ∧ State.reset.migs = [] ∧
    walking.parts = [(0, { part0 with migq := some (0x30000, 4) })] ∧ (walking.pagesOn 0 0 part0).length = 1 ∧
    (walking.setMsu 0 { walking.msu 0 with offline := true }).freeUnit.isSome = true := by
  refine ⟨by decide, rfl, rfl, rfl, by decide +kernel, ?_⟩
  have h : ((List.range 40).filter fun u => !((walking.setMsu 0 { walking.msu 0 with offline := true }).msu u).offline).length = 39 := by decide +kernel
  simp only [State.freeUnit]
  rw [List.getElem?_eq_getElem (by rw [h]; exact Nat.mod_lt _ (by decide))]
  rfl

/-- The bytes that are not zero of an image at 0x20000: one line, one cluster, two cores, and group entries of zeros. -/
def image : Memory :=
  [(0x20000, 0x58), (0x20001, 0x4E), (0x20002, 0x36), (0x20003, 0x49), (0x20004, 1), (0x20007, 1), (0x20009, 1), (0x2000C, 1), (0x2001D, 2), (0x20030, 1),
    (0x20032, 1), (0x20034, 2)]
/-- Queue 2 with its ring at 0x40000, its tail word at 0x50000, which holds `t`, and its head word at 0x50008. -/
def queue (head : Option (BitVec 512)) : Queue :=
  ⟨BitVec.ofNat 256 (0x40000 + 0x50000 * 2 ^ 64 + 0x50008 * 2 ^ 128 + 4 * 2 ^ 192 + 0x80 * 2 ^ 200), true, 0, if head.isSome then 1 else 0,
    if head.isSome then [0] else [], head, false, []⟩
/-- A partition with that queue and a handler, whose memory holds the image at 0x20000. -/
def part1 (head : Option (BitVec 512)) : Part := { part0 with queues := [(2, queue head)], handler := some (1, List.replicate 32 0) }
/-- The memory with a tail word of `t`. -/
def ringMem (t : Byte) : Memory := tables 0 ++ image ++ (if t = 0 then [] else [(0x50000, t)])
/-- The state with that partition. -/
def scheduling (t : Byte) (head : Option (BitVec 512)) : State := { State.reset with mem := ringMem t, parts := [(0, part1 head)] }
/-- A record of that image, and one with a reserved bit. -/
def record : BitVec 512 := 0x20000
theorem witness_SchedulerEvents_ring :
    ([17, 16, 1].map fun (t : Byte) => match Map.get? (scheduling t none).parts 0 with
      | some p => (match Map.get? p.queues 2 with
        | some q => q.enabled && !q.stopped && (scheduling t none).tailOf p q == some t.toNat && q.head.isNone && (decide (2 ^ qdSIZE q.desc < t.toNat) == (t == 17))
        | none => false)
      | none => false) = [true, true, true] := by decide +kernel
/-- The state that considers a head record, with cluster 0 free or taken; and the verdict. -/
def heading (r : BitVec 512) (busy : Option Nat) : State := { scheduling 1 (some r) with clusters := [(0, ⟨some 0, none, busy, false, []⟩)] }
def verdict (r : BitVec 512) (busy : Option Nat) : Nat :=
  match (heading r busy).considerRecord 0 (part1 (some r)) 2 (queue (some r)) r with | .admits _ _ => 0 | .refused => 1 | .waits => 2
theorem witness_SchedulerEvents_heads : ([(record, none), (record + 2 ^ 511, none), (record, some 9)] : List (BitVec 512 × Option Nat)).all (fun x =>
    Map.get? (heading x.1 x.2).parts 0 == some (part1 (some x.1)) && (part1 (some x.1)).admits &&
      (heading x.1 x.2).considered (part1 (some x.1)) == (2, queue (some x.1)) :: [] && (queue (some x.1)).back.isEmpty && (queue (some x.1)).head == some x.1 &&
      !((part1 (some x.1)).marks.contains (markKey 2 ((queue (some x.1)).taken - 1)))) = true := by decide +kernel
theorem witness_SchedulerEvents_admits : verdict record none = 0 := by decide +kernel
theorem witness_SchedulerEvents_refuses : verdict (record + 2 ^ 511) none = 1 := by decide +kernel
theorem witness_SchedulerEvents_waits : verdict record (some 9) = 2 := by decide +kernel

/-- A launch of the image placed on cluster 0, in one state or another. -/
def placed : Launch := { placedLaunch with
    lid := 7, image := 0x20000, cores := 2, units := 2, st := .loaded, startAt := some 0, hand := some (1, List.replicate 32 0) }
/-- States in which it starts: placed, waiting for its predecessor, as a node of a replay, and vacated. -/
def starting (l : Launch) : State :=
  { scheduling 0 none with
    launches := [(5, l)], replays := [(8, ⟨0, 0, 0, none, 0, [(0, 5)], [], 0, 0, 0, false⟩)] }
theorem sram_kept (xs : List Nat) : xs.foldl (fun m x => memClear m (sramSpa x) 0x1000000) (ringMem 0) = ringMem 0 := by
  have low : ∀ x ∈ ringMem 0, x.1 < 0xF000000000000 := by decide +kernel
  have one : ∀ x, memClear (ringMem 0) (sramSpa x) 0x1000000 = ringMem 0 := fun x =>
    List.filter_eq_self.2 fun y hy => by
      have h1 := low y hy
      have h2 : y.1 < sramSpa x := by simp only [sramSpa]; omega
      simp [h2]
  induction xs with
  | nil => rfl
  | cons x r ih => rw [List.foldl_cons, one, ih]
theorem image_readable : (readImageAt (ringMem 0) (part1 none) 0x20000).isSome = true := by decide +kernel
theorem image_still : (starting placed).launchMoves placed = false := by decide +kernel
theorem start_accepted : (starting placed).powered 0 = true ∧ (starting placed).startRefused placed = false := by decide +kernel
theorem witness_SchedulerEvents_image : (starting placed).launchMoves placed = false ∧ (starting placed).powered placed.part = true ∧
    (starting placed).startRefused placed = false ∧ ∃ p i h, Map.get? (starting placed).parts placed.part = some p ∧ placed.hand = some h ∧
    ∀ t : State, (∃ xs : List Nat, t.mem = xs.foldl (fun m x => memClear m (sramSpa x) 0x1000000) (starting placed).mem) →
      readImageAt t.mem p placed.image = some i := by
  obtain ⟨i, hi⟩ := Option.isSome_iff_exists.1 image_readable
  refine ⟨image_still, start_accepted.1, start_accepted.2, part1 none, i, (1, List.replicate 32 0), rfl, rfl, fun t ht => ?_⟩
  obtain ⟨xs, hx⟩ := ht
  have hm : (starting placed).mem = ringMem 0 := by simp only [starting, scheduling]
  have hp : placed.image = 0x20000 := rfl
  rw [hx, hm, sram_kept xs, hp]
  exact hi
theorem witness_SchedulerEvents : (∀ x ∈ placed.members, x < 1024) ∧ (placed.st = .loaded ∧ placed.vacatedUnits = [] ∧ placed.startAt = some 0 ∧ 0 ≤ (starting placed).cyc) ∧
    ((starting { placed with st := .waiting, handover := some 4 }).handsOver placed = true) ∧
    (match Map.get? (starting { placed with st := .waiting }).replays 8 with
      | some r => (starting { placed with st := .waiting }).nodeReady r 0 == some (5, { placed with st := .waiting }, false, false)
      | none => false) = true ∧
    ({ placed with vacatedUnits := [0, 1] }.vacatedUnits ≠ [] ∧ placed.places.all (fun y => [0, 1].contains (y.1 * placed.cores + y.2)) = true) ∧
    ((at_ 0 { core0 with passing := 0x100 }).me.passing.getLsbD 8 = true ∧
      ((at_ 0 { core0 with passing := 0x100 }).touchedBanks 0 (at_ 0 { core0 with passing := 0x100 }).me).getLsbD 8 = false) := by decide +kernel

/-- A launch whose first unit has drained, whose second has ended, and one that has counted both. -/
def ending : State :=
  { at_ 0 { core0 with run := .drain, launch := 5 } with
    parts := [(0, part0)], launches := [(5, { placed with st := .resident, doneUnits := [1], covers := [(1, (1, []))] })] }
theorem witness_UnitsComplete : (match Map.get? ending.launches 5 with
    | some l => decide ((ending.core 0).launch = 5) && (ending.core 0).drained && decide ((ending.core 0).mode = 0) && l.vacatedUnits.isEmpty &&
        !(l.counted.contains 1) && ending.unitCovered 5 l 1
    | none => false) = true ∧ 0 < 1024 ∧ { placed with st := .resident, counted := [1, 0] }.counted.length = placed.units ∧ placed.replay = none ∧
    ({ ending with clusters := [(3, ⟨some 0, none, some 5, false, []⟩)] }.cluster 3).busy = some 5 := by decide +kernel

theorem witness_PowerEvents : ((Map.get? ending.parts 0).map Part.halted) = some none ∧ part0.cores.length = 8 ∧ (∀ n ∈ part0.cores, n < 768) ∧ part0.cores.contains (hwCore 8) = false ∧
    { part0 with events := [(0x50C, 0x50009)] }.events = [(0x50C, (0x50009 : BitVec 32))] ∧ ((12600000 < 12600001 ∧ 20 ≤ 20) ∨ 110 < 0) ∧ (5 ≤ 15 ∧ 15 < 16) ∧
    { part0 with onAt := some (0, 1) }.onAt = some (0, 1) ∧ 0 ≤ ending.gt ∧ (∀ x ∈ ending.launches, x.2.part = 0 → x.2.st ≠ .loaded) := by decide +kernel

/-- Flows of a port: two receiving ones, one with 16 frames, and two sending ones, one that has failed seven times; a registered region. -/
def ports : State :=
  { ending with
    gt := 20 * gtMicro
    parts := [(0, { part0 with peers := [(4, BitVec.ofNat 256 (2 ^ 56 + 9 * 2 ^ 64))] })]
    mem := tables 0
    rxs := [⟨3, 4, 9, 7, 0, 2, []⟩, ⟨3, 5, 9, 7, 0, 16, []⟩]
    txs := [⟨0, 0, 4, 2, [(1, packet 1 0)], 0, 0, false, []⟩, ⟨0, 0, 4, 2, [(1, packet 1 0)], 0, 7, false, []⟩]
    qps := [(6, ⟨3, 1, 9, [⟨0, 0x60000, 0x100⟩]⟩)] }
/-- What the frames carry. -/
def carried : Packet := { packet 1 0 with ctx := 7, spkg := 9 }
theorem witness_PortEvents : ((0 : Byte).getLsbD 0 = false ∧ ports.accepts carried = true ∧ carried.payload.length ≤ 1024 ∧ ports.accepts (packet 1 0) = false ∧
      (ports.rxs.findIdx? fun r => r.port == 3 && r.flow == 4 && r.spkg == carried.spkg) = some 0 ∧ (ports.rxs[0]?.map fun r => (r.count, r.next)) = some (2, 7) ∧
      ports.sctTarget carried = some 0 ∧ (8 : BitVec 32) ≠ 7) ∧
    ((ports.txs[0]?.map TxFlow.failed) = some false ∧ (∃ u ∈ [((1 : BitVec 32), packet 1 0)], ((1 : BitVec 32) - u.1).toNat < 2 ^ 31)) ∧
    ((ports.rxs[1]?.map fun r => (r.count, r.since + 2 * gtMicro ≤ ports.gt)) = some (16, True) ∧ (ports.rxs.map fun r => (r.held.isEmpty, r.count)) = [(true, 2), (true, 16)] ∧ ports.waiting = []) ∧
    ((ports.txs.map fun t => (t.failed, t.tries)) = [(false, 0), (false, 7)] ∧ 0 + 20 * gtMicro ≤ ports.gt) ∧
    ((ports.qp 5).regions = [] ∧ ((ports.qp 6).regions.find? fun r => decide (r.base ≤ 0x600F8) && decide (0x600F8 + 8 ≤ r.base + r.len)) = some ⟨0, 0x60000, 0x100⟩ ∧
      ((ports.qp 6).regions.find? fun r => decide (r.base ≤ 0x600F8) && decide (0x600F8 + 9 ≤ r.base + r.len)) = none) ∧
    ((Map.get? ports.parts 0).bind fun p => gpaBytes ports.mem p 0x600F8 8) = some (List.replicate 8 0) := by
  refine ⟨by decide +kernel, by decide +kernel, ⟨?_, by decide +kernel⟩, by decide +kernel, by decide +kernel, by decide +kernel⟩
  exact congrArg (fun p => some (16, p)) (eq_true (by decide +kernel))

/-- Eighth timeout: the launches of the unacknowledged frames fail (R320). -/
theorem test_flow_launches : TxFlow.launches ⟨0, 0, 4, 2, [(1, packet 1 0)], 0, 7, false, [(0, 3), (1, 5)]⟩ = [5] := by decide +kernel

/-- A frame whose write device memory holds is not acknowledged (R282, R320). -/
theorem test_held_write_not_acknowledged :
    ([⟨3, 4, 9, 7, 0, 2, [(6, (0, 0x1000, [1]))]⟩, ⟨3, 5, 9, 7, 0, 2, []⟩] : List RxFlow).map
      (fun r => ({ ports with heldWrites := [(0, 0x1000, [1])] } : State).written 0 r) = [1, 2] := by decide +kernel

/-- What has been agreed over a transport: nothing, a version, algorithms, a session, and one that is finished. -/
def sides : List Spdm :=
  [Spdm.reset, { Spdm.reset with ver := true }, ⟨true, true, true, none, false, []⟩, ⟨true, true, true, some 3, false, [1]⟩, ⟨true, true, true, some 3, true, [1]⟩]
/-- Boots: before firmware; with no address for TCP; and with one. -/
def boots : List Boot := [⟨0, [], Spdm.reset, Spdm.reset, 0, none⟩, ⟨7, [], Spdm.reset, Spdm.reset, 0, none⟩, ⟨7, [], Spdm.reset, Spdm.reset, 0, some (2, [])⟩]
theorem witness_SpdmResponses : (boots.map fun b => [decide (b.step < 7), b.addr.isNone]) = [[true, true], [false, true], [false, false]] ∧
    (sides.map fun x => [x.ver, x.ver && [(2 : Byte)].contains 0x02 && [(0x80 : Byte)].contains 0x80, x.alg, x.alg && x.dhe && x.session.isNone,
      x.session == some 3 && !x.finished, x.session == some 3 && x.finished]) =
    [[false, false, false, false, false, false], [true, true, false, false, false, false], [true, true, true, true, false, false],
      [true, true, true, false, true, false], [true, true, true, false, false, true]] ∧
    (∃ m, m = Config.spdmMac 3 [1]) ∧ ∃ m, m ≠ Config.spdmMac 3 [1] :=
  ⟨by decide +kernel, by decide +kernel, ⟨_, rfl⟩, ⟨0 :: Config.spdmMac 3 [1], fun h => by simpa using congrArg List.length h⟩⟩

/-- A partition with two launches, one with save areas; memory that holds a peer entry, queue and counter entries, a landing map and a handler. -/
def commanded : State :=
  { ending with
    mem := tables 0 ++ image ++ [(0x70007, 1), (0x70008, 9), (0x7000D, 1), (0x70042, 4), (0x7004A, 5), (0x70050, 8), (0x70052, 5), (0x70058, 4), (0x70080, 5), (0x7009D, 9),
      (0x700C0, 0x31), (0x700C2, 1), (0x700C4, 0x10)]
    launches := [(5, { placed with st := .resident, save := 0x100000 }), (6, { placed with lid := 8, st := .resident })] }
theorem witness_CommandsTakeEffect :
    ([7, 8].map fun (n : BitVec 32) => (commanded.findLaunch 0 n).map fun x => (x.1, decide (x.2.save ≠ 0))) = [some (5, true), some (6, false)] ∧
    (31 < 32 ∧ 0x20 % 32 = 0 ∧ 0 < 65536 ∧ 65536 ≤ 65536 ∧ 2 < 3 ∧ 255 < 256 ∧ 7 < 8 ∧ 15 < 16) ∧
    (commanded.findLaunch 0 9 = none ∧ Map.get? commanded.parts 1 = none ∧ Map.get? commanded.parts 0 = some part0 ∧ gpaBytes commanded.mem part0 0x50008 8 = some (List.replicate 8 0)) ∧
    ((commanded.markHarvested 0 95 0).isSome = true ∧ commanded.markHarvested 0 96 0 = none) ∧
    (match Map.get? commanded.parts 0 with
      | some p =>
        ((commanded.named none p 0x70000 32).map fun b => peerOk (BitVec.ofNat 256 (ofBytes b))) == some true &&
        ((commanded.named none p 0x70040 32).map fun b => queueOk (BitVec.ofNat 256 (ofBytes b)) && !((byteField (BitVec.ofNat 256 (ofBytes b)) 0x19 1).testBit 7)) == some true &&
        queueOk (queue none).desc && (byteField (queue none).desc 0x19 1).testBit 7 &&
        ((commanded.named none p 0x70080 32).map fun b => (ccEntry 0 Counter.zero 9 b).isSome) == some true &&
        ((commanded.named none p 0x700C0 64).map fun b => let d := BitVec.ofNat 512 (ofBytes b); (lmBad d).isNone && decide (msuBase 0 ≤ lmBASE d) &&
          decide (lmBASE d < msuBase 0 + msuBytes 0)) == some true &&
        ((commanded.named none p 0x20000 256).bind fun h => (commanded.named none p (0x20000 + imCODEOFF h) (32 * imCODELINES h)).map fun code => handlerOk 31 h code) == some true
      | none => false) = true ∧ Map.get? commanded.parts (0 + 1) = none := by decide +kernel

/-- The debugger looks at partition 0 with the image loaded; a unit of the launch runs, and its last reduction is kept. -/
def debugged : State :=
  { scheduling 0 none with
    cores := [(0, { core0 with launch := 5 })], launches := [(5, { placed with st := .resident })]
    dbg := ⟨[(some 0, 16)], 0x20000, 0, 0, 0, 0, 0, [], [(0, 2, ⟨5, 0, 2, 0, 0, 0, [], [], [], [], none, false, [], [], []⟩)]⟩ }
theorem witness_DebuggerCommands : (match Map.get? debugged.parts debugged.dbg.part with
    | some p => (match planLaunch debugged debugged.dbg.part p debugQueue 0 debugged.dbg.record (stagedKey debugged.nextLaunch) 0 none none debugged.dbg.save with
      | some l => p.admits && l.psize == 0 && (match debugged.considerLaunch p l with | .admits _ _ => true | _ => false)
      | none => false)
    | none => false) = true ∧ debugged.dbgCore 0 = some 0 ∧
    (∀ x ∈ debugged.dbg.reds, x.1 = 0 → x.2.1 = 3 → x.2.2.launch ≠ (debugged.core 0).launch) ∧
    ((debugged.page (debugged.dbg.part + 1)).head = (debugged.page (debugged.dbg.part + 1)).tail ∧ (debugged.page (debugged.dbg.part + 1)).stopped = false ∧
      debugged.taking = false) ∧
    (Map.get? debugged.launches (debugged.core 0).launch).isSome = true := by decide +kernel

theorem witness_TransfersAndCommandsComplete : (w0.on 0 ∧ w0.roomy) ∧ (full.on 0 ∧ ¬ full.roomy) ∧ ¬ w0.on 1 ∧ (Map.get? debugged.parts debugged.dbg.part).isSome = true ∧
    ((debugged.page (debugged.dbg.part + 1)).head = (debugged.page (debugged.dbg.part + 1)).tail ∧ (debugged.page (debugged.dbg.part + 1)).stopped = false ∧ debugged.taking = false) ∧
    ((∀ b ∈ (fit 24 ([31] : List Byte)).drop 8, b = 0) ∧ ∃ b ∈ (fit 24 (List.replicate 9 (1 : Byte))).drop 8, b ≠ 0) ∧ ((0 : Nat) = 0 ∧ 17 ≤ 17 ∧ 255 < 256) ∧ 15 ∈ [10, 11, 13, 14, 15] :=
  ⟨⟨w0_on, w0_roomy⟩, ⟨by show full.me.readP 0 = true; decide +kernel, by show ¬ full.me.ctx.inFlight < 64; decide +kernel⟩,
    by show ¬ w0.me.readP 1 = true; decide +kernel, by decide +kernel, by decide +kernel, by decide +kernel, by decide, by decide⟩

/-! ## Witnesses of the clauses that take a fault, a boundary value or an action of the delay lines -/

/-- Core 0 is about to fetch at an issue address, in a memory. -/
def fetchingAt (c : Core) (m : Memory) : State := { fetching with cores := [(0, c)], mem := m }
/-- Beyond the scratchpad; on a page of runtime mode; at word 3 of a line that is not packed; at word 2 of a line with one; and a line whose slot 0
is no instruction. -/
def fetchFaults : List (Core × Memory) :=
  [({ core0 with ctx := { core0.ctx with pc := 0x20000 } }, []), ({ core0 with owners := 1 }, []), ({ core0 with ctx := { core0.ctx with pc := 3 } }, []),
    ({ core0 with ctx := { core0.ctx with pc := 2 } }, packing.mem), (core0, memPutN [] (codeKey 0 0) (toBytes 4 0xFE000000))]
theorem witness_FetchTakesTheLineAtThePc_faults :
    (∀ x ∈ fetchFaults, (fetchingAt x.1 x.2).agenda = [] ∧ (fetchingAt x.1 x.2).phase = .issue (0 :: []) ∧ x.1.line = none ∧ x.1.pass = false ∧
      (fetchingAt x.1 x.2).issues x.1 = true ∧ x.1.recv = none ∧ x.1.ctx.wre = false ∧ (fetchingAt x.1 x.2).breakAt 0 = false ∧ x.1.tm = false) ∧
    (fetchFaults.map fun x => decide (0x1FFFF < x.1.ctx.pc.toNat)) = [true, false, false, false, false] ∧
    (fetchFaults.map fun x => x.1.owners.getLsbD (x.1.ctx.pc.toNat / 4096)) = [false, true, false, false, false] ∧
    (fetchFaults.map fun x => (isPacked (lineAt x.2 0 (x.1.ctx.pc.toNat / 16)), decide (x.1.ctx.pc.toNat % 16 ≠ 0))) =
      [(false, false), (false, false), (false, true), (true, true), (false, false)] ∧
    packCount (lineAt packing.mem 0 0) = 1 ∧
    (fetchFaults.map fun x => (fetchFault x.2 0 x.1).isNone && (templateFault (lineAt x.2 0 (x.1.ctx.pc.toNat / 16))) == some 1 && x.1.ctx.ctl.fin.isEmpty) =
      [false, false, false, false, true] := by decide +kernel
theorem fetchFaults_named : ∀ x ∈ fetchFaults, (fetchingAt x.1 x.2).coresNamed := by
  simp only [fetchFaults, List.forall_mem_cons]
  refine ⟨?_, ?_, ?_, ?_, ?_, by simp⟩ <;> (unfold State.coresNamed; decide +kernel)

/-- Guards, well-formed and not; instructions that add one result, three, and as many as a region lists. -/
theorem witness_GuardsAndRoom_constructors :
    ([(.add 1 5 1 2 : Instr), .minmax 1 5 1 2 4, .loop 0 1 0 2 5 none, .mma 1 0 1 2 3 0 0, .mma3 1 0 1 2 3 0, .straypop 0 1 2 3].map fun i => (i.guard, i.wf)) =
      [(some 1, true), (some 1, false), (some 1, true), (some 1, true), (some 1, true), (some 0, true)] ∧
    w0.me.readP 1 = false ∧ (at_ 0 looping).me.readP 1 = false ∧ (at_ 0 looping).me.ctx.la = true ∧
    mtsAccess w0.me.mode 0x00C = some cILLEGAL ∧ (mfsCheck w0.me.mode 0xFFF).isSome = true ∧ w0.me.startAt 0 < mxSteps true ∧
    (Instr.add 0 5 1 2).addsOne = true ∧ (Instr.mfs 0 1 0x00A).addsOne = true ∧ full.me.ctx.inFlight = 64 ∧
    (({ heated with ctx := { heated.ctx with items := full.me.ctx.items } }.ctx.inFlight = 64) ∧ (Instr.rhlist 1 5).guard = none ∧ (Instr.rhlist 1 5).wf = true) := by
  decide +kernel

/-- Pages that are absent, read-only, and in the face range with a frame of another core; banks that are another's. -/
def denied : Core :=
  { core0 with
    owned := 0x00BF
    ltt := [(0, lttMake 0 1 4 0 0 true true true false (faceSpa 0)), (1, lttMake 0x40000 1 4 0 0 true false true true (faceSpa 0 + 0x40000)),
      (2, lttMake 0x80000 1 4 0 0 true true true true (faceSpa 1)), (3, lttMake 0xC0000 1 4 0 0 true true true true (faceSpa 0 + 0xC0000))] }
theorem witness_ScalarAccessFaults_order :
    ([0x8, 0x40008, 0x80008, 0xC0008, 0x100000000, 0x200000].map fun x =>
      (denied.lookup x).map fun e => [winOf x == some .device, frameOk 0 .face e.2, lttP e.2, lttRD e.2, lttWR e.2, denied.owned.getLsbD (x / 0x20000)]) =
    [some [false, true, false, true, true, true], some [false, true, true, false, true, true], some [false, false, true, true, true, true],
      some [false, true, true, true, true, false], none, none] ∧ 0x8 % 8 = 0 ∧ 0x8 % 0x4000 + 8 ≤ 0x4000 ∧
    (core0.lookup 0x100000000).isSome = true ∧ winOf 0x100000000 = some .device ∧ winOf 0xC0008 = some .face := by decide +kernel

theorem witness_StoresAndAtomicsPerform_loads : (8 = 1 ∨ 8 = 2 ∨ 8 = 4 ∨ 8 = 8) ∧ (0x3FF8 : Word).toNat % 0x4000 + 8 ≤ 0x4000 := by decide

/-- A handler of the runtime with the copy that it holds. -/
theorem witness_MtsEffects_held : (at_ 1 { core0 with sh := true, held := some core0.ctx }).me.sh = true ∧
    (at_ 1 { core0 with sh := true, held := some core0.ctx }).me.held = some core0.ctx ∧
    ({ core0 with ctx := { core0.ctx with ctl := { Ctl.none with fin := [.mts 0x00A 1] } } } : Core).ctx.ctl.fin = [.mts 0x00A 1] ∧ core0.sq.length ≤ 128 := by
  decide +kernel

theorem witness_ReductionsAndFunctions_cases : fp32 0x7FC00000 = .nan ∧ (1 ≤ 1 ∧ 253 ≤ 254 ∧ 253 % 2 = 1 ∧ 254 = 127 + 127 - 0 ∧ 126 < 127) ∧
    (0x80000000 < 0xFF800000 ∧ 0x43000000 ≤ 0x7F7FFFFF ∧ 0xC3160000 < 0xC3160001 ∧ 0x1FFFFF < 0x200000 ∧ 0x4111999A ≤ 0x4111999A) := by decide +kernel
theorem witness_ConversionsAndRandomBits_nan : ∃ j, j < 8 ∧ true = true ∧ fp32 (if j = 3 then 0x7FC00000 else 0) = .nan := ⟨3, by decide, rfl, by decide +kernel⟩

/-- A gather and a scatter of the face at their first and last groups, and one whose element 2 lies on a page that no entry maps. -/
def elements (next : Nat) (store : Bool) (offs : Vec) : Macro :=
  ⟨2, 0, 0, next, 64, 9, if store then .scatter 0x100 offs 0 (BitVec.allOnes 64) false else .gather 0x100 offs (BitVec.allOnes 64) true 5 false 0 0⟩
def later (c : Core) : State := at_ 2 { c with ctx := { c.ctx with clk := 20 } }
theorem witness_VectorMemory_steps :
    ([(0, false), (60, false), (0, true), (60, true)].map fun x => (List.range 4).all fun j =>
      (elemFault (later core0) 0 (elements x.1 x.2 0) 0x100 0 false (!x.2) (x.1 + j)).isNone) = [true, true, true, true] ∧
    ([false, true].map fun st => (List.range 3).map fun j =>
      (elemFault (later core0) 0 (elements 0 st (0x80000000 <<< 64)) 0x100 (0x80000000 <<< 64) false (!st) j).isSome) = [[false, false, true], [false, false, true]] ∧
    (core0.ctx.clk < 0 + (2 + 0 / 4) ∧ 0 + (2 + 60 / 4) ≤ ((later core0).core 0).ctx.clk) ∧ (∀ i, 0 ≤ i → i < 64 → laneNat (0 : Vec) i 32 = 0) ∧
    ((later core0).core 0).check 0 0x80000100 4 4 true false [.face] = some (cTABLE, 0x80000100) := by decide +kernel

/-- An INT8 product whose last step falls due, with another that is chained on it; and the pass of a three-term product. -/
def running (three : Bool) (next : Nat) : MxRun :=
  ⟨0, 3, 0, 1, three, 0, 0, 0x10000, 0x4000000040, if three then 8 else 1, if three then 8 else 1, 0, 0, 0x3F80, 0x3F80, none, List.replicate 64 0, next,
    mxSteps three, 0, [], []⟩
def engine (three : Bool) (next clk : Nat) : Core :=
  let c := if three then paged 8 8 [] else paged 1 8 []
  { c with ctx := { c.ctx with clk := clk, mx := { c.ctx.mx with runs := [running three next], pend := [⟨9, 0, 1, 24, some (List.replicate 64 7), 0⟩], busyTo := 50 } } }
theorem witness_MatrixInstructions_deliver :
    ([(false, 0, 5), (false, 7, 12), (true, 0, 5), (true, 47, 52)].map fun x =>
      ((engine x.1 x.2.1 x.2.2).ctx.mx.due (engine x.1 x.2.1 x.2.2).ctx.clk == some (running x.1 x.2.1), (running x.1 x.2.1).tile.length,
        decide (8 ≤ x.2.1 ∧ x.1 = true) || (mxCheck [] 0 (engine x.1 x.2.1 x.2.2) (running x.1 x.2.1) x.2.1).isNone)) =
    [(true, 64, true), (true, 64, true), (true, 64, true), (true, 64, true)] ∧
    ((engine false 7 12).held.map fun h => !h.mx.runs.isEmpty).getD false = false ∧ (engine false 7 12).ctx.clk < (engine false 7 12).ctx.mx.busyTo ∧
    (engine false 7 12).startAt 0 < mxSteps false ∧ (List.replicate 64 (7 : Vec)).length = 64 := by decide +kernel

theorem witness_CompareMasks_commit : (7 : BitVec 3) ≠ 0 ∧ (1 : BitVec 3) ≠ 7 := by decide
theorem witness_VectorResultCommits_tiles : 7 < 8 ∧ 63 < 64 ∧ ¬((7 : Nat) = 6 ∧ (63 : Nat) = 63) := by decide
/-- Slots that are ACTIVE with something to drain and with nothing, and one that drains. -/
def tabled : Core := { core0 with landing := [(0, ⟨0x31, .active, 9, 0⟩), (1, ⟨0x31, .active, 0, 0⟩), (2, ⟨0x31, .draining, 4, 0⟩), (3, ⟨0x31, .free, 0, 0⟩)] }
theorem witness_RoutesMapsAndStrays_tables : ([0, 1, 2, 3, 4].map fun k => (Map.get? ((at_ 5 tabled).landTable (mapDest 0 false)) k).map fun x => (x.st, x.drain)) =
    [some (.active, 9), some (.active, 0), some (.draining, 4), some (.free, 0), none] ∧ (2 : Nat) ≠ 1 ∧ 3 < 16 := by decide +kernel


/-! ## Witnesses of what engines and arrivals leave, and of where instructions stop -/

/-- A core of a handler's work that an ERET has left under way, and an atomic of it. -/
theorem witness_StoresAndAtomicsPerform_tail :
    (⟨0, 0, 1, 8, [], some (some 0, 5, 0, 6, 2), true, true⟩ : Wr).tail = true ∧ (⟨0, 0, 1, 8, [], some (some 0, 5, 0, 6, 2), true, false⟩ : Wr).tail = false ∧
    ((at_ 1 { core0 with tail := some core0.ctx }).core 0).tail = some core0.ctx := by decide +kernel

/-- An update at its last group of lanes, before and at its time; sketches whose levels hold given numbers of entries; and lists of counters. -/
def updating : Macro := ⟨2, 0, 0, 48, 64, 9, .assay 0 (.qu 0 0 0) 0⟩
def levels (l : Map Nat) : AWork := ⟨{ Assay.fresh 1 2 1 with lev := l.map fun x => (x.1, List.replicate x.2 0) }, 0, 0, false⟩
def counters (n : Nat) : AWork :=
  ⟨{ Assay.empty with kind := 2, valid := BitVec.allOnes 64 >>> (64 - n), keys := (List.range n).map fun j => (j, (BitVec.ofNat 32 j, 9 - j, 0)) }, 0, 0, false⟩
theorem witness_AssayInstructions_lanes : (updating.total = 64 ∧ updating.next < 64) ∧ (core0.ctx.clk < updating.start + updating.offset ∧
      updating.start + updating.offset ≤ ((later core0).core 0).ctx.clk) ∧ (2 : BitVec 64).getLsbD 0 = false ∧ (2 : BitVec 64).getLsbD 1 = true ∧ (31 < 32 ∧ 63 < 64) := by
  decide +kernel
theorem witness_AssayInstructions_sketch : fp32 0x7FC00000 = .nan ∧ fp32 0x3F800000 ≠ .nan ∧ ((levels [(0, 62)]).a.level 0).length < 63 ∧
    (((levels [(0, 63), (1, 31)]).a.level 0).length = 63 ∧ ((levels [(0, 63), (1, 31)]).a.level 1).length < 32) ∧
    ((List.range 16).all fun h => decide (((levels [(0, 63), (1, 63)]).a.level h).length < 64)) = true ∧ ((levels [(15, 63)]).a.level 15).length = 63 := by decide +kernel
theorem witness_AssayInstructions_counters :
    ((counters 5).a.valid.getLsbD 4 = true ∧ ((counters 5).a.counter 4).1 = 4 ∧ ((List.range 4).all fun i => ((counters 5).a.counter i).1 != 4) = true) ∧
    ((counters 5).a.valid.getLsbD 5 = false ∧ ((List.range 5).all fun i => (counters 5).a.valid.getLsbD i) = true ∧
      ((List.range 64).all fun i => !((counters 5).a.valid.getLsbD i && ((counters 5).a.counter i).1 == 99)) = true) ∧
    ((counters 64).a.valid = BitVec.allOnes 64 ∧ ((List.range 64).all fun i => decide (((counters 64).a.counter 9).2.1 ≤ ((counters 64).a.counter i).2.1)) = true ∧
      ((List.range 9).all fun i => decide (((counters 64).a.counter 9).2.1 < ((counters 64).a.counter i).2.1)) = true) := by decide +kernel
/-- Images: a bad kind, an empty one, and one of each kind. -/
theorem witness_AssayInstructions_images :
    ([(4 : Byte) :: List.replicate 4223 0, List.replicate 4224 0, Assay.image (Assay.fresh 1 0 1), Assay.image (counters 2).a, Assay.image { Assay.empty with kind := 3 }].map
      fun b => (parseImage b).map Assay.kind) = [none, some 0, some 1, some 2, some 3] := by decide +kernel

/-- A tile being signed, at row 63 and at its decision. -/
def signing (next clk : Nat) : Core :=
  { heated with ctx := { heated.ctx with clk := clk, macros := [⟨3, 0, 0, next, 65, 9, .rhsig 1 1 0x2000 (List.replicate 16 (.fin false 0 0)) (.fin false 0 0) (List.replicate 17 0)⟩] } }
/-- A region of which tile 0 was computed once, and one whose limit is no number. -/
def aged (theta force : Nat) : Reheat := { region with
  desc := region.desc ||| BitVec.ofNat 512 (theta * 2 ^ 32 + 3 * 2 ^ 16), force := BitVec.ofNat 1024 force, ages := [(0, 1)] }
theorem witness_ReheatInstructions_engine : rhTILES region.desc ≤ 1024 ∧ Map.get? (signing 63 70).reheat 1 = some region ∧ (at_ 3 (signing 63 70)).poison = [] ∧
    ([(0, 3), (63, 66)].map fun x => (decide (x.1 < 64), decide (0 + 3 + x.1 ≤ (signing x.1 x.2).ctx.clk))) = [(true, true), (true, true)] ∧
    0 + 70 ≤ (signing 64 70).ctx.clk ∧ (4 : Nat) < 5 := by decide +kernel
theorem witness_ReheatInstructions_skip : (region.force.getLsbD 0 = true ∧ (aged 0x3A800000 0).force.getLsbD 0 = false) ∧
    fp32 (List.getD (List.replicate 17 (0x7FC00000 : BitVec 32)) 16 0).toNat = .nan ∧ (∃ b m e, fp32 (List.getD (List.replicate 17 (0x3F800000 : BitVec 32)) 16 0).toNat = .fin b m e) ∧
    (List.replicate 17 (0 : BitVec 32)).length = 17 := ⟨by decide +kernel, by decide +kernel, ⟨_, _, _, rfl⟩, by decide⟩

/-- A face of FP4 pages, A's of block geometry 1 and B's of 2. -/
def fp4 (l : Map Word) : Core :=
  { regs l core0 with ltt := [(0, lttMake 0 1 5 1 0 true true true true (faceSpa 0)), (1, lttMake 0x40000 1 5 2 0 true true true true (faceSpa 0 + 0x40000))] }
/-- The answer of the issue checks. -/
def issued (c : Core) (three : Bool) (y : BitVec 2) (a b t : Word) : Option Nat := (mxIssueCheck 0 c three y a b t 0).map Prod.fst
theorem witness_MatrixInstructions_issue :
    ((operands 1).lookup 0x200000 = none ∧ ((operands 1).lookup 0).isSome = true ∧ ((operands 1).lookup 0x10000).isSome = true) ∧
    (winOf (0x1000000 : Word).toNat ≠ some .face ∧ winOf (0 : Word).toNat = some .face ∧ ((operands 1).lookup 0x1000000).isSome = true) ∧
    (mxAOk 0 0 = false ∧ mxAOk 1 0 = true ∧ mxBOk true 1 1 0 0 = false ∧ mxBOk false 1 1 0 1 = true) ∧
    ([issued (operands 1) false 1 0x200000 0 0, issued (operands 1) false 1 0x1000000 0 0, issued (operands 1) false 1 0 0x1000000 0, issued (operands 0) false 1 0 0 0,
      issued (operands 1) true 1 0 0 0, issued (operands 1) false 1 0xFF000 0 0x80, issued (operands 1) false 1 0 0xFF000 (0x80 * 2 ^ 32), issued (operands 1) false 1 8 0 0,
      issued (operands 1) false 1 0 8 0, issued (operands 1) false 1 0 0 8, issued (operands 1) false 1 0 0 (8 * 2 ^ 32), issued (fp4 []) false 0 0 0x40000 0] =
      [some cTABLE, some cCLASS, some cCLASS, some cFORMAT, some cFORMAT, some cCLASS, some cCLASS, some cALIGN, some cALIGN, some cALIGN, some cALIGN, some cSCALE]) := by
  decide +kernel
/-- Face pages that no entry maps, that are absent, of another format, not readable; and of FP4 with no scale entries. -/
def lateStops : List (Core × MxRun) :=
  let page (f : Nat) (rd p : Bool) : Core := { core0 with ltt := [(0, lttMake 0 2 f 0 0 true rd true p (faceSpa 0))] }
  [({ core0 with ltt := [] }, running false 0), (page 1 true false, running false 0), (page 8 true true, running false 0), (page 1 false true, running false 0),
    (fp4 [], { running false 0 with fA := 5, fB := 5, gA := 1, gB := 2, sB := 0x40000 })]
theorem witness_MatrixInstructions_late :
    (lateStops.map fun x => ((touched (x.2.rangesA 0)).head?, (mxCheck [] 0 x.1 x.2 0).map Trap.code)) =
      [(some 0, some cTABLE), (some 0, some cPAGE), (some 0, some cFORMAT), (some 0, some cPERM), (some 0, some cSCALE)] ∧
    badBlock 10 [List.replicate 3 0] = some (0, 0) ∧ badBlock 10 [[0, 0, 0x0F]] = none ∧
    (engine false 0 5).ctx.mx.due (engine false 0 5).ctx.clk = some (running false 0) := by decide +kernel

/-- Addresses at which a queued instruction stops: none in a window; a base that no entry covers with an address that one does; the face; a page of no
tile format; a misaligned address, and a stride. -/
theorem witness_QueuedCopies_stops :
    let c := paged 8 8 [(1, 0x200000), (2, 0xFFFFFFF0), (3, 0x100), (4, 0x100000002), (5, 0x100000000), (6, 2)]
    let n := paged 8 5 []
    c.lookup (c.readS (1 : BitVec 6)).toNat = none ∧ c.tilePend.getLsbD 3 = false ∧ { queuing with tilePend := 0x80 }.tilePend.getLsbD 7 = true ∧
    (c.lookup (c.readS (2 : BitVec 6)).toNat = none ∧ (c.lookup (c.readS (2 : BitVec 6) + (16 : BitVec 32).signExtend 64).toNat).isSome = true) ∧
    (winOf (c.readS (3 : BitVec 6)).toNat ≠ some .device ∧ (c.lookup (c.readS (3 : BitVec 6)).toNat).isSome = true) ∧
    (winOf (0x100000000 : Word).toNat = some .device ∧ ((n.lookup 0x100000000).map fun x => (frameOk 0 .device x.2, tileBytes (lttFMT x.2))) = some (true, 0)) ∧
    (((c.lookup 0x100000002).map fun x => (frameOk 0 .device x.2, tileBytes (lttFMT x.2))) = some (true, 4) ∧ (c.readS (4 : BitVec 6)).toNat % 4 ≠ 0 ∧
      (c.readS (5 : BitVec 6)).toNat % 4 = 0 ∧ (c.readS (6 : BitVec 6)).toNat % 2 ^ 32 % 4 ≠ 0) := by decide +kernel

/-- Sixty-two results in flight: no room for the two rows of a CXTILE, or for three receives of a WBRUN. -/
def crowded (c : Core) (n : Nat) : Core := { c with ctx := { c.ctx with items := List.replicate n ⟨9, 0, 1, true, false, 0, []⟩ } }
theorem witness_GuardsAndRoom_reserves : 64 < (crowded copying 63).ctx.inFlight + min 2 (64 - (crowded copying 63).startAt 3) ∧
    (crowded copying 62).ctx.inFlight + min 2 (64 - (crowded copying 62).startAt 3) ≤ 64 ∧
    64 < (crowded comm.me 62).ctx.inFlight + min 3 (511 - (crowded comm.me 62).startAt 6) ∧ 64 ≤ (crowded comm.me 64).ctx.inFlight ∧
    ((Map.get? (crowded comm.me 64).agroups 0).map fun d => (decide (0 < grCOUNT d.desc), grNODE d.desc 0 == (crowded comm.me 64).node, grABSENT d.desc 0)) =
      some (true, true, false) := by decide +kernel

/-- Operands at which the runtime instructions stop: a misaligned area, an area with a page that is not pinned, bytes that are no image, images of a
bad MODE and of too many entries, a page that no face entry covers, and ranges outside the table. -/
theorem witness_RuntimeInstructions_stops :
    let s := saved (handling false)
    let t (x : Memory) : State := { s with mem := tables 1 ++ x }
    let magic : Memory := [(0x100000, 0x53), (0x100001, 0x4E), (0x100002, 0x50), (0x100003, 0x58), (0x100004, 1)]
    s.me.mode ≠ 0 ∧ (saveCheck s s.me 0x100800 0x18000).map Prod.fst = some cALIGN ∧
    ((saveCheck { s with mem := tables 0 } s.me 0x100000 0x2A1000).map Prod.fst = some cSAVE) ∧ (saveCheck s s.me 0x100000 0x2A1000 = none) ∧
    imageMagic (t []).mem 0x100000 = false ∧ (imageMagic (t (magic ++ [(0x100006, 65)])).mem 0x100000 = true ∧ 64 < memNat (t (magic ++ [(0x100006, 65)])).mem (0x100000 + 6) 1) ∧
    2 ≤ memNat (t (magic ++ [(0x100100, 2)])).mem (0x100000 + 0x100) 8 % 4 ∧
    (winOf ((handling true).readS (2 : BitVec 6)).toNat ≠ some .face) ∧
    (((0 : Word).extractLsb' 16 11).toNat = 0 ∧ 1024 < ((0x4010000 : Word).extractLsb' 16 11).toNat ∧
      1024 < ((0x203FF : Word).extractLsb' 0 10).toNat + ((0x203FF : Word).extractLsb' 16 11).toNat) ∧
    (inDevice 0x100000 = true ∧ (s.msu (msuOf 0x100000)).offline = false ∧ ((leafOver s.mem 3 part0.system.toNat 0x100000).map ptePIN) = some true ∧
      ((leafOver (tables 0) 3 part0.system.toNat 0x100000).map ptePIN) = some false) := by decide +kernel

/-- Two cores whose tables and shadow banks elements reach: a map with PRIO 1 and one that drains; no map; and strays already held. -/
def shadowed : Core :=
  { core0 with landing := [(2, ⟨BitVec.ofNat 512 (0x31 + 2 ^ 16 + 0x10 * 2 ^ 32 + 7 * 2 ^ 128 + 0x100 * 2 ^ 192 + 2 ^ 256), .active, 0, 0⟩),
    (5, ⟨BitVec.ofNat 512 (0x31 + 2 ^ 16 + 0x10 * 2 ^ 32 + 7 * 2 ^ 128 + 0x100 * 2 ^ 192 + 2 ^ 256), .draining, 1, 0⟩)] }
def reached : State := pair 5 shadowed core1
theorem witness_ArrivalEvents_cores : reached.memInv ∧
    ((packet 1 0).bad = 0 ∧ pktChecked (packet 1 0) = packet 1 0 ∧ pktChecked (packet 4 0) = packet 4 0 ∧ reached.waitAway (packet 1 0) (.coordinatePacket 0 (packet 1 0)) = none ∧
      reached.packetCore (packet 1 0) 0 = 0 ∧ (reached.core 0).stopped = none) ∧
    (landDecide (reached.core 0).landing 0x31 false 8 (pktCoord (packet 1 0) 1) = some (5, false) ∧
      landDecide ((reached.core 0).landing.take 1) 0x31 false 8 (pktCoord (packet 1 0) 1) = some (2, false)) ∧
    ((reached.core 0).landing.map fun m => (landValue (lmFMT m.2.desc) 8 (pktElem (packet 1 0) 1), lmAddress m.2.desc 4 (pktCoord (packet 1 0) 1))) =
      [((0x3F800000, 4), 0x114), ((0x3F800000, 4), 0x114)] ∧ 0x114 % 4 = 0 ∧ 0x114 + 4 ≤ 0x100000 := ⟨rfl, by decide +kernel⟩
theorem witness_ArrivalEvents_strays :
    landDecide (reached.core 1).landing 0x31 false 8 (pktCoord (packet 1 0) 0) = none ∧
    ((reached.core 0).runsIn 0 = true ∧ (reached.core 8).runsIn 0 = false) ∧ (landDecide (reached.cluster 0).landing 0x31 false 8 (pktCoord (packet 1 0) 0) = none) ∧
    ((packet 2 0).sent = none ∧ { packet 2 0 with sent := some (1, 4) }.sent = some (1, 4) ∧ (packet 2 0).spkg = 0 ∧ (reached.core 1).runsIn (packet 2 0).part = true) ∧
    ({ strayed with strayIn := strayed.strays }.strays.length < 4 ∧ (∀ t ∈ strayed.events, t.code ≠ cSTRAY)) := by decide +kernel
/-- A route to two nodes of a cluster. -/
theorem witness_ArrivalEvents_multicast : (reached.launchOf (reached.core 0)).isSome = true ∧
    rtKIND (BitVec.ofNat 256 (7 + 4 * 2 ^ 16 + 3 * 2 ^ 192)) = 4 ∧ byteField (BitVec.ofNat 256 (7 + 4 * 2 ^ 16 + 3 * 2 ^ 192)) 0x18 8 = 3 := by decide +kernel
/-- A collective with a member whose error comes with its result. -/
theorem witness_ArrivalEvents_error : ((Map.get? (arriving false).launches 1).map fun l => decide (l.part = 0)) = some true ∧
    ((arriving false).core 0).runsIn 0 = true ∧ (0 : Nat) ∈ (arriving false).cores.map Prod.fst ∧
    ((Map.get? (arriving false).launches 1).map fun l => ((arriving false).core 0).launchId.extractLsb' 0 16 == l.lid.extractLsb' 0 16) = some true := by decide +kernel
/-- A core that an emergency stop has left in firmware mode, in a rectangle to be formed, and one outside it. -/
theorem witness_MemorySideEvents_dead :
    ([7, 16].map fun n => ({ State.reset with cores := [(n, { Core.reset with run := .dead, mode := 2 })] } : State).cores.any
      fun y => y.2.run == .dead && (rectangle 0 0 1 2).contains (clusterOf y.1)) = [true, false] := by decide +kernel
/-- A partition that admits nothing, and a debugger that looks at it. -/
theorem witness_DebuggerCommands_halted : ({ part1 none with halted := some 0x21 } : Part).admits = false ∧ (part1 none).admits = true := by decide +kernel
/-- A frame of which device memory holds a write. -/
theorem witness_PortEvents_held :
    let r : RxFlow := ⟨3, 4, 9, 7, 0, 2, [(6, (0, 0x1000, [1]))]⟩
    (6, (0, 0x1000, [1])) ∈ r.held ∧ ({ ports with heldWrites := [(0, 0x1000, [1])] } : State).heldWrites.contains (0, 0x1000, [1]) = true ∧ r.count ≠ 0 := by decide +kernel

/-! ## Small steps and values whose results the spec's own examples and tables give -/

/-- Scalars with edge values. -/
def vals : State := at_ 1 (regs [(1, 7), (2, 0xFFFFFFFFFFFFFFFE), (3, 0x8000000000000000), (4, 0xFFFFFFFFFFFFFFFF), (6, 0x0000000000001F08)] core0)

-- R112: f and latency of the two-operand family; the launch's first bundle has schedule count 0.
theorem test_add_wraps : flies (exec (.add 0 5 1 2) vals) [(1, [.setS 5 5])] = true := by decide +kernel
theorem test_sub_order : flies (exec (.sub 0 5 1 2) vals) [(1, [.setS 5 9])] = true := by decide +kernel
theorem test_mul_latency : flies (exec (.mul 0 5 1 2) vals) [(3, [.setS 5 0xFFFFFFFFFFFFFFF2])] = true := by decide +kernel
theorem test_mulh_signed_by_unsigned : flies (exec (.mulh 0 5 2 1 2) vals) [(3, [.setS 5 0xFFFFFFFFFFFFFFFF])] = true := by decide +kernel
theorem test_mulh_unsigned : flies (exec (.mulh 0 5 2 1 1) vals) [(3, [.setS 5 6])] = true := by decide +kernel
-- R58: a zero divisor, and −2^63 by −1.
theorem test_div_by_zero : flies (exec (.div 0 5 1 7 0) vals) [(12, [.setS 5 0xFFFFFFFFFFFFFFFF])] = true := by decide +kernel
theorem test_rem_by_zero : flies (exec (.div 0 5 1 7 2) vals) [(12, [.setS 5 7])] = true := by decide +kernel
theorem test_div_overflow : flies (exec (.div 0 5 3 4 0) vals) [(12, [.setS 5 0x8000000000000000])] = true := by decide +kernel
-- R57: a negative immediate is an amount of at least 2^63.
theorem test_shli_negative : flies (exec (.shli 0 5 1 0x3FF none) vals) [(1, [.setS 5 0])] = true := by decide +kernel
theorem test_sari_negative : flies (exec (.sari 0 5 3 0x3FF none) vals) [(1, [.setS 5 0xFFFFFFFFFFFFFFFF])] = true := by decide +kernel
-- R112, R113: orders of M.
theorem test_minmax_umin : flies (exec (.minmax 0 5 1 2 2) vals) [(1, [.setS 5 7])] = true := by decide +kernel
theorem test_minmax_smin : flies (exec (.minmax 0 5 1 2 0) vals) [(1, [.setS 5 0xFFFFFFFFFFFFFFFE])] = true := by decide +kernel
theorem test_lea : flies (exec (.lea 0 5 2 1 3) vals) [(1, [.setS 5 54])] = true := by decide +kernel
theorem test_cmp_signed : flies (exec (.cmp 0 9 2 1 2) vals) [(1, [.setP 9 true])] = true := by decide +kernel
theorem test_cmp_unsigned : flies (exec (.cmp 0 9 2 1 4) vals) [(1, [.setP 9 false])] = true := by decide +kernel
theorem test_cmp_reserved : traps (exec (.cmp 0 9 2 1 6) vals) (0x100 + cILLEGAL) 1 = true := by decide +kernel
theorem test_ext_field : flies (exec (.ext 0 5 4 6 0) vals) [(1, [.setS 5 0x7FFFFFFF])] = true := by decide +kernel
theorem test_ext_sign : flies (exec (.ext 0 5 4 6 1) vals) [(1, [.setS 5 0xFFFFFFFFFFFFFFFF])] = true := by decide +kernel
-- R113: a count of a zero operand is 64.
theorem test_bitc_clz_zero : flies (exec (.bitc 0 5 7 1) vals) [(1, [.setS 5 64])] = true := by decide +kernel
-- R114: the high 16 bits, and the low 48 kept.
theorem test_movhi_short : flies (exec (.movhi 0 2 0x1234 none) vals) [(1, [.setS 2 0x1234FFFFFFFFFFFE])] = true := by decide +kernel
-- R115, R116, R245: a load performs at c+2 and delivers at c+4; an address that is no multiple of the size is ALIGN at slot 1.
theorem test_ldd_performs : flies (exec (.ldd 0 5 7 8 none) vals) [(2, [.load 8 8 false 5 2])] = true := by decide +kernel
theorem test_ldd_misaligned : traps (exec (.ldd 0 5 1 0 none) vals) (0x100 + cALIGN) 7 = true := by decide +kernel

-- R43: mix(0, 0) = 0.
theorem test_mix_zero : mix 0 0 = 0 := by decide +kernel
-- R36: example codes of E5M5.
theorem test_block_scales : (e5m5 0x1E0).eq (.fin false 1 0) = true ∧ (e5m5 0x080).eq (.fin false 1 (-11)) = true ∧ (e5m5 0x001).eq (.fin false 1 (-19)) = true ∧
    (e5m5 0x3FE).eq (.fin false 126976 0) = true ∧ e5m5 0x3FF = .nan := by decide +kernel
-- R34: E4M3's largest value, and the codes of E2M1.
theorem test_small_formats : (Fmt.e4m3.decode 0x7E).eq (.fin false 448 0) = true ∧
    ([(0, 0), (1, 1), (2, 2), (3, 3), (4, 4), (5, 6), (6, 8), (7, 12)] : List (Nat × Nat)).all
      (fun x => (Fmt.e2m1.decode x.1).eq (.fin false x.2 (-1))) = true := by decide +kernel
-- R44: 2.5 to INT32 under RNE gives 2 and sets NX; beyond the range of E4M3 gives 448.
theorem test_float_to_integer : convert .rne 0 5 0x40200000 = (2, flNX) := by decide +kernel
theorem test_e4m3_overflow : Fmt.e4m3.round .rne (.fin false 1000 0) = (0x7E, flOF ||| flNX) := by decide +kernel
-- R211's example: 1.01171875 lies halfway between two BF16 values, and RNE delivers the even one.
theorem test_bf16_tie : (Fmt.bf16.round .rne (.fin false 259 (-8))).1 = 0x3F82 := by decide +kernel
-- R56's example: the block word and the scale code.
theorem test_vqnt_block :
    ((quantBlock (fun j => [0x3F800000, 0xC0200000, 0x40E00000, 0x3E99999A, 0, 0, 0, 0].getD j 0) (fun j => decide (j < 6))).1,
     (quantBlock (fun j => [0x3F800000, 0xC0200000, 0x40E00000, 0x3E99999A, 0, 0, 0, 0].getD j 0) (fun j => decide (j < 6))).2.1) = (0x17C2, 0x1E6) := by
  decide +kernel
-- R48's example: t = 1 + 2^-24, a band of 1.5 and an accumulator of 0.25 give 1.75.
theorem test_beat_rounds_three_times : (beatUpdate 0 (.fin false (2 ^ 24 + 1) (-24)) false 0x3FC0 0x3F80 0x3E800000).1 = 0x3FE00000 := by decide +kernel
theorem test_beat_sum : (beatSum .e2m1 .e2m1 [(0, 2), (8, 1)] [2, 0, 0, 0, 0, 0, 0, 0, 1] (fun g => some (if g = 0 then (0x1E0, 0x1E0) else (0x080, 0x080)))).eq
    (.fin false (2 ^ 24 + 1) (-24)) = true := by decide +kernel
-- R48: t starts at 0, so that products that are all -0 give an accumulator of -0 the sum +0.
theorem test_beat_negative_zeros :
    (beatUpdate 0 (beatSum .bf16 .bf16 [(0, 0x8000), (1, 0x8000)] [0x3F80, 0x3F80] fun _ => none) false 0x3F80 0x3F80 0x80000000).1 = 0 := by decide +kernel
-- R82: N = 15 is ILLEGAL at slot 0 of the packed line.
theorem test_pack_reserved : traps (exec (.pack 15) (at_ 0 core0)) cILLEGAL 0 = true := by decide +kernel
-- R307's example: a binary tree over four clusters.
theorem test_binary_tree : (List.range 4).map (treeParent 4 2 0 3) = [none, some 0, some 0, some 2] := by decide +kernel
-- R278's example: a BF16 block of 2.25 and 0 trims at K = 5, and its header.
theorem test_block_header : blockHeader 3 6 5 0 0x600 = 0x00002B6006000000 := by decide +kernel
theorem test_trim_element : trimCode .bf16 5 0x4010 = 0x4000 ∧ trimCode .bf16 4 0x4010 = 0x4010 := by decide +kernel
-- R149 to R151's example: a sketch that compacts twice holds N = 128, CNT[0] = 2, CNT[1] = 1, B = 4, and answers 113.0 for 0.9.
def sketch : Assay :=
  ((List.range 128).foldl (fun w x => AWork.quLane w (Fmt.fp32.round .rne (.fin false x 0)).1) (⟨Assay.fresh 1 2 0, 0, 0, false⟩ : AWork)).a
theorem test_sketch : sketch.n = 128 ∧ Map.get sketch.cnt 0 0 = 2 ∧ Map.get sketch.cnt 1 0 = 1 ∧ sketch.bound = 4 ∧
    quantileOf sketch.entries sketch.n 0x3F666666 = 0x42E20000 := by decide +kernel

end Sys2Proof.Tests
end

section
/-! PROOFS. Shift amounts (R57): what each shift gives, as a function of its whole amount, and what that function is below the width and from
the width on. -/

namespace Sys2Proof.Machine

open Sys2Proof

/-! ## The shifts of a word (R57) -/

theorem shl64_of_lt {v : Word} (h : v.toNat < 64) (x : Word) : shl64 x v = x <<< v.toNat := if_neg (Nat.not_le.2 h)
theorem shr64_of_lt {v : Word} (h : v.toNat < 64) (x : Word) : shr64 x v = x >>> v.toNat := if_neg (Nat.not_le.2 h)
theorem sar64_of_lt {v : Word} (h : v.toNat < 64) (x : Word) : sar64 x v = x.sshiftRight v.toNat := if_neg (Nat.not_le.2 h)
theorem shl64_of_ge {v : Word} (h : 64 ≤ v.toNat) (x : Word) : shl64 x v = 0 := if_pos h
theorem shr64_of_ge {v : Word} (h : 64 ≤ v.toNat) (x : Word) : shr64 x v = 0 := if_pos h
theorem sar64_of_ge {v : Word} (h : 64 ≤ v.toNat) (x : Word) : sar64 x v = if x.msb then BitVec.allOnes 64 else 0 := if_pos h

/-! ## The scalar shifts (R112) -/

section
variable {s : State} {g : BitVec 4} (on : s.on g) (room : s.roomy) (d a b : BitVec 6) (i : BitVec 10) (xw : Option (BitVec 32))
include on room

theorem exec_shl : exec (.shl g d a b) s = s.givesS 1 d (shl64 (s.me.readS a) (s.me.readS b)) := aluOp_gives on room d 1 _
theorem exec_shr : exec (.shr g d a b) s = s.givesS 1 d (shr64 (s.me.readS a) (s.me.readS b)) := aluOp_gives on room d 1 _
theorem exec_sar : exec (.sar g d a b) s = s.givesS 1 d (sar64 (s.me.readS a) (s.me.readS b)) := aluOp_gives on room d 1 _
theorem exec_shli : exec (.shli g d a i xw) s = s.givesS 1 d (shl64 (s.me.readS a) (imm10 i xw)) := aluOp_gives on room d 1 _
theorem exec_shri : exec (.shri g d a i xw) s = s.givesS 1 d (shr64 (s.me.readS a) (imm10 i xw)) := aluOp_gives on room d 1 _
theorem exec_sari : exec (.sari g d a i xw) s = s.givesS 1 d (sar64 (s.me.readS a) (imm10 i xw)) := aluOp_gives on room d 1 _

end

/-! ## The vector shifts (R126) -/

/-- A lane-wise integer instruction with room gives its lanes two cycles later, with no flag. -/
theorem intOp_gives {s : State} (room : s.roomy) (k : BitVec 3) (z : BitVec 1) (d a : BitVec 7) (n : BitVec 1) (b : BitVec 6)
    (sc : BitVec 1) (f : Nat → Nat → Nat → Nat) :
    intOp s k z d a n b sc f =
      s.givesLanes 2 (intWidth n) d k z (fun l => f (intWidth n) (s.laneA a (intWidth n) l) (s.laneI n b sc l)) 0 := by
  rw [intOp, State.act_becomes, State.deliverV, State.deliver_of_lt room]
  rfl

section
variable {s : State} (room : s.roomy) (k : BitVec 3) (z : BitVec 1) (d a : BitVec 7) (n : BitVec 1) (b : BitVec 6) (sc : BitVec 1)
include room

theorem exec_vshl : exec (.vshl k z d a n b sc) s = s.givesLanes 2 (intWidth n) d k z
    (fun l => if intWidth n ≤ s.laneI n b sc l then 0 else s.laneA a (intWidth n) l * 2 ^ s.laneI n b sc l) 0 :=
  intOp_gives room k z d a n b sc fun w x v => if w ≤ v then 0 else x * 2 ^ v
theorem exec_vshr : exec (.vshr k z d a n b sc) s = s.givesLanes 2 (intWidth n) d k z
    (fun l => if intWidth n ≤ s.laneI n b sc l then 0 else s.laneA a (intWidth n) l / 2 ^ s.laneI n b sc l) 0 :=
  intOp_gives room k z d a n b sc fun w x v => if w ≤ v then 0 else x / 2 ^ v
theorem exec_vsar : exec (.vsar k z d a n b sc) s = s.givesLanes 2 (intWidth n) d k z
    (fun l => sarLane (intWidth n) (s.laneA a (intWidth n) l) (s.laneI n b sc l)) 0 :=
  intOp_gives room k z d a n b sc sarLane

end

/-! ## The arithmetic shift of a lane (R33, R57) -/

/-- A word of `w` bits read in two's complement lies above −2^w. -/
theorem neg_two_pow_le_signed (w x : Nat) : -((2 ^ w : Nat) : Int) ≤ signed w x := by
  unfold signed
  split <;> omega

/-- And it lies below 2^w. -/
theorem signed_lt_two_pow (w x : Nat) : signed w x < ((2 ^ w : Nat) : Int) := by
  have := Nat.mod_lt x (Nat.two_pow_pos w)
  unfold signed
  split <;> omega

/-- A shift of the whole width leaves the sign alone: −1 or 0. -/
theorem signed_div_two_pow (w x : Nat) : signed w x / ((2 ^ w : Nat) : Int) = if signed w x < 0 then -1 else 0 := by
  have pos : (0 : Int) < ((2 ^ w : Nat) : Int) := Int.natCast_pos.2 (Nat.two_pow_pos w)
  split
  case isTrue neg => exact (Int.ediv_eq_iff_of_pos pos).2 ⟨by have := neg_two_pow_le_signed w x; omega, by omega⟩
  case isFalse nonneg => exact Int.ediv_eq_zero_of_lt (Int.not_lt.1 nonneg) (signed_lt_two_pow w x)

/-- −1 as a word of `w` bits has every bit set. -/
theorem wrapNat_neg_one (w : Nat) : wrapNat w (-1) = 2 ^ w - 1 := by
  have pos := Nat.two_pow_pos w
  have rem : (-1 : Int) % ((2 ^ w : Nat) : Int) = ((2 ^ w : Nat) : Int) - 1 := by
    rw [← Int.add_emod_right, Int.emod_eq_of_lt (by omega) (by omega)]
    omega
  rw [wrapNat, rem]
  omega

/-- A word of `w` bits is its own remainder modulo 2^w. -/
theorem wrapNat_mod (w : Nat) (i : Int) : wrapNat w i % 2 ^ w = wrapNat w i := by
  have pos : (0 : Int) < ((2 ^ w : Nat) : Int) := Int.natCast_pos.2 (Nat.two_pow_pos w)
  exact Nat.mod_eq_of_lt ((Int.toNat_lt (Int.emod_nonneg i pos.ne')).2 (Int.emod_lt_of_pos i pos))

/-- Below the width, an arithmetic shift divides by a power of 2 towards −∞. -/
theorem sarLane_of_lt {w v : Nat} (h : v < w) (x : Nat) : sarLane w x v = wrapNat w (signed w x / 2 ^ v) := by
  simp [sarLane, Nat.min_eq_left h.le]

/-- From the width on, it copies the sign bit. -/
theorem sarLane_of_ge {w v : Nat} (h : w ≤ v) (x : Nat) : sarLane w x v = if signed w x < 0 then 2 ^ w - 1 else 0 := by
  rw [sarLane, Nat.min_eq_right h, signed_div_two_pow]
  split
  · exact wrapNat_neg_one w
  · simp [wrapNat]

/-- An arithmetic shift of a lane by its whole amount. -/
theorem sarLane_mod (w x v : Nat) : sarLane w x v % 2 ^ w =
    if w ≤ v then (if signed w x < 0 then 2 ^ w - 1 else 0) else (signed w x / 2 ^ v % 2 ^ w).toNat := by
  rw [show sarLane w x v % 2 ^ w = sarLane w x v from wrapNat_mod w _]
  split
  case isTrue big => exact sarLane_of_ge big x
  case isFalse small => simp [sarLane_of_lt (Nat.not_le.1 small), wrapNat]

/-! ## The obligation -/

/-- Settles O17: every shift gives a function of its whole amount (`exec_shl` and its siblings, `intOp_gives`), and each of these functions is
known below the width and from the width on. -/
theorem shiftAmounts : Obligations.ShiftAmounts := by
  intro s g d a b i xw k z n sc vd va on room x y j sign w amount lane
  have imm : imm10 i xw = j := by cases xw <;> rfl
  refine ⟨fun big => ?registerBig, fun small => ?registerSmall, fun big => ?immediateBig, fun small => ?immediateSmall, BitVec.le_toNat_of_msb_true,
    exec_vshl room .., exec_vshr room .., _, exec_vsar room .., fun l => sarLane_mod w (lane l) (amount l)⟩
  case registerBig =>
    rw [exec_shl on room, exec_shr on room, exec_sar on room, shl64_of_ge big, shr64_of_ge big, sar64_of_ge big]
    exact ⟨rfl, rfl, rfl⟩
  case registerSmall =>
    rw [exec_shl on room, exec_shr on room, exec_sar on room, shl64_of_lt small, shr64_of_lt small, sar64_of_lt small]
    exact ⟨rfl, rfl, rfl⟩
  case immediateBig =>
    rw [exec_shli on room, exec_shri on room, exec_sari on room, imm, shl64_of_ge big, shr64_of_ge big, sar64_of_ge big]
    exact ⟨rfl, rfl, rfl⟩
  case immediateSmall =>
    rw [exec_shli on room, exec_shri on room, exec_sari on room, imm, shl64_of_lt small, shr64_of_lt small, sar64_of_lt small]
    exact ⟨rfl, rfl, rfl⟩

end Sys2Proof.Machine
end

section
/-! PROOFS. The two-operand scalar family (R58, R112): what each of its instructions gives, that the model's shifts, minima, high products and
quotients are the operations of words, and the corners of division. -/

namespace Sys2Proof.Machine

open Sys2Proof

/-! ## Reserved values of M (R95) -/

/-- A scalar result of a word that holds no reserved value. -/
theorem checked_aluOp_gives {s : State} {g : BitVec 4} (on : s.on g) (room : s.roomy) {p : Prop} [Decidable p] (listed : p) (d : BitVec 6)
    (lat : Nat) (f : Core → Word) : s.checked (decide p) (aluOp s g d lat f) = s.givesS lat d (f s.me) := by
  rw [decide_eq_true listed, State.checked_true, aluOp_gives on room]

/-- A value of M that is not below the number of those listed is ILLEGAL. -/
theorem State.checked_lt_of_ge {m n : Nat} (reserved : n ≤ m) (s : State) (k : Out) :
    s.checked (decide (m < n)) k = s.becomes (s.fault cILLEGAL (BitVec.ofNat 64 s.slot) 0 s.me) := by
  rw [decide_eq_false (Nat.not_lt.2 reserved), State.checked_false]
  rfl

theorem exec_minmax_reserved {m : BitVec 4} (h : 4 ≤ m.toNat) (s : State) (g : BitVec 4) (d a b : BitVec 6) :
    exec (.minmax g d a b m) s = s.becomes (s.fault cILLEGAL (BitVec.ofNat 64 s.slot) 0 s.me) := State.checked_lt_of_ge h s _
theorem exec_mulh_reserved {m : BitVec 4} (h : 3 ≤ m.toNat) (s : State) (g : BitVec 4) (d a b : BitVec 6) :
    exec (.mulh g d a b m) s = s.becomes (s.fault cILLEGAL (BitVec.ofNat 64 s.slot) 0 s.me) := State.checked_lt_of_ge h s _
theorem exec_div_reserved {m : BitVec 4} (h : 4 ≤ m.toNat) (s : State) (g : BitVec 4) (d a b : BitVec 6) :
    exec (.div g d a b m) s = s.becomes (s.fault cILLEGAL (BitVec.ofNat 64 s.slot) 0 s.me) := State.checked_lt_of_ge h s _

/-! ## What each instruction gives (R112) -/

section
variable {s : State} {g : BitVec 4} (on : s.on g) (room : s.roomy) (d a b : BitVec 6) (i : BitVec 10) (xw : Option (BitVec 32))
include on room

theorem exec_add : exec (.add g d a b) s = s.givesS 1 d (s.me.readS a + s.me.readS b) := aluOp_gives on room d 1 _
theorem exec_addi : exec (.addi g d a i xw) s = s.givesS 1 d (s.me.readS a + imm10 i xw) := aluOp_gives on room d 1 _
theorem exec_sub : exec (.sub g d a b) s = s.givesS 1 d (s.me.readS a - s.me.readS b) := aluOp_gives on room d 1 _
theorem exec_and : exec (.and g d a b) s = s.givesS 1 d (s.me.readS a &&& s.me.readS b) := aluOp_gives on room d 1 _
theorem exec_andi : exec (.andi g d a i xw) s = s.givesS 1 d (s.me.readS a &&& imm10 i xw) := aluOp_gives on room d 1 _
theorem exec_or : exec (.or g d a b) s = s.givesS 1 d (s.me.readS a ||| s.me.readS b) := aluOp_gives on room d 1 _
theorem exec_ori : exec (.ori g d a i xw) s = s.givesS 1 d (s.me.readS a ||| imm10 i xw) := aluOp_gives on room d 1 _
theorem exec_xor : exec (.xor g d a b) s = s.givesS 1 d (s.me.readS a ^^^ s.me.readS b) := aluOp_gives on room d 1 _
theorem exec_xori : exec (.xori g d a i xw) s = s.givesS 1 d (s.me.readS a ^^^ imm10 i xw) := aluOp_gives on room d 1 _
theorem exec_lea (sh : BitVec 4) : exec (.lea g d a b sh) s = s.givesS 1 d (s.me.readS a + s.me.readS b <<< sh.toNat) := aluOp_gives on room d 1 _
theorem exec_mul : exec (.mul g d a b) s = s.givesS 3 d (s.me.readS a * s.me.readS b) := aluOp_gives on room d 3 _
theorem exec_minmax {m : BitVec 4} (listed : m.toNat < 4) :
    exec (.minmax g d a b m) s = s.givesS 1 d (minmax64 m.toNat (s.me.readS a) (s.me.readS b)) := checked_aluOp_gives on room listed d 1 _
theorem exec_mulh {m : BitVec 4} (listed : m.toNat < 3) :
    exec (.mulh g d a b m) s = s.givesS 3 d (mulh64 m.toNat (s.me.readS a) (s.me.readS b)) := checked_aluOp_gives on room listed d 3 _
theorem exec_div {m : BitVec 4} (listed : m.toNat < 4) :
    exec (.div g d a b m) s = s.givesS 12 d (div64 m.toNat (s.me.readS a) (s.me.readS b)) := checked_aluOp_gives on room listed d 12 _

end

/-! ## Shifts by any amount (R57) -/

/-- From 64 on, the shift of a word moves every bit out. -/
theorem shl64_eq (x v : Word) : shl64 x v = x <<< v.toNat := by
  rcases Nat.lt_or_ge v.toNat 64 with small | big
  · exact shl64_of_lt small x
  · rw [shl64_of_ge big, BitVec.shiftLeft_eq_zero big]
    rfl

theorem shr64_eq (x v : Word) : shr64 x v = x >>> v.toNat := by
  rcases Nat.lt_or_ge v.toNat 64 with small | big
  · exact shr64_of_lt small x
  · rw [shr64_of_ge big, BitVec.ushiftRight_eq_zero big]
    rfl

/-- And an arithmetic shift leaves copies of the sign bit alone. -/
theorem sar64_eq (x v : Word) : sar64 x v = x.sshiftRight v.toNat := by
  rcases Nat.lt_or_ge v.toNat 64 with small | big
  · exact sar64_of_lt small x
  · rw [sar64_of_ge big]
    cases sign : x.msb
    case false =>
      rw [BitVec.sshiftRight_eq_of_msb_false sign, BitVec.ushiftRight_eq_zero big]
      rfl
    case true =>
      rw [BitVec.sshiftRight_eq_of_msb_true sign, BitVec.ushiftRight_eq_zero big]
      rfl

/-! ## Minima and maxima -/

theorem minmax64_smin (x y : Word) : minmax64 0 x y = if x.toInt ≤ y.toInt then x else y := by
  simp only [minmax64, BitVec.slt_iff_toInt_lt, ← Int.not_le, ite_not]
theorem minmax64_umin (x y : Word) : minmax64 2 x y = if x.toNat ≤ y.toNat then x else y := by
  simp only [minmax64, BitVec.lt_def, ← Nat.not_le, ite_not]

/-- The model's maximum prefers its first operand, the statement's its second: it makes no difference where the two are equal. -/
theorem minmax64_smax (x y : Word) : minmax64 1 x y = if x.toInt ≤ y.toInt then y else x := by
  simp only [minmax64, BitVec.slt_iff_toInt_lt]
  rcases Int.lt_trichotomy x.toInt y.toInt with lt | eq | gt
  · rw [if_pos lt, if_pos (Int.le_of_lt lt)]
  · rw [BitVec.eq_of_toInt_eq eq, ite_self, ite_self]
  · rw [if_neg (Int.lt_asymm gt), if_neg (Int.not_le.2 gt)]
theorem minmax64_umax (x y : Word) : minmax64 3 x y = if x.toNat ≤ y.toNat then y else x := by
  simp only [minmax64, BitVec.lt_def]
  rcases Nat.lt_trichotomy x.toNat y.toNat with lt | eq | gt
  · rw [if_pos lt, if_pos (Nat.le_of_lt lt)]
  · rw [BitVec.eq_of_toNat_eq eq, ite_self, ite_self]
  · rw [if_neg (Nat.lt_asymm gt), if_neg (Nat.not_le.2 gt)]

/-! ## The high half of a product -/

/-- The high half of a double word is its value divided by 2^64, towards −∞. -/
theorem extractLsb'_64_64_ofInt (n : Int) : (BitVec.ofInt 128 n).extractLsb' 64 64 = BitVec.ofInt 64 (n / 2 ^ 64) := by
  apply BitVec.eq_of_toNat_eq
  simp only [BitVec.extractLsb'_toNat, BitVec.toNat_ofInt, Nat.shiftRight_eq_div_pow]
  omega

/-- A word widened without its sign is its unsigned value. -/
theorem setWidth_128_eq_ofInt (x : Word) : x.setWidth 128 = BitVec.ofInt 128 x.toNat := by
  rw [BitVec.ofInt_natCast, BitVec.ofNat_toNat]

theorem mulh64_ss (x y : Word) : mulh64 0 x y = (x.signExtend 128 * y.signExtend 128).extractLsb' 64 64 := by
  rw [BitVec.signExtend, BitVec.signExtend, ← BitVec.ofInt_mul, extractLsb'_64_64_ofInt]
  rfl
theorem mulh64_uu (x y : Word) : mulh64 1 x y = (x.setWidth 128 * y.setWidth 128).extractLsb' 64 64 := by
  rw [setWidth_128_eq_ofInt, setWidth_128_eq_ofInt, ← BitVec.ofInt_mul, extractLsb'_64_64_ofInt, mulh64, ← BitVec.ofInt_natCast]
  rfl
theorem mulh64_su (x y : Word) : mulh64 2 x y = (x.signExtend 128 * y.setWidth 128).extractLsb' 64 64 := by
  rw [BitVec.signExtend, setWidth_128_eq_ofInt, ← BitVec.ofInt_mul, extractLsb'_64_64_ofInt]
  rfl

/-! ## Division (R58) -/

theorem div64_quo {y : Word} (h : y ≠ 0) (x : Word) : div64 0 x y = x.sdiv y := by
  apply BitVec.eq_of_toInt_eq
  rw [BitVec.toInt_sdiv, div64, if_neg h, BitVec.toInt_ofInt]
theorem div64_quou {y : Word} (h : y ≠ 0) (x : Word) : div64 1 x y = x / y := if_neg h
theorem div64_rem {y : Word} (h : y ≠ 0) (x : Word) : div64 2 x y = x.srem y := by
  rw [div64, if_neg h, ← BitVec.toInt_srem, BitVec.ofInt_toInt]
theorem div64_remu {y : Word} (h : y ≠ 0) (x : Word) : div64 3 x y = x % y := if_neg h

theorem div64_quo_by_zero {y : Word} (h : y = 0) (x : Word) : div64 0 x y = BitVec.allOnes 64 := if_pos h
theorem div64_quou_by_zero {y : Word} (h : y = 0) (x : Word) : div64 1 x y = BitVec.allOnes 64 := if_pos h
theorem div64_rem_by_zero {y : Word} (h : y = 0) (x : Word) : div64 2 x y = x := if_pos h
theorem div64_remu_by_zero {y : Word} (h : y = 0) (x : Word) : div64 3 x y = x := if_pos h

/-- −2^63 by −1: the quotient 2^63 wraps, and the remainder is none. -/
theorem div64_quo_overflow {x y : Word} (hx : x = BitVec.intMin 64) (hy : y = BitVec.allOnes 64) : div64 0 x y = BitVec.intMin 64 := by
  rw [hx, hy]
  decide
theorem div64_rem_overflow {x y : Word} (hx : x = BitVec.intMin 64) (hy : y = BitVec.allOnes 64) : div64 2 x y = 0 := by
  rw [hx, hy]
  decide

/-! ## The obligation -/

/-- Settles O16: every instruction gives its operation of the sources (`exec_add` and its siblings), the model's operations are those of words
(`shl64_eq`, `minmax64_smin`, `mulh64_ss`, `div64_quo` and their siblings), and a reserved M is ILLEGAL before anything else. -/
theorem twoOperandFamily : Obligations.TwoOperandFamily := by
  refine ⟨fun s g m d a b i xw on room => ?listed, fun s g m d a b => ?reserved⟩
  case reserved =>
    exact ⟨fun h => ⟨exec_minmax_reserved h s g d a b, exec_div_reserved h s g d a b⟩, fun h => exec_mulh_reserved h s g d a b⟩
  case listed =>
    intro x y z
    have imm : imm10 i xw = z := by cases xw <;> rfl
    rw [← imm]
    refine ⟨exec_add on room .., exec_addi on room .., exec_sub on room .., exec_and on room .., exec_andi on room .., exec_or on room ..,
      exec_ori on room .., exec_xor on room .., exec_xori on room .., ?shl, ?shli, ?shr, ?shri, ?sar, ?sari, ?smin, ?smax, ?umin, ?umax,
      exec_lea on room .., exec_mul on room .., ?ss, ?uu, ?su, fun nonzero => ?divides, fun zero => ?byZero, fun isMin isNegOne => ?overflow⟩
    case shl => rw [exec_shl on room, shl64_eq]
    case shli => rw [exec_shli on room, shl64_eq]
    case shr => rw [exec_shr on room, shr64_eq]
    case shri => rw [exec_shri on room, shr64_eq]
    case sar => rw [exec_sar on room, sar64_eq]
    case sari => rw [exec_sari on room, sar64_eq]
    case smin => exact minmax64_smin x y ▸ exec_minmax on room d a b (by decide)
    case smax => exact minmax64_smax x y ▸ exec_minmax on room d a b (by decide)
    case umin => exact minmax64_umin x y ▸ exec_minmax on room d a b (by decide)
    case umax => exact minmax64_umax x y ▸ exec_minmax on room d a b (by decide)
    case ss => exact mulh64_ss x y ▸ exec_mulh on room d a b (by decide)
    case uu => exact mulh64_uu x y ▸ exec_mulh on room d a b (by decide)
    case su => exact mulh64_su x y ▸ exec_mulh on room d a b (by decide)
    case divides =>
      exact ⟨div64_quo nonzero x ▸ exec_div on room d a b (by decide), div64_quou nonzero x ▸ exec_div on room d a b (by decide),
        div64_rem nonzero x ▸ exec_div on room d a b (by decide), div64_remu nonzero x ▸ exec_div on room d a b (by decide)⟩
    case byZero =>
      exact ⟨div64_quo_by_zero zero x ▸ exec_div on room d a b (by decide), div64_quou_by_zero zero x ▸ exec_div on room d a b (by decide),
        div64_rem_by_zero zero x ▸ exec_div on room d a b (by decide), div64_remu_by_zero zero x ▸ exec_div on room d a b (by decide)⟩
    case overflow =>
      exact ⟨div64_quo_overflow isMin isNegOne ▸ exec_div on room d a b (by decide),
        div64_rem_overflow isMin isNegOne ▸ exec_div on room d a b (by decide)⟩

end Sys2Proof.Machine
end

section
/-! PROOFS. Constants in one register (R114): what MOVI and MOVHI give, what they make of a register's bits, and that the two
in turn make any word. -/

namespace Sys2Proof.Machine

open Sys2Proof

/-! ## A register read after its write (R8, R10) -/

/-- No register but s0 stands in the entry of s0, however the registers are rotated. -/
theorem Ctx.physS_ne_zero (x : Ctx) {r : Nat} (h : r ≠ 0) : x.physS r ≠ 0 := by
  unfold Ctx.physS
  split <;> omega

/-- A register other than s0 reads as what was last put into its entry. -/
theorem Core.readS_putS (c : Core) {w : Nat} {r : BitVec w} (h : r ≠ 0) (v : Word) :
    { c with ctx := c.ctx.putS (c.ctx.physS r.toNat) v }.readS r = v := by
  have nonzero : r.toNat ≠ 0 := fun e => h (BitVec.eq_of_toNat_eq e)
  rw [Ctx.putS, if_neg (c.ctx.physS_ne_zero nonzero), Core.readS, if_neg nonzero]
  exact Map.get_put_self ..

/-- Once a scalar result has committed, its register reads as the result. -/
theorem readS_commitAct_setS (m0 : Memory) (b : Core) (n : Nat) (i : Item) (s : State) {d : BitVec 6} (h : d ≠ 0) (v : Word) :
    ((commitAct m0 b n i s (.setS ((s.core n).ctx.physS d.toNat) v)).core n).readS d = v := by
  rw [commitAct, State.core_setCore, Core.readS_putS _ h]

/-! ## What each instruction gives (R114) -/

section
variable {s : State} {g : BitVec 4} (on : s.on g) (room : s.roomy) (d : BitVec 6) (i : BitVec 16) (e : BitVec 32) (xw : Option (BitVec 32))
include on room

theorem exec_movi : exec (.movi g d i xw) s = s.givesS 1 d (imm16 i xw) := aluOp_gives on room d 1 _
theorem exec_movhi_short : exec (.movhi g d i none) s = s.givesS 1 d (i ++ (s.me.readS d).extractLsb' 0 48) := aluOp_gives on room d 1 _
theorem exec_movhi_long : exec (.movhi g d i (some e)) s = s.givesS 1 d ((e ++ i) ++ (s.me.readS d).extractLsb' 0 16) :=
  aluOp_gives on room d 1 _

end

/-! ## The bits of a constant -/

/-- A value above the low `m` bits of a word is the value shifted there, beside the word under a mask. -/
theorem append_extractLsb'_eq_or {n m : Nat} (x : BitVec n) (w : BitVec (n + m)) :
    x ++ w.extractLsb' 0 m = x.setWidth (n + m) <<< m ||| (w &&& (BitVec.allOnes m).setWidth (n + m)) := by
  ext i hi
  rw [BitVec.getElem_append]
  split
  case isTrue low => simp [low, hi]
  case isFalse high =>
    have inside : i - m < n + m := by omega
    simp [high, hi, inside, ← BitVec.getLsbD_eq_getElem]

/-- The low bits of a sign-extended value are the value. -/
theorem extractLsb'_signExtend {n m : Nat} (h : n ≤ m) (x : BitVec n) : (x.signExtend m).extractLsb' 0 n = x := by
  ext i hi
  simp [BitVec.getElem_signExtend, hi, Nat.lt_of_lt_of_le hi h]

/-! ## The obligation -/

/-- Settles O19: the two forms of MOVHI keep the low bits of the register (`append_extractLsb'_eq_or`), which after a long MOVI hold its 48 bits
(`readS_commitAct_setS`, `extractLsb'_signExtend`). -/
theorem constants : Obligations.Constants := by
  intro s g d i e on room
  refine ⟨exec_movi on room d i none, exec_movi on room d i (some e), ?short, ?long, ?inTurn⟩
  case short => exact append_extractLsb'_eq_or (m := 48) i (s.me.readS d) ▸ exec_movhi_short on room d i
  case long => exact append_extractLsb'_eq_or (m := 16) (e ++ i) (s.me.readS d) ▸ exec_movhi_long on room d i e
  case inTurn =>
    intro j n m0 b it nonzero t on room cur
    have low : (t.me.readS d).extractLsb' 0 48 = e ++ i := by
      rw [State.me, cur, readS_commitAct_setS m0 b n it s nonzero, extractLsb'_signExtend (by decide)]
    rw [exec_movhi_short on room, low, BitVec.append_assoc]
    rfl

end Sys2Proof.Machine
end

section
/-! PROOFS. The integer vector family (R126): what each of its instructions gives, and that VIADDS clamps its exact sum. -/

namespace Sys2Proof.Machine

open Sys2Proof

/-! ## What each instruction gives -/

section
variable {s : State} (room : s.roomy) (k : BitVec 3) (z : BitVec 1) (d a : BitVec 7) (n : BitVec 1) (b : BitVec 6) (sc : BitVec 1)
include room

theorem exec_viadd : exec (.viadd k z d a n b sc) s = s.givesLanes 2 (intWidth n) d k z
    (fun i => s.laneA a (intWidth n) i + s.laneI n b sc i) 0 := intOp_gives room k z d a n b sc fun _ x y => x + y
theorem exec_visub : exec (.visub k z d a n b sc) s = s.givesLanes 2 (intWidth n) d k z
    (fun i => s.laneA a (intWidth n) i + 2 ^ intWidth n - s.laneI n b sc i) 0 := intOp_gives room k z d a n b sc fun w x y => x + 2 ^ w - y
theorem exec_vimul : exec (.vimul k z d a n b sc) s = s.givesLanes 2 (intWidth n) d k z
    (fun i => s.laneA a (intWidth n) i * s.laneI n b sc i) 0 := intOp_gives room k z d a n b sc fun _ x y => x * y
theorem exec_vand : exec (.vand k z d a n b sc) s = s.givesLanes 2 (intWidth n) d k z
    (fun i => (BitVec.ofNat (intWidth n) (s.laneA a (intWidth n) i) &&& BitVec.ofNat (intWidth n) (s.laneI n b sc i)).toNat) 0 :=
  intOp_gives room k z d a n b sc fun w x y => (BitVec.ofNat w x &&& BitVec.ofNat w y).toNat
theorem exec_vor : exec (.vor k z d a n b sc) s = s.givesLanes 2 (intWidth n) d k z
    (fun i => (BitVec.ofNat (intWidth n) (s.laneA a (intWidth n) i) ||| BitVec.ofNat (intWidth n) (s.laneI n b sc i)).toNat) 0 :=
  intOp_gives room k z d a n b sc fun w x y => (BitVec.ofNat w x ||| BitVec.ofNat w y).toNat
theorem exec_vxor : exec (.vxor k z d a n b sc) s = s.givesLanes 2 (intWidth n) d k z
    (fun i => xorNat (intWidth n) (s.laneA a (intWidth n) i) (s.laneI n b sc i)) 0 := intOp_gives room k z d a n b sc xorNat
theorem exec_vimin : exec (.vimin k z d a n b sc) s = s.givesLanes 2 (intWidth n) d k z
    (fun i => sminLane (intWidth n) (s.laneA a (intWidth n) i) (s.laneI n b sc i)) 0 := intOp_gives room k z d a n b sc sminLane
theorem exec_vimax : exec (.vimax k z d a n b sc) s = s.givesLanes 2 (intWidth n) d k z
    (fun i => smaxLane (intWidth n) (s.laneA a (intWidth n) i) (s.laneI n b sc i)) 0 := intOp_gives room k z d a n b sc smaxLane

/-- VIADDS alone has flags: those of its unmasked lanes. -/
theorem exec_viadds : exec (.viadds k z d a n b sc) s = s.givesLanes 2 (intWidth n) d k z
    (fun i => (satAdd (intWidth n) (s.laneA a (intWidth n) i) (s.laneI n b sc i)).1)
    (orFlags (2048 / intWidth n) (s.me.readK k) fun i => (satAdd (intWidth n) (s.laneA a (intWidth n) i) (s.laneI n b sc i)).2) := by
  change execViadds k z d a n b sc s = _
  rw [execViadds, State.act_becomes, State.deliverV, State.deliver_of_lt room]
  rfl

end

/-! ## Saturation (R33) -/

/-- An integer held to the range of a signed word of `w` bits. -/
def clampInt (w : Nat) (i : Int) : Int := max (-(2 ^ (w - 1) : Int)) (min i (2 ^ (w - 1) - 1))

/-- The model's saturation is that clamp, and it reports a clamp that changed the integer. -/
theorem satInt_eq_clampInt (w : Nat) (i : Int) : satInt w i = (clampInt w i, decide (clampInt w i ≠ i)) := by
  have pos : (0 : Int) < 2 ^ (w - 1) := by positivity
  simp only [satInt, clampInt, Nat.cast_pow, Nat.cast_ofNat]
  split
  case isTrue above => exact Prod.ext (by dsimp only; omega) (decide_eq_true (by omega)).symm
  case isFalse notAbove =>
    split
    case isTrue below => exact Prod.ext (by dsimp only; omega) (decide_eq_true (by omega)).symm
    case isFalse notBelow => exact Prod.ext (by dsimp only; omega) (decide_eq_false (by omega)).symm

/-- One lane of VIADDS: the clamped sum, and SAT where the clamp changed it. -/
theorem satAdd_eq (w x y : Nat) : satAdd w x y =
    ((clampInt w (signed w x + signed w y) % 2 ^ w).toNat, if clampInt w (signed w x + signed w y) ≠ signed w x + signed w y then flSAT else 0) := by
  simp [satAdd, satInt_eq_clampInt, wrapNat]

/-! ## The obligation -/

/-- Settles O27: every instruction of the family gives its function of the lanes with no flag (`intOp_gives`), but VIADDS, whose lanes and flags
are those of the clamped sum (`satAdd_eq`). -/
theorem integerLanes : Obligations.IntegerLanes := by
  intro s k z n sc d a b room w x y gives bits
  refine ⟨exec_viadd room .., exec_visub room .., exec_vimul room .., exec_vand room .., exec_vor room .., ⟨_, exec_vxor room .., fun i => ?xor⟩,
    exec_vshl room .., exec_vshr room .., ⟨_, exec_vsar room .., fun i => sarLane_mod w (x i) (y i)⟩, exec_vimin room .., exec_vimax room .., ?adds⟩
  case xor => exact Nat.mod_eq_of_lt (BitVec.isLt _)
  case adds =>
    intro sum sat
    rw [exec_viadds room]
    simp only [satAdd_eq]
    rfl

end Sys2Proof.Machine
end

section
/-! PROOFS. The vector compares (R125, R127): the bits that a compare delivers, and what its commit makes of the mask registers. -/

namespace Sys2Proof.Machine

open Sys2Proof

/-! ## The bits of packed lanes (R7) -/

theorem packNat_succ (w n : Nat) (f : Nat → Nat) : packNat w (n + 1) f = 2 ^ (n * w) * (f n % 2 ^ w) + packNat w n f := by
  simp [packNat, List.range_succ, Nat.shiftLeft_eq, Nat.add_comm, Nat.mul_comm]

theorem packNat_lt (w n : Nat) (f : Nat → Nat) : packNat w n f < 2 ^ (n * w) := by
  induction n with
  | zero => simp [packNat]
  | succ n ih =>
    calc packNat w (n + 1) f
      _ = 2 ^ (n * w) * (f n % 2 ^ w) + packNat w n f := packNat_succ w n f
      _ < 2 ^ (n * w) * (f n % 2 ^ w + 1) := Nat.add_lt_add_left ih _
      _ ≤ 2 ^ (n * w) * 2 ^ w := Nat.mul_le_mul_left _ (Nat.mod_lt _ (Nat.two_pow_pos w))
      _ = 2 ^ ((n + 1) * w) := by rw [← Nat.pow_add, Nat.succ_mul]

/-- Lanes of one bit, each the outcome of a test, hold the outcomes as their bits. -/
theorem testBit_packNat_one (n : Nat) (p : Nat → Bool) (i : Nat) :
    (packNat 1 n fun j => if p j then 1 else 0).testBit i = (decide (i < n) && p i) := by
  induction n with
  | zero => simp [packNat]
  | succ n ih =>
    rw [packNat_succ, Nat.testBit_two_pow_mul_add _ (packNat_lt 1 n _), ih, Nat.mul_one, Nat.testBit_mod_two_pow]
    rcases Nat.lt_trichotomy i n with below | rfl | above
    · simp [below, Nat.lt_succ_of_lt below]
    · cases p i <;> simp
    · have notLane : ¬ i < n + 1 := by omega
      have notBit : ¬ i - n < 1 := by omega
      simp [notLane, notBit, Nat.lt_asymm above]

/-- The mask register with the outcomes of a test in its low bits, and zeros above. -/
theorem getLsbD_packNat_one {n : Nat} (fits : n ≤ 256) (p : Nat → Bool) (i : Nat) :
    (BitVec.ofNat 256 (packNat 1 n fun j => if p j then 1 else 0)).getLsbD i = (decide (i < n) && p i) := by
  rw [BitVec.getLsbD_ofNat, testBit_packNat_one]
  rcases Nat.lt_or_ge i n with lane | above
  · simp [lane, Nat.lt_of_lt_of_le lane fits]
  · simp [Nat.not_lt.2 above]

/-! ## What a compare delivers -/

/-- The outcome of a compare over `lanes` lanes: a write of mask `d` is in flight whose value is 0 in the masked lanes and above the lanes, and
which leaves alone the masked lanes that Z does not clear, and no other bit (R125). -/
def State.givesMask (s : State) (k d : BitVec 3) (z : BitVec 1) (lat lanes : Nat) (o : Out) (p : Nat → Bool) : Prop :=
  ∃ v w : Mask, o = s.becomes (s.inFlight lat [.setK d.toNat v w]) ∧
    ∀ i, i < 256 →
      (i < lanes → v.getLsbD i = ((s.me.readK k).getLsbD i && p i) ∧ w.getLsbD i = ((s.me.readK k).getLsbD i || z == 1)) ∧
      (lanes ≤ i → v.getLsbD i = false ∧ w.getLsbD i = true)

/-- Z is one bit: a masked lane is kept where it is 0 and written where it is 1. -/
theorem not_keep_eq (m : Bool) (z : BitVec 1) : (!(!m && z == 0)) = (m || z == 1) := by
  cases m <;> revert z <;> decide

/-- A compare's delivery with room. -/
theorem deliverK_givesMask {s : State} (room : s.roomy) {lanes : Nat} (fits : lanes ≤ 256) (lat : Nat) (k d : BitVec 3) (z : BitVec 1)
    (p : Nat → Bool) : s.givesMask k d z lat lanes (s.becomes (s.deliverK lat lanes d (s.me.readK k) z p s.me)) p := by
  refine ⟨_, _, congrArg s.becomes (State.deliver_of_lt room lat _), fun i inside => ?bits⟩
  rw [BitVec.getLsbD_not, getLsbD_packNat_one fits, getLsbD_packNat_one fits, ← not_keep_eq]
  exact ⟨fun lane => by simp [lane, inside], fun above => by simp [Nat.not_lt.2 above, inside]⟩

/-- Both operand forms of a float compare: a scalar has no bit 6 of a vector's number (R121). -/
theorem floatCmp_givesMask {s : State} (room : s.roomy) (k d : BitVec 3) (z sc : BitVec 1) (a : BitVec 7) {b : BitVec 7}
    (listed : sc = 0 ∨ b.getLsbD 6 = false) (f : Fv → Fv → Bool) :
    s.givesMask k d z 4 64 (floatCmp s k z d a b sc f) fun i => f (fp32 (s.laneA a 32 i)) (fp32 (s.laneF b sc i)) := by
  have ok : (sc == 0 || b.getLsbD 6 == false) = true := by simpa using listed
  rw [floatCmp, ok, State.checked_true, State.act_becomes]
  exact deliverK_givesMask room (by decide) 4 k d z _

theorem lanes_le_256 (n : BitVec 1) : 2048 / intWidth n ≤ 256 := by
  unfold intWidth
  split <;> decide

theorem intCmp_givesMask {s : State} (room : s.roomy) (k d : BitVec 3) (z n sc : BitVec 1) (a : BitVec 7) (b : BitVec 6)
    (f : Int → Int → Bool) : s.givesMask k d z 2 (2048 / intWidth n) (intCmp s k z d a n b sc f) fun i =>
      f (signed (intWidth n) (s.laneA a (intWidth n) i)) (signed (intWidth n) (s.laneI n b sc i)) := by
  rw [intCmp, State.act_becomes]
  exact deliverK_givesMask room (lanes_le_256 n) 2 k d z _

section
variable {s : State} (room : s.roomy) (k d : BitVec 3) (z sc : BitVec 1) (a : BitVec 7)
include room

section
variable {b : BitVec 7} (listed : sc = 0 ∨ b.getLsbD 6 = false)
include listed

theorem exec_vcmpeq : s.givesMask k d z 4 64 (exec (.vcmpeq k z d a b sc) s) fun i =>
    (fp32 (s.laneA a 32 i)).eq (fp32 (s.laneF b sc i)) := floatCmp_givesMask room k d z sc a listed _
theorem exec_vcmplt : s.givesMask k d z 4 64 (exec (.vcmplt k z d a b sc) s) fun i =>
    (fp32 (s.laneA a 32 i)).lt (fp32 (s.laneF b sc i)) := floatCmp_givesMask room k d z sc a listed _
theorem exec_vcmple : s.givesMask k d z 4 64 (exec (.vcmple k z d a b sc) s) fun i =>
    (fp32 (s.laneA a 32 i)).lt (fp32 (s.laneF b sc i)) || (fp32 (s.laneA a 32 i)).eq (fp32 (s.laneF b sc i)) :=
  floatCmp_givesMask room k d z sc a listed fun x y => x.lt y || x.eq y
theorem exec_vcmpne : s.givesMask k d z 4 64 (exec (.vcmpne k z d a b sc) s) fun i =>
    !((fp32 (s.laneA a 32 i)).eq (fp32 (s.laneF b sc i))) := floatCmp_givesMask room k d z sc a listed fun x y => !(x.eq y)

end

variable (n : BitVec 1) (b : BitVec 6)

theorem exec_vicmpeq : s.givesMask k d z 2 (2048 / intWidth n) (exec (.vicmpeq k z d a n b sc) s) fun i =>
    decide (signed (intWidth n) (s.laneA a (intWidth n) i) = signed (intWidth n) (s.laneI n b sc i)) :=
  intCmp_givesMask room k d z n sc a b fun x y => x == y
theorem exec_vicmplt : s.givesMask k d z 2 (2048 / intWidth n) (exec (.vicmplt k z d a n b sc) s) fun i =>
    decide (signed (intWidth n) (s.laneA a (intWidth n) i) < signed (intWidth n) (s.laneI n b sc i)) :=
  intCmp_givesMask room k d z n sc a b fun x y => decide (x < y)

end

/-! ## The commit of a mask (R8, R125) -/

/-- A write to k0 is discarded. -/
theorem Core.putK_zero (c : Core) (v m : Mask) : c.putK 0 v m = c := rfl

/-- A write to another mask register changes the mask registers alone. -/
theorem Core.putK_nonzero (c : Core) {d : BitVec 3} (h : d ≠ 0) (v m : Mask) :
    c.putK d.toNat v m = { c with k := Map.put c.k d.toNat ((c.readK d &&& ~~~m) ||| (v &&& m)) } := by
  have nonzero : d.toNat ≠ 0 := BitVec.toNat_ne_iff_ne.2 h
  rw [Core.putK, if_neg nonzero, Core.readK, if_neg nonzero]

/-- A written mask register reads as the written bits under the mask, and its old ones elsewhere. -/
theorem Core.readK_putK_self (c : Core) {d : BitVec 3} (h : d ≠ 0) (v m : Mask) :
    (c.putK d.toNat v m).readK d = (c.readK d &&& ~~~m) ||| (v &&& m) := by
  have nonzero : d.toNat ≠ 0 := BitVec.toNat_ne_iff_ne.2 h
  rw [c.putK_nonzero h, Core.readK, if_neg nonzero]
  exact Map.get_put_self ..

/-- Every other mask register reads as before. -/
theorem Core.readK_putK_other (c : Core) {d r : BitVec 3} (h : d ≠ 0) (other : r ≠ d) (v m : Mask) :
    (c.putK d.toNat v m).readK r = c.readK r := by
  have distinct : r.toNat ≠ d.toNat := BitVec.toNat_ne_iff_ne.2 other
  rw [c.putK_nonzero h, Core.readK, Core.readK]
  exact congrArg (ite _ _) (Map.get_put_other _ _ _ distinct)

/-- A bit of a value that is written under a mask. -/
theorem getLsbD_merge {w j : Nat} (h : j < w) (old v m : BitVec w) :
    ((old &&& ~~~m) ||| (v &&& m)).getLsbD j = if m.getLsbD j then v.getLsbD j else old.getLsbD j := by
  rw [BitVec.getLsbD_or, BitVec.getLsbD_and, BitVec.getLsbD_and, BitVec.getLsbD_not]
  cases m.getLsbD j <;> simp [h]

/-! ## The obligation -/

/-- Settles O26: a compare delivers the bits of its test under K and Z (`deliverK_givesMask`), and the commit writes them into its mask register
alone (`Core.readK_putK_self`, `Core.readK_putK_other`). -/
theorem compareMasks : Obligations.CompareMasks := by
  refine ⟨fun s k d z n sc a b bi room => ⟨fun listed => ?float, ?int⟩, fun m0 b n i s x y => ⟨?discarded, fun d r nonzero => ?committed⟩⟩
  case float =>
    exact ⟨exec_vcmpeq room k d z sc a listed, exec_vcmplt room k d z sc a listed, exec_vcmple room k d z sc a listed,
      exec_vcmpne room k d z sc a listed⟩
  case int => exact ⟨exec_vicmpeq room k d z sc a n bi, exec_vicmplt room k d z sc a n bi⟩
  case discarded => exact congrArg (s.setCore n) (Core.putK_zero _ x y)
  case committed =>
    simp only [commitAct, State.core_setCore]
    refine ⟨fun j inside => ?written, fun other => Core.readK_putK_other _ nonzero other x y, ?v, ?ctx, ?tiles,
      fun j other => State.core_setCore_other s _ other, fun _ => rfl⟩
    case written => rw [Core.readK_putK_self _ nonzero, getLsbD_merge inside]
    all_goals rw [Core.putK_nonzero _ nonzero]

end Sys2Proof.Machine
end

section
/-! PROOFS. The step of a reheat region (R162, R163, R167): when RHSTEP puts it in flight, and what it makes of the region's ages, force flags
and count of steps. -/

namespace Sys2Proof.Machine

open Sys2Proof

/-! ## RHSTEP at issue -/

/-- Outside its busy period the reheat engine lets an instruction go on. -/
theorem reheatGate_of_free {c : Core} (free : c.ctx.rhBusy ≤ c.ctx.clk) (s : State) (f : Core → Core) : reheatGate s f c = f c :=
  if_neg (Nat.not_lt.2 free)

section
variable {s : State} {f : BitVec 1} {r : BitVec 3} {v : BitVec 7} (free : s.me.ctx.rhBusy ≤ s.me.ctx.clk) (listed : f = 1 ∨ v = 0)
include free listed

/-- A free engine's RHSTEP with no reserved value asks only whether its region is configured. -/
theorem exec_rhstep_free : exec (.rhstep f r v) s = s.becomes (if (Map.get? s.me.reheat r.toNat).isNone then s.regionFormat r 0 s.me
    else Core.reheatBusy 4 (s.me.addItem s.slot 3 false false [.rhStep r.toNat (if f = 1 then some (s.me.readV v) else none)])) := by
  have ok : (f == 1 || v == 0) = true := by simpa using listed
  change execRhstep f r v s = _
  rw [execRhstep, ok, State.checked_true, State.act_becomes, reheatGate_of_free free]

/-- RHSTEP of a configured region puts its step in flight for c+3, with the bits read at issue where F = 1. -/
theorem exec_rhstep_configured {g : Reheat} (configured : Map.get? s.me.reheat r.toNat = some g) :
    exec (.rhstep f r v) s = s.becomes (Core.reheatBusy 4 (s.me.addItem s.slot 3 false false
      [.rhStep r.toNat (if f = 1 then some (s.me.readV v) else none)])) := by
  rw [exec_rhstep_free free listed, configured]
  rfl

theorem exec_rhstep_unconfigured (unconfigured : Map.get? s.me.reheat r.toNat = none) :
    exec (.rhstep f r v) s = s.becomes (s.regionFormat r 0 s.me) := by
  rw [exec_rhstep_free free listed, unconfigured]
  rfl

end

/-! ## The system registers that a change reaches (R217) -/

@[simp] theorem Core.reheat_onSys (c : Core) (f : Ctx → Ctx) : (c.onSys f).reheat = c.reheat := by
  unfold Core.onSys
  split <;> rfl

/-- What MFS and MTS reach is what a change of the system registers changes, in a held context and in the live one. -/
@[simp] theorem Core.sysCtx_onSys (c : Core) (f : Ctx → Ctx) : (c.onSys f).sysCtx = f c.sysCtx := by
  cases sh : c.sh with
  | false => simp [Core.onSys, Core.sysCtx, sh]
  | true => cases held : c.held <;> simp [Core.onSys, Core.sysCtx, sh, held]

/-! ## The count of steps (R162) -/

/-- A count that was set reads back, modulo 128. -/
theorem toNat_stepsOf_setSteps {r : Nat} (h : r < 8) (x : BitVec 56) (n : Nat) : (stepsOf (setSteps x r n) r).toNat = n % 128 := by
  have field : stepsOf (setSteps x r n) r = BitVec.ofNat 7 n := by
    refine BitVec.eq_of_getLsbD_eq fun i inside => ?_
    have fits : 7 * r + i < 56 := by omega
    have below : i < 56 := by omega
    have cleared : Nat.testBit 127 i = true := (Nat.testBit_two_pow_sub_one 7 i).trans (decide_eq_true inside)
    have kept : (n % 128).testBit i = n.testBit i := by
      rw [show 128 = 2 ^ 7 from rfl, Nat.testBit_mod_two_pow, decide_eq_true inside, Bool.true_and]
    simp [stepsOf, setSteps, inside, fits, below, cleared, kept, -BitVec.getLsbD_eq_getElem, BitVec.getLsbD_ofNat]
  rw [field, BitVec.toNat_ofNat]

/-! ## The region after its step (R167) -/

/-- A map that lists a value for each of some keys reads as those values. -/
theorem Map.get_map_pair {α : Type} (l : List Nat) (f : Nat → α) (d : α) {k : Nat} (listed : k ∈ l) :
    Map.get (l.map fun t => (t, f t)) k d = f k := by
  induction l with
  | nil => cases listed
  | cons a l ih =>
    rw [List.map_cons, Map.get, Map.get?]
    split
    case isTrue same => rw [same, Option.getD_some]
    case isFalse other => exact ih ((List.mem_cons.1 listed).resolve_left (Ne.symm other))

/-- The age of a tile after a step. -/
def Reheat.nextAge (g : Reheat) (t : Nat) : Nat := if g.skip.getLsbD t then min (Map.get g.ages t 0 + 1) 255 else 1

/-- A region after its step: its tiles aged, its force flags 0 or the bits given. -/
def Reheat.stepped (g : Reheat) (f : Option Vec) : Reheat :=
  { g with
    ages := (List.range (rhTILES g.desc)).map fun t => (t, g.nextAge t)
    force := match f with | none => 0 | some v => BitVec.ofNat 1024 (v.toNat % 2 ^ rhTILES g.desc) }

/-- RHSTEP's effect on a configured region: that region steps, and STEPS counts it. -/
theorem Core.rhStep_configured {c : Core} {r : Nat} {g : Reheat} (configured : Map.get? c.reheat r = some g) (f : Option Vec) :
    c.rhStep r f = { c with reheat := Map.put c.reheat r (g.stepped f) }.onSys fun x =>
      { x with rhSteps := setSteps x.rhSteps r ((stepsOf x.rhSteps r).toNat + 1) } := by
  rw [Core.rhStep, configured]
  rfl

theorem Core.reheat_rhStep {c : Core} {r : Nat} {g : Reheat} (configured : Map.get? c.reheat r = some g) (f : Option Vec) :
    (c.rhStep r f).reheat = Map.put c.reheat r (g.stepped f) := by
  rw [Core.rhStep_configured configured, Core.reheat_onSys]

/-- STEPS counts modulo 128. -/
theorem Core.stepsOf_rhStep {c : Core} {r : Nat} {g : Reheat} (inside : r < 8) (configured : Map.get? c.reheat r = some g) (f : Option Vec) :
    (stepsOf (c.rhStep r f).sysCtx.rhSteps r).toNat = ((stepsOf c.sysCtx.rhSteps r).toNat + 1) % 128 := by
  rw [Core.rhStep_configured configured, Core.sysCtx_onSys]
  exact toNat_stepsOf_setSteps inside _ _

theorem Reheat.ages_stepped (g : Reheat) (f : Option Vec) {j : Nat} (tile : j < rhTILES g.desc) :
    Map.get (g.stepped f).ages j 0 = g.nextAge j :=
  Map.get_map_pair _ g.nextAge 0 (List.mem_range.2 tile)

theorem Reheat.force_stepped_none (g : Reheat) (j : Nat) : (g.stepped none).force.getLsbD j = false := BitVec.getLsbD_zero

/-- The bits given that belong to a tile become the force flags. -/
theorem Reheat.force_stepped_some (g : Reheat) (v : Vec) {j : Nat} (inside : j < 1024) :
    (g.stepped (some v)).force.getLsbD j = (decide (j < rhTILES g.desc) && v.getLsbD j) := by
  change (BitVec.ofNat 1024 (v.toNat % 2 ^ rhTILES g.desc)).getLsbD j = _
  rw [BitVec.getLsbD_ofNat, Nat.testBit_mod_two_pow, BitVec.testBit_toNat, decide_eq_true inside, Bool.true_and]

/-! ## The obligation -/

/-- Settles O35: at issue a configured region's step joins the delay lines and an unconfigured one is FORMAT (`exec_rhstep_configured`,
`exec_rhstep_unconfigured`); the step puts the stepped region in its place (`Core.reheat_rhStep`) and counts itself (`Core.stepsOf_rhStep`). -/
theorem reheatStep : Obligations.ReheatStep := by
  refine ⟨fun s f r v free listed => ⟨fun g configured => ?issue, exec_rhstep_unconfigured free listed⟩,
    fun m0 b n i s r f g inside configured => ?commit⟩
  case issue => exact ⟨_, exec_rhstep_configured free listed configured, rfl, rfl, rfl, rfl⟩
  case commit =>
    intro t
    have core : t = (s.core n).rhStep r f := State.core_setCore ..
    rw [core, Core.reheat_rhStep configured]
    refine ⟨g.stepped f, Map.get?_put_self .., rfl, rfl, fun j tile => g.ages_stepped f tile, fun j bit => ?force,
      Core.stepsOf_rhStep inside configured f, fun q other => Map.get?_put_other _ _ other⟩
    cases f with
    | none => exact g.force_stepped_none j
    | some v => exact g.force_stepped_some v bit

end Sys2Proof.Machine
end

section
/-! PROOFS. Encoding and decoding (R73, R78 to R95): each table's decoder reads its instructions from the words that encode them, and what
a decoder reads encodes to the words that it was read from. -/

namespace Sys2Proof

/-! ## Fields of a word -/

/-- Two bit strings joined make a word exactly where each is its part of the word. -/
theorem append_eq_iff {m n : Nat} {x : BitVec m} {y : BitVec n} {w : BitVec (m + n)} :
    @Eq (no_index _) (x ++ y) w ↔ x = w.extractLsb' n m ∧ y = w.extractLsb' 0 n := by
  constructor
  · rintro rfl
    exact ⟨BitVec.extractLsb'_append_eq_left.symm, BitVec.extractLsb'_append_eq_right.symm⟩
  · rintro ⟨rfl, rfl⟩
    rw [BitVec.extractLsb'_append_extractLsb'_eq_extractLsb' (Nat.zero_add n).symm, BitVec.extractLsb'_eq_self]

/-- A test of a joined word is the test of each part under its part of the mask. -/
theorem and_append_eq_iff {m n : Nat} {x : BitVec m} {y : BitVec n} {k c : BitVec (m + n)} :
    @Eq (no_index _) (@HAnd.hAnd (no_index _) (no_index _) (no_index _) _ (x ++ y) k) c ↔
      x &&& k.extractLsb' n m = c.extractLsb' n m ∧ y &&& k.extractLsb' 0 n = c.extractLsb' 0 n := by
  have split : k = k.extractLsb' n m ++ k.extractLsb' 0 n := by simp [BitVec.extractLsb'_append_extractLsb'_eq_extractLsb']
  rw [split, BitVec.and_append, ← split]
  exact append_eq_iff

/-- A field of the low part of a joined word. -/
theorem extractLsb'_append_low {m n : Nat} {x : BitVec m} {y : BitVec n} {start len : Nat} (fits : len ≤ n) (low : start ≤ n - len) :
    (x ++ y).extractLsb' start len = y.extractLsb' start len := BitVec.extractLsb'_append_eq_of_add_le (by omega)

/-- A field of a field is a field. -/
theorem extractLsb'_extractLsb' {w a l b k : Nat} (x : BitVec w) (h : b + k ≤ l) :
    (x.extractLsb' a l).extractLsb' b k = x.extractLsb' (a + b) k := by
  ext i hi
  have : b + i < l := by omega
  simp [this, Nat.add_assoc]

/-- A field that a test's mask holds whole has the value tested for. -/
theorem extractLsb'_of_and_eq {n : Nat} {w m c : BitVec n} (h : w &&& m = c) {lo len : Nat}
    (full : m.extractLsb' lo len = BitVec.allOnes len) : w.extractLsb' lo len = c.extractLsb' lo len := by
  rw [← h, BitVec.extractLsb'_and, full, BitVec.and_allOnes]

/-! ## Reading what was encoded -/

/-- The decoder `f` reads an instruction from the words that encode it. -/
def Reads (f : BitVec 32 → Option (BitVec 32) → Except DecodeError Instr) (i : Instr) : Prop :=
  ∃ w x, encode i = w :: Option.toList x ∧ f w x = .ok i

/-- What it takes: the first of the words that encode the instruction, and the second, if there is one, as its extension. -/
theorem Reads.of_encode {f : BitVec 32 → Option (BitVec 32) → Except DecodeError Instr} {i : Instr} {w : BitVec 32} {l : List (BitVec 32)}
    (words : encode i = w :: l) (reads : l = l.head?.toList ∧ f w l.head? = .ok i) : Reads f i :=
  ⟨w, l.head?, words.trans (congrArg _ reads.1), reads.2⟩

@[simp] theorem head?_toList {α : Type} (o : Option α) : o.toList.head? = o := by cases o <;> rfl

theorem reads_decode0 {i : Instr} (slot : i.slots = [0]) : Reads decode0 i := by
  cases i <;> cases slot
  all_goals
    refine .of_encode rfl ?_
    simp only [decode0, BitVec.extractLsb'_append_eq_of_le, extractLsb'_append_low, Nat.reduceSub, Nat.reduceLeDiff,
      BitVec.reduceExtractLsb', BitVec.reduceToNat, beq_iff_eq, and_append_eq_iff]
    simp

/-- A population count is no bit test: its M is none that R113 reserves. -/
theorem bitc_ne_test {m : BitVec 4} (listed : m.toNat < 3) : m &&& 15#4 ≠ 3#4 := by
  revert m
  decide

theorem reads_decode1 {i : Instr} (slot : i.slots = [1]) (ok : i.wf = true) : Reads decode1 i := by
  cases i <;> cases slot
  case bitc g d a m =>
    have := bitc_ne_test (of_decide_eq_true ok)
    refine .of_encode rfl ?_
    simp only [decode1, BitVec.extractLsb'_append_eq_of_le, extractLsb'_append_low, Nat.reduceSub, Nat.reduceLeDiff,
      BitVec.reduceExtractLsb', BitVec.reduceToNat, beq_iff_eq, and_append_eq_iff]
    simp [this]
  all_goals
    refine .of_encode rfl ?_
    simp only [decode1, BitVec.extractLsb'_append_eq_of_le, extractLsb'_append_low, Nat.reduceSub, Nat.reduceLeDiff,
      BitVec.reduceExtractLsb', BitVec.reduceToNat, beq_iff_eq, and_append_eq_iff]
    simp

theorem reads_decodeV {i : Instr} (slot : i.slots = [2, 3]) : Reads decodeV i := by
  cases i <;> cases slot
  all_goals
    refine .of_encode rfl ?_
    simp only [decodeV, BitVec.extractLsb'_append_eq_of_le, extractLsb'_append_low, Nat.reduceSub, Nat.reduceLeDiff,
      BitVec.reduceExtractLsb', BitVec.reduceToNat, beq_iff_eq, and_append_eq_iff]
    simp

theorem reads_decode2 {i : Instr} (slot : i.slots = [2]) : Reads decode2 i := by
  cases i <;> cases slot
  all_goals
    refine .of_encode rfl ?_
    simp only [decode2, BitVec.extractLsb'_append_eq_of_le, extractLsb'_append_low, Nat.reduceSub, Nat.reduceLeDiff,
      BitVec.reduceExtractLsb', BitVec.reduceToNat, beq_iff_eq, and_append_eq_iff]
    simp

theorem reads_decode3 {i : Instr} (slot : i.slots = [3]) : Reads decode3 i := by
  cases i <;> cases slot
  all_goals
    refine .of_encode rfl ?_
    simp only [decode3, BitVec.extractLsb'_append_eq_of_le, extractLsb'_append_low, Nat.reduceSub, Nat.reduceLeDiff,
      BitVec.reduceExtractLsb', BitVec.reduceToNat, beq_iff_eq, and_append_eq_iff]
    simp

theorem reads_decode4 {i : Instr} (slot : i.slots = [4]) : Reads decode4 i := by
  cases i <;> cases slot
  all_goals
    refine .of_encode rfl ?_
    simp only [decode4, BitVec.extractLsb'_append_eq_of_le, extractLsb'_append_low, Nat.reduceSub, Nat.reduceLeDiff,
      BitVec.reduceExtractLsb', BitVec.reduceToNat, beq_iff_eq, and_append_eq_iff]
    simp

theorem reads_decode5 {i : Instr} (slot : i.slots = [5, 6]) : Reads decode5 i := by
  cases i <;> cases slot
  all_goals
    refine .of_encode rfl ?_
    simp only [decode5, BitVec.extractLsb'_append_eq_of_le, extractLsb'_append_low, Nat.reduceSub, Nat.reduceLeDiff,
      BitVec.reduceExtractLsb', BitVec.reduceToNat, beq_iff_eq, and_append_eq_iff]
    simp

theorem reads_decode7 {i : Instr} (slot : i.slots = [7]) : Reads decode7 i := by
  cases i <;> cases slot
  all_goals
    refine .of_encode rfl ?_
    simp only [decode7, BitVec.extractLsb'_append_eq_of_le, extractLsb'_append_low, Nat.reduceSub, Nat.reduceLeDiff,
      BitVec.reduceExtractLsb', BitVec.reduceToNat, beq_iff_eq, and_append_eq_iff]
    simp

/-! ## The opcodes of a slot -/

section
variable {w : BitVec 32} {x : Option (BitVec 32)} {i : Instr}

/-- Slots 2 and 3 share the opcodes below 0x2C (R93). -/
theorem opcode_lt_of_decodeV (h : decodeV w x = .ok i) : (w.extractLsb' 26 6).toNat < 0x2C := by
  unfold decodeV at h
  split at h
  case h_44 => cases h
  all_goals omega

theorem le_opcode_of_decode2 (h : decode2 w x = .ok i) : 0x2C ≤ (w.extractLsb' 26 6).toNat := by
  unfold decode2 at h
  split at h
  case h_18 => cases h
  all_goals omega

theorem le_opcode_of_decode3 (h : decode3 w x = .ok i) : 0x2C ≤ (w.extractLsb' 26 6).toNat := by
  unfold decode3 at h
  split at h
  case h_6 => cases h
  all_goals omega

end

/-! ## A slot's decoder reads what its table reads -/

section
variable {w : BitVec 32} {x : Option (BitVec 32)} {i : Instr}

/-! A word of zeros is in no table of slots 1 to 7, so that what a table reads there is no NOP. -/

theorem decodeRaw_of_decode1 (h : decode1 w x = .ok i) : decodeRaw 1 w x = .ok i :=
  (if_neg (by decide)).trans <| (if_neg (by rintro rfl; cases h)).trans h
theorem decodeRaw_of_decodeV {k : Nat} (slot : k = 2 ∨ k = 3) (h : decodeV w x = .ok i) : decodeRaw k w x = .ok i := by
  have nonzero : w ≠ 0 := by rintro rfl; cases h
  rcases slot with rfl | rfl
  · exact (if_neg (by decide)).trans <| (if_neg nonzero).trans ((if_pos (opcode_lt_of_decodeV h)).trans h)
  · exact (if_neg (by decide)).trans <| (if_neg nonzero).trans ((if_pos (opcode_lt_of_decodeV h)).trans h)
theorem decodeRaw_of_decode2 (h : decode2 w x = .ok i) : decodeRaw 2 w x = .ok i :=
  (if_neg (by decide)).trans <| (if_neg (by rintro rfl; cases h)).trans ((if_neg (Nat.not_lt.2 (le_opcode_of_decode2 h))).trans h)
theorem decodeRaw_of_decode3 (h : decode3 w x = .ok i) : decodeRaw 3 w x = .ok i :=
  (if_neg (by decide)).trans <| (if_neg (by rintro rfl; cases h)).trans ((if_neg (Nat.not_lt.2 (le_opcode_of_decode3 h))).trans h)
theorem decodeRaw_of_decode4 (h : decode4 w x = .ok i) : decodeRaw 4 w x = .ok i :=
  (if_neg (by decide)).trans <| (if_neg (by rintro rfl; cases h)).trans h
theorem decodeRaw_of_decode5 {k : Nat} (slot : k = 5 ∨ k = 6) (h : decode5 w x = .ok i) : decodeRaw k w x = .ok i := by
  have nonzero : w ≠ 0 := by rintro rfl; cases h
  rcases slot with rfl | rfl
  · exact (if_neg (by decide)).trans <| (if_neg nonzero).trans h
  · exact (if_neg (by decide)).trans <| (if_neg nonzero).trans h
theorem decodeRaw_of_decode7 (h : decode7 w x = .ok i) : decodeRaw 7 w x = .ok i :=
  (if_neg (by decide)).trans <| (if_neg (by rintro rfl; cases h)).trans h

end

/-- What one decoder reads as an instruction, another that reads it alike does too. -/
theorem Reads.imp {f g : BitVec 32 → Option (BitVec 32) → Except DecodeError Instr} {i : Instr} (h : Reads f i)
    (alike : ∀ {w x}, f w x = .ok i → g w x = .ok i) : Reads g i := by
  obtain ⟨w, x, words, reads⟩ := h
  exact ⟨w, x, words, alike reads⟩

/-- The tables of slots (R91 to R94): each instruction stands in the slots of one of them, or in none. -/
theorem slots_listed (i : Instr) : i.slots ∈ [[], [0], [1], [2, 3], [2], [3], [4], [5, 6], [7]] := by
  cases i <;> simp only [Instr.slots] <;> decide

theorem reads_decodeRaw {i : Instr} {k : Nat} (slot : k ∈ i.slots) (ok : i.wf = true) : Reads (decodeRaw k) i := by
  have table := slots_listed i
  simp only [List.mem_cons, List.not_mem_nil, or_false] at table
  rcases table with h | h | h | h | h | h | h | h | h
  all_goals simp only [h, List.mem_cons, List.not_mem_nil, or_false] at slot
  · exact slot ▸ reads_decode0 h
  · exact slot ▸ (reads_decode1 h ok).imp decodeRaw_of_decode1
  · exact (reads_decodeV h).imp (decodeRaw_of_decodeV slot)
  · exact slot ▸ (reads_decode2 h).imp decodeRaw_of_decode2
  · exact slot ▸ (reads_decode3 h).imp decodeRaw_of_decode3
  · exact slot ▸ (reads_decode4 h).imp decodeRaw_of_decode4
  · exact (reads_decode5 h).imp (decodeRaw_of_decode5 slot)
  · exact slot ▸ (reads_decode7 h).imp decodeRaw_of_decode7

/-- Settles O1: each table reads its instructions from the words that encode them (`reads_decode0` and its siblings), and a slot's decoder reads
what its table reads (`reads_decodeRaw`). -/
theorem encodedInstructionDecodes : Obligations.EncodedInstructionDecodes := by
  intro i k wellFormed
  obtain ⟨ok, slot⟩ := Bool.and_eq_true_iff.1 wellFormed
  refine (reads_decodeRaw (List.contains_iff_mem.1 slot) ok).imp fun raw => ?_
  rw [decodeSlot, raw]
  exact if_pos ok

/-! ## Encoding what was read -/

/-- A test that chooses between two readings: the one that it lets pass is read, or else the other. -/
theorem ite_eq_iff_or {α : Type} {c : Prop} [Decidable c] {a b r : α} : (if c then a else b) = r ↔ c ∧ a = r ∨ b = r ∧ ¬c := by
  rw [ite_eq_iff, and_comm (a := ¬c)]

/-- An instruction whose first word is `v`, and that word's parts are those of `w`. -/
theorem encode_of_word {i : Instr} {v w : BitVec 32} {l : List (BitVec 32)} {x : Option (BitVec 32)} (words : encode i = v :: l)
    (same : v = w) (taken : l = x.toList) : encode i = w :: x.toList := by
  rw [words, same, taken]

/-- Every row of the table of slots 2 and 3 tests the bits of its word that no operand holds, and takes the operands from the others. -/
theorem encode_of_decodeV {w : BitVec 32} {x : Option (BitVec 32)} {i : Instr} (h : decodeV w x = .ok i) : encode i = w :: x.toList := by
  unfold decodeV at h
  split at h <;> revert h
  all_goals simp only [ite_eq_iff_or, Except.ok.injEq, beq_iff_eq, reduceCtorEq, Option.isNone_iff_eq_none, false_and, or_false, false_imp_iff,
    and_imp, or_imp, and_assoc]
  all_goals repeat' apply And.intro
  case h_29.right =>
    intro mask taken
    split at taken <;> cases taken
    intro other
    refine encode_of_word rfl ?_ rfl
    simp (disch := decide) only [append_eq_iff, extractLsb'_extractLsb', extractLsb'_of_and_eq mask]
    decide
  all_goals
    intros
    subst_vars
    refine encode_of_word rfl ?_ rfl
    simp (disch := decide) only [append_eq_iff, extractLsb'_extractLsb', extractLsb'_of_and_eq ‹_ &&& _ = _›]
    decide

/-- So does every row of the other tables. -/
theorem encode_of_decoder {f : BitVec 32 → Option (BitVec 32) → Except DecodeError Instr}
    (table : f ∈ [decode0, decode1, decode2, decode3, decode4, decode5, decode7]) {w : BitVec 32} {x : Option (BitVec 32)} {i : Instr}
    (h : f w x = .ok i) : encode i = w :: x.toList := by
  simp only [List.mem_cons, List.not_mem_nil, or_false] at table
  rcases table with rfl | rfl | rfl | rfl | rfl | rfl | rfl
  all_goals simp only [decode0, decode1, decode2, decode3, decode4, decode5, decode7] at h
  all_goals split at h <;> revert h
  all_goals simp only [ite_eq_iff_or, Except.ok.injEq, beq_iff_eq, reduceCtorEq, Option.isNone_iff_eq_none, false_and, or_false, false_imp_iff,
    and_imp, or_imp, and_assoc]
  all_goals repeat' apply And.intro
  all_goals
    intros
    subst_vars
    refine encode_of_word rfl ?_ rfl
    simp (disch := decide) only [append_eq_iff, extractLsb'_extractLsb', extractLsb'_of_and_eq ‹_ &&& _ = _›]
    decide

theorem encode_of_decodeRaw {k : Nat} {w : BitVec 32} {x : Option (BitVec 32)} {i : Instr} (h : decodeRaw k w x = .ok i) :
    encode i = w :: x.toList := by
  unfold decodeRaw at h
  split at h
  case isTrue => exact encode_of_decoder (f := decode0) (by simp) h
  split at h
  case isTrue zero =>
    split at h
    case isTrue plain =>
      rw [Option.isNone_iff_eq_none.1 plain, zero]
      cases h
      rfl
    case isFalse => cases h
  split at h
  case h_1 => exact encode_of_decoder (f := decode1) (by simp) h
  case h_2 =>
    split at h
    · exact encode_of_decodeV h
    · exact encode_of_decoder (f := decode2) (by simp) h
  case h_3 =>
    split at h
    · exact encode_of_decodeV h
    · exact encode_of_decoder (f := decode3) (by simp) h
  case h_4 => exact encode_of_decoder (f := decode4) (by simp) h
  case h_5 => exact encode_of_decoder (f := decode5) (by simp) h
  case h_6 => exact encode_of_decoder (f := decode5) (by simp) h
  case h_7 => exact encode_of_decoder (f := decode7) (by simp) h
  case h_8 => cases h

/-- Settles O2: a row of a table is read from one word alone (`encode_of_decoder`, `encode_of_decodeV`), and a reserved value is no instruction. -/
theorem decodedWordEncodesBack : Obligations.DecodedWordEncodesBack := by
  intro k w x i h
  unfold decodeSlot at h
  split at h
  case h_2 => cases h
  case h_1 raw =>
    split at h
    case isFalse => cases h
    case isTrue ok =>
      cases h
      exact ⟨encode_of_decodeRaw raw, ok⟩

end Sys2Proof
end

section
/-! PROOFS. The step and reset, rows of bytes, and the hardwired registers (O4, O7, O8, O10, O11). -/

namespace Sys2Proof.Machine

open Sys2Proof

/-! ## The two kinds of step -/

/-- A state that names only cores of the package has a step: that of its agenda's head, or of its phase. -/
theorem step_of_coresNamed {s : State} (named : s.coresNamed) :
    step s = match s.agenda with
      | i :: _ => exec i s.popAgenda
      | [] => phaseStep s := by
  have inside : s.cores.any (fun x => decide (16384 ≤ x.1)) = false :=
    List.any_eq_false.2 fun x hx => by simpa using named x hx
  rw [step, inside]
  rfl

theorem step_of_agenda {s : State} (named : s.coresNamed) {i : Instr} {r : List Instr} (head : s.agenda = i :: r) :
    step s = exec i { s with agenda := r } := by
  rw [step_of_coresNamed named, head]
  simp only [State.popAgenda, head, List.drop_one, List.tail_cons]

theorem step_of_phase {s : State} (named : s.coresNamed) (empty : s.agenda = []) : step s = phaseStep s := by
  rw [step_of_coresNamed named, empty]

theorem phaseStep_issue {s : State} {n : Nat} {rest : List Nat} (issue : s.phase = .issue (n :: rest)) : phaseStep s = issueStep n rest s := by
  rw [phaseStep, issue]

/-- Settles O4: with an agenda its head is executed (`step_of_agenda`), and else, while a core issues, its line's next slot. -/
theorem stepRunsTheDecodedInstruction : Obligations.StepRunsTheDecodedInstruction := by
  refine fun s named => ⟨fun i r head => step_of_agenda named head, fun n rest l k i empty issue line next read => ?_⟩
  have word : slotInstr l k = some i := by rw [slotInstr, read]
  rw [step_of_phase named empty, phaseStep_issue issue, issueStep, line]
  simp only [next, word]

/-! ## Reset and memory -/

/-- Settles O7: every field of the reset state is the value stated, and a core that it does not list is one with no unit. -/
theorem resetState : Obligations.ResetState :=
  ⟨rfl, rfl, rfl, rfl, rfl, rfl, rfl, fun _ => ⟨rfl, rfl, rfl, rfl, rfl, rfl, rfl, rfl, rfl⟩⟩

/-- Settles O8: no byte is listed right after reset. -/
theorem resetKeepsMemoryForm : Obligations.ResetKeepsMemoryForm := by
  change Memory.wf [] = true
  rfl

/-- Settles O10, by the laws of memory. -/
theorem writtenBytesReadBack : Obligations.WrittenBytesReadBack :=
  fun m k l wf => ⟨memPutN_wf wf k l, fun i inside => memGet_memPutN_self wf k i l inside, fun _ outside => memGet_memPutN_other m l outside⟩

/-! ## Hardwired registers (R8) -/

theorem Core.readS_zero (c : Core) : c.readS (0 : BitVec 6) = 0 := if_pos rfl
theorem Core.readP_zero (c : Core) : c.readP 0 = true := rfl
theorem Core.readK_zero (c : Core) : c.readK 0 = BitVec.allOnes 256 := if_pos rfl
theorem Ctx.physS_zero (x : Ctx) : x.physS (0 : BitVec 6).toNat = 0 := if_pos (by decide)

/-- A result in flight to s0 is one like any other, in entry 0. -/
theorem State.givesS_zero (s : State) (lat : Nat) (v : Word) : s.givesS lat 0 v = s.becomes (s.inFlight lat [.setS 0 v]) := by
  rw [State.givesS, Ctx.physS_zero]

section
variable {s : State} {g : BitVec 4} (on : s.on g) (room : s.roomy)
include on room

theorem exec_plog (d a b m : BitVec 4) : exec (.plog g d a b m) s =
    s.givesP d (m.getLsbD ((if s.me.readP a then 2 else 0) + (if s.me.readP b then 1 else 0))) := predOp_gives on room d _
theorem exec_bitcTest (d : BitVec 4) (a b : BitVec 6) :
    exec (.bitcTest g d a b) s = s.givesP d ((s.me.readS a).getLsbD (s.me.readS b).toNat) := predOp_gives on room d _
theorem exec_cmp (d : BitVec 4) (a b : BitVec 6) {m : BitVec 4} (listed : m.toNat < 6) :
    exec (.cmp g d a b m) s = s.givesP d (cond64 m.toNat (s.me.readS a) (s.me.readS b)) := by
  change s.checked (decide (m.toNat < 6)) _ = _
  rw [decide_eq_true listed, State.checked_true, predOp_gives on room]
theorem exec_rdgt (d : BitVec 6) : exec (.rdgt g d) s = s.givesS 1 d (BitVec.ofNat 64 s.gt) := aluOp_gives on room d 1 _
theorem exec_rdcyc (d : BitVec 6) : exec (.rdcyc g d) s = s.givesS 1 d (BitVec.ofNat 64 s.cyc) := aluOp_gives on room d 1 _

/-- A scalar load whose checks pass is in flight to its destination's entry. -/
theorem loadOp_passes (d a : BitVec 6) {off : Word} {size : Nat} {sg : Bool}
    (passes : s.me.check s.cur (s.me.readS a + off) size size true false [.face, .cluster] = none) :
    loadOp s g d a off size sg = s.becomes (s.inFlight (scalarTiming (s.me.readS a + off)).1
      [.load (s.me.readS a + off) size sg (s.me.ctx.physS d.toNat)
        ((scalarTiming (s.me.readS a + off)).2 - (scalarTiming (s.me.readS a + off)).1)]) := by
  rw [loadOp, State.guarded_on on, State.room_of_lt room]
  simp only [passes, State.unless_none]

end

/-- A vector compare's delivery with room, its mask and its bits as they are. -/
theorem State.deliverK_of_roomy {s : State} (room : s.roomy) (lat n : Nat) (d : BitVec 3) (k : Mask) (z : BitVec 1) (f : Nat → Bool) :
    ∃ v m, s.becomes (s.deliverK lat n d k z f s.me) = s.becomes (s.inFlight lat [.setK d.toNat v m]) :=
  ⟨_, _, congrArg s.becomes (State.deliver_of_lt room lat _)⟩

/-- Settles O11: the reads by definition, the results in flight as for any other destination (`State.givesS_zero`, `loadOp_passes`,
`State.deliverK_of_roomy`), and their commits discarded (`Core.putK_zero` and its like). -/
theorem hardwiredRegisters : Obligations.HardwiredRegisters := by
  refine ⟨fun c => ⟨c.readS_zero, c.readP_zero, c.readK_zero⟩, fun s g a b on room => ⟨?add, ?plog⟩, fun s g m a b i i16 xw on room => ?others,
    fun s k z n a b b6 room => ?masks, fun m0 b n i s v f x y => ⟨rfl, rfl, rfl⟩⟩
  case add => rw [exec_add on room, State.givesS_zero]
  case plog =>
    rw [exec_plog on room, s.me.readP_zero]
    rfl
  case others =>
    refine ⟨⟨_, (exec_addi on room 0 a i xw).trans (s.givesS_zero 1 _)⟩, ⟨_, (exec_mul on room 0 a b).trans (s.givesS_zero 3 _)⟩,
      fun listed => ⟨_, (exec_div on room 0 a b listed).trans (s.givesS_zero 12 _)⟩, ⟨_, (exec_movi on room 0 i16 xw).trans (s.givesS_zero 1 _)⟩,
      ⟨_, (exec_rdgt on room 0).trans (s.givesS_zero 1 _)⟩, fun passes => ?load, fun listed => ⟨_, exec_cmp on room 0 a b listed⟩,
      ⟨_, exec_bitcTest on room 0 a b⟩⟩
    cases xw <;> exact ⟨_, _, (loadOp_passes on room 0 a passes).trans (by rw [Ctx.physS_zero])⟩
  case masks =>
    exact ⟨State.deliverK_of_roomy room 4 64 0 (s.me.readK k) z _, State.deliverK_of_roomy room 4 64 0 (s.me.readK k) z _,
      State.deliverK_of_roomy room 2 (2048 / intWidth n) 0 (s.me.readK k) z _,
      State.deliverK_of_roomy room 2 (2048 / intWidth n) 0 (s.me.readK k) z _⟩

end Sys2Proof.Machine
end

section
/-! PROOFS. The commit of results into the registers (O12, O13). -/

namespace Sys2Proof.Machine

open Sys2Proof

/-! ## The rotating names (R10) -/

theorem Ctx.physS_of_lt (x : Ctx) {r : Nat} (fixed : r < 32) : x.physS r = r := if_pos fixed
theorem Ctx.physS_of_ge (x : Ctx) {r : Nat} (rotating : 32 ≤ r) : x.physS r = 32 + (r - 32 + x.lrot.toNat) % 32 := if_neg (Nat.not_lt.2 rotating)

/-- Distinct names of scalars are distinct entries. -/
theorem Ctx.physS_injective (x : Ctx) {r q : Nat} (hr : r < 64) (hq : q < 64) (same : x.physS r = x.physS q) : r = q := by
  unfold Ctx.physS at same
  split at same <;> split at same <;> omega

/-- So are distinct names of vectors. -/
theorem Ctx.physV_injective (x : Ctx) {r q : Nat} (hr : r < 128) (hq : q < 128) (same : x.physV r = x.physV q) : r = q := by
  unfold Ctx.physV at same
  split at same <;> split at same <;> omega

/-- LROT of one less names each entry by the name after its own. -/
theorem Ctx.physS_rotated (x : Ctx) {r : Nat} (rotating : 32 ≤ r) (inside : r < 63) :
    { x with lrot := x.lrot - 1 }.physS (r + 1) = x.physS r := by
  rw [x.physS_of_ge rotating, Ctx.physS_of_ge _ (by omega)]
  dsimp only
  bv_omega

theorem Ctx.physS_rotated_first (x : Ctx) : { x with lrot := x.lrot - 1 }.physS 32 = x.physS 63 := by
  rw [x.physS_of_ge (by decide), Ctx.physS_of_ge _ (by decide)]
  dsimp only
  bv_omega

/-! ## The commit of a scalar or a predicate (R8, R232) -/

/-- A register whose entry is another reads as before. -/
theorem Core.readS_putS_other (c : Core) {r d : BitVec 6} (hd : d ≠ 0) (other : r ≠ d) (v : Word) :
    { c with ctx := c.ctx.putS (c.ctx.physS d.toNat) v }.readS r = c.readS r := by
  have entry : c.ctx.physS r.toNat ≠ c.ctx.physS d.toNat := fun same =>
    other (BitVec.eq_of_toNat_eq (c.ctx.physS_injective r.isLt d.isLt same))
  have nonzero : d.toNat ≠ 0 := BitVec.toNat_ne_iff_ne.2 hd
  rw [Ctx.putS, if_neg (c.ctx.physS_ne_zero nonzero), Core.readS, Core.readS]
  exact congrArg (ite _ _) (Map.get_put_other _ _ _ entry)

/-- A predicate bit reads as what was put there, and every other one as before. -/
theorem Ctx.getLsbD_putP (x : Ctx) {d : Nat} (nonzero : d ≠ 0) (b : Bool) {j : Nat} (inside : j < 16) :
    (x.putP d b).p.getLsbD j = if j = d then b else x.p.getLsbD j := by
  rw [Ctx.putP, if_neg nonzero]
  dsimp only
  have bit : (1#16 <<< d).getLsbD j = decide (j = d) := by
    rcases Nat.lt_trichotomy j d with below | rfl | above
    · simp [BitVec.getLsbD_shiftLeft, below, Nat.ne_of_lt below]
    · simp [inside]
    · simp [BitVec.getLsbD_shiftLeft, Nat.ne_of_gt above, Nat.sub_ne_zero_of_lt above, BitVec.getLsbD_one]
  cases b
  case false =>
    rw [if_neg Bool.false_ne_true, BitVec.getLsbD_and, BitVec.getLsbD_not, bit]
    by_cases here : j = d <;> simp [here, inside]
  case true =>
    rw [if_pos rfl, BitVec.getLsbD_or, bit]
    by_cases here : j = d <;> simp [here]

theorem Core.readP_putP (c : Core) {d : BitVec 4} (nonzero : d ≠ 0) (b : Bool) (r : BitVec 4) :
    { c with ctx := c.ctx.putP d.toNat b }.readP r = if r = d then b else c.readP r := by
  rw [Core.readP, Core.readP, Ctx.getLsbD_putP _ (BitVec.toNat_ne_iff_ne.2 nonzero) b r.isLt]
  by_cases here : r = d
  · rw [if_pos here, if_pos (congrArg BitVec.toNat here), beq_false_of_ne (here ▸ nonzero), Bool.false_or]
  · rw [if_neg here, if_neg (BitVec.toNat_ne_iff_ne.2 here)]

/-- Settles O12: a register's entry alone is written (`Core.readS_putS`, `Core.readS_putS_other`, `Core.readP_putP`), and the names rotate by one
(`Ctx.physS_rotated`). -/
theorem registerResultsCommit : Obligations.RegisterResultsCommit := by
  refine ⟨fun m0 b n i s d r v nonzero => ?scalar, fun m0 b n i s d r v nonzero => ?predicate, fun x r q hr hq =>
    ⟨x.physS_injective hr hq, x.physS_of_lt, fun rotating inside => x.physS_rotated rotating inside, x.physS_rotated_first⟩⟩
  case scalar =>
    intro t
    have core : t.core n = { s.core n with ctx := (s.core n).ctx.putS ((s.core n).ctx.physS d.toNat) v } := State.core_setCore ..
    rw [core]
    refine ⟨Core.readS_putS _ nonzero v, fun other => Core.readS_putS_other _ nonzero other v, rfl, rfl, rfl, ?p, ?vstat,
      fun m other => s.core_setCore_other _ other, fun _ => rfl⟩
    all_goals
      unfold Ctx.putS
      split <;> rfl
  case predicate =>
    intro t
    have core : t.core n = { s.core n with ctx := (s.core n).ctx.putP d.toNat v } := State.core_setCore ..
    rw [core]
    refine ⟨(Core.readP_putP _ nonzero v d).trans (if_pos rfl), fun other => (Core.readP_putP _ nonzero v r).trans (if_neg other), ?s, rfl, rfl,
      fun m other => s.core_setCore_other _ other, fun _ => rfl⟩
    unfold Ctx.putP
    split <;> rfl

/-! ## The commit of a vector or a tile row (R120, R138) -/

theorem Core.getLsbD_readV_putV (c : Core) (d : BitVec 7) (v m : Vec) {j : Nat} (inside : j < 2048) :
    ((c.putV (c.ctx.physV d.toNat) v m).readV d).getLsbD j = if m.getLsbD j then v.getLsbD j else (c.readV d).getLsbD j := by
  rw [← getLsbD_merge inside]
  exact congrArg (fun x : Vec => x.getLsbD j) (Map.get_put_self ..)

theorem Core.readV_putV_other (c : Core) {d r : BitVec 7} (other : r ≠ d) (v m : Vec) :
    (c.putV (c.ctx.physV d.toNat) v m).readV r = c.readV r :=
  Map.get_put_other _ _ _ fun same => other (BitVec.eq_of_toNat_eq (c.ctx.physV_injective r.isLt d.isLt same))

theorem Core.getLsbD_tileRow_putTile (c : Core) (t r : Nat) (v m : Vec) {j : Nat} (inside : j < 2048) :
    ((c.putTile t r v m).tileRow t r).getLsbD j = if m.getLsbD j then v.getLsbD j else (c.tileRow t r).getLsbD j := by
  rw [← getLsbD_merge inside]
  exact congrArg (fun x : Vec => x.getLsbD j) (Map.get_put_self ..)

theorem Core.tileRow_putTile_other (c : Core) {t r q y : Nat} (hr : r < 64) (hy : y < 64) (other : ¬(q = t ∧ y = r)) (v m : Vec) :
    (c.putTile t r v m).tileRow q y = c.tileRow q y := Map.get_put_other _ _ _ (by omega)

/-! ## Lanes and their bits (R7) -/

theorem testBit_laneNat {n : Nat} (v : BitVec n) (i w j : Nat) : (laneNat v i w).testBit j = (decide (j < w) && v.getLsbD (i * w + j)) := by
  rw [laneNat, Nat.testBit_mod_two_pow, Nat.testBit_shiftRight, BitVec.testBit_toNat]

/-- Bit `j` of lane `i`. -/
theorem testBit_packNat {w n i j : Nat} (f : Nat → Nat) (lane : i < n) (bit : j < w) : (packNat w n f).testBit (i * w + j) = (f i).testBit j := by
  induction n with
  | zero => omega
  | succ n ih =>
    rw [packNat_succ, Nat.testBit_two_pow_mul_add _ (packNat_lt w n f)]
    rcases Nat.lt_succ_iff_lt_or_eq.1 lane with below | rfl
    · have inside : i * w + j < n * w := by
        calc i * w + j < (i + 1) * w := by rw [Nat.succ_mul]; omega
          _ ≤ n * w := Nat.mul_le_mul_right w below
      rw [if_pos inside, ih below]
    · rw [if_neg (by omega), Nat.add_sub_cancel_left, Nat.testBit_mod_two_pow, decide_eq_true bit, Bool.true_and]

theorem getLsbD_ofLanes {w n i j : Nat} (f : Nat → Nat) (fits : n * w ≤ 2048) (lane : i < n) (bit : j < w) :
    (ofLanes w n f).getLsbD (i * w + j) = (f i).testBit j := by
  have inside : i * w + j < 2048 := by
    calc i * w + j < (i + 1) * w := by rw [Nat.succ_mul]; omega
      _ ≤ n * w := Nat.mul_le_mul_right w lane
      _ ≤ 2048 := fits
  rw [ofLanes, BitVec.getLsbD_ofNat, decide_eq_true inside, Bool.true_and, testBit_packNat f lane bit]

theorem getLsbD_writeMask {w i j : Nat} (k : Mask) (z : BitVec 1) (lane : i < 2048 / w) (bit : j < w) :
    (writeMask w k z).getLsbD (i * w + j) = (z == 1 || k.getLsbD i) := by
  have fits : 2048 / w * w ≤ 2048 := Nat.div_mul_le_self ..
  unfold writeMask
  split
  case isTrue all =>
    have inside : i * w + j < 2048 := by
      calc i * w + j < (i + 1) * w := by rw [Nat.succ_mul]; omega
        _ ≤ 2048 / w * w := Nat.mul_le_mul_right w lane
        _ ≤ 2048 := fits
    rw [BitVec.getLsbD_allOnes, decide_eq_true inside]
    cases k.getLsbD i <;> simp_all
  case isFalse some =>
    rw [laneMask, getLsbD_ofLanes _ fits lane bit]
    have keeps : ¬z = 1#1 := some
    cases k.getLsbD i <;> simp [keeps, bit, Nat.testBit_two_pow_sub_one]

/-- A lane after the commit of a lane-wise result: its value modulo 2^w, 0, or what it held. -/
theorem Core.laneNat_readV_putV_laneResult (c : Core) (d : BitVec 7) (k : Mask) (z : BitVec 1) (f : Nat → Nat) {w i : Nat} (lane : i < 2048 / w) :
    laneNat ((c.putV (c.ctx.physV d.toNat) (laneResult w k f) (writeMask w k z)).readV d) i w =
      if k.getLsbD i then f i % 2 ^ w else if z = 1 then 0 else laneNat (c.readV d) i w := by
  have fits : 2048 / w * w ≤ 2048 := Nat.div_mul_le_self ..
  refine Nat.eq_of_testBit_eq fun j => ?_
  rw [testBit_laneNat]
  by_cases bit : j < w
  · have inside : i * w + j < 2048 := by
      calc i * w + j < (i + 1) * w := by rw [Nat.succ_mul]; omega
        _ ≤ 2048 / w * w := Nat.mul_le_mul_right w lane
        _ ≤ 2048 := fits
    rw [c.getLsbD_readV_putV d _ _ inside, getLsbD_writeMask k z lane bit, laneResult, getLsbD_ofLanes _ fits lane bit]
    by_cases zero : z = 1#1 <;> cases k.getLsbD i <;> simp [zero, bit, testBit_laneNat, Nat.testBit_mod_two_pow]
  · split
    · simp [bit, Nat.testBit_mod_two_pow]
    · split <;> simp [bit, testBit_laneNat]

/-- Settles O13: bit by bit (`Core.getLsbD_readV_putV`, `Core.getLsbD_tileRow_putTile`), lane by lane (`Core.laneNat_readV_putV_laneResult`). -/
theorem vectorResultCommits : Obligations.VectorResultCommits := by
  refine ⟨fun m0 b n i s d r v m => ?vector, fun m0 b n i s d k z f w j width lane => ?lanes, fun m0 b n i s t r v m f ht hr => ?tile⟩
  case vector =>
    intro t
    have core : t.core n = (s.core n).putV ((s.core n).ctx.physV d.toNat) v m := State.core_setCore ..
    rw [core]
    exact ⟨fun j inside => Core.getLsbD_readV_putV _ d v m inside, fun other => Core.readV_putV_other _ other v m, rfl, rfl, rfl,
      fun j other => s.core_setCore_other _ other, fun _ => rfl⟩
  case lanes =>
    intro t
    have core : t.core n = (s.core n).putV ((s.core n).ctx.physV d.toNat) (laneResult w k f) (writeMask w k z) := State.core_setCore ..
    rw [core]
    exact Core.laneNat_readV_putV_laneResult _ d k z f lane
  case tile =>
    intro u w
    have core : u.core n = { (s.core n).putTile t r v m with
        qa := (s.core n).qa.map (QEntry.rowWritten t r v m), qb := (s.core n).qb.map (QEntry.rowWritten t r v m),
        nt := (s.core n).nt.map (QEntry.rowWritten t r v m) } := State.core_setCore ..
    rw [core]
    exact ⟨fun j inside => Core.getLsbD_tileRow_putTile _ t r v m inside, fun q y hy other => Core.tileRow_putTile_other _ hr hy other v m, rfl, rfl,
      rfl, fun j other => s.core_setCore_other _ other, fun _ => rfl, rfl⟩

end Sys2Proof.Machine
end

section
/-! PROOFS. Compares, predicate logic, selection, bit counts and field extraction (O18, R113). -/

namespace Sys2Proof.Machine

open Sys2Proof

/-! ## Conditions, selection and reserved values (R113) -/

theorem cond64_eq (x y : Word) : cond64 0 x y = decide (x = y) := rfl
theorem cond64_ne (x y : Word) : cond64 1 x y = decide (x ≠ y) := by
  by_cases same : x = y <;> simp [cond64, same]
theorem cond64_lt (x y : Word) : cond64 2 x y = decide (x.toInt < y.toInt) := rfl
theorem cond64_ge (x y : Word) : cond64 3 x y = decide (y.toInt ≤ x.toInt) := by
  rw [← decide_eq_decide.2 Int.not_lt, decide_not]
  rfl
theorem cond64_ltu (x y : Word) : cond64 4 x y = decide (x.toNat < y.toNat) := rfl
theorem cond64_geu (x y : Word) : cond64 5 x y = decide (y.toNat ≤ x.toNat) := by
  rw [← decide_eq_decide.2 Nat.not_lt, decide_not]
  rfl

theorem exec_cmp_reserved {m : BitVec 4} (h : 6 ≤ m.toNat) (s : State) (g d : BitVec 4) (a b : BitVec 6) :
    exec (.cmp g d a b m) s = s.becomes (s.fault cILLEGAL (BitVec.ofNat 64 s.slot) 0 s.me) := State.checked_lt_of_ge h s _
theorem exec_bitc_reserved {m : BitVec 4} (h : 3 ≤ m.toNat) (s : State) (g : BitVec 4) (d a : BitVec 6) :
    exec (.bitc g d a m) s = s.becomes (s.fault cILLEGAL (BitVec.ofNat 64 s.slot) 0 s.me) := State.checked_lt_of_ge h s _

section
variable {s : State} {g : BitVec 4} (on : s.on g) (room : s.roomy)
include on room

theorem exec_cmpi (c : BitVec 2) (d : BitVec 4) (a : BitVec 6) (i : BitVec 10) (xw : Option (BitVec 32)) :
    exec (.cmpi g c d a i xw) s = s.givesP d (cond64 (cmpiCond c) (s.me.readS a) (imm10 i xw)) := predOp_gives on room d _
theorem exec_sel (d a b : BitVec 6) (m : BitVec 4) :
    exec (.sel g d a b m) s = s.givesS 1 d (if s.me.readP m then s.me.readS a else s.me.readS b) := aluOp_gives on room d 1 _
theorem exec_bitc (d a : BitVec 6) {m : BitVec 4} (listed : m.toNat < 3) :
    exec (.bitc g d a m) s = s.givesS 1 d (bitCount m.toNat (s.me.readS a)) := checked_aluOp_gives on room listed d 1 _
theorem exec_ext (d a b : BitVec 6) {m : BitVec 4} (listed : m.toNat < 2) :
    exec (.ext g d a b m) s = s.givesS 1 d (extract64 (m == 1) (s.me.readS a) (s.me.readS b)) := checked_aluOp_gives on room listed d 1 _

end

/-! ## Counts of bits -/

theorem foldl_count (p : Nat → Bool) (l : List Nat) (n : Nat) :
    l.foldl (fun a i => if p i then a + 1 else a) n = n + (l.filter p).length := by
  induction l generalizing n with
  | nil => rfl
  | cons i l ih =>
    rw [List.foldl_cons, ih, List.filter_cons]
    cases p i
    · rfl
    · exact Nat.add_right_comm n 1 _

theorem popcount_eq (w n : Nat) : popcount w n = ((List.range w).filter fun i => n.testBit i).length := by
  rw [popcount, foldl_count, Nat.zero_add]

/-- The bits above the highest one are zeros, and it is a one. -/
theorem leadingZeros_spec (x : Word) : leadingZeros 64 x.toNat ≤ 64 ∧ (∀ i, 64 - leadingZeros 64 x.toNat ≤ i → x.getLsbD i = false) ∧
    (leadingZeros 64 x.toNat < 64 → x.getLsbD (63 - leadingZeros 64 x.toNat) = true) := by
  rw [leadingZeros, Nat.mod_eq_of_lt x.isLt]
  by_cases zero : x.toNat = 0
  · rw [if_pos zero, BitVec.eq_of_toNat_eq (x := x) (y := 0) zero]
    exact ⟨le_rfl, fun _ _ => BitVec.getLsbD_zero, fun inside => absurd inside (lt_irrefl _)⟩
  · have top : x.toNat.log2 < 64 := (Nat.log2_lt zero).2 x.isLt
    rw [if_neg zero]
    refine ⟨by omega, fun i above => ?_, fun _ => ?_⟩
    · exact Nat.testBit_lt_two_pow ((Nat.log2_lt zero).1 (by omega))
    · rw [show 63 - (64 - 1 - x.toNat.log2) = x.toNat.log2 by omega]
      exact Nat.testBit_log2 zero

/-- The bits below the lowest one are zeros, and it is a one. -/
theorem trailingZeros_spec (x : Word) : trailingZeros 64 x.toNat ≤ 64 ∧ (∀ i, i < trailingZeros 64 x.toNat → x.getLsbD i = false) ∧
    (trailingZeros 64 x.toNat < 64 → x.getLsbD (trailingZeros 64 x.toNat) = true) := by
  rw [trailingZeros]
  cases found : (List.range 64).find? fun i => x.toNat.testBit i with
  | none =>
    rw [List.find?_range_eq_none] at found
    exact ⟨le_rfl, fun i below => show x.toNat.testBit i = false by simpa using found i below,
      fun inside => absurd inside (lt_irrefl _)⟩
  | some k =>
    rw [List.find?_range_eq_some] at found
    obtain ⟨one, inside, below⟩ := found
    exact ⟨(List.mem_range.1 inside).le, fun i lt => show x.toNat.testBit i = false by simpa using below i lt, fun _ => one⟩

/-! ## Field extraction -/

/-- A word of `w` bits in two's complement is the signed value of the bit vector. -/
theorem signed_eq_toInt {w : Nat} (pos : 0 < w) (n : Nat) : signed w n = (BitVec.ofNat w n).toInt := by
  obtain ⟨v, rfl⟩ := Nat.exists_eq_add_of_lt pos
  rw [signed, BitVec.toInt_eq_toNat_cond, BitVec.toNat_ofNat]
  have half : 2 * 2 ^ (0 + v + 1 - 1) = 2 ^ (0 + v + 1) := by rw [Nat.mul_comm, ← Nat.pow_succ]; rfl
  split <;> split <;> omega

/-- The low `w` bits of a word of `w` bits taken out of a wider one, and the bits above them. -/
theorem getLsbD_extract64 (sx : Bool) (x y : Word) {i : Nat} (inside : i < 64) :
    (extract64 sx x y).getLsbD i =
      if i < min (y.toNat / 256 % 128) 64 then x.getLsbD (y.toNat % 128 + i)
      else sx && decide (0 < min (y.toNat / 256 % 128) 64) && x.getLsbD (y.toNat % 128 + (min (y.toNat / 256 % 128) 64 - 1)) := by
  rw [extract64, show y.toNat >>> 8 = y.toNat / 256 from Nat.shiftRight_eq_div_pow _ 8]
  generalize y.toNat / 256 % 128 = size
  generalize y.toNat % 128 = pos
  have small : min size 64 ≤ 64 := Nat.min_le_right ..
  generalize min size 64 = w at small
  have bit (j : Nat) : (x.toNat >>> pos % 2 ^ w).testBit j = (decide (j < w) && x.getLsbD (pos + j)) := by
    rw [Nat.testBit_mod_two_pow, Nat.testBit_shiftRight]
    rfl
  rcases Nat.eq_zero_or_pos w with rfl | pos'
  · simp
  · rw [if_neg pos'.ne']
    cases sx
    · rw [if_neg Bool.false_ne_true, BitVec.getLsbD_ofNat, bit, decide_eq_true inside]
      by_cases low : i < w <;> simp [low]
    · rw [if_pos rfl, signed_eq_toInt pos', ← BitVec.signExtend, BitVec.getLsbD_signExtend, decide_eq_true inside, BitVec.msb_eq_getLsbD_last,
        BitVec.getLsbD_ofNat, BitVec.getLsbD_ofNat, bit, bit]
      by_cases low : i < w <;> simp [low, pos']

/-! ## The obligation -/

/-- Settles O18: each instruction gives its function of the sources, and the functions are those of `cond64_eq` and its like,
`popcount_eq`, `leadingZeros_spec`, `trailingZeros_spec` and `getLsbD_extract64`. -/
theorem comparesAndBits : Obligations.ComparesAndBits := by
  refine ⟨fun s g d p q m a b i xw on room => ?compares, fun s g m d a b on room => ?bits,
    fun s g d m e a b => ⟨fun h => exec_cmp_reserved h s g d a b, fun h => exec_bitc_reserved (by omega) s g e a⟩⟩
  case compares =>
    intro x y z
    have imm : imm10 i xw = z := by cases xw <;> rfl
    refine ⟨exec_cmp on room d a b (by decide), ?_, exec_cmp on room d a b (by decide), ?_, exec_cmp on room d a b (by decide), ?_,
      imm ▸ exec_cmpi on room 0 d a i xw, ?_, imm ▸ exec_cmpi on room 2 d a i xw, imm ▸ exec_cmpi on room 3 d a i xw, ?_, ?_⟩
    · exact (exec_cmp on room d a b (by decide)).trans (congrArg _ (cond64_ne x y))
    · exact (exec_cmp on room d a b (by decide)).trans (congrArg _ (cond64_ge x y))
    · exact (exec_cmp on room d a b (by decide)).trans (congrArg _ (cond64_geu x y))
    · exact (exec_cmpi on room 1 d a i xw).trans (congrArg _ (imm ▸ cond64_ne x z))
    · rw [exec_plog on room]
      cases s.me.readP p <;> cases s.me.readP q <;> rfl
    · rw [exec_bitcTest on room]
      refine congrArg _ ?_
      by_cases inside : y.toNat < 64
      · rw [decide_eq_true inside, Bool.true_and]
      · rw [decide_eq_false inside, Bool.false_and]
        exact BitVec.getLsbD_of_ge _ _ (Nat.not_lt.1 inside)
  case bits =>
    intro x y
    obtain ⟨clz_le, clz_above, clz_top⟩ := leadingZeros_spec x
    obtain ⟨ctz_le, ctz_below, ctz_low⟩ := trailingZeros_spec x
    refine ⟨exec_sel on room d a b m, ⟨popcount 64 x.toNat, ?_, exec_bitc on room d a (by decide), popcount_eq 64 x.toNat⟩,
      ⟨leadingZeros 64 x.toNat, clz_le, exec_bitc on room d a (by decide), fun i above _ => clz_above i above, clz_top⟩,
      ⟨trailingZeros 64 x.toNat, ctz_le, exec_bitc on room d a (by decide), ctz_below, ctz_low⟩,
      extract64 false x y, extract64 true x y, exec_ext on room d a b (by decide), exec_ext on room d a b (by decide), fun i low => ?_,
      fun i high inside => ?_⟩
    · rw [popcount_eq]
      exact (List.length_filter_le ..).trans_eq List.length_range
    · have inside : i < 64 := low.trans_le (Nat.min_le_right ..)
      rw [getLsbD_extract64 false x y inside, getLsbD_extract64 true x y inside, if_pos low, if_pos low]
      exact ⟨rfl, rfl⟩
    · rw [getLsbD_extract64 false x y inside, getLsbD_extract64 true x y inside, if_neg (Nat.not_lt.2 high), if_neg (Nat.not_lt.2 high)]
      exact ⟨rfl, rfl⟩

end Sys2Proof.Machine
end

section
/-! PROOFS. Scalar loads, stores and atomics at issue: those whose checks pass and those that stop (O20, O21, R115 to R117). -/

namespace Sys2Proof.Machine

open Sys2Proof

/-! ## When a scalar access performs and delivers (R115, R117) -/

/-- The cycles from the issue of a scalar access to its performing. -/
theorem scalarTiming_fst (ea : Word) : (scalarTiming ea).1 = if winOf ea.toNat = some .face then 2 else 10 := by
  unfold scalarTiming
  split <;> rfl

/-- Those from its performing to the delivery of the value read. -/
theorem scalarTiming_sub (ea : Word) : (scalarTiming ea).2 - (scalarTiming ea).1 = if winOf ea.toNat = some .face then 2 else 4 := by
  unfold scalarTiming
  split <;> rfl

/-! ## Accesses whose checks pass, and those that stop (R115, R116) -/

section
variable {s : State} {g : BitVec 4} (on : s.on g) (room : s.roomy) (d a b : BitVec 6) {off : Word} {size : Nat}
include on room

/-- A load in flight, by the window of its address. -/
theorem loadOp_passes_by_window {sg : Bool} (passes : s.me.check s.cur (s.me.readS a + off) size size true false [.face, .cluster] = none) :
    loadOp s g d a off size sg =
      if winOf (s.me.readS a + off).toNat = some .face then
        s.becomes (s.inFlight 2 [.load (s.me.readS a + off) size sg (s.me.ctx.physS d.toNat) 2])
      else s.becomes (s.inFlight 10 [.load (s.me.readS a + off) size sg (s.me.ctx.physS d.toNat) 4]) := by
  rw [loadOp_passes on room d a passes, scalarTiming_sub, scalarTiming_fst]
  split <;> rfl

theorem storeOp_passes (passes : s.me.check s.cur (s.me.readS a + off) size size false true [.face, .cluster] = none) :
    storeOp s g d a off size = s.becomes (s.inFlight (if winOf (s.me.readS a + off).toNat = some .face then 2 else 10)
      [.store (s.me.readS a + off) size (s.me.readS d)]) := by
  rw [storeOp, State.guarded_on on, State.room_of_lt room]
  simp only [passes, State.unless_none, scalarTiming_fst]

theorem atomOp_passes {op : Option Nat} (passes : s.me.check s.cur (s.me.readS a) 8 8 true true [.face, .cluster] = none) :
    atomOp s g d a b op = s.becomes (s.inFlight (if winOf (s.me.readS a).toNat = some .face then 2 else 10)
      [.atom (s.me.readS a) op (s.me.readS b) (s.me.readS d) (s.me.ctx.physS d.toNat)
        (if winOf (s.me.readS a).toNat = some .face then 2 else 4)]) := by
  rw [atomOp, State.guarded_on on, State.room_of_lt room]
  simp only [passes, State.unless_none, scalarTiming_sub]
  rw [scalarTiming_fst]

theorem loadOp_stops {sg : Bool} {code : Nat} {v : Word}
    (stops : s.me.check s.cur (s.me.readS a + off) size size true false [.face, .cluster] = some (code, v)) :
    loadOp s g d a off size sg = s.becomes (s.fault code (s.me.readS a + off) 0 s.me) := by
  rw [loadOp, State.guarded_on on, State.room_of_lt room]
  simp only [stops, State.unless_some]

theorem storeOp_stops {code : Nat} {v : Word}
    (stops : s.me.check s.cur (s.me.readS a + off) size size false true [.face, .cluster] = some (code, v)) :
    storeOp s g d a off size = s.becomes (s.fault code (s.me.readS a + off) 0 s.me) := by
  rw [storeOp, State.guarded_on on, State.room_of_lt room]
  simp only [stops, State.unless_some]

theorem atomOp_stops {op : Option Nat} {code : Nat} {v : Word}
    (stops : s.me.check s.cur (s.me.readS a) 8 8 true true [.face, .cluster] = some (code, v)) :
    atomOp s g d a b op = s.becomes (s.fault code (s.me.readS a) 0 s.me) := by
  rw [atomOp, State.guarded_on on, State.room_of_lt room]
  simp only [stops, State.unless_some]

end

theorem exec_atom {m : BitVec 4} (listed : m.toNat < 9) (s : State) (g : BitVec 4) (d a b : BitVec 6) :
    exec (.atom g d a b m) s = atomOp s g d a b (some m.toNat) := by
  change s.checked (decide (m.toNat < 9)) _ = _
  rw [decide_eq_true listed, State.checked_true]

/-- Settles O20: the loads by `loadOp_passes_by_window`, the stores by `storeOp_passes`, the atomics by `atomOp_passes`. -/
theorem scalarAccesses : Obligations.ScalarAccesses := by
  refine ⟨fun s g d a i j xw on room => ?loads, fun s g d a b i xw m on room => ?stores⟩
  case loads =>
    intro off off16 loads ok x
    have imm : imm10 i xw = off := by cases xw <;> rfl
    have imm16 : imm6 j xw = off16 := by cases xw <;> rfl
    rw [← imm, ← imm16]
    exact ⟨loadOp_passes_by_window on room d a, loadOp_passes_by_window on room d a, loadOp_passes_by_window on room d a,
      loadOp_passes_by_window on room d a, loadOp_passes_by_window on room d a, loadOp_passes_by_window on room d a,
      loadOp_passes_by_window on room d a⟩
  case stores =>
    intro off ea at_ lat back stores ok
    have at_size (size : Nat) (passes : ok size) : storeOp s g d a (imm10 i xw) size = stores size := by
      cases xw <;> exact storeOp_passes on room d a passes
    exact ⟨at_size 1, at_size 2, at_size 4, at_size 8, fun passes =>
      ⟨fun listed => (exec_atom listed s g d a b).trans (atomOp_passes on room d a b passes), atomOp_passes on room d a b passes⟩⟩

/-! ## The first failing check (R116) -/

/-- An access within one page touches no second page. -/
theorem pageStarts_of_one_page {ea len : Nat} (inside : ea % 0x4000 + len ≤ 0x4000) : pageStarts ea len = [ea] := by
  rw [pageStarts, List.cons_eq_cons]
  refine ⟨rfl, List.filter_eq_nil_iff.2 fun x hx => ?_⟩
  obtain ⟨i, -, rfl⟩ := List.mem_map.1 hx
  simp only [decide_eq_true_eq, Nat.not_lt]
  omega

theorem Core.lookup_of_no_window {c : Core} {ea : Nat} (none : winOf ea = none) : c.lookup ea = .none := by
  rw [Core.lookup, none]

/-- An address that no entry covers is OUT_OF_TABLE, whatever follows it. -/
theorem Core.check_uncovered {c : Core} {x : Word} (uncovered : c.lookup x.toNat = none) (n len align : Nat) (rd wr : Bool) (wins : List Win) :
    c.check n x len align rd wr wins = some (cTABLE, x) := by
  simp [Core.check, pageStarts, uncovered]

section
variable {c : Core} {n len align k : Nat} {x : Word} {e : BitVec 128} {w : Win} {rd wr : Bool} (covered : c.lookup x.toNat = some (k, e))
  (window : winOf x.toNat = some w) (inside : x.toNat % 0x4000 + len ≤ 0x4000)
include covered window inside

/-- The checks of one covered page, in their order. -/
theorem Core.check_one_page : c.check n x len align rd wr [.face, .cluster] =
    if w = .device ∨ frameOk n w e = false then some (cCLASS, x)
    else if x.toNat % align ≠ 0 then some (cALIGN, x)
    else if lttP e = false then some (cPAGE, x)
    else if (rd = true ∧ lttRD e = false) ∨ (wr = true ∧ lttWR e = false) ∨ (w = .face ∧ c.owned.getLsbD (x.toNat / 0x20000) = false) then
      some (cPERM, x)
    else none := by
  simp only [Core.check, pageStarts_of_one_page inside, List.find?_singleton, covered, window, Option.isNone_some]
  cases w
  case device => simp
  case face | cluster =>
    cases frame : frameOk n _ e
    · simp
    · by_cases aligned : x.toNat % align = 0
      · cases present : lttP e
        · simp [aligned]
        · cases c.owned.getLsbD (x.toNat / 0x20000) <;> cases rd <;> cases wr <;> cases lttRD e <;> cases lttWR e <;> simp [aligned]
      · simp [aligned]

end

/-- Settles O21: a failing check is the fault of the access (`loadOp_stops` and its like), and the first failing one of a page that an entry
covers is that of `Core.check_one_page`. -/
theorem scalarAccessFaults : Obligations.ScalarAccessFaults := by
  refine ⟨fun s g m d a b j i xw on room => ?stops, fun c n x z rd wr size => ?first⟩
  case stops =>
    intro x ea ea16 stops
    have load (size : Nat) (sg : Bool) : stops true false ea size (loadOp s g d a (imm10 i xw) size sg) := fun code v fails => by
      cases xw <;> exact loadOp_stops on room d a fails
    have load16 (size : Nat) (sg : Bool) : stops true false ea16 size (loadOp s g d a (imm6 j xw) size sg) := fun code v fails => by
      cases xw <;> exact loadOp_stops on room d a fails
    have store (size : Nat) : stops false true ea size (storeOp s g d a (imm10 i xw) size) := fun code v fails => by
      cases xw <;> exact storeOp_stops on room d a fails
    exact ⟨load 1 true, load 1 false, load16 2 true, load16 2 false, load16 4 true, load16 4 false, load 8 false, store 1, store 2, store 4, store 8,
      fun listed code v fails => (exec_atom listed s g d a b).trans (atomOp_stops on room d a b fails),
      fun code v fails => atomOp_stops on room d a b fails⟩
  case first =>
    intro first
    refine ⟨Core.lookup_of_no_window, fun uncovered => Core.check_uncovered uncovered .., fun k e w covered window inside => ?_⟩
    intro denied
    have eq : first = _ := Core.check_one_page (n := n) (align := z) (rd := rd) (wr := wr) covered window inside
    rw [eq]
    refine ⟨fun fails => if_pos fails, fun reached frame => ?_⟩
    rw [if_neg (by simp [reached, frame])]
    refine ⟨fun misaligned => if_pos misaligned, fun aligned absent => ?_, fun aligned present => ?_⟩
    · rw [if_neg (not_not.2 aligned), if_pos absent]
    · rw [if_neg (not_not.2 aligned), if_neg (by simp [present])]
      exact ⟨fun fails => if_pos fails, fun passes => if_neg passes⟩

end Sys2Proof.Machine
end

section
/-! PROOFS. Scalar loads, stores and atomics as they perform (O22, R115, R117, R118). -/

namespace Sys2Proof.Machine

open Sys2Proof

/-! ## Bytes and the numbers that they hold (R3) -/

/-- Bit `i` of byte `k` of a number. -/
theorem testBit_ofBytes (l : List Byte) (k : Nat) {i : Nat} (bit : i < 8) : (ofBytes l).testBit (8 * k + i) = (l.getD k 0).getLsbD i := by
  induction l generalizing k with
  | nil => simp [ofBytes]
  | cons b l ih =>
    have split : ofBytes (b :: l) = 2 ^ 8 * ofBytes l + b.toNat := Nat.add_comm ..
    rw [split, Nat.testBit_two_pow_mul_add _ b.isLt]
    cases k with
    | zero =>
      rw [if_pos (by omega), Nat.mul_zero, Nat.zero_add]
      rfl
    | succ k =>
      rw [if_neg (by omega), show 8 * (k + 1) + i - 8 = 8 * k + i by omega, ih]
      rfl

theorem testBit_memNat (m : Memory) (k n j : Nat) {i : Nat} (bit : i < 8) :
    (memNat m k n).testBit (8 * j + i) = (decide (j < n) && (memGet m (k + j)).getLsbD i) := by
  rw [memNat, testBit_ofBytes _ j bit, memGetN]
  by_cases inside : j < n
  · simp [List.getD_eq_getElem?_getD, inside]
  · simp [List.getD_eq_getElem?_getD, inside]

theorem length_toBytes (n v : Nat) : (toBytes n v).length = n := by rw [toBytes, List.length_map, List.length_range]

theorem getElem_toBytes {n k : Nat} (v : Nat) (inside : k < (toBytes n v).length) : (toBytes n v)[k] = BitVec.ofNat 8 (v >>> (8 * k)) := by
  simp [toBytes]

/-- A byte of a word is eight of its bits. -/
theorem ofNat_shiftRight_eq_extractLsb' (v : Word) (k : Nat) : BitVec.ofNat 8 (v.toNat >>> k) = v.extractLsb' k 8 := by
  rw [BitVec.extractLsb']

/-- The bytes of a number written in a row hold it. -/
theorem memNat_memPutN_toBytes {m : Memory} (wf : m.wf = true) (k n v : Nat) : memNat (memPutN m k (toBytes n v)) k n = v % 2 ^ (8 * n) := by
  refine Nat.eq_of_testBit_eq fun x => ?_
  rw [← Nat.div_add_mod x 8, testBit_memNat _ _ _ _ (Nat.mod_lt _ (by decide)), Nat.testBit_mod_two_pow]
  have bit : x % 8 < 8 := Nat.mod_lt _ (by decide)
  by_cases inside : x / 8 < n
  · rw [memGet_memPutN_self wf k _ _ (by rwa [length_toBytes]), getElem_toBytes, BitVec.getLsbD_ofNat, Nat.testBit_shiftRight,
      decide_eq_true inside, decide_eq_true bit, decide_eq_true (show 8 * (x / 8) + x % 8 < 8 * n by omega), Bool.true_and]
  · rw [decide_eq_false inside, decide_eq_false (show ¬8 * (x / 8) + x % 8 < 8 * n by omega), Bool.false_and, Bool.false_and]

/-! ## A store performs (R118, R233) -/

/-- An aligned access lies within one page. -/
theorem inside_page_of_aligned {ea z : Nat} (size : z = 1 ∨ z = 2 ∨ z = 4 ∨ z = 8) (aligned : ea % z = 0) : ea % 0x4000 + z ≤ 0x4000 := by
  rcases size with rfl | rfl | rfl | rfl <;> omega

/-- Bytes within one page are one write of the cycle. -/
theorem State.writeAt_of_one_page (s : State) (n seq slot : Nat) {ea : Word} {l : List Byte} (inside : ea.toNat % 0x4000 + l.length ≤ 0x4000)
    (collides : Bool) : s.writeAt n seq slot ea l collides = s.write n seq slot ((s.core n).keyOf n ea.toNat) l collides := by
  have whole : (l.drop (ea.toNat - ea.toNat)).take (0x4000 - ea.toNat % 0x4000) = l := by
    rw [Nat.sub_self, List.drop_zero, List.take_of_length_le (by omega)]
  rw [State.writeAt, pageStarts_of_one_page inside, List.foldl_cons, List.foldl_nil, whole]

theorem applyWrite_store {w : Wr} (plain : w.atom = none) (t : State) : applyWrite t w = t.writeKey w.key w.data := by
  rw [applyWrite, plain]

/-! ## An atomic performs (R117) -/

theorem applyWrite_atom {op : Option Nat} {v cmp old new : Word}
    (after : (match op with | some m => atomicNew m old v | none => if old = cmp then v else old) = new) {t : State} {w : Wr} {d lat : Nat}
    (atom : w.atom = some (op, v, cmp, d, lat)) (before : BitVec.ofNat 64 (memNat t.mem w.key 8) = old) :
    applyWrite t w = (t.writeKey w.key (toBytes 8 new.toNat)).onCore w.core (Core.deliverAtom w.tail lat w.seq w.slot d old) := by
  rw [applyWrite, atom, ← after, ← before] <;> rfl

/-- The operations as R117 lists them. -/
theorem atomicNew_listed (op : Option Nat) (old v cmp : Word) :
    (match op with | some m => atomicNew m old v | none => if old = cmp then v else old) = match op with
      | some 0 => old + v | some 1 => old &&& v | some 2 => old ||| v | some 3 => old ^^^ v
      | some 4 => (if old.toInt ≤ v.toInt then old else v) | some 5 => (if old.toInt ≤ v.toInt then v else old)
      | some 6 => (if old.toNat ≤ v.toNat then old else v) | some 7 => (if old.toNat ≤ v.toNat then v else old)
      | some _ => v
      | none => if old = cmp then v else old := by
  match op with
  | none | some 0 | some 1 | some 2 | some 3 | some (_ + 8) => rfl
  | some 4 => exact minmax64_smin old v
  | some 5 => exact minmax64_smax old v
  | some 6 => exact minmax64_umin old v
  | some 7 => exact minmax64_umax old v

/-! ## A load performs (R115) -/

/-- The word that a load of `z` bytes delivers. -/
def loadedWord (z : Nat) (sg : Bool) (v : Nat) : Word := if sg then BitVec.ofInt 64 (signed (8 * z) v) else BitVec.ofNat 64 v

/-- The bits of a loaded word: those of its bytes, and above them zeros or copies of the sign. -/
theorem getLsbD_loadedWord {z : Nat} (pos : 0 < z) (m : Memory) (k : Nat) (sg : Bool) {j : Nat} (inside : j < 64) :
    (loadedWord z sg (memNat m k z)).getLsbD j =
      if j < 8 * z then (memGet m (k + j / 8)).getLsbD (j % 8) else sg && (memGet m (k + (z - 1))).getLsbD 7 := by
  have bit (x : Nat) : (memNat m k z).testBit x = (decide (x < 8 * z) && (memGet m (k + x / 8)).getLsbD (x % 8)) := by
    rw [← Nat.div_add_mod x 8, testBit_memNat _ _ _ _ (Nat.mod_lt _ (by decide)), Nat.div_add_mod,
      decide_eq_decide.2 (show x / 8 < z ↔ x < 8 * z by omega)]
  cases sg
  · rw [loadedWord, if_neg Bool.false_ne_true, BitVec.getLsbD_ofNat, bit, decide_eq_true inside]
    by_cases low : j < 8 * z <;> simp [low]
  · rw [loadedWord, if_pos rfl, signed_eq_toInt (by omega), ← BitVec.signExtend, BitVec.getLsbD_signExtend, decide_eq_true inside,
      BitVec.msb_eq_getLsbD_last, BitVec.getLsbD_ofNat, BitVec.getLsbD_ofNat, bit, bit, show (8 * z - 1) / 8 = z - 1 by omega,
      show (8 * z - 1) % 8 = 7 by omega]
    by_cases low : j < 8 * z <;> simp [low, pos]

theorem commitAct_load (m0 : Memory) (b : Core) (n : Nat) (i : Item) (s : State) {ea : Word} {z : Nat}
    (inside : ea.toNat % 0x4000 + z ≤ 0x4000) (d lat : Nat) (sg : Bool) :
    commitAct m0 b n i s (.load ea z sg d lat) =
      s.setCore n ((s.core n).later i lat true false [.setS d (loadedWord z sg (memNat m0 ((s.core n).keyOf n ea.toNat) z))]) := by
  have value : (s.core n).loadNat m0 n ea z = memNat m0 ((s.core n).keyOf n ea.toNat) z := if_pos inside
  rw [← value]
  rfl

/-- Settles O22: a store is one write of its bytes (`State.writeAt_of_one_page`), an atomic reads and writes at once (`applyWrite_atom`), a load
delivers its bytes (`getLsbD_loadedWord`). -/
theorem storesAndAtomicsPerform : Obligations.StoresAndAtomicsPerform := by
  refine ⟨fun m0 b n i s ea v z size aligned => ?store, fun t w op v cmp d lat atom wf => ?atomic, fun m0 b n i s ea z d lat sg size inside => ?load,
    fun m0 b n i s ea v cmp op d lat => ⟨_, rfl, rfl, rfl, rfl, rfl, rfl, rfl, rfl⟩⟩
  case store =>
    have inside : ea.toNat % 0x4000 + (toBytes z v.toNat).length ≤ 0x4000 := (length_toBytes z _).symm ▸ inside_page_of_aligned size aligned
    refine ⟨_, s.writeAt_of_one_page n i.seq i.slot inside _, rfl, rfl, rfl, rfl, rfl, rfl, fun t wf => ?_⟩
    rw [applyWrite_store rfl]
    refine ⟨fun a outside => memGet_memPutN_other _ _ (by rwa [length_toBytes]), fun k low => ?_, rfl⟩
    have stored := memGet_memPutN_self wf ((s.core n).keyOf n ea.toNat) k (toBytes z v.toNat) (by rwa [length_toBytes])
    rw [getElem_toBytes, ofNat_shiftRight_eq_extractLsb'] at stored
    exact stored
  case atomic =>
    intro old new u
    have value : u = (t.writeKey w.key (toBytes 8 new.toNat)).onCore w.core (Core.deliverAtom w.tail lat w.seq w.slot d old) :=
      applyWrite_atom (atomicNew_listed op old v cmp) atom rfl
    have core : u.core w.core = Core.deliverAtom w.tail lat w.seq w.slot d old (t.core w.core) := value ▸ State.core_setCore ..
    have memory : u.mem = memPutN t.mem w.key (toBytes 8 new.toNat) := value ▸ rfl
    rw [core, memory, memNat_memPutN_toBytes wf]
    refine ⟨?_, fun a outside => memGet_memPutN_other _ _ (by rwa [length_toBytes]), fun live => ?_, fun tail => ?_⟩
    · rw [Nat.mod_eq_of_lt (show new.toNat < 2 ^ (8 * 8) from new.isLt), BitVec.ofNat_toNat, BitVec.setWidth_eq]
    · rw [live]
      rfl
    · rw [tail]
      exact ⟨rfl, fun x standing => ⟨_, congrArg (Option.map _) standing, rfl⟩⟩
  case load =>
    intro c byte
    refine ⟨_, commitAct_load m0 b n i s inside d lat sg, fun k low => ?_, fun j high inWord => ?_⟩
    · refine BitVec.eq_of_getLsbD_eq fun x bit => ?_
      rw [BitVec.getLsbD_extractLsb', decide_eq_true bit, Bool.true_and, getLsbD_loadedWord (by omega) _ _ _ (by omega), if_pos (by omega)]
      rw [show (8 * k + x) / 8 = k by omega, show (8 * k + x) % 8 = x by omega]
    · rw [getLsbD_loadedWord (by omega) _ _ _ inWord, if_neg (by omega)]

end Sys2Proof.Machine
end

section
/-! PROOFS. MFS, MTS and the clocks (O23, R23, R24, R119). -/

namespace Sys2Proof.Machine

open Sys2Proof

/-! ## MFS and MTS by their checks (R24, R90, R119) -/

theorem exec_mfs_stops {s : State} {code : Nat} {r : BitVec 12} (stops : mfsCheck s.me.mode r.toNat = some code) (g : BitVec 4) (d : BitVec 6) :
    exec (.mfs g d r) s = s.becomes (s.fault code (BitVec.ofNat 64 s.slot) 0 s.me) := by
  change s.becomes (match mfsCheck s.me.mode r.toNat with | some code => _ | none => _) = _
  rw [stops]

theorem exec_mfs_passes {s : State} {g : BitVec 4} (on : s.on g) (room : s.roomy) {r : BitVec 12} (passes : mfsCheck s.me.mode r.toNat = none)
    (d : BitVec 6) : exec (.mfs g d r) s = s.givesS 1 d (s.me.sysRead s r.toNat) := by
  change s.becomes (match mfsCheck s.me.mode r.toNat with | some code => _ | none => if s.me.readP g then _ else _) = _
  rw [passes, on, if_pos rfl]
  exact congrArg s.becomes (State.deliver_of_lt room 1 _)

/-- The checks of the register that an MTS names are made under either guard. -/
theorem exec_mts_access {s : State} {code : Nat} {r : BitVec 12} (stops : mtsAccess s.me.mode r.toNat = some code) (g : BitVec 4) (d : BitVec 6) :
    exec (.mts g d r) s = s.becomes (s.fault code (BitVec.ofNat 64 s.slot) 0 s.me) := by
  change s.becomes (match (if s.me.readP g then mtsCheck s.me.mode s.me.owners r.toNat (s.me.readS d) else mtsAccess s.me.mode r.toNat) with
    | some code => _ | none => _) = _
  rw [mtsCheck, stops, ite_self]

theorem exec_mts_on {s : State} {g : BitVec 4} (on : s.on g) (d : BitVec 6) (r : BitVec 12) :
    exec (.mts g d r) s = s.becomes (match mtsCheck s.me.mode s.me.owners r.toNat (s.me.readS d) with
      | some code => s.fault code (BitVec.ofNat 64 s.slot) 0 s.me
      | none => s.me.addFin (.mts r.toNat (s.me.readS d))) := by
  change s.becomes (match (if s.me.readP g then mtsCheck s.me.mode s.me.owners r.toNat (s.me.readS d) else mtsAccess s.me.mode r.toNat) with
    | some code => _ | none => if s.me.readP g then _ else _) = _
  rw [on, if_pos rfl, if_pos rfl]

/-- A value that breaks its register's layout is ILLEGAL. -/
theorem exec_mts_layout {s : State} {g : BitVec 4} (on : s.on g) {d : BitVec 6} {r : BitVec 12} (access : mtsAccess s.me.mode r.toNat = none)
    (layout : layoutOk s.me.owners r.toNat (s.me.readS d) = false) :
    exec (.mts g d r) s = s.becomes (s.fault cILLEGAL (BitVec.ofNat 64 s.slot) 0 s.me) := by
  have stops : mtsCheck s.me.mode s.me.owners r.toNat (s.me.readS d) = some cILLEGAL := by
    rw [mtsCheck, access, layout]
    rfl
  rw [exec_mts_on on, stops]

/-! ## The table of R23 -/

theorem sysAccess_unlisted {n : Nat} (unlisted : ¬((0 ≤ n ∧ n ≤ 4) ∨ (6 ≤ n ∧ n ≤ 0xF) ∨ (0x100 ≤ n ∧ n ≤ 0x106) ∨ (0x200 ≤ n ∧ n ≤ 0x203) ∨
    (0x300 ≤ n ∧ n ≤ 0x302) ∨ (0x400 ≤ n ∧ n ≤ 0x401) ∨ n = 0x403 ∨ (0x800 ≤ n ∧ n ≤ 0x803) ∨ 0xC00 ≤ n)) : sysAccess n = none := by
  simp (disch := omega) only [sysAccess, Bool.and_eq_true, Bool.or_eq_true, decide_eq_true_eq, if_neg]

/-- Registers that runtime mode writes and tenant mode reads. -/
theorem sysAccess_runtime_writes {n : Nat} (listed : (0 ≤ n ∧ n ≤ 4) ∨ n = 0x00F ∨ (0x100 ≤ n ∧ n ≤ 0x106) ∨ (0x200 ≤ n ∧ n ≤ 0x203) ∨ n = 0x301) :
    sysAccess n = some (1, false) := by
  rcases listed with h | h | h | h | h <;>
    simp (disch := omega) only [sysAccess, Bool.and_eq_true, Bool.or_eq_true, decide_eq_true_eq, if_neg, if_pos]

/-- Registers that no mode below firmware writes. -/
theorem sysAccess_read_only {n : Nat} (listed : (6 ≤ n ∧ n ≤ 9) ∨ n = 0x00C) : sysAccess n = some (0, true) := by
  rcases listed with h | h <;>
    simp (disch := omega) only [sysAccess, Bool.and_eq_true, Bool.or_eq_true, decide_eq_true_eq, if_neg, if_pos]

/-- Registers of runtime mode. -/
theorem sysAccess_runtime {n : Nat} (low : 0x800 ≤ n) (high : n ≤ 0x803) : ∃ ro, sysAccess n = some (2, ro) := by
  interval_cases n <;> exact ⟨_, rfl⟩

/-- Registers of firmware mode. -/
theorem sysAccess_firmware {n : Nat} (low : 0xC00 ≤ n) (high : n ≤ 0xFFF) : sysAccess n = some (3, false) := by
  simp (disch := omega) only [sysAccess, Bool.and_eq_true, Bool.or_eq_true, decide_eq_true_eq, if_neg, if_pos]

/-! ## The checks by mode (R24) -/

theorem mfsCheck_unlisted {n : Nat} (unlisted : sysAccess n = none) (mode : BitVec 2) : mfsCheck mode n = some cILLEGAL := by
  rw [mfsCheck, unlisted]
theorem mtsAccess_unlisted {n : Nat} (unlisted : sysAccess n = none) (mode : BitVec 2) : mtsAccess mode n = some cILLEGAL := by
  rw [mtsAccess, unlisted]

section
variable {n : Nat} {a : Nat} {ro : Bool} (listed : sysAccess n = some (a, ro))
include listed

theorem mfsCheck_higher {mode : BitVec 2} (below : mode.toNat < 2) (higher : a = 3 ∨ (a = 2 ∧ mode = 0)) : mfsCheck mode n = some cPRIVILEGE := by
  simp only [mfsCheck, listed]
  rw [if_pos below, if_pos (by simpa using higher)]
theorem mtsAccess_higher {mode : BitVec 2} (below : mode.toNat < 2) (higher : a = 3 ∨ (a = 2 ∧ mode = 0)) : mtsAccess mode n = some cPRIVILEGE := by
  simp only [mtsAccess, listed]
  rw [if_pos below, if_pos (by simpa using higher)]
theorem mtsAccess_read_only {mode : BitVec 2} (below : mode.toNat < 2) (reached : ¬(a = 3 ∨ (a = 2 ∧ mode = 0))) (readOnly : ro = true) :
    mtsAccess mode n = some cILLEGAL := by
  simp only [mtsAccess, listed]
  rw [if_pos below, if_neg (by simpa using reached), if_pos readOnly]
theorem mtsAccess_tenant (runtime : a = 1) (writable : ro = false) : mtsAccess 0 n = some cPRIVILEGE := by
  simp only [mtsAccess, listed, runtime, writable]
  rfl
theorem mtsAccess_firmware {mode : BitVec 2} (firmware : 2 ≤ mode.toNat) (fixed : n = 0x800 ∨ n = 0xC03) : mtsAccess mode n = some cILLEGAL := by
  simp only [mtsAccess, listed]
  rw [if_neg (Nat.not_lt.2 firmware), if_pos (by rcases fixed with rfl | rfl <;> rfl)]

end

/-! ## The layouts (R21, R23, R24) -/

/-- The width of each register that has bits fixed at zero above its fields. -/
def sysWidths : List (Nat × Nat) :=
  [(0x000, 16), (0x001, 42), (0x002, 13), (0x00A, 2), (0x00B, 7), (0x201, 5), (0x202, 32), (0x203, 49),
    (0x300, 16), (0x302, 33), (0x400, 33), (0x401, 4), (0x403, 1), (0x801, 17), (0x802, 52), (0x803, 52)] ++
      (List.range 7).map fun i => (0x100 + i, 32)

/-- A value that a register's layout lets pass has no bit above its width. -/
theorem toNat_lt_of_layoutOk {x : Nat × Nat} (listed : x ∈ sysWidths) {owners : BitVec 32} {v : Word} (ok : layoutOk owners x.1 v = true) :
    v.toNat < 2 ^ x.2 := by
  simp only [sysWidths, List.mem_append, List.mem_map, List.mem_range, List.mem_cons, List.not_mem_nil, or_false] at listed
  rcases listed with listed | ⟨i, small, rfl⟩
  · rcases listed with rfl | rfl | rfl | rfl | rfl | rfl | rfl | rfl | rfl | rfl | rfl | rfl | rfl | rfl | rfl | rfl
    all_goals
      simp only [layoutOk, Bool.and_eq_true, decide_eq_true_eq] at ok
      dsimp only
      omega
  · interval_cases i <;> exact of_decide_eq_true ok

/-! ## The obligation -/

/-- Settles O23: the checks by the table (`sysAccess_unlisted` and its like) and by mode (`mfsCheck_higher` and its like), the layouts by
`toNat_lt_of_layoutOk`. -/
theorem systemRegisterMoves : Obligations.SystemRegisterMoves := by
  refine ⟨fun s g d r on => ⟨fun room passes => exec_mfs_passes on room passes d, fun passes => ?passes, fun room => exec_rdcyc on room d,
    fun room => exec_rdgt on room d⟩, fun s g d r => ?stops⟩
  case passes => rw [exec_mts_on on, passes]
  case stops =>
    intro f n v within listed widths
    have inside : n ≤ 0xFFF := Nat.le_of_lt_succ r.isLt
    have tenant (mode : s.me.mode = 0) : s.me.mode.toNat < 2 := by rw [mode]; decide
    refine ⟨fun unlisted => ?_, fun mode low high => ?_, fun below high => ?_, fun below readOnly => ?_, fun mode number => ?_,
      fun firmware fixed => ?_, fun mode runtime => ?_, fun on access => ⟨fun x width same wide => ?_, fun number bits => ?_, fun number bits => ?_,
      fun number bits => ?_, fun number bits => ?_⟩⟩
    · have none : sysAccess n = none := sysAccess_unlisted unlisted
      exact ⟨exec_mfs_stops (mfsCheck_unlisted none _) g d, exec_mts_access (mtsAccess_unlisted none _) g d⟩
    · obtain ⟨ro, row⟩ := sysAccess_runtime low high
      exact ⟨exec_mfs_stops (mfsCheck_higher row (tenant mode) (.inr ⟨rfl, mode⟩)) g d,
        exec_mts_access (mtsAccess_higher row (tenant mode) (.inr ⟨rfl, mode⟩)) g d⟩
    · have row := sysAccess_firmware high inside
      exact ⟨exec_mfs_stops (mfsCheck_higher row below (.inl rfl)) g d, exec_mts_access (mtsAccess_higher row below (.inl rfl)) g d⟩
    · exact exec_mts_access (mtsAccess_read_only (sysAccess_read_only readOnly) below (by omega) rfl) g d
    · subst number
      have row : sysAccess 0x800 = some (2, true) := rfl
      exact exec_mts_access (mtsAccess_read_only row (by rw [mode]; decide) (by rw [mode]; decide) rfl) g d
    · obtain ⟨row, listed⟩ : ∃ row, sysAccess n = some row := fixed.elim (fun same => ⟨(2, true), same ▸ rfl⟩) fun same => ⟨(3, false), same ▸ rfl⟩
      exact exec_mts_access (mtsAccess_firmware listed firmware fixed) g d
    · exact exec_mts_access (mode ▸ mtsAccess_tenant (sysAccess_runtime_writes runtime) rfl rfl) g d
    · exact exec_mts_layout on access (Bool.eq_false_iff.2 fun ok => Nat.not_lt.2 wide (toNat_lt_of_layoutOk width
        (show layoutOk s.me.owners x.1 v = true from same ▸ ok)))
    all_goals
      refine exec_mts_layout on access (Bool.eq_false_iff.2 fun ok => ?_)
    · rw [show r.toNat = 0x202 from number] at ok
      simp only [layoutOk, Bool.and_eq_true, beq_iff_eq] at ok
      exact bits.elim (fun nonzero => nonzero ok.1.2) fun nonzero => nonzero ok.1.1.2
    · rw [show r.toNat = 0x203 from number] at ok
      simp only [layoutOk, Bool.and_eq_true, beq_iff_eq] at ok
      exact bits ok.1.2
    · rw [show r.toNat = 0x801 from number] at ok
      simp only [layoutOk, Bool.and_eq_true, beq_iff_eq] at ok
      exact bits ok.1.2
    · rcases number with number | number
      all_goals
        rw [show r.toNat = _ from number] at ok
        simp only [layoutOk, Bool.and_eq_true, beq_iff_eq] at ok
        exact bits ok.2

end Sys2Proof.Machine
end

section
/-! PROOFS. The effects of MTS on the live and on the held context (O24, R22, R217). -/

namespace Sys2Proof.Machine

open Sys2Proof

/-! ## The context that MTS reaches (R217) -/

theorem Core.onSys_live {c : Core} (live : c.sh = false) (f : Ctx → Ctx) : c.onSys f = { c with ctx := f c.ctx } := by
  rw [Core.onSys, live, Bool.false_and, if_neg Bool.false_ne_true]

theorem Core.onSys_held {c : Core} {h : Ctx} (sh : c.sh = true) (held : c.held = some h) (f : Ctx → Ctx) :
    c.onSys f = { c with held := some (f h) } := by
  rw [Core.onSys, sh, held]
  rfl

theorem Core.sysCtx_held {c : Core} {h : Ctx} (sh : c.sh = true) (held : c.held = some h) : c.sysCtx = h := by
  rw [Core.sysCtx, sh, held]
  rfl

/-- While SH = 1 no MTS reaches the live context. -/
theorem Core.ctx_sysWrite_held {c : Core} {h : Ctx} (sh : c.sh = true) (held : c.held = some h) (r : Nat) (v : Word) :
    (c.sysWrite r v).ctx = c.ctx := by
  have sys (f : Ctx → Ctx) : (c.onSys f).ctx = c.ctx := by rw [Core.onSys_held sh held]
  unfold Core.sysWrite
  split
  case h_32 => split <;> simp only [sys]
  all_goals
    simp only [Core.writeCsw, Core.writeVstat, Core.writeSqdepth, Core.writeRngpos, Core.writeRngkey, Core.writeWdog, Core.writeAsstat,
      Core.writeRhstat, Core.writeMapstat, Core.writeStrayn, Core.writeCollide, Core.writeGtadj, sys]

/-! ## CSW (R21, R22) -/

theorem ite_eq_mul_toNat (b : Bool) (n : Nat) : (if b then n else 0) = n * b.toNat := by cases b <;> simp

theorem getLsbD_ofNat_eq {i n : Nat} {b : Bool} (inside : i < 64) (bit : n / 2 ^ i % 2 = b.toNat) : (BitVec.ofNat 64 n).getLsbD i = b := by
  rw [BitVec.getLsbD_ofNat, decide_eq_true inside, Nat.testBit_eq_decide_div_mod_eq, bit]
  cases b <;> rfl

theorem extractLsb'_ofNat_eq {i l n : Nat} {x : BitVec l} (field : n % 2 ^ 64 / 2 ^ i % 2 ^ l = x.toNat) :
    (BitVec.ofNat 64 n).extractLsb' i l = x := by
  refine BitVec.eq_of_toNat_eq ?_
  rw [BitVec.extractLsb'_toNat, BitVec.toNat_ofNat, Nat.shiftRight_eq_div_pow, field]

/-- The fields of CSW: MODE, TM and SH live, the others of the context that MFS reaches. -/
theorem Core.csw_fields (c : Core) :
    c.csw.extractLsb' 0 2 = c.mode ∧ c.csw.getLsbD 2 = c.tm ∧ c.csw.getLsbD 3 = c.sh ∧ c.csw.extractLsb' 4 3 = c.sysCtx.sres ∧
      c.csw.getLsbD 7 = c.sysCtx.la ∧ c.csw.getLsbD 8 = c.sysCtx.qreq ∧ c.csw.extractLsb' 9 5 = c.sysCtx.rskew ∧
      c.csw.getLsbD 14 = c.sysCtx.wre ∧ c.csw.getLsbD 15 = c.sysCtx.pend ∧ c.csw.extractLsb' 16 48 = 0 := by
  have mode := c.mode.isLt
  have sres := c.sysCtx.sres.isLt
  have rskew := c.sysCtx.rskew.isLt
  have tm := c.tm.toNat_lt
  have sh := c.sh.toNat_lt
  have la := c.sysCtx.la.toNat_lt
  have qreq := c.sysCtx.qreq.toNat_lt
  have wre := c.sysCtx.wre.toNat_lt
  have pend := c.sysCtx.pend.toNat_lt
  simp only [Core.csw, ite_eq_mul_toNat]
  refine ⟨extractLsb'_ofNat_eq ?_, getLsbD_ofNat_eq (by decide) ?_, getLsbD_ofNat_eq (by decide) ?_, extractLsb'_ofNat_eq ?_,
    getLsbD_ofNat_eq (by decide) ?_, getLsbD_ofNat_eq (by decide) ?_, extractLsb'_ofNat_eq ?_, getLsbD_ofNat_eq (by decide) ?_,
    getLsbD_ofNat_eq (by decide) ?_, extractLsb'_ofNat_eq ?_⟩
  case refine_10 => exact show _ = 0 by omega
  all_goals omega

/-! ## RHSTAT (R162) -/

/-- Every count that an MTS of RHSTAT writes. -/
theorem stepsOf_packNat (v : Word) {i : Nat} (region : i < 8) :
    stepsOf (BitVec.ofNat 56 (packNat 7 8 fun r => laneNat v r 8 % 128)) i = v.extractLsb' (8 * i) 7 := by
  refine BitVec.eq_of_getLsbD_eq fun j bit => ?_
  rw [stepsOf, BitVec.getLsbD_extractLsb', BitVec.getLsbD_extractLsb', BitVec.getLsbD_ofNat, Nat.mul_comm 7 i, testBit_packNat _ region bit,
    show (128 : Nat) = 2 ^ 7 from rfl, Nat.testBit_mod_two_pow, testBit_laneNat, decide_eq_true bit, decide_eq_true (show j < 8 by omega),
    decide_eq_true (show i * 7 + j < 56 by omega), Nat.mul_comm i 8]
  rfl

/-! ## SQDEPTH (R14, log entry 57) -/

theorem Core.length_writeSqdepth (c : Core) (fits : c.sq.length ≤ 128) (v : Word) : (c.writeSqdepth v).sq.length = min v.toNat 128 := by
  simp only [Core.writeSqdepth, List.length_append, List.length_take, List.length_map, List.length_range]
  omega

theorem Core.getElem?_writeSqdepth (c : Core) (fits : c.sq.length ≤ 128) (v : Word) {i : Nat} (kept : i < v.toNat) (stood : i < c.sq.length) :
    (c.writeSqdepth v).sq[i]? = c.sq[i]? := by
  simp only [Core.writeSqdepth]
  rw [List.getElem?_append_left (by rw [List.length_take]; omega), List.getElem?_take_of_lt (by omega)]

/-! ## The obligation -/

/-- Settles O24: an MTS changes the context that it reaches (`Core.onSys_live`, `Core.onSys_held`), and MFS reads it back (`Core.csw_fields`). -/
theorem mtsEffects : Obligations.MtsEffects := by
  refine ⟨fun s v live => ?live, fun c r v fin => ?atEnd, fun s v h sh held => ?held, fun c v fits => ?depth⟩
  case live =>
    intro c x
    have sys (f : Ctx → Ctx) : c.onSys f = { c with ctx := f x } := Core.onSys_live live f
    have old (n : Nat) : (if c.sh then x.rngOld else n) = n := if_neg (by rw [live]; exact Bool.false_ne_true)
    refine ⟨congrArg s.becomes (sys _), congrArg s.becomes (sys _), (congrArg s.becomes (sys _)).trans ?_, (congrArg s.becomes (sys _)).trans ?_, ?_,
      ⟨_, congrArg s.becomes (sys _), fun i region => stepsOf_packNat v region⟩, congrArg s.becomes (sys _), congrArg s.becomes (sys _),
      congrArg s.becomes (sys _), congrArg s.becomes (sys _), rfl⟩
    · rw [old]
    · rw [old]
    · change s.becomes { c.onSys (fun x => { x with wdog := v }) with emits := _ } = _
      rw [sys]
  case atEnd =>
    rw [Core.applyFin, fin]
    rfl
  case held =>
    intro c holds put
    have sys (f : Ctx → Ctx) : c.onSys f = { c with held := some (f h) } := Core.onSys_held sh held f
    have read : c.sysCtx = h := Core.sysCtx_held sh held
    have old (n : Nat) : (if c.sh then h.rngOld else n) = h.rngOld := if_pos sh
    have fields := c.csw_fields
    rw [read, show c.sh = true from sh] at fields
    refine ⟨congrArg s.becomes (sys _), congrArg s.becomes (sys _), (congrArg s.becomes (sys _)).trans ?_, (congrArg s.becomes (sys _)).trans ?_, ?_,
      ⟨_, congrArg s.becomes (sys _), fun i region => stepsOf_packNat v region⟩, congrArg s.becomes (sys _), congrArg s.becomes (sys _),
      congrArg s.becomes (sys _), congrArg s.becomes (sys _), sys _, sys _, sys _, sys _, sys _, sys _, sys _, sys _, sys _,
      fun r => Core.ctx_sysWrite_held sh held r v, fields, ?_⟩
    · rw [old]
    · rw [old]
    · change s.becomes { c.onSys (fun x => { x with wdog := v }) with emits := _ } = _
      rw [sys]
    · rw [← read]
      exact ⟨rfl, rfl, rfl, rfl, rfl, rfl, rfl, rfl, rfl, rfl, rfl, rfl⟩
  case depth =>
    exact ⟨rfl, rfl, rfl, c.length_writeSqdepth fits v, fun i kept stood => c.getElem?_writeSqdepth fits v kept stood, rfl, rfl, rfl, rfl, rfl⟩

end Sys2Proof.Machine
end

section
/-! PROOFS. The floating-point family and the order of values (O25, R47, R124). -/

namespace Sys2Proof.Machine

open Sys2Proof

/-! ## The floating-point family (R124) -/

/-- A lane-wise floating-point instruction with room gives its lanes four cycles later, and the flags of the unmasked ones. -/
theorem floatOp_gives {s : State} (room : s.roomy) (k : BitVec 3) (z : BitVec 1) (d a : BitVec 7) {b : BitVec 7} {sc : BitVec 1}
    (listed : sc = 0 ∨ b.getLsbD 6 = false) (f : Rnd → Nat → Nat → Nat → Nat × BitVec 7) :
    floatOp s k z d a b sc f = s.givesLanes 4 32 d k z
      (fun i => (f (vrmArith s.me.ctx.vrm) (s.laneA a 32 i) (s.laneF b sc i) (s.laneA d 32 i)).1)
      (orFlags 64 (s.me.readK k) fun i => (f (vrmArith s.me.ctx.vrm) (s.laneA a 32 i) (s.laneF b sc i) (s.laneA d 32 i)).2) := by
  have listed' : (sc == 0 || b.getLsbD 6 == false) = true := by simpa using listed
  rw [floatOp, listed', State.checked_true, State.act_becomes, State.deliverV, State.deliver_of_lt room]
  rfl

/-- A lane-wise instruction of either file with room gives its lanes and its flags. -/
theorem State.deliverV_of_roomy {s : State} (room : s.roomy) (lat w : Nat) (d : BitVec 7) (k : BitVec 3) (z : BitVec 1) (f : Nat → Nat)
    (fl : BitVec 7) : s.becomes (s.deliverV lat w d (s.me.readK k) z f fl s.me) = s.givesLanes lat w d k z f fl := by
  rw [State.deliverV, State.deliver_of_lt room]

/-! ## The order of values (R47) -/

theorem Fv.lt_nan_left (y : Fv) : Fv.lt .nan y = false := rfl
theorem Fv.lt_nan_right (x : Fv) : x.lt .nan = false := by cases x <;> rfl
theorem Fv.eq_nan_left (y : Fv) : Fv.eq .nan y = false := rfl
theorem Fv.eq_nan_right (x : Fv) : x.eq .nan = false := by cases x <;> rfl

/-- No zero lies below another, whatever their signs. -/
theorem Fv.lt_zeros (n m : Bool) (e g : Int) : Fv.lt (.fin n 0 e) (.fin m 0 g) = false := by
  cases n <;> cases m <;> simp [Fv.lt, smant]
theorem Fv.eq_zeros (n m : Bool) (e g : Int) : Fv.eq (.fin n 0 e) (.fin m 0 g) = true := by
  rw [Fv.eq, Fv.lt_zeros, Fv.lt_zeros]
  rfl

/-- But minima and maxima put −0 below +0. -/
theorem Fv.below_zeros (n m : Bool) (e g : Int) : Fv.below (.fin n 0 e) (.fin m 0 g) = (n && !m) := by
  rw [Fv.below, Fv.lt_zeros, Fv.eq_zeros]
  rfl

theorem Fv.min_zeros (n m : Bool) (e g : Int) : Fv.min (.fin n 0 e) (.fin m 0 g) = if m && !n then .fin m 0 g else .fin n 0 e := by
  rw [Fv.min, Fv.below_zeros]
  rfl
theorem Fv.max_zeros (n m : Bool) (e g : Int) : Fv.max (.fin n 0 e) (.fin m 0 g) = if n && !m then .fin m 0 g else .fin n 0 e := by
  rw [Fv.max, Fv.below_zeros]
  rfl

theorem rne32_zero (n : Bool) (e : Int) : rne32 (.fin n 0 e) = if n then 0x80000000 else 0 := by cases n <;> rfl

/-! ## The obligation -/

/-- Settles O25: the family by `floatOp_gives`, the order of values by the cases of NaN and of the zeros. -/
theorem floatLanes : Obligations.FloatLanes := by
  refine ⟨fun s k z sc d a b room listed => ?lanes, fun a b => ⟨?nan, ?zeros, ?signs, rfl⟩⟩
  case lanes =>
    exact ⟨floatOp_gives room k z d a listed fun r a b _ => fAdd r a b, floatOp_gives room k z d a listed fun r a b _ => fSub r a b,
      floatOp_gives room k z d a listed fun r a b _ => fMul r a b, floatOp_gives room k z d a listed fFma, floatOp_gives room k z d a listed fFms,
      floatOp_gives room k z d a listed fun _ a b _ => (min32 a b, 0), floatOp_gives room k z d a listed fun _ a b _ => (max32 a b, 0),
      State.deliverV_of_roomy room 4 32 d k z _ 0, State.deliverV_of_roomy room 4 32 d k z _ 0⟩
  case nan =>
    rintro (rfl | rfl)
    · exact ⟨rfl, rfl, b.lt_nan_right, rfl, rfl⟩
    · refine ⟨a.eq_nan_right, a.lt_nan_right, rfl, ?_, ?_⟩ <;> cases a <;> rfl
  case zeros =>
    rintro n1 n2 e1 e2 rfl rfl
    exact ⟨Fv.eq_zeros .., Fv.lt_zeros ..⟩
  case signs =>
    rintro e1 e2 rfl rfl
    rw [Fv.min_zeros, Fv.min_zeros, Fv.max_zeros, Fv.max_zeros]
    exact ⟨rne32_zero true e1, rne32_zero true e1, rne32_zero false e2, rne32_zero false e2⟩

end Sys2Proof.Machine
end

section
/-! PROOFS. Moves of lanes, and tile rows and columns (O28, R128, R129, R138). -/

namespace Sys2Proof.Machine

open Sys2Proof

/-! ## Moves of lanes, and tile rows and columns (R128, R129, R138) -/

theorem checked_deliverV_gives {s : State} (room : s.roomy) {p : Bool} (listed : p = true) (lat w : Nat) (d : BitVec 7) (k : BitVec 3) (z : BitVec 1)
    (f : Nat → Nat) (fl : BitVec 7) :
    s.checked p (s.becomes (s.deliverV lat w d (s.me.readK k) z f fl s.me)) = s.givesLanes lat w d k z f fl := by
  rw [listed, State.checked_true, State.deliverV_of_roomy room]

/-- A cell that TRDCOL reads is the one that the tile holds, or, of a row that the load has written, the one before the load. -/
theorem Core.tileCell_cases (c : Core) (choice t i q : Nat) :
    (c.tileBefore t = none → c.tileCell choice t i q = laneNat (c.tileRow t i) q 32) ∧
      ∀ r old, c.tileBefore t = some (r, old) → c.tileCell choice t i q = laneNat (c.tileRow t i) q 32 ∨
        (i < r ∧ c.tileCell choice t i q = laneNat (old.getD i 0) q 32) := by
  refine ⟨fun whole => ?_, fun r old loading => ?_⟩
  · rw [Core.tileCell, whole]
  · rw [Core.tileCell, loading]
    dsimp only
    split
    case isTrue written => exact .inr ⟨(by simp at written; exact written.1), rfl⟩
    case isFalse => exact .inl rfl

/-- Settles O28: each move by its delivery, and TRDCOL's cells by `Core.tileCell_cases`. -/
theorem laneMoves : Obligations.LaneMoves := by
  refine ⟨fun s k z n sc d a b w2 e room => ?moves, fun s k t z sc d a b room => ?tiles⟩
  case moves =>
    intro w y wm
    have listed (h : w2 ≠ 3) : (w2 != 3) = true := bne_iff_ne.2 h
    refine ⟨congrArg s.becomes (State.deliver_of_lt room 2 _), State.deliverV_of_roomy room 2 w d k z _ 0, State.deliverV_of_roomy room 2 w d k z _ 0,
      State.deliverV_of_roomy room 2 w d k z _ 0, fun h => ⟨checked_deliverV_gives room (listed h) 2 wm d k z _ 0,
        checked_deliverV_gives room (listed h) 2 wm d k z _ 0, checked_deliverV_gives room (listed h) 2 wm d k z _ 0⟩⟩
  case tiles =>
    intro q m
    exact ⟨congrArg s.becomes (State.deliver_of_lt room 3 _), _, State.deliverV_of_roomy room 3 32 d k z _ 0,
      fun i _ => Core.tileCell_cases s.me _ t.toNat i q⟩

end Sys2Proof.Machine
end

section
/-! PROOFS. Conversion, quantisation and random bits (O29, R56, R130 to R133). -/

namespace Sys2Proof.Machine

open Sys2Proof

/-! ## Lanes that were packed (R7) -/

theorem laneNat_ofLanes {w n i : Nat} (f : Nat → Nat) (fits : n * w ≤ 2048) (lane : i < n) : laneNat (ofLanes w n f) i w = f i % 2 ^ w := by
  refine Nat.eq_of_testBit_eq fun j => ?_
  rw [testBit_laneNat, Nat.testBit_mod_two_pow]
  by_cases bit : j < w
  · rw [getLsbD_ofLanes f fits lane bit]
  · rw [decide_eq_false bit, Bool.false_and, Bool.false_and]

theorem packNat_congr {w n : Nat} {f g : Nat → Nat} (same : ∀ i, i < n → f i = g i) : packNat w n f = packNat w n g := by
  induction n with
  | zero => rfl
  | succ n ih => rw [packNat_succ, packNat_succ, ih fun i lt => same i (Nat.lt_succ_of_lt lt), same n (Nat.lt_succ_self n)]

/-! ## One block of VQNT (R56) -/

/-- The search for a scale stays among the finite codes. -/
theorem scaleSearch_le (x : Fv) (k : Nat) {base : Nat} (finite : base ≤ 0x3FE) : scaleSearch x k base ≤ 0x3FE := by
  induction k generalizing base with
  | zero => exact finite
  | succ n ih =>
    rw [scaleSearch]
    split
    case isTrue higher => exact ih (by simp at higher; exact higher.1)
    case isFalse => exact ih finite

/-- A scale code has ten bits. -/
theorem quantBlock_scale_lt (x : Nat → Nat) (use : Nat → Bool) : (quantBlock x use).2.1 < 2 ^ 10 := by
  simp only [quantBlock]
  split
  · decide
  · dsimp only
    split
    · decide
    · split
      · decide
      · exact Nat.lt_of_le_of_lt (scaleSearch_le _ 10 (by decide)) (by decide)

/-- A NaN that takes part makes the block 0 with the NaN scale, and NV. -/
theorem quantBlock_nan {x : Nat → Nat} {use : Nat → Bool} {j : Nat} (inside : j < 8) (used : use j = true) (nan : fp32 (x j) = .nan) :
    quantBlock x use = (0, 0x3FF, flNV) := by
  have any : (((List.range 8).map fun j => if use j then fp32 (x j) else .fin false 0 0).any Fv.isNaN) = true :=
    List.any_eq_true.2 ⟨.nan, List.mem_map.2 ⟨j, List.mem_range.2 inside, by rw [used, if_pos rfl, nan]⟩, rfl⟩
  simp only [quantBlock]
  rw [if_pos any]

/-- A block with every lane masked is 0 with scale 1. -/
theorem quantBlock_masked {x : Nat → Nat} {use : Nat → Bool} (masked : ∀ j, j < 8 → use j = false) : quantBlock x use = (0, 1, 0) := by
  have values : (List.range 8).map (fun j => if use j then fp32 (x j) else Fv.fin false 0 0) = List.replicate 8 (.fin false 0 0) :=
    List.map_eq_replicate_iff.2 fun j inside => by rw [masked j (List.mem_range.1 inside), if_neg Bool.false_ne_true]
  have codes (f : Nat → Nat) : packNat 4 8 (fun j => if use j then f j else 0) = packNat 4 8 fun _ => 0 :=
    packNat_congr fun j inside => by rw [masked j inside, if_neg Bool.false_ne_true]
  have flags (f : Nat → BitVec 7) : (List.range 8).foldl (fun a j => if use j then a ||| f j else a) 0 = 0 := by
    rw [List.foldl_ext _ (fun a _ => a) _ fun a j inside => by rw [masked j (List.mem_range.1 inside), if_neg Bool.false_ne_true]]
    rfl
  have greatest : (List.replicate 8 (Fv.fin false 0 0)).foldl (fun (a b : Fv) => a.max b.abs) (.fin false 0 0) = Fv.fin false 0 0 := by decide
  have finite : (List.replicate 8 (Fv.fin false 0 0)).any Fv.isNaN = false := by decide
  have small : absLe (.fin false 0 0) (e5m5 0x3FE) 6 = true := by decide
  have zero : Fv.eq (.fin false 0 0) (.fin false 0 0) = true := Fv.eq_zeros ..
  simp only [quantBlock, values, greatest, finite, small, zero, codes, Bool.not_true, Bool.false_eq_true, if_false, if_true, flags]
  rfl

/-! ## The vector that VQNT delivers (R132) -/

/-- A word of three scale codes, of which those of blocks beyond the eighth are left out. -/
def scaleWord (code : Nat → Nat) (i : Nat) : Nat :=
  (List.range 3).foldl (fun x f => if 3 * i + f < 8 then x + code (3 * i + f) <<< (10 * f) else x) 0

/-- A digit of packed lanes. -/
theorem packNat_digit {w n i : Nat} (f : Nat → Nat) (lane : i < n) : packNat w n f / 2 ^ (w * i) % 2 ^ w = f i % 2 ^ w := by
  refine Nat.eq_of_testBit_eq fun j => ?_
  rw [Nat.testBit_mod_two_pow, Nat.testBit_mod_two_pow, Nat.testBit_div_two_pow]
  by_cases bit : j < w
  · rw [Nat.add_comm j, Nat.mul_comm w, testBit_packNat f lane bit]
  · rw [decide_eq_false bit, Bool.false_and, Bool.false_and]

section
variable {code : Nat → Nat} (small : ∀ b, code b < 2 ^ 10)
include small

/-- A word of scale codes is three packed fields of ten bits. -/
theorem scaleWord_eq_packNat (i : Nat) : scaleWord code i = packNat 10 3 fun f => if 3 * i + f < 8 then code (3 * i + f) else 0 := by
  refine List.foldl_ext _ _ _ fun x f _ => ?_
  dsimp only
  split
  · rw [Nat.mod_eq_of_lt (small _), Nat.mul_comm 10 f]
  · rw [Nat.zero_mod, Nat.zero_shiftLeft]
    rfl

theorem scaleWord_lt (i : Nat) : scaleWord code i < 2 ^ 30 := by
  rw [scaleWord_eq_packNat small]
  exact packNat_lt 10 3 _

/-- The last word holds two codes. -/
theorem scaleWord_last_lt : scaleWord code 2 < 2 ^ 20 := by
  rw [scaleWord_eq_packNat small, packNat_succ, if_neg (by decide), Nat.zero_mod, Nat.mul_zero, Nat.zero_add]
  exact packNat_lt 10 2 _

/-- The code of a block in its word. -/
theorem scaleWord_code {b : Nat} (inside : b < 8) : scaleWord code (b / 3) / 2 ^ (10 * (b % 3)) % 2 ^ 10 = code b := by
  rw [scaleWord_eq_packNat small, packNat_digit _ (Nat.mod_lt b (by decide)), Nat.div_add_mod, if_pos inside, Nat.mod_eq_of_lt (small b)]

end

/-- The flags of several blocks joined. -/
theorem getLsbD_foldl_or (f : Nat → BitVec 7) (n j : Nat) :
    ((List.range n).foldl (fun a b => a ||| f b) 0).getLsbD j = true ↔ ∃ b, b < n ∧ (f b).getLsbD j = true := by
  induction n with
  | zero => simp
  | succ n ih =>
    rw [List.range_succ, List.foldl_append, List.foldl_cons, List.foldl_nil, BitVec.getLsbD_or, Bool.or_eq_true, ih]
    constructor
    · rintro (⟨b, inside, bit⟩ | bit)
      · exact ⟨b, Nat.lt_succ_of_lt inside, bit⟩
      · exact ⟨n, Nat.lt_succ_self n, bit⟩
    · rintro ⟨b, inside, bit⟩
      rcases Nat.lt_succ_iff_lt_or_eq.1 inside with below | rfl
      · exact .inl ⟨b, below, bit⟩
      · exact .inr bit

section
variable (s : State) (k : BitVec 3) (a : BitVec 7)

/-- Block `b` of VQNT. -/
def State.quantBlockAt (b : Nat) : Nat × Nat × BitVec 7 :=
  quantBlock (fun j => s.laneA a 32 (8 * b + j)) fun j => (s.me.readK k).getLsbD (8 * b + j)

/-- The vector of blocks and scales, and the flags. -/
def State.quantVec : Vec := ofLanes 32 64 fun i =>
  if i < 8 then (s.quantBlockAt k a i).1 else if i < 11 then scaleWord (fun b => (s.quantBlockAt k a b).2.1) (i - 8) else 0
def State.quantFlags : BitVec 7 := (List.range 8).foldl (fun f b => f ||| (s.quantBlockAt k a b).2.2) 0

theorem exec_vqnt (room : s.roomy) (d : BitVec 7) :
    exec (.vqnt k d a) s = s.givesV 4 d (s.quantVec k a) (BitVec.allOnes 2048) (s.quantFlags k a) :=
  congrArg s.becomes (State.deliver_of_lt room 4 _)

theorem State.laneNat_quantVec_block {b : Nat} (inside : b < 8) : laneNat (s.quantVec k a) b 32 = (s.quantBlockAt k a b).1 % 2 ^ 32 := by
  rw [State.quantVec, laneNat_ofLanes _ (by decide) (by omega), if_pos inside]

theorem State.laneNat_quantVec_scale {i : Nat} (inside : i < 3) :
    laneNat (s.quantVec k a) (8 + i) 32 = scaleWord (fun b => (s.quantBlockAt k a b).2.1) i := by
  have small : scaleWord (fun b => (s.quantBlockAt k a b).2.1) i < 2 ^ 30 := scaleWord_lt (fun _ => quantBlock_scale_lt _ _) i
  rw [State.quantVec, laneNat_ofLanes _ (by decide) (by omega), if_neg (by omega), if_pos (by omega), Nat.add_sub_cancel_left,
    Nat.mod_eq_of_lt (by omega)]

theorem State.laneNat_quantVec_beyond {i : Nat} (beyond : 11 ≤ i) (lane : i < 64) : laneNat (s.quantVec k a) i 32 = 0 := by
  rw [State.quantVec, laneNat_ofLanes _ (by decide) lane, if_neg (by omega), if_neg (by omega), Nat.zero_mod]

end

/-! ## The obligation -/

/-- Settles O29: VCVT and VRNG by their deliveries, VQNT by the lanes of its vector (`State.laneNat_quantVec_block` and its like). -/
theorem conversionsAndRandomBits : Obligations.ConversionsAndRandomBits := by
  intro s k z d a t f p room c m ws wd n sr rnd g place taken
  have codes (b : Nat) : (s.quantBlockAt k a b).2.1 < 2 ^ 10 := quantBlock_scale_lt _ _
  refine ⟨fun differ part => ?convert, ⟨_, _, exec_vqnt s k a room d, fun b inside => ⟨s.laneNat_quantVec_block k a inside, ?code⟩⟩,
    ⟨_, _, exec_vqnt s k a room d, fun i => s.laneNat_quantVec_beyond k a, ?scale8, ?scale9, ?scale10, fun j => getLsbD_foldl_or _ 8 j⟩,
    fun x use => ⟨fun ⟨j, inside, used, nan⟩ => quantBlock_nan inside used nan, quantBlock_masked⟩, ?random⟩
  case convert =>
    have listed : (t != f && decide (p.toNat < cvtRatio t f)) = true := by simp [differ, part]
    change s.checked (t != f && decide (p.toNat < cvtRatio t f)) _ = _
    rw [listed, State.checked_true, State.act_becomes, State.room_of_lt room]
  case code =>
    rw [s.laneNat_quantVec_scale k a (by omega)]
    exact scaleWord_code codes inside
  case scale8 => exact (s.laneNat_quantVec_scale k a (i := 0) (by decide)).trans_lt (scaleWord_lt codes 0)
  case scale9 => exact (s.laneNat_quantVec_scale k a (i := 1) (by decide)).trans_lt (scaleWord_lt codes 1)
  case scale10 => exact (s.laneNat_quantVec_scale k a (i := 2) (by decide)).trans_lt (scaleWord_last_lt codes)
  case random =>
    change s.becomes (s.room _ s.me) = _
    rw [State.room_of_lt room]
    exact congrArg s.becomes (State.deliver_of_lt (c := s.me.rngTake 1) room 2 _)

end Sys2Proof.Machine
end

section
/-! PROOFS. Reductions and the special functions (O30, R134, R139, R140). -/

namespace Sys2Proof.Machine

open Sys2Proof

/-! ## Reductions and the special functions at issue (R134, R139) -/

theorem reduceOp_gives {s : State} (room : s.roomy) (k : BitVec 3) {d : BitVec 7} (a : BitVec 7) {x : BitVec 1} {f : BitVec 2} (format : f ≠ 3)
    (named : x = 0 ∨ d.getLsbD 6 = false) (g : Mask → List Nat → Nat) :
    reduceOp s k d a x f g = s.becomes (s.inFlight 6
      [if x = 1 then .setS (s.me.ctx.physS (d.extractLsb' 0 6).toNat) (BitVec.ofNat 64 (g (s.me.readK k) (reduceLanes f (s.me.readV a))))
       else .setV (s.me.ctx.physV d.toNat) (BitVec.ofNat 2048 (g (s.me.readK k) (reduceLanes f (s.me.readV a)))) (BitVec.allOnes 2048)]) := by
  have listed : (f != 3 && (x == 0 || d.getLsbD 6 == false)) = true := by
    rw [bne_iff_ne.2 format, Bool.true_and]
    simpa using named
  rw [reduceOp, listed, State.checked_true, State.act_becomes, State.deliver_of_lt room]

theorem exec_vrsum {s : State} (room : s.roomy) (k : BitVec 3) {d : BitVec 7} (a : BitVec 7) {x : BitVec 1} {f : BitVec 2} (format : f ≠ 3)
    (named : x = 0 ∨ d.getLsbD 6 = false) : exec (.vrsum k d a x f) s = s.becomes (s.inFlight 6
      [if x = 1 then .setS (s.me.ctx.physS (d.extractLsb' 0 6).toNat) (BitVec.ofNat 64 (treeSum ((reduceLanes f (s.me.readV a)).zipIdx.map
          fun y => if (s.me.readK k).getLsbD y.2 then y.1 else 0x80000000)))
       else .setV (s.me.ctx.physV d.toNat) (BitVec.ofNat 2048 (treeSum ((reduceLanes f (s.me.readV a)).zipIdx.map
          fun y => if (s.me.readK k).getLsbD y.2 then y.1 else 0x80000000))) (BitVec.allOnes 2048)]) :=
  (reduceOp_gives room k a format named (fun m l => treeSum (l.zipIdx.map fun y => if m.getLsbD y.2 then y.1 else 0x80000000)) :)

theorem exec_vrmax {s : State} (room : s.roomy) (k : BitVec 3) {d : BitVec 7} (a : BitVec 7) {x : BitVec 1} {f : BitVec 2} (format : f ≠ 3)
    (named : x = 0 ∨ d.getLsbD 6 = false) : exec (.vrmax k d a x f) s = s.becomes (s.inFlight 6
      [if x = 1 then .setS (s.me.ctx.physS (d.extractLsb' 0 6).toNat) (BitVec.ofNat 64 ((reduceLanes f (s.me.readV a)).zipIdx.foldl
          (fun r y => if (s.me.readK k).getLsbD y.2 then max32 r y.1 else r) 0xFF800000))
       else .setV (s.me.ctx.physV d.toNat) (BitVec.ofNat 2048 ((reduceLanes f (s.me.readV a)).zipIdx.foldl
          (fun r y => if (s.me.readK k).getLsbD y.2 then max32 r y.1 else r) 0xFF800000)) (BitVec.allOnes 2048)]) :=
  (reduceOp_gives room k a format named (fun m l => l.zipIdx.foldl (fun r y => if m.getLsbD y.2 then max32 r y.1 else r) 0xFF800000) :)

/-- With every lane masked, a maximum is its start. -/
theorem foldl_masked (l : List (Nat × Nat)) (m : Mask) (masked : m = 0) (r : Nat) :
    l.foldl (fun r y => if m.getLsbD y.2 then max32 r y.1 else r) r = r := by
  subst masked
  induction l with
  | nil => rfl
  | cons y l ih => rw [List.foldl_cons, show (0 : Mask).getLsbD y.2 = false from BitVec.getLsbD_zero, if_neg Bool.false_ne_true, ih]

theorem sfuOp_gives {s : State} (room : s.roomy) (k : BitVec 3) (z : BitVec 1) (d a : BitVec 7) (g : Nat → Nat × BitVec 7) :
    sfuOp s k z d a g = s.givesLanes 8 32 d k z (fun i => (g (s.laneA a 32 i)).1) (orFlags 64 (s.me.readK k) fun i => (g (s.laneA a 32 i)).2) :=
  State.deliverV_of_roomy room 8 32 d k z _ _

/-! ## The value of a code (R34) -/

/-- The sign bit of a code. -/
def signBit (n : Bool) : Nat := if n then 2 ^ 31 else 0

theorem testBit_signBit (n : Bool) {c : Nat} (fits : c < 2 ^ 31) : (signBit n + c).testBit 31 = n := by
  cases n
  · exact (congrArg (fun x => Nat.testBit x 31) (Nat.zero_add c)).trans (Nat.testBit_lt_two_pow fits)
  · rw [signBit, if_pos rfl, Nat.testBit_two_pow_add_eq, Nat.testBit_lt_two_pow fits]
    rfl

theorem fp32_eq (c : Nat) : fp32 c =
    if c / 2 ^ 23 % 256 = 255 then (if c % 2 ^ 23 = 0 then .inf (c.testBit 31) else .nan)
    else if c / 2 ^ 23 % 256 = 0 then .fin (c.testBit 31) (c % 2 ^ 23) (-149)
    else .fin (c.testBit 31) (2 ^ 23 + c % 2 ^ 23) ((c / 2 ^ 23 % 256 : Nat) - 150) := by
  rw [← Nat.shiftRight_eq_div_pow]
  simp only [fp32, Fmt.decode, Fmt.params]
  by_cases top : c >>> 23 % 256 = 255
  · have top' : (true && c >>> 23 % 2 ^ 8 == 2 ^ 8 - 1) = true := by simpa using top
    exact (if_pos top').trans (if_pos top).symm
  · have top' : ¬(true && c >>> 23 % 2 ^ 8 == 2 ^ 8 - 1) = true := by simpa using top
    have other : ¬(decide (Fmt.fp32 = Fmt.e4m3) && c >>> 23 % 2 ^ 8 == 15 && c % 2 ^ 23 == 7) = true := by simp
    refine ((if_neg top').trans (if_neg other)).trans (Eq.trans ?_ (if_neg top).symm)
    refine if_congr Iff.rfl rfl (congrArg _ ?_)
    omega

theorem signBit_mod (n : Bool) (c : Nat) : (signBit n + c) % 2 ^ 23 = c % 2 ^ 23 := by
  cases n <;> simp only [signBit, if_pos, Bool.false_eq_true, if_false] <;> omega
theorem signBit_div (n : Bool) {c : Nat} (fits : c < 2 ^ 31) : (signBit n + c) / 2 ^ 23 % 256 = c / 2 ^ 23 := by
  cases n <;> simp only [signBit, if_pos, Bool.false_eq_true, if_false] <;> omega

/-- A code of a normal value, by its sign, exponent field and fraction. -/
theorem fp32_normal (n : Bool) {e f : Nat} (pos : 0 < e) (finite : e < 255) (frac : f < 2 ^ 23) :
    fp32 (signBit n + (e * 2 ^ 23 + f)) = .fin n (2 ^ 23 + f) (e - 150) := by
  have fits : e * 2 ^ 23 + f < 2 ^ 31 := by omega
  rw [fp32_eq, signBit_div n fits, signBit_mod, testBit_signBit n fits, if_neg (by omega), if_neg (by omega),
    show (e * 2 ^ 23 + f) % 2 ^ 23 = f by omega, show (e * 2 ^ 23 + f) / 2 ^ 23 = e by omega]

theorem fp32_subnormal (n : Bool) {f : Nat} (frac : f < 2 ^ 23) : fp32 (signBit n + f) = .fin n f (-149) := by
  have fits : f < 2 ^ 31 := by omega
  rw [fp32_eq, signBit_div n fits, signBit_mod, testBit_signBit n fits, if_neg (by omega), if_pos (by omega), Nat.mod_eq_of_lt frac]

/-- The codes of finite values other than zeros. -/
theorem fp32_finite (n : Bool) {c : Nat} (pos : 0 < c) (finite : c < 0x7F800000) :
    ∃ m e, fp32 (signBit n + c) = .fin n m e ∧ 0 < m := by
  by_cases normal : 2 ^ 23 ≤ c
  · have value := fp32_normal n (e := c / 2 ^ 23) (f := c % 2 ^ 23) (by omega) (by omega) (by omega)
    rw [show c / 2 ^ 23 * 2 ^ 23 + c % 2 ^ 23 = c by omega] at value
    exact ⟨_, _, value, by omega⟩
  · exact ⟨_, _, fp32_subnormal n (by omega), pos⟩

section
variable {m : Nat} (pos : 0 < m) (small : m < 2 ^ 24)
include pos small

theorem log2_le_of_lt : m.log2 ≤ 23 := Nat.lt_succ_iff.1 ((Nat.log2_lt pos.ne').2 small)

/-- A mantissa brought to 24 bits. -/
theorem normalised_bounds : 2 ^ 23 ≤ m * 2 ^ (23 - m.log2) ∧ m * 2 ^ (23 - m.log2) < 2 ^ 24 := by
  have le := log2_le_of_lt pos small
  constructor
  · calc 2 ^ 23 = 2 ^ m.log2 * 2 ^ (23 - m.log2) := by rw [← Nat.pow_add, Nat.add_sub_cancel' le]
      _ ≤ m * 2 ^ (23 - m.log2) := Nat.mul_le_mul_right _ (Nat.log2_self_le pos.ne')
  · calc m * 2 ^ (23 - m.log2) < 2 ^ (m.log2 + 1) * 2 ^ (23 - m.log2) := Nat.mul_lt_mul_of_pos_right Nat.lt_log2_self (Nat.two_pow_pos _)
      _ = 2 ^ 24 := by rw [← Nat.pow_add]; congr 1; omega

/-- A value of at most 24 bits in the normal range is exact. -/
theorem rne32_exact (n : Bool) {e : Int} (low : -126 ≤ e + m.log2) (high : e + m.log2 ≤ 127) :
    rne32 (.fin n m e) = signBit n + ((e + m.log2 + 127).toNat * 2 ^ 23 + (m * 2 ^ (23 - m.log2) - 2 ^ 23)) := by
  have le := log2_le_of_lt pos small
  obtain ⟨ge, lt⟩ := normalised_bounds pos small
  have quantum : max (e + m.log2) (1 - ((127 : Nat) : Int)) - ((23 : Nat) : Int) = e + m.log2 - 23 := by omega
  have exact : e + m.log2 - 23 ≤ e := by omega
  have shift : (e - (e + m.log2 - 23)).toNat = 23 - m.log2 := by omega
  obtain ⟨k, rfl⟩ : ∃ k, m = k + 1 := ⟨m - 1, by omega⟩
  simp only [rne32, Fmt.round, Fmt.params, quantum, if_pos exact, shift]
  generalize (k + 1) * 2 ^ (23 - (k + 1).log2) = sig at *
  generalize e + ((k + 1).log2 : Int) = ex at *
  have log : sig.log2 = 23 := (Nat.log2_eq_iff (by omega)).2 ⟨ge, lt⟩
  simp only [log, if_neg (Nat.not_lt.2 ge), if_pos (le_refl 23)]
  rw [if_neg (by omega)]
  cases n <;> simp only [signBit, if_pos, Bool.false_eq_true, if_false] <;> omega

/-- And its code reads as it. -/
theorem fp32_rne32_exact (n : Bool) {e : Int} (low : -126 ≤ e + m.log2) (high : e + m.log2 ≤ 127) :
    fp32 (rne32 (.fin n m e)) = .fin n (m * 2 ^ (23 - m.log2)) (e + m.log2 - 23) := by
  obtain ⟨ge, lt⟩ := normalised_bounds pos small
  rw [rne32_exact pos small n low high, fp32_normal n (by omega) (by omega) (by omega), Nat.add_sub_cancel' ge]
  congr 1
  omega

end

/-- A power of two in the normal range. -/
theorem rne32_two_pow (n : Bool) {k : Int} (low : -126 ≤ k) (high : k ≤ 127) : rne32 (.fin n 1 k) = signBit n + (k + 127).toNat * 2 ^ 23 := by
  have log : Nat.log2 1 = 0 := by decide
  rw [rne32_exact (by decide) (by decide) n (by rw [log]; omega) (by rw [log]; omega), log]
  norm_num

/-- The code of a power of two. -/
theorem fp32_two_pow (n : Bool) {e : Nat} (pos : 0 < e) (finite : e < 255) : fp32 (signBit n + e * 2 ^ 23) = .fin n (2 ^ 23) (e - 150) := by
  have value := fp32_normal n (f := 0) pos finite (by decide)
  rwa [Nat.add_zero, Nat.add_zero] at value

theorem log2_two_pow_23 : Nat.log2 (2 ^ 23) = 23 := Nat.log2_two_pow
theorem isPow2_two_pow_23 : isPow2 (2 ^ 23) = true := decide_eq_true (congrArg (2 ^ ·) log2_two_pow_23.symm)

/-! ## The special functions of a finite value that is no zero (R140) -/

section
variable {x m : Nat} {n : Bool} {e : Int} (pos : 0 < m)
include pos

theorem sfRcp_fin (value : fp32 x = .fin n m e) : sfRcp x =
    if e + m.log2 < -128 then ((if n then 0xFF800000 else 0x7F800000), flOF ||| flNX)
    else if isPow2 m && decide (-127 ≤ e + (m.log2 : Int)) && decide (e + (m.log2 : Int) ≤ 126) then exactly (.fin n 1 (-(e + m.log2)))
    else rcpFree x n m e := by
  cases m with
  | zero => exact absurd pos (lt_irrefl 0)
  | succ k => rw [sfRcp, value] <;> rfl

theorem sfRsq_neg (value : fp32 x = .fin true m e) : sfRsq x = invalid := by
  cases m with
  | zero => exact absurd pos (lt_irrefl 0)
  | succ k => rw [sfRsq, value] <;> rfl

theorem sfRsq_pos (value : fp32 x = .fin false m e) : sfRsq x =
    if isPow2 m && (e + (m.log2 : Int)) % 2 == 0 then exactly (.fin false 1 (-((e + m.log2) / 2))) else inexact 0x2D x 1 none (rsqEncl m e) := by
  cases m with
  | zero => exact absurd pos (lt_irrefl 0)
  | succ k => rw [sfRsq, value] <;> rfl

theorem sfLog2_neg (value : fp32 x = .fin true m e) : sfLog2 x = invalid := by
  cases m with
  | zero => exact absurd pos (lt_irrefl 0)
  | succ k => rw [sfLog2, value] <;> rfl

theorem sfLog2_pos (value : fp32 x = .fin false m e) : sfLog2 x =
    if isPow2 m then exactly (.fin (decide (e + (m.log2 : Int) < 0)) (e + (m.log2 : Int)).natAbs 0)
    else inexact 0x2F x 2 (some (-31)) (log2Encl m e) := by
  cases m with
  | zero => exact absurd pos (lt_irrefl 0)
  | succ k => rw [sfLog2, value] <;> rfl

theorem sfTrig_fin (op : Nat) (cos : Bool) (value : fp32 x = .fin n m e) : sfTrig op cos x =
    match dyadicInt n m e, dyadicInt n m (e + 1) with
    | some i, _ => if cos then ((if i % 2 = 0 then 0x3F800000 else 0xBF800000), 0) else ((if n then 2 ^ 31 else 0), 0)
    | none, some j => if cos then (0, 0) else ((if (j - 1) / 2 % 2 = 0 then 0x3F800000 else 0xBF800000), 0)
    | none, none => inexact op x 2 (some (-30)) (sinPiEncl (fix96 n m e + (if cos then (2 ^ 95 : Nat) else (0 : Nat)))) := by
  cases m with
  | zero => exact absurd pos (lt_irrefl 0)
  | succ k => rw [sfTrig, value] <;> rfl

theorem sfTanh_fin (value : fp32 x = .fin n m e) : sfTanh x =
    if !((Fv.fin false (10 * m) e).lt (.fin false 91 0)) then ((if n then 0xBF800000 else 0x3F800000), flNX)
    else inexact 0x32 x 2 none (tanhEncl n m e) := by
  cases m with
  | zero => exact absurd pos (lt_irrefl 0)
  | succ k => rw [sfTanh, value] <;> rfl

end

theorem sfExp2_fin {x m : Nat} {n : Bool} {e : Int} (value : fp32 x = .fin n m e) : sfExp2 x =
    if !((Fv.fin n m e).lt (.fin false 128 0)) then (0x7F800000, flOF ||| flNX)
    else if (Fv.fin n m e).lt (.fin true 150 0) then (0, flUF ||| flNX)
    else match dyadicInt n m e with
      | some i => if -149 ≤ i then exactly (.fin false 1 i) else inexact 0x2E x 2 none ⟨false, 1, 1, i⟩
      | none => inexact 0x2E x 2 none (exp2Encl (fix96 n m e)) := by
  rw [sfExp2, value] <;> rfl

/-! ## Powers of two -/

theorem sfRcp_two_pow (n : Bool) {e : Nat} (pos : 1 ≤ e) (high : e ≤ 253) :
    sfRcp (signBit n + e * 2 ^ 23) = (signBit n + (254 - e) * 2 ^ 23, 0) := by
  rw [sfRcp_fin (by decide) (fp32_two_pow n pos (by omega)), log2_two_pow_23, isPow2_two_pow_23, if_neg (by omega),
    if_pos (by simp; omega), exactly, rne32_two_pow n (by omega) (by omega)]
  congr 3
  omega

theorem sfRsq_two_pow {e : Nat} (pos : 1 ≤ e) (high : e ≤ 254) (odd : e % 2 = 1) : sfRsq (e * 2 ^ 23) = ((381 - e) / 2 * 2 ^ 23, 0) := by
  have value := fp32_two_pow false pos (by omega)
  rw [signBit, if_neg Bool.false_ne_true, Nat.zero_add] at value
  rw [sfRsq_pos (by decide) value, log2_two_pow_23, isPow2_two_pow_23, if_pos (by simp; omega), exactly, rne32_two_pow false (by omega) (by omega),
    signBit, if_neg Bool.false_ne_true, Nat.zero_add]
  congr 2
  omega

theorem sfLog2_two_pow {e : Nat} (pos : 1 ≤ e) (high : e ≤ 254) :
    sfLog2 (e * 2 ^ 23) = (rne32 (.fin (decide (e < 127)) ((e : Int) - 127).natAbs 0), 0) := by
  have value := fp32_two_pow false pos (by omega)
  rw [signBit, if_neg Bool.false_ne_true, Nat.zero_add] at value
  rw [sfLog2_pos (by decide) value, log2_two_pow_23, isPow2_two_pow_23, if_pos rfl, exactly]
  congr 3
  · exact decide_eq_decide.2 (by omega)
  · omega

/-! ## Integers and halves -/

/-- An integer, as its code holds it, is that integer. -/
theorem dyadicInt_shifted (n : Bool) (m j : Nat) : dyadicInt n (m * 2 ^ j) (-j) = some (smant n m) := by
  rw [dyadicInt]
  cases j with
  | zero => simp
  | succ j =>
    rw [if_neg (by omega), neg_neg, Int.toNat_natCast, if_pos (Nat.mul_mod_left ..), Nat.mul_div_cancel _ (Nat.two_pow_pos _)]

/-- An odd half is none. -/
theorem dyadicInt_half (n : Bool) {m : Nat} (odd : m % 2 = 1) (j : Nat) : dyadicInt n (m * 2 ^ j) (-((j + 1 : Nat) : Int)) = none := by
  have rest : m * 2 ^ j % 2 ^ (j + 1) ≠ 0 := by
    rw [Nat.pow_succ, Nat.mul_comm m, Nat.mul_mod_mul_left, odd, Nat.mul_one]
    exact (Nat.two_pow_pos j).ne'
  rw [dyadicInt, if_neg (by omega), neg_neg, Int.toNat_natCast, if_neg rest]

/-- The value of an integer's code. -/
theorem fp32_integer (n : Bool) {i : Nat} (pos : 0 < i) (small : i < 2 ^ 24) :
    fp32 (rne32 (.fin n i 0)) = .fin n (i * 2 ^ (23 - i.log2)) (-((23 - i.log2 : Nat) : Int)) := by
  have le := log2_le_of_lt pos small
  rw [fp32_rne32_exact pos small n (by omega) (by omega)]
  congr 1
  omega

/-- The value of the code of half an integer. -/
theorem fp32_half (n : Bool) {i : Nat} (pos : 0 < i) (small : i < 2 ^ 24) :
    fp32 (rne32 (.fin n i (-1))) = .fin n (i * 2 ^ (23 - i.log2)) (-((23 - i.log2 + 1 : Nat) : Int)) := by
  have le := log2_le_of_lt pos small
  rw [fp32_rne32_exact pos small n (by omega) (by omega)]
  congr 1
  omega

/-! ## Where a value lies -/

/-- A value in units of 2^e against an integer. -/
theorem Fv.lt_integer (n k : Bool) (m i : Nat) (j : Nat) :
    (Fv.fin n m (-(j : Int))).lt (.fin k i 0) = decide (smant n m < smant k i * (2 ^ j : Nat)) := by
  rw [Fv.lt, show Min.min (-(j : Int)) 0 = -j by omega, Int.sub_self, Int.toNat_zero, Nat.pow_zero, Nat.cast_one, Int.mul_one, zero_sub, neg_neg,
    Int.toNat_natCast]

/-- And one in units of 2^e that are integers. -/
theorem Fv.lt_integer_of_units (n k : Bool) (m i j : Nat) :
    (Fv.fin n m (j : Int)).lt (.fin k i 0) = decide (smant n m * (2 ^ j : Nat) < smant k i) := by
  rw [Fv.lt, show Min.min (j : Int) 0 = 0 by omega, Int.sub_zero, Int.toNat_natCast, Int.sub_self, Int.toNat_zero, Nat.pow_zero, Nat.cast_one,
    Int.mul_one]

theorem smant_mul (n : Bool) (m k : Nat) : smant n (m * k) = smant n m * k := by
  cases n <;> simp [smant]

/-- An integer held in smaller units against another. -/
theorem Fv.lt_integers (n k : Bool) (m i j : Nat) : (Fv.fin n (m * 2 ^ j) (-(j : Int))).lt (.fin k i 0) = decide (smant n m < smant k i) := by
  rw [Fv.lt_integer, smant_mul]
  exact decide_eq_decide.2 (Int.mul_lt_mul_right (Int.natCast_pos.2 (Nat.two_pow_pos j)))

/-! ## Exact results of the trigonometric functions and of the power of two -/

section
variable (n : Bool) {i : Nat}

theorem sfTrig_integer (op : Nat) (cos : Bool) (pos : 0 < i) (small : i < 2 ^ 24) : sfTrig op cos (rne32 (.fin n i 0)) =
    (if cos then (if i % 2 = 0 then 0x3F800000 else 0xBF800000) else signBit n, 0) := by
  rw [sfTrig_fin (Nat.mul_pos pos (Nat.two_pow_pos _)) op cos (fp32_integer n pos small), dyadicInt_shifted]
  have even : smant n i % 2 = 0 ↔ i % 2 = 0 := by cases n <;> simp [smant] <;> omega
  cases cos
  · rfl
  · simp only [even, if_true]

theorem sfTrig_half (op : Nat) (cos : Bool) (small : i < 2 ^ 22) : sfTrig op cos (rne32 (.fin n (2 * i + 1) (-1))) =
    (if cos then 0 else if (i % 2 == 0) != n then 0x3F800000 else 0xBF800000, 0) := by
  rw [sfTrig_fin (Nat.mul_pos (Nat.succ_pos _) (Nat.two_pow_pos _)) op cos (fp32_half n (Nat.succ_pos _) (by omega)), dyadicInt_half n (by omega),
    show -((23 - (2 * i + 1).log2 + 1 : Nat) : Int) + 1 = -((23 - (2 * i + 1).log2 : Nat) : Int) by omega, dyadicInt_shifted]
  have even : (smant n (2 * i + 1) - 1) / 2 % 2 = 0 ↔ ((i % 2 == 0) != n) = true := by cases n <;> simp [smant] <;> omega
  cases cos
  · simp only [even, Bool.false_eq_true, if_false]
  · rfl

/-- The value of a small integer's code, zeros among them. -/
theorem fp32_small_integer (small : i < 2 ^ 24) : ∃ j : Nat, fp32 (rne32 (.fin n i 0)) = .fin n (i * 2 ^ j) (-(j : Int)) := by
  rcases Nat.eq_zero_or_pos i with rfl | pos
  · refine ⟨149, ?_⟩
    rw [rne32_zero, Nat.zero_mul]
    exact fp32_subnormal n (f := 0) (by decide)
  · exact ⟨_, fp32_integer n pos small⟩

/-- 2 to an integer power in the normal range. -/
theorem sfExp2_integer (inside : i < 127) {e : Nat} (code : e = if n then 127 - i else 127 + i) :
    sfExp2 (rne32 (.fin n i 0)) = (e * 2 ^ 23, 0) := by
  obtain ⟨j, value⟩ := fp32_small_integer n (i := i) (by omega)
  have below : smant n i < smant false 128 := by cases n <;> simp [smant] <;> omega
  have above : ¬smant n i < smant true 150 := by cases n <;> simp [smant] <;> omega
  have exponent : (smant n i + 127).toNat = e := by cases n <;> simp_all [smant] <;> omega
  rw [sfExp2_fin value, Fv.lt_integers, Fv.lt_integers, decide_eq_true below, decide_eq_false above, dyadicInt_shifted]
  have low : -126 ≤ smant n i := by cases n <;> simp [smant] <;> omega
  have high : smant n i ≤ 127 := by cases n <;> simp [smant] <;> omega
  simp only [Bool.not_true, Bool.false_eq_true, if_false]
  rw [if_pos (by omega), exactly, rne32_two_pow false low high, exponent, signBit, if_neg Bool.false_ne_true, Nat.zero_add]

end

/-! ## Beyond the ranges -/

/-- A normal value with exponent field `e` against an integer. -/
theorem Fv.lt_normal (n k : Bool) (m i e : Nat) : (Fv.fin n m (e - 150)).lt (.fin k i 0) =
    if e ≤ 150 then decide (smant n m < smant k i * (2 ^ (150 - e) : Nat)) else decide (smant n m * (2 ^ (e - 150) : Nat) < smant k i) := by
  split
  case isTrue small => rw [show (e : Int) - 150 = -((150 - e : Nat) : Int) by omega, Fv.lt_integer]
  case isFalse large => rw [show (e : Int) - 150 = ((e - 150 : Nat) : Int) by omega, Fv.lt_integer_of_units]

/-- A normal value whose exponent field is at least `b` in magnitude reaches what its mantissa reaches at `b`. -/
theorem Fv.lt_of_reaching {m i e b : Nat} (field : b ≤ e) (base : b ≤ 150) (reaches : i * 2 ^ (150 - b) ≤ m) :
    (Fv.fin false m (e - 150)).lt (.fin false i 0) = false := by
  have pos := Nat.two_pow_pos (150 - b)
  have le : i ≤ i * 2 ^ (150 - b) := Nat.le_mul_of_pos_right i pos
  rw [Fv.lt_normal]
  split
  case isTrue small =>
    have le : i * 2 ^ (150 - e) ≤ i * 2 ^ (150 - b) := Nat.mul_le_mul_left i (Nat.pow_le_pow_right (by decide) (by omega))
    simp only [smant, Bool.false_eq_true, if_false, ← Int.natCast_mul]
    exact decide_eq_false (by omega)
  case isFalse large =>
    have le' : m ≤ m * 2 ^ (e - 150) := Nat.le_mul_of_pos_right m (Nat.two_pow_pos _)
    simp only [smant, Bool.false_eq_true, if_false, ← Int.natCast_mul]
    exact decide_eq_false (by omega)

/-- And a negative one beyond it lies below. -/
theorem Fv.lt_of_passing {m i e b : Nat} (field : b ≤ e) (base : b ≤ 150) (passes : i * 2 ^ (150 - b) < m) :
    (Fv.fin true m (e - 150)).lt (.fin true i 0) = true := by
  have pos := Nat.two_pow_pos (150 - b)
  have le : i ≤ i * 2 ^ (150 - b) := Nat.le_mul_of_pos_right i pos
  rw [Fv.lt_normal]
  split
  case isTrue small =>
    have le : i * 2 ^ (150 - e) ≤ i * 2 ^ (150 - b) := Nat.mul_le_mul_left i (Nat.pow_le_pow_right (by decide) (by omega))
    simp only [smant, if_true, ← Int.neg_mul_eq_neg_mul, ← Int.natCast_mul]
    exact decide_eq_true (by omega)
  case isFalse large =>
    have le' : m ≤ m * 2 ^ (e - 150) := Nat.le_mul_of_pos_right m (Nat.two_pow_pos _)
    simp only [smant, if_true, ← Int.neg_mul_eq_neg_mul, ← Int.natCast_mul]
    exact decide_eq_true (by omega)

/-- A negative value lies below a positive one. -/
theorem Fv.lt_of_signs {m i e : Nat} (pos : 0 < m) : (Fv.fin true m (e - 150)).lt (.fin false i 0) = true := by
  rw [Fv.lt_normal]
  split
  · simp only [smant, Bool.false_eq_true, if_true, if_false, ← Int.natCast_mul]
    exact decide_eq_true (by omega)
  · have le' : m ≤ m * 2 ^ (e - 150) := Nat.le_mul_of_pos_right m (Nat.two_pow_pos _)
    simp only [smant, Bool.false_eq_true, if_true, if_false, ← Int.neg_mul_eq_neg_mul, ← Int.natCast_mul]
    exact decide_eq_true (by omega)

/-- A normal code by its fields. -/
theorem fp32_of_normal (n : Bool) {c : Nat} (normal : 2 ^ 23 ≤ c) (finite : c < 0x7F800000) :
    fp32 (signBit n + c) = .fin n (2 ^ 23 + c % 2 ^ 23) ((c / 2 ^ 23 : Nat) - 150) := by
  have value := fp32_normal n (e := c / 2 ^ 23) (f := c % 2 ^ 23) (by omega) (by omega) (by omega)
  rwa [show c / 2 ^ 23 * 2 ^ 23 + c % 2 ^ 23 = c by omega] at value

theorem sfRsq_negative {x : Nat} (neg : 0x80000000 < x) (number : x ≤ 0xFF800000) :
    sfRsq x = (0x7FC00000, flNV) ∧ sfLog2 x = (0x7FC00000, flNV) := by
  rcases Nat.lt_or_eq_of_le number with finite | rfl
  · obtain ⟨m, e, value, pos⟩ := fp32_finite true (c := x - 0x80000000) (by omega) (by omega)
    rw [show signBit true + (x - 0x80000000) = x from Nat.add_sub_cancel' neg.le] at value
    exact ⟨sfRsq_neg pos value, sfLog2_neg pos value⟩
  · exact ⟨by decide +kernel, by decide +kernel⟩

theorem sfExp2_overflow {x : Nat} (large : 0x43000000 ≤ x) (finite : x < 0x7F800000) : sfExp2 x = (0x7F800000, flOF ||| flNX) := by
  have value := fp32_of_normal false (c := x) (by omega) finite
  rw [signBit, if_neg Bool.false_ne_true, Nat.zero_add] at value
  rw [sfExp2_fin value, Fv.lt_of_reaching (b := 134) (by omega) (by decide) (by omega)]
  rfl

theorem sfExp2_underflow {x : Nat} (low : 0xC3160000 < x) (finite : x < 0xFF800000) : sfExp2 x = (0, flUF ||| flNX) := by
  have value := fp32_of_normal true (c := x - 0x80000000) (by omega) (by omega)
  rw [show signBit true + (x - 0x80000000) = x from Nat.add_sub_cancel' (show 0x80000000 ≤ x by omega)] at value
  have below : (Fv.fin true (2 ^ 23 + (x - 0x80000000) % 2 ^ 23) (((x - 0x80000000) / 2 ^ 23 : Nat) - 150)).lt (.fin true 150 0) = true := by
    by_cases first : (x - 0x80000000) / 2 ^ 23 = 134
    · exact Fv.lt_of_passing (b := 134) (by omega) (by decide) (by omega)
    · exact Fv.lt_of_passing (b := 135) (by omega) (by decide) (by omega)
  rw [sfExp2_fin value, Fv.lt_of_signs (by omega), below]
  rfl

theorem sfRcp_overflow (n : Bool) {x : Nat} (pos : 0 < x) (tiny : x < 0x200000) :
    sfRcp (signBit n + x) = ((if n then 0xFF800000 else 0x7F800000), flOF ||| flNX) := by
  have log : x.log2 < 21 := (Nat.log2_lt pos.ne').2 tiny
  rw [sfRcp_fin pos (fp32_subnormal n (by omega)), if_pos (by omega)]

theorem sfTanh_saturates (n : Bool) {x : Nat} (large : 0x4111999A ≤ x) (finite : x < 0x7F800000) :
    sfTanh (signBit n + x) = ((if n then 0xBF800000 else 0x3F800000), flNX) := by
  have reaches : (Fv.fin false (10 * (2 ^ 23 + x % 2 ^ 23)) ((x / 2 ^ 23 : Nat) - 150)).lt (.fin false 91 0) = false := by
    by_cases first : x / 2 ^ 23 = 130
    · exact Fv.lt_of_reaching (b := 130) (by omega) (by decide) (by omega)
    · exact Fv.lt_of_reaching (b := 131) (by omega) (by decide) (by omega)
  rw [sfTanh_fin (by omega) (fp32_of_normal n (by omega) finite), reaches]
  rfl

/-! ## The obligation -/

/-- A NaN gives the canonical NaN, with no flag. -/
theorem special_nan {x : Nat} (nan : fp32 x = .nan) :
    ∀ f ∈ [sfRcp, sfRsq, sfExp2, sfLog2, sfTrig 0x30 false, sfTrig 0x31 true, sfTanh], f x = (0x7FC00000, 0) := by
  simp [sfRcp, sfRsq, sfExp2, sfLog2, sfTrig, sfTanh, nan]

/-- Settles O30: the deliveries by `reduceOp_gives` and `sfuOp_gives`, the exact values by the value that each code has (`fp32_two_pow`,
`fp32_integer`, `fp32_half`), those beyond the ranges by `Fv.lt_of_reaching` and its like. -/
theorem reductionsAndFunctions : Obligations.ReductionsAndFunctions := by
  refine ⟨fun s k d a x f room format named => ?reductions, fun s k z d a room => ?functions, fun x nan => special_nan nan, ?signed,
    fun e pos high => ?powers, fun n i pos small => ?integers, fun n i small => ?halves, fun x => ?beyond⟩
  case reductions =>
    intro l m gives
    refine ⟨exec_vrsum room k a format named, exec_vrmax room k a format named, fun masked => ?_⟩
    rw [exec_vrmax room k a format named, foldl_masked l m masked]
  case functions =>
    exact ⟨sfuOp_gives room k z d a sfRcp, sfuOp_gives room k z d a sfRsq, sfuOp_gives room k z d a sfExp2, sfuOp_gives room k z d a sfLog2,
      sfuOp_gives room k z d a (sfTrig 0x30 false), sfuOp_gives room k z d a (sfTrig 0x31 true), sfuOp_gives room k z d a sfTanh⟩
  case signed => exact ⟨by decide +kernel, by decide +kernel, by decide +kernel, by decide +kernel, by decide +kernel, by decide +kernel,
    by decide +kernel⟩
  case powers =>
    refine ⟨fun low => ⟨?_, sfRcp_two_pow true pos low⟩, sfRsq_two_pow pos high, sfLog2_two_pow pos high,
      fun n i code inside => sfExp2_integer n inside code⟩
    have value := sfRcp_two_pow false pos low
    rwa [signBit, if_neg Bool.false_ne_true, Nat.zero_add, Nat.zero_add] at value
  case integers => exact ⟨sfTrig_integer n 0x30 false pos small, sfTrig_integer n 0x31 true pos small⟩
  case halves => exact ⟨sfTrig_half n 0x30 false small, sfTrig_half n 0x31 true small⟩
  case beyond =>
    refine ⟨sfRsq_negative, sfExp2_overflow, sfExp2_underflow, fun pos tiny => ⟨?_, sfRcp_overflow true pos tiny⟩,
      fun large finite => ⟨?_, sfTanh_saturates true large finite⟩⟩
    · have value := sfRcp_overflow false pos tiny
      rwa [signBit, if_neg Bool.false_ne_true, Nat.zero_add] at value
    · have value := sfTanh_saturates false large finite
      rwa [signBit, if_neg Bool.false_ne_true, Nat.zero_add] at value

end Sys2Proof.Machine
end

section
/-! PROOFS. The transfers and where issue goes after a bundle (O42, R75, R82, R99). -/

namespace Sys2Proof.Machine

open Sys2Proof

/-- Outside a packed line an issue address is its own name (R75). -/
theorem normAt_of_full {m : Memory} {n : Nat} {pc : Word} (full : isPacked (lineAt m n (pc.toNat / 16)) = false) : normAt m n pc = pc := by
  simp [normAt, normalPc, full]

/-- Word 1 of a packed line is named by line × 16 + 1 (R75). -/
theorem normAt_of_packed {m : Memory} {n : Nat} {pc : Word} (inside : pc.toNat < 2 ^ 17) (first : pc.toNat % 16 = 0)
    (packed : isPacked (lineAt m n (pc.toNat / 16)) = true) : normAt m n pc = pc + 1 := by
  rw [normAt, if_pos inside, normalPc, packed]
  simp [first]

/-- After a full line comes the next one (R75). -/
theorem seqNext_of_full {m : Memory} {n : Nat} {pc : Word} (full : isPacked (lineAt m n (pc.toNat / 16)) = false) :
    seqNext m n pc = BitVec.ofNat 64 ((pc.toNat / 16 + 1) * 16) := by
  simp [seqNext, full]

/-- A full line stands for one issue (R82). -/
theorem issuesOf_of_full {m : Memory} {n : Nat} {pc : Word} (full : isPacked (lineAt m n (pc.toNat / 16)) = false) : issuesOf m n pc = 1 := by
  simp [issuesOf, full]

/-- A committed transfer is where issue goes (R99). -/
theorem Core.advance_of_jump {c : Core} {t : Word} (jump : c.ctx.ctl.jump = some t) (m : Memory) (n : Nat) :
    (c.advance m n).ctx.pc = normAt m n t ∧ (c.advance m n).ctx.rep = 0 := by
  simp [Core.advance, jump]

/-- With no transfer issue goes on after a full line (R75). -/
theorem Core.advance_of_full {c : Core} (jump : c.ctx.ctl.jump = none) {m : Memory} {n : Nat}
    (full : isPacked (lineAt m n (c.ctx.pc.toNat / 16)) = false) : (c.advance m n).ctx.pc = normAt m n (seqNext m n c.ctx.pc) := by
  simp [Core.advance, jump, issuesOf_of_full full]

section
variable {s : State} {g : BitVec 4} (on : s.on g) (t : BitVec 7) (o : BitVec 15) (xw : Option (BitVec 32)) (a : BitVec 6)
include on

theorem exec_br : exec (.br t g o xw) s = s.becomes (s.me.jumpTo (s.me.ctx.pc + branchOff o xw)) := State.guarded_on on _
theorem exec_jmp : exec (.jmp t g a) s = s.becomes (s.me.jumpTo (s.me.readS a)) := State.guarded_on on _
theorem exec_ret : exec (.ret t g a) s = s.becomes (s.me.jumpTo (s.me.readS a)) := State.guarded_on on _

theorem exec_call (room : s.roomy) : exec (.call t g o xw) s =
    s.becomes ((s.me.addItem 0 1 true false [.setS 31 (normAt s.mem s.cur (seqNext s.mem s.cur s.me.ctx.pc))]).jumpTo
      (s.me.ctx.pc + branchOff o xw)) :=
  (State.guarded_on on _).trans (congrArg s.becomes (State.room_of_lt room _))

theorem exec_call_full (full : ¬ s.roomy) : exec (.call t g o xw) s = s.becomes (s.iiViolation s.me) :=
  (State.guarded_on on _).trans (congrArg s.becomes (State.room_of_full (Nat.not_lt.1 full) _))

end

/-- Settles O42: the transfers, and where issue goes after their bundle (R75, R84, R98, R99). -/
theorem controlTransfers : Obligations.ControlTransfers := by
  intro s t g o xw a on
  refine ⟨rfl, exec_br on t o xw, exec_jmp on t a, exec_ret on t a, exec_call on t o xw,
    fun x inside first packed => normAt_of_packed inside first packed, seqNext_of_full, fun x _ full => ?_, fun jump full next => ?_⟩
  · have goes := Core.advance_of_jump (c := s.me.jumpTo x) rfl s.mem s.cur
    rwa [normAt_of_full full] at goes
  · rw [Core.advance_of_full jump full, seqNext_of_full full, normAt_of_full next]

end Sys2Proof.Machine
end

section
/-! PROOFS. RT, the debugger and its displays (O59, O60, R326, R338 to R348). -/

namespace Sys2Proof.Machine

open Sys2Proof

/-! ## Bytes and the numbers that they hold (R3) -/

theorem toBytes_ofBytes (l : List Byte) : toBytes l.length (ofBytes l) = l := by
  refine List.ext_getElem (length_toBytes _ _) fun i h h' => ?_
  rw [getElem_toBytes]
  refine BitVec.eq_of_getLsbD_eq fun j inside => ?_
  rw [BitVec.getLsbD_ofNat, decide_eq_true inside, Bool.true_and, Nat.testBit_shiftRight, testBit_ofBytes l i inside, List.getD_eq_getElem _ _ h']

theorem ofBytes_lt (l : List Byte) : ofBytes l < 2 ^ (8 * l.length) := by
  induction l with
  | nil => decide
  | cons b l ih =>
    have byte := b.isLt
    have split : ofBytes (b :: l) = b.toNat + 256 * ofBytes l := rfl
    have power : 2 ^ (8 * (b :: l).length) = 256 * 2 ^ (8 * l.length) := by
      rw [List.length_cons, Nat.mul_succ, Nat.pow_add, Nat.mul_comm]
    omega

theorem ofBytes_append_zeros (l : List Byte) (n : Nat) : ofBytes (l ++ List.replicate n 0) = ofBytes l := by
  induction l with
  | nil =>
    induction n with
    | zero => rfl
    | succ n ih => exact (congrArg (fun x => 0 + 256 * x) ih : _)
  | cons b l ih => exact congrArg (fun x => b.toNat + 256 * x) ih

theorem length_fit (n : Nat) (l : List Byte) : (fit n l).length = n := by
  simp [fit]; omega

/-- The leading bytes of bytes that were filled up with zeros hold the same number. -/
theorem ofBytes_take_fit {n k : Nat} (short : k ≤ n) (l : List Byte) : ofBytes ((fit n l).take k) = ofBytes (l.take k) := by
  rw [fit, List.take_take, Nat.min_eq_left short, List.take_append, List.take_replicate, ofBytes_append_zeros]

/-! ## RT: a record of the partition's page (R326, R340) -/

/-- The record that RT writes. -/
def State.rtRecord (s : State) (code : Nat) (o : List Byte) : List Byte := toBytes 8 (code % 256) ++ fit 24 (s.rtOperands code o)

/-- A command page with a record put behind its tail. -/
def CmdPage.posted (g : CmdPage) (r : List Byte) : CmdPage :=
  { g with ring := Map.put g.ring (g.tail.toNat % 32) (BitVec.ofNat 256 (ofBytes r)), tail := g.tail + 1 }

/-- The state in which RT has written its record. -/
def State.rtPosted (s : State) (code : Nat) (o : List Byte) : State :=
  { s with pages := Map.put s.pages (s.dbg.part + 1) ((s.page (s.dbg.part + 1)).posted (s.rtRecord code o)) }

theorem State.length_rtRecord (s : State) (code : Nat) (o : List Byte) : (s.rtRecord code o).length = 32 := by
  rw [rtRecord, List.length_append, length_toBytes, length_fit]

theorem State.page_rtPosted (s : State) (code : Nat) (o : List Byte) :
    (s.rtPosted code o).page (s.dbg.part + 1) = (s.page (s.dbg.part + 1)).posted (s.rtRecord code o) := Map.get_put_self ..

/-- A record of 32 bytes is read back as it was written. -/
theorem toBytes_record {r : List Byte} (length : r.length = 32) : toBytes 32 (BitVec.ofNat 256 (ofBytes r)).toNat = r := by
  have fits := ofBytes_lt r
  rw [length] at fits
  rw [BitVec.toNat_ofNat, Nat.mod_eq_of_lt fits, ← length, toBytes_ofBytes]

/-- A record posted where the ring was empty is its head. -/
theorem State.takeRecord_posted {s : State} {code : Nat} (o : List Byte)
    (empty : (s.page (s.dbg.part + 1)).head = (s.page (s.dbg.part + 1)).tail) :
    (s.rtPosted code o).takeRecord (s.dbg.part + 1) =
      nextOr (s.rtPosted code o) (takeCommand (some s.dbg.part) (s.rtRecord code o) { s.rtPosted code o with taking := true }) := by
  have record := toBytes_record (s.length_rtRecord code o)
  have ahead : ((s.page (s.dbg.part + 1)).tail + 1 - (s.page (s.dbg.part + 1)).tail).toNat = 1 := by bv_omega
  rw [takeRecord, s.page_rtPosted, CmdPage.posted]
  simp only [empty, ahead, Map.get_put_self, record, pageOf, Nat.succ_ne_zero, if_false, Nat.add_sub_cancel]
  rfl

theorem exec_rt_head {s : State} (code : Nat) (o : List Byte) (empty : (s.page (s.dbg.part + 1)).head = (s.page (s.dbg.part + 1)).tail)
    (open_ : (s.page (s.dbg.part + 1)).stopped = false) :
    exec (.rt code o) s =
      .next (nextOr (s.rtPosted code o) (takeCommand (some s.dbg.part) (s.rtRecord code o) { s.rtPosted code o with taking := true })) := by
  rw [← State.takeRecord_posted o empty]
  refine congrArg _ (if_pos ?_)
  rw [empty, open_, beq_self_eq_true]; rfl

theorem exec_rt_waits {s : State} (code : Nat) (o : List Byte)
    (waits : (s.page (s.dbg.part + 1)).head ≠ (s.page (s.dbg.part + 1)).tail ∨ (s.page (s.dbg.part + 1)).stopped = true) :
    exec (.rt code o) s = .next (s.rtPosted code o) := by
  refine congrArg _ (if_neg ?_)
  rcases waits with behind | stopped
  · simp [behind]
  · simp [stopped]

/-! ## Commands (R326) -/

/-- A command that takes effect on the partition of its page, or of its operand on the hypervisor's, ends with STATUS 1. -/
theorem State.command_takes {s t : State} {page : Option Nat} {part : Nat} {p : Part} (found : Map.get? s.parts (page.getD part) = some p)
    {hv : Bool} (permitted : (hv && page.isSome) = false) {f : Nat → Part → Option State} (takes : f (page.getD part) p = some t) (code : Nat) :
    s.command page part code hv f = .next (t.status page code 1) := by
  have taken : (Map.get? s.parts (page.getD part)).bind (f (page.getD part)) = some t := by rw [found]; exact takes
  rw [command, if_neg (Bool.eq_false_iff.1 permitted)]
  simp only [taken]

/-! ## How a record that is taken at once ends (R326, R327) -/

/-- A state in which a command has ended with its STATUS, its record being the head of its page. -/
def State.endsWith (s : State) (part code st : Nat) : State :=
  { s with
    outbox := s.outbox ++ [.status (some part) code st]
    pages := Map.put s.pages (part + 1) ((s.page (part + 1)).ended st) }

theorem State.status_taken {s : State} (idle : s.taking = false) (part code st : Nat) :
    { s with taking := true }.status (some part) code st = s.endsWith part code st :=
  congrArg (fun b => { s.endsWith part code st with taking := b }) idle.symm

theorem imgField_record (c : Nat) (l : List Byte) : imgField (toBytes 8 c ++ l) 0 1 = c % 256 := by
  simp [imgField, toBytes, ofBytes, List.range, List.range.loop]

/-- The bytes that QLIMIT does not use are those behind its eight (R327). -/
theorem recordClean_qlimit {f : List Byte} (length : f.length = 24) :
    recordClean 7 (toBytes 8 7 ++ f) = true ↔ ∀ b ∈ f.drop 8, b = 0 := by
  have high : ∀ i, i < 4 → (toBytes 8 7 ++ f).getD (i + 4) 0 = 0 := by
    intro i inside
    rw [List.getD_eq_getElem?_getD, List.getElem?_append_left (by rw [length_toBytes]; omega)]
    interval_cases i <;> rfl
  have low : ∀ i, (toBytes 8 7 ++ f).getD (8 + i) 0 = f.getD i 0 := by
    intro i
    rw [List.getD_eq_getElem?_getD, List.getElem?_append_right (by rw [length_toBytes]; omega), length_toBytes, Nat.add_sub_cancel_left,
      List.getD_eq_getElem?_getD]
  have clean : recordClean 7 (toBytes 8 7 ++ f) = true ↔ ∀ i, i < 28 → 4 ≤ i ∧ i < 12 ∨ (toBytes 8 7 ++ f).getD (i + 4) 0 = 0 := by
    simp [recordClean, operandsOf, show ∀ i, i + 4 < 16 ↔ i < 12 from fun i => by omega]
  rw [clean]
  constructor
  · intro zero b member
    obtain ⟨j, inside, rfl⟩ := List.mem_iff_getElem.1 member
    rw [List.length_drop, length] at inside
    have byte := (zero (12 + j) (by omega)).resolve_left (by omega)
    rw [show 12 + j + 4 = 8 + (8 + j) by omega, low, List.getD_eq_getElem _ _ (by omega)] at byte
    rw [List.getElem_drop]
    exact byte
  · intro zero i inside
    by_cases first : i < 4
    · exact .inr (high i first)
    by_cases used : i < 12
    · exact .inl ⟨by omega, used⟩
    refine .inr ?_
    obtain ⟨j, rfl⟩ := Nat.exists_eq_add_of_le (Nat.not_lt.1 used)
    rw [show 12 + j + 4 = 8 + (8 + j) by omega, low, List.getD_eq_getElem _ _ (by omega)]
    exact zero _ (List.mem_iff_getElem.2 ⟨j, by rw [List.length_drop]; omega, List.getElem_drop ..⟩)

section
variable (part : Nat) {code : Nat} (f : List Byte) (s : State) (byte : code < 256)
include byte

/-- A code of the hypervisor's page alone is not permitted, whatever its operands hold (R326). -/
theorem takeCommand_hypervisor (alone : code ∈ [10, 11, 13, 14, 15]) :
    takeCommand (some part) (toBytes 8 code ++ f) s = .next (s.status (some part) code 3) := by
  have named := imgField_record code f
  rw [Nat.mod_eq_of_lt byte] at named
  have listed : [10, 11, 13, 14, 15].contains code = true := List.contains_iff_mem.2 alone
  simp only [takeCommand, named, listed, Option.isSome_some, Bool.and_self, if_true]

/-- A byte that must be zero, and a reserved code, are refused (R326, R327). -/
theorem takeCommand_unclean (other : code ∉ [10, 11, 13, 14, 15]) (unclean : recordClean code (toBytes 8 code ++ f) = false) :
    takeCommand (some part) (toBytes 8 code ++ f) s = .next (s.status (some part) code 2) := by
  have named := imgField_record code f
  rw [Nat.mod_eq_of_lt byte] at named
  have listed : [10, 11, 13, 14, 15].contains code = false := by simpa using other
  simp only [takeCommand, named, listed, unclean, Bool.and_false, Bool.not_false, if_true, Bool.false_eq_true, if_false]

end

theorem takeCommand_qlimit (part : Nat) (f : List Byte) (s : State) (clean : recordClean 7 (toBytes 8 7 ++ f) = true) :
    takeCommand (some part) (toBytes 8 7 ++ f) s = execQlimit (some part) (imgField (toBytes 8 7 ++ f) 1 1)
      (BitVec.ofNat 64 (imgField (toBytes 8 7 ++ f) 8 8)) s := by
  have named : imgField (toBytes 8 7 ++ f) 0 1 = 7 := imgField_record 7 f
  simp only [takeCommand, named, clean]
  rfl

theorem recordClean_reserved {code : Nat} (reserved : code = 0 ∨ 17 ≤ code) (r : List Byte) : recordClean code r = false := by
  have none : operandsOf code = none := by
    rcases reserved with rfl | far
    · rfl
    · obtain ⟨k, rfl⟩ := Nat.exists_eq_add_of_le' far
      rfl
  rw [recordClean, none]

/-- Settles O60: NOP, the transfers and RT complete in every state (R98, R99, R326, R340). -/
theorem transfersAndCommandsComplete : Obligations.TransfersAndCommandsComplete := by
  refine ⟨fun s t g o xw a => ⟨rfl,
    fun on => ⟨exec_br on t o xw, exec_jmp on t a, exec_ret on t a, exec_call on t o xw, exec_call_full on t o xw⟩,
    fun off => ?_⟩, fun s code o => ⟨⟨_, rfl⟩, fun byte empty running idle => ?_⟩⟩
  · have guard : s.me.readP g = false := by simpa [State.on] using off
    intro i transfer
    simp only [List.mem_cons, List.not_mem_nil, or_false] at transfer
    rcases transfer with rfl | rfl | rfl | rfl <;> exact State.guarded_off guard _
  · have plain : code % 256 = code := Nat.mod_eq_of_lt byte
    have record : s.rtRecord code o = toBytes 8 code ++ fit 24 (s.rtOperands code o) := by rw [State.rtRecord, plain]
    have ends {u : State} (st : Nat) (kept : u.taking = false) (taken : takeCommand (some s.dbg.part) (s.rtRecord code o)
        { s.rtPosted code o with taking := true } = .next ({ u with taking := true }.status (some s.dbg.part) code st)) :
        exec (.rt code o) s = .next (u.endsWith s.dbg.part code st) := by
      rw [exec_rt_head code o empty running, taken, State.status_taken kept]
      rfl
    refine ⟨fun reserved => ends 2 idle ?_, fun alone => ends 3 idle ?_, ?_⟩
    · rw [record]
      exact takeCommand_unclean _ _ _ byte (by simp; omega) (recordClean_reserved reserved _)
    · rw [record]
      exact takeCommand_hypervisor _ _ _ byte alone
    · rintro p found rfl
      have operands : s.rtOperands 7 o = o := rfl
      rw [operands] at record
      refine ⟨fun zero => ends (u := (s.rtPosted 7 o).setPart s.dbg.part { p with qlimit := some (imgField o 0 8) }) 1 idle ?_,
        fun ⟨b, member, nonzero⟩ => ends 2 idle ?_⟩
      · rw [record, takeCommand_qlimit _ _ _ ((recordClean_qlimit (length_fit 24 o)).2 zero)]
        have field : (BitVec.ofNat 64 (imgField (toBytes 8 7 ++ fit 24 o) 8 8)).toNat = imgField o 0 8 := by
          have bytes : imgField (toBytes 8 7 ++ fit 24 o) 8 8 = imgField o 0 8 := ofBytes_take_fit (by decide) o
          have short := ofBytes_lt (o.take 8)
          have length := List.length_take_le 8 o
          have fits : imgField o 0 8 < 2 ^ 64 := short.trans_le (Nat.pow_le_pow_right (by decide) (by omega))
          rw [bytes, BitVec.toNat_ofNat, Nat.mod_eq_of_lt fits]
        rw [← field]
        exact State.command_takes (s := { s.rtPosted 7 o with taking := true }) (page := some s.dbg.part) found rfl rfl 7
      · rw [record]
        refine takeCommand_unclean _ _ _ byte (by decide) (Bool.eq_false_iff.2 fun clean => ?_)
        exact nonzero ((recordClean_qlimit (length_fit 24 o)).1 clean b member)

/-! ## Displays, breakpoints and the debugger's launch (R338 to R348) -/

/-- A display of a unit that runs adds one output. -/
theorem State.display_shows {s : State} {u n : Nat} (runs : s.dbgCore u = some n) (kind : Nat) (f : Core → List Word) :
    s.display kind u f = .next { s with outbox := s.outbox ++ [.display kind u (f (s.core n))] } := by
  rw [display, runs]

theorem State.points_addPoint (s : State) (p : Option Nat × Nat) :
    p ∈ (s.addPoint p).dbg.points ∧ ∀ x ∈ s.dbg.points, x ∈ (s.addPoint p).dbg.points := by
  simp only [addPoint]
  split
  · next set => exact ⟨by simpa using set, fun x member => member⟩
  · exact ⟨by simp, fun x member => List.mem_append_left _ member⟩

/-- LAUNCH where the partition admits launches and the scheduler places this one. -/
theorem exec_dbgLaunch {s t : State} {params : List Word} {p : Part} (found : Map.get? s.parts s.dbg.part = some p) (admits : p.admits = true)
    {l : Launch} (planned : planLaunch s s.dbg.part p debugQueue 0 s.dbg.record (stagedKey s.nextLaunch) 0 none none s.dbg.save = some l)
    {ids : Nat} (placed : s.considerLaunch p l = .admits t ids) :
    exec (.dbgLaunch params) s =
      .next (({ t with mem := memPutN t.mem (stagedKey s.nextLaunch) ((params.flatMap fun x : Word => toBytes 8 x.toNat).take l.psize) }.setQueue
        s.dbg.part debugQueue ⟨0, true, 0, 0, [], none, true, ((Map.get? p.queues debugQueue).map Queue.back).getD []⟩).admitted
          s.dbg.part p.lastQ ids) := by
  change execDbgLaunch params s = _
  simp only [execDbgLaunch, found, admits, planned, placed]
  rfl

theorem exec_dbgLaunch_closed {s : State} {p : Part} (found : Map.get? s.parts s.dbg.part = some p) (closed : p.admits = false)
    (params : List Word) : exec (.dbgLaunch params) s = .next s := by
  change execDbgLaunch params s = _
  rw [execDbgLaunch, found]
  exact if_pos (by rw [closed]; rfl)

section
variable {s : State} {u n : Nat} (runs : s.dbgCore u = some n)
include runs

theorem exec_dbgFq : ∃ l, exec (.dbgFq u) s = .next { s with outbox := s.outbox ++ [.display 0 u l] } := by
  change ∃ l, execDbgFq u s = _
  exact ⟨_, State.display_shows runs 0 _⟩

theorem exec_dbgMtx : ∃ l, exec (.dbgMtx u) s = .next { s with outbox := s.outbox ++ [.display 1 u l] } := by
  change ∃ l, execDbgMtx u s = _
  exact ⟨_, State.display_shows runs 1 _⟩

theorem exec_dbgLtt (f : Nat) (k : Nat) : ∃ l, exec (.dbgLtt u f k) s = .next { s with outbox := s.outbox ++ [.display 2 u l] } := by
  change ∃ l, execDbgLtt u f k s = _
  exact ⟨_, State.display_shows runs 2 _⟩

theorem exec_dbgAssay (x : Nat) : ∃ l, exec (.dbgAssay u x) s = .next { s with outbox := s.outbox ++ [.display 3 u l] } := by
  change ∃ l, execDbgAssay u x s = _
  exact ⟨_, State.display_shows runs 3 _⟩

theorem exec_efdbLoop : ∃ l, exec (.efdbLoop u) s = .next { s with outbox := s.outbox ++ [.display 6 u l] } := by
  change ∃ l, execEfdbLoop u s = _
  exact ⟨_, State.display_shows runs 6 _⟩

theorem exec_dbgGroup (g : Nat) : ∃ l, exec (.dbgGroup u g) s = .next { s with outbox := s.outbox ++ [.display 7 u l] } := by
  change ∃ l, execDbgGroup u g s = _
  exact ⟨_, State.display_shows runs 7 _⟩

theorem exec_landlog : ∃ l, exec (.landlog u) s = .next { s with outbox := s.outbox ++ [.display 4 u l] } := by
  change ∃ l, execLandlog u s = _
  simp only [execLandlog, runs]
  exact ⟨_, State.display_shows runs 4 _⟩

theorem exec_dbgRh (r : Nat) : ∃ l, exec (.dbgRh u r) s = .next { s with outbox := s.outbox ++ [.display 5 u l] } := by
  change ∃ l, execDbgRh u r s = _
  simp only [execDbgRh, runs]
  exact ⟨_, State.display_shows runs 5 _⟩

theorem exec_redlog (g lane : Nat) : ∃ l, exec (.redlog u g lane) s = .next { s with outbox := s.outbox ++ [.display 8 u l] } := by
  change ∃ l, execRedlog u g lane s = _
  simp only [execRedlog, runs]
  split
  · exact ⟨_, State.display_shows runs 8 _⟩
  · exact ⟨_, State.display_shows runs 8 _⟩

/-- Nothing is shown of a group on which the unit's launch has performed no MCLDR (R348). -/
theorem exec_redlog_none {g : Nat}
    (none : ∀ x ∈ s.dbg.reds, x.1 = n → x.2.1 = g → x.2.2.launch ≠ (s.core n).launch) (lane : Nat) :
    exec (.redlog u g lane) s = .next { s with outbox := s.outbox ++ [.display 8 u []] } := by
  have unlisted : s.dbg.reds.find? (fun (x : Nat × Nat × Coll) => x.1 == n && x.2.1 == g && x.2.2.launch == (s.core n).launch) = Option.none := by
    simpa using fun a b c member same group => none (a, b, c) member same group
  change execRedlog u g lane s = _
  simp only [execRedlog, runs, unlisted]
  exact State.display_shows runs 8 _

end

/-- Settles O59: the debugger (R338, R340, R342, R344, R348). -/
theorem debuggerCommands : Obligations.DebuggerCommands := by
  refine fun s u a n => ⟨⟨_, rfl, (s.points_addPoint _).1, (s.points_addPoint _).2, rfl, rfl⟩,
    ⟨_, rfl, (s.points_addPoint _).1, (s.points_addPoint _).2, rfl⟩, ⟨_, rfl, ?_, List.length_map _, rfl⟩, ?_,
    fun code o => ⟨exec_rt_head code o, exec_rt_waits code o⟩, fun runs => ?_⟩
  · intro x member
    obtain ⟨y, -, rfl⟩ := List.mem_map.1 member
    rfl
  · intro p params found
    refine ⟨fun closed => exec_dbgLaunch_closed found closed params, ?_⟩
    rintro l w t ids q admits planned placed rfl rfl
    exact exec_dbgLaunch found admits planned placed
  · exact ⟨exec_dbgFq runs, exec_dbgMtx runs, exec_dbgLtt runs, exec_dbgAssay runs, exec_landlog runs, exec_dbgRh runs, exec_efdbLoop runs,
      exec_dbgGroup runs, exec_redlog runs, fun g lane none => exec_redlog_none runs none lane⟩

end Sys2Proof.Machine
end

section
/-! PROOFS. The management commands (O58, R287, R326, R327). -/

namespace Sys2Proof.Machine

open Sys2Proof

/-! ## How a command ends (R326) -/

/-- On the hypervisor's page every command is permitted; one that has nothing to change is refused. -/
theorem State.command_refused {s : State} {part : Nat} {f : Nat → Part → Option State} (refuses : (Map.get? s.parts part).bind (f part) = none)
    {hv : Bool} {code : Nat} : s.command none part code hv f = .next (s.status none code 2) := by
  refine (if_neg (Bool.eq_false_iff.1 (Bool.and_false hv))).trans ?_
  simp only [Option.getD_none, refuses]

/-- A command that names no partition is refused. -/
theorem State.command_absent {s : State} {part : Nat} (absent : Map.get? s.parts part = none) {hv : Bool} {code : Nat}
    {f : Nat → Part → Option State} : s.command none part code hv f = .next (s.status none code 2) :=
  command_refused (by rw [absent]; rfl)

section
variable {s : State} {part : Nat} {p : Part} (found : Map.get? s.parts part = some p)
include found

/-- On the hypervisor's page every command of a partition is permitted: it takes effect where its operands let it. -/
theorem State.command_done {t : State} {hv : Bool} {f : Nat → Part → Option State} (code : Nat) (takes : f part p = some t) :
    s.command none part code hv f = .next (t.status none code 1) :=
  command_takes found (Bool.and_false hv) takes code

theorem State.command_keeps {hv : Bool} {f : Nat → Part → Option State} (code : Nat) (refuses : f part p = none) :
    s.command none part code hv f = .next (s.status none code 2) :=
  command_refused (by rw [found]; exact refuses)

end

/-- Settles O58: each management command takes its effect and ends with its status (R287, R326, R327). -/
theorem commandsTakeEffect : Obligations.CommandsTakeEffect := by
  intro s part p found
  refine ⟨fun q n a k r po w lid g y us absent => ⟨?_, ?_⟩, fun n a m k w lid unknown => ?_, fun q us => ?_, fun lid k l known => ?_,
    fun us => ?_, fun cc listed => ?_, fun a n aligned some_ fits => ?_, fun g y => ?_, ?_, fun st listed => ?_, ?_,
    fun k r po => ⟨fun t marked => ?_, fun used => ?_⟩,
    fun a b d named read => ⟨fun i listed ok => ?_, fun i listed ok => ⟨fun off => ⟨fun fresh => ?_, fun x old => ?_⟩,
      fun on h head => ⟨fun fresh => ?_, fun x old => ?_⟩⟩, fun cc words k listed entry => ?_⟩,
    fun msu slot a b d unit listed named read good low high => ?_, fun base a h code header body good => ?_⟩
  · intro x member
    simp only [List.mem_cons, List.not_mem_nil, or_false] at member
    rcases member with rfl | rfl | rfl | rfl | rfl | rfl | rfl | rfl | rfl | rfl | rfl | rfl | rfl | rfl | rfl
    all_goals dsimp only [exec]; exact State.command_absent absent
  · intro x member
    simp only [List.mem_cons, List.not_mem_nil, or_false] at member
    rcases member with rfl | rfl | rfl | rfl | rfl <;> rfl
  · refine ⟨?_, ?_⟩
    swap
    · dsimp only [exec]
      exact ⟨fun big => State.command_keeps found 1 (if_pos big), fun big => ⟨State.command_keeps found 2 (if_pos big),
      State.command_keeps found 3 (if_pos big)⟩, fun big => State.command_keeps found 8 (if_pos (by simpa using big)),
      fun bad => State.command_keeps found 9 (if_pos (by simpa [or_assoc] using bad)),
      fun bad => State.command_keeps found 11 (if_pos (by simpa using bad)), fun big => State.command_keeps found 12 (if_pos big),
      fun big => State.command_keeps found 13 (if_pos (by simp [big]))⟩
    intro x member
    simp only [List.mem_cons, List.not_mem_nil, or_false] at member
    rcases member with rfl | rfl | rfl
    · dsimp only [exec]
      exact State.command_keeps found 4 (by simp only [unknown])
    · dsimp only [exec]
      exact State.command_keeps found 5 (by simp only [State.setHold, unknown]; rfl)
    · dsimp only [exec]
      exact State.command_keeps found 6 (by simp only [State.setHold, unknown]; rfl)
  · dsimp only [exec]
    exact State.command_takes (page := some part) found rfl rfl 7
  · dsimp only [exec]
    refine ⟨fun saves => State.command_done found 4 ?_, fun none => State.command_keeps found 4 ?_, State.command_done found 5 ?_,
      State.command_done found 6 ?_⟩
    · simp only [known, if_neg saves]
    · simp only [known, if_pos none]
    · simp only [State.setHold, known]; rfl
    · simp only [State.setHold, known]; rfl
  · dsimp only [exec]
    exact State.command_done found 7 rfl
  · dsimp only [exec]
    exact State.command_done found 3 (if_neg (Nat.not_le.2 listed))
  · dsimp only [exec]
    exact State.command_done found 9 (if_neg (by simp; omega))
  · dsimp only [exec]
    exact State.command_done found 10 rfl
  · dsimp only [exec]
    exact State.command_done found 11 rfl
  · dsimp only [exec]
    exact State.command_done found 13 (if_neg (by simp; omega))
  · dsimp only [exec]
    exact State.command_done found 14 rfl
  · change execHarvest none part k r po s = _
    simp only [execHarvest, marked, Option.isSome_none, Bool.false_eq_true, if_false]
  · change execHarvest none part k r po s = _
    simp only [execHarvest, used, Option.isSome_none, Bool.false_eq_true, if_false]
  · subst read
    refine ⟨fun t => if t.failed && t.part == part && t.peer == i then { t with failed := false, unacked := [], tries := 0 } else t, ?_⟩
    dsimp only [exec]
    refine State.command_done found 12 ((if_neg (Nat.not_le.2 listed)).trans ?_)
    simp only [named, ok, Bool.not_true, Bool.false_eq_true, if_false]
  · subst read
    dsimp only [exec]
    refine State.command_done found 1 ((if_neg (Nat.not_le.2 listed)).trans ?_)
    simp only [named, ok, off, fresh, Bool.not_true, Bool.false_eq_true, if_false]
    rfl
  · subst read
    dsimp only [exec]
    refine State.command_done found 1 ((if_neg (Nat.not_le.2 listed)).trans ?_)
    simp only [named, ok, off, old, Bool.not_true, Bool.not_false, Bool.false_eq_true, if_false, if_true]
  · subst read
    dsimp only [exec]
    refine State.command_done found 1 ((if_neg (Nat.not_le.2 listed)).trans ?_)
    simp only [named, ok, on, fresh, head, Bool.not_true, Bool.false_eq_true, if_false, if_true]
  · subst read
    dsimp only [exec]
    refine State.command_done found 1 ((if_neg (Nat.not_le.2 listed)).trans ?_)
    simp only [named, ok, on, old, head, Bool.not_true, Bool.false_eq_true, if_false, if_true]
  · dsimp only [exec]
    refine State.command_done found 2 ((if_neg (Nat.not_le.2 listed)).trans ?_)
    simp only [named, entry]
  · subst read
    dsimp only [exec]
    refine State.command_done found 8 ((if_neg (by simp; omega)).trans ?_)
    simp only [named, good]
    exact if_neg (by simp; omega)
  · dsimp only [exec]
    refine State.command_done found 16 ?_
    simp only [header, body, good, if_true]

end Sys2Proof.Machine
end

section
/-! PROOFS. The SPDM responder (O57, R333). -/

namespace Sys2Proof.Machine

open Sys2Proof

/-! ## The boot state of one transport (R333) -/

@[simp] theorem Boot.side_put_same (b : Boot) (tcp : Bool) (x : Spdm) : (b.put tcp x).side tcp = x := by cases tcp <;> rfl
@[simp] theorem Boot.side_put_other (b : Boot) (tcp : Bool) (x : Spdm) : (b.put tcp x).side (!tcp) = b.side (!tcp) := by cases tcp <;> rfl
@[simp] theorem Boot.meas_put (b : Boot) (tcp : Bool) (x : Spdm) : (b.put tcp x).meas = b.meas := by cases tcp <;> rfl
@[simp] theorem Boot.step_put (b : Boot) (tcp : Bool) (x : Spdm) : (b.put tcp x).step = b.step := by cases tcp <;> rfl
@[simp] theorem Boot.addr_put (b : Boot) (tcp : Bool) (x : Spdm) : (b.put tcp x).addr = b.addr := by cases tcp <;> rfl

/-- What an answer on one transport leaves of the boot state. -/
def Boot.keeps (b c : Boot) (tcp : Bool) : Prop := c.meas = b.meas ∧ c.step = b.step ∧ c.addr = b.addr ∧ c.side (!tcp) = b.side (!tcp)

/-- A response joins the outputs, and of the boot state it grows the transcript of its transport. -/
def State.answers (s t : State) (tcp : Bool) (code : Nat) (x : Spdm) : Prop :=
  ∃ data b log, t = { s with outbox := s.outbox ++ [.spdm tcp code data], boot := b } ∧ s.boot.keeps b tcp ∧ b.side tcp = { x with log := log }

/-- A response after a change of the boot state that keeps what an answer keeps. -/
theorem State.respond_answers {s : State} {tcp : Bool} {b : Boot} (kept : s.boot.keeps b tcp) {x : Spdm} {log : List Byte}
    (side : b.side tcp = { x with log := log }) (code : Nat) (data : List Byte) :
    s.answers ({ s with boot := b }.respond tcp code data) tcp code x := by
  obtain ⟨meas, step, addr, other⟩ := kept
  refine ⟨data, _, log ++ data, rfl, ⟨?_, ?_, ?_, ?_⟩, ?_⟩
  · exact (Boot.meas_put ..).trans meas
  · exact (Boot.step_put ..).trans step
  · exact (Boot.addr_put ..).trans addr
  · exact (Boot.side_put_other ..).trans other
  · refine (Boot.side_put_same ..).trans ?_
    change { b.side tcp with log := (b.side tcp).log ++ data } = _
    rw [side]

theorem Boot.keeps_self (b : Boot) (tcp : Bool) : b.keeps b tcp := ⟨rfl, rfl, rfl, rfl⟩

theorem Boot.keeps_put {b c : Boot} {tcp : Bool} (kept : b.keeps c tcp) (x : Spdm) : b.keeps (c.put tcp x) tcp := by
  obtain ⟨meas, step, addr, other⟩ := kept
  exact ⟨(meas_put ..).trans meas, (step_put ..).trans step, (addr_put ..).trans addr, (side_put_other ..).trans other⟩

/-- A signed response takes a fresh number besides (R333). -/
theorem State.signed_answers {s : State} {tcp : Bool} {b : Boot} (kept : s.boot.keeps b tcp) {x : Spdm} {log : List Byte}
    (side : b.side tcp = { x with log := log }) (code : Nat) (request data : List Byte) :
    s.answers ({ s with boot := b }.signed tcp code request data) tcp code x := by
  have grown := Boot.keeps_put kept { b.side tcp with log := (b.side tcp).log ++ request }
  refine respond_answers (b := { b.put tcp { b.side tcp with log := (b.side tcp).log ++ request } with nonces := b.nonces + 1 })
    (log := log ++ request) grown ?_ code _
  refine (Boot.side_put_same b tcp _).trans ?_
  rw [side]

section
variable (s : State) (tcp : Bool) (x : Spdm) (code : Nat) (request data : List Byte)

theorem State.answers_respond : s.answers (s.respond tcp code data) tcp code (s.side tcp) :=
  respond_answers (Boot.keeps_self s.boot tcp) (log := (s.side tcp).log) rfl code data

theorem State.answers_agree_respond : s.answers ((s.agree tcp x).respond tcp code data) tcp code x :=
  respond_answers (Boot.keeps_put (Boot.keeps_self s.boot tcp) x) (log := x.log) (Boot.side_put_same s.boot tcp x) code data

theorem State.answers_signed : s.answers (s.signed tcp code request data) tcp code (s.side tcp) :=
  signed_answers (Boot.keeps_self s.boot tcp) (log := (s.side tcp).log) rfl code request data

theorem State.answers_agree_signed : s.answers ((s.agree tcp x).signed tcp code request data) tcp code x :=
  signed_answers (Boot.keeps_put (Boot.keeps_self s.boot tcp) x) (log := x.log) (Boot.side_put_same s.boot tcp x) code request data

end

/-- Whether the firmware answers on a transport: over TCP it has an address. -/
def State.spdmRuns (s : State) (tcp : Bool) : Prop := 7 ≤ s.boot.step ∧ (tcp = true → s.boot.addr.isSome = true)

theorem State.spdm_silent {s : State} {tcp : Bool} (silent : ¬ s.spdmRuns tcp) (ready : Bool) (f : State → State) :
    s.spdm tcp ready f = .next s := by
  refine if_pos ?_
  simp only [spdmRuns, not_and_or, Nat.not_le, Classical.not_imp, Bool.not_eq_true] at silent
  rcases silent with early | ⟨rfl, none⟩
  · simp [early]
  · simpa using .inr (by simpa using none)

theorem State.spdm_runs {s : State} {tcp : Bool} (runs : s.spdmRuns tcp) (ready : Bool) (f : State → State) :
    s.spdm tcp ready f = if ready then .next (f s) else .next (s.spdmError tcp 4) := by
  refine if_neg ?_
  obtain ⟨late, address⟩ := runs
  simp only [Bool.or_eq_true, Bool.and_eq_true, decide_eq_true_eq, not_or, Nat.not_lt, not_and]
  exact ⟨late, fun tcp' => by simpa using Option.isSome_iff_ne_none.1 (address tcp')⟩

section
variable {s : State} {tcp ready : Bool} {f : State → State}

theorem State.spdm_early (runs : 7 ≤ s.boot.step ∧ (tcp = true → s.boot.addr.isSome = true)) (early : ready = false) :
    s.spdm tcp ready f = .next { s with outbox := s.outbox ++ [.spdm tcp 0x7F [0x04]] } := by
  rw [spdm_runs runs, early]
  rfl

/-- A request in its order is answered; `P` is what its answer leaves agreed on. -/
theorem State.spdm_answered {code : Nat} {x : Spdm} {P : Boot → Prop} (runs : 7 ≤ s.boot.step ∧ (tcp = true → s.boot.addr.isSome = true))
    (inOrder : ready = true) (answers : s.answers (f s) tcp code x)
    (agreed : ∀ b, (b.side tcp).session = x.session → (b.side tcp).finished = x.finished → P b) :
    ∃ data b, s.spdm tcp ready f = .next { s with outbox := s.outbox ++ [.spdm tcp code data], boot := b } ∧ b.meas = s.boot.meas ∧
      b.step = s.boot.step ∧ b.addr = s.boot.addr ∧ b.side (!tcp) = s.boot.side (!tcp) ∧ P b := by
  obtain ⟨data, b, log, eq, ⟨meas, step, addr, other⟩, side⟩ := answers
  refine ⟨data, b, (spdm_runs runs ready f).trans ?_, meas, step, addr, other, agreed b ?_ ?_⟩
  · rw [inOrder, ← eq]; rfl
  · rw [side]
  · rw [side]

end

/-- Settles O57: the SPDM responder answers each request in its order (R333). -/
theorem spdmResponses : Obligations.SpdmResponses := by
  intro s tcp i ready code x runs error
  rintro (⟨rfl, rfl, rfl⟩ | ⟨rfl, rfl, rfl⟩ | ⟨h, a, d, rfl, rfl, rfl⟩ | ⟨rfl, rfl, rfl⟩ | ⟨o, n, rfl, rfl, rfl⟩ | ⟨n, rfl, rfl, rfl⟩ |
    ⟨k, n, g, rfl, rfl, rfl⟩ | ⟨k, y, rfl, rfl, rfl⟩ | ⟨k, m, rfl, rfl, rfl⟩ | ⟨k, rfl, rfl, rfl⟩)
  · dsimp only [exec, execGetVersion]
    refine ⟨fun silent => State.spdm_silent silent _ _, State.spdm_early, nofun, fun runs inOrder _ => State.spdm_answered runs inOrder
      (State.answers_agree_respond ..) fun b session finished => ⟨nofun, nofun, nofun, nofun⟩⟩
  · dsimp only [exec, execGetCapabilities]
    refine ⟨fun silent => State.spdm_silent silent _ _, State.spdm_early, nofun, fun runs inOrder _ => State.spdm_answered runs inOrder
      (State.answers_respond ..) fun b session finished => ⟨fun _ => session, nofun, nofun, nofun⟩⟩
  · dsimp only [exec, execNegotiateAlgorithms]
    refine ⟨fun silent => State.spdm_silent silent _ _, State.spdm_early, nofun, fun runs inOrder _ => State.spdm_answered runs inOrder
      (State.answers_agree_respond ..) fun b session finished => ⟨nofun, nofun, nofun, nofun⟩⟩
  · dsimp only [exec, execGetDigests]
    refine ⟨fun silent => State.spdm_silent silent _ _, State.spdm_early, nofun, fun runs inOrder _ => State.spdm_answered runs inOrder
      (State.answers_respond ..) fun b session finished => ⟨fun _ => session, nofun, nofun, nofun⟩⟩
  · dsimp only [exec, execGetCertificate]
    refine ⟨fun silent => State.spdm_silent silent _ _, State.spdm_early, nofun, fun runs inOrder _ => State.spdm_answered runs inOrder
      (State.answers_respond ..) fun b session finished => ⟨fun _ => session, nofun, nofun, nofun⟩⟩
  · dsimp only [exec, execChallenge]
    refine ⟨fun silent => State.spdm_silent silent _ _, State.spdm_early, nofun, fun runs inOrder _ => State.spdm_answered runs inOrder
      (State.answers_signed ..) fun b session finished => ⟨nofun, nofun, nofun, nofun⟩⟩
  · dsimp only [exec, execGetMeasurements]
    refine ⟨fun silent => State.spdm_silent silent _ _, State.spdm_early, nofun, fun runs inOrder _ => State.spdm_answered (x := x) runs inOrder
      ?_ fun b session finished => ⟨nofun, nofun, nofun, nofun⟩⟩
    cases g
    · exact State.answers_respond ..
    · exact State.answers_signed ..
  · dsimp only [exec, execKeyExchange]
    refine ⟨fun silent => State.spdm_silent silent _ _, State.spdm_early, nofun, fun runs inOrder _ => State.spdm_answered runs inOrder
      (State.answers_agree_signed ..) fun b session finished => ⟨nofun, fun _ _ is => ?_, nofun, nofun⟩⟩
    cases is
    exact session
  · dsimp only [exec, execFinish]
    refine ⟨fun silent => State.spdm_silent silent _ _, State.spdm_early, fun runs inOrder _ _ is wrong => ?_, fun runs inOrder right =>
      State.spdm_answered runs inOrder (x := { x with finished := true, log := x.log ++ m }) ?_
        fun b session finished => ⟨nofun, nofun, fun _ _ _ => finished, nofun⟩⟩
    · cases is
      rw [State.spdm_runs runs, if_pos inOrder]
      exact congrArg _ (if_neg wrong)
    · rw [if_pos (right k m rfl)]
      exact State.answers_agree_respond ..
  · dsimp only [exec, execEndSession]
    refine ⟨fun silent => State.spdm_silent silent _ _, State.spdm_early, nofun, fun runs inOrder _ => State.spdm_answered runs inOrder
      (State.answers_agree_respond ..) fun b session finished => ⟨nofun, nofun, nofun, fun _ _ => session⟩⟩

end Sys2Proof.Machine
end

section
/-! PROOFS. Completion counters and triggers (O51, R214, R242, R294 to R298). -/

namespace Sys2Proof.Machine

open Sys2Proof

/-! ## Counters and their notifications (R294 to R296) -/

@[simp] theorem Counter.value_notice (gt : Nat) (k : Counter) : (k.notice gt).value = k.value := by rw [notice]; split <;> rfl
@[simp] theorem Counter.cancelled_notice (gt : Nat) (k : Counter) : (k.notice gt).cancelled = k.cancelled := by rw [notice]; split <;> rfl

theorem Counter.notice_reached {k : Counter} (armed : k.armed = true) (alive : k.cancelled = false) (reached : k.notify ≤ k.value) (gt : Nat) :
    k.notice gt = { k with armed := false, sent := true, dueAt := k.dueAt ++ [gt + k.window * gtMicro] } := by
  rw [notice, if_pos (by simp [armed, reached]), alive]
  rfl

theorem Counter.notice_below {k : Counter} (alive : k.cancelled = false) (below : k.value < k.notify) (gt : Nat) : k.notice gt = k :=
  if_neg (by simp [alive, below])

@[simp] theorem State.parts_setPart (s : State) (part : Nat) (p : Part) : Map.get? (s.setPart part p).parts part = some p :=
  Map.get?_put_self ..

/-- With no trigger that waits on it and nothing to chain into, an increment is one addition (R295). -/
theorem State.bump_alone {s : State} {part cc : Nat} {p : Part} (found : Map.get? s.parts part = some p) (untriggered : p.triggers = [])
    (last : (Map.get p.counters cc Counter.zero).parent = none) (amt : Nat) :
    s.bump part cc amt = s.setPart part { p with
      counters := Map.put p.counters cc
        ({ Map.get p.counters cc Counter.zero with
          value := BitVec.ofNat 64 ((Map.get p.counters cc Counter.zero).value.toNat + amt) }.notice s.gt) } := by
  have unfold_ : s.bump part cc amt = bumpCounter (65535 + 1) part cc amt s := rfl
  have none (v : Word) : p.ready cc v = [] := by rw [Part.ready, untriggered]; rfl
  rw [unfold_, bumpCounter, found]
  simp only [last, none, List.foldl_nil]

theorem exec_counterIncrement {s : State} {i : Nat} {x : Incr} (listed : s.incrs[i]? = some x) (covered : s.covered x = true) :
    exec (.counterIncrement i) s = .next ({ s with incrs := s.incrs.eraseIdx i }.bump x.part x.cc x.amt.toNat) := by
  change execCounterIncrement i s = _
  simp only [execCounterIncrement, listed, covered]
  rfl

theorem exec_timeTriggerFire {s : State} {part slot cc : Nat} {p : Part} (found : Map.get? s.parts part = some p) {due : Word}
    (armed : Map.get? p.triggers slot = some (.time due cc)) (reached : due.toNat ≤ s.gt) :
    exec (.timeTriggerFire part slot) s = .next ((s.setPart part { p with triggers := Map.del p.triggers slot }).bump part cc 1) := by
  change execTimeTriggerFire part slot s = _
  simp only [execTimeTriggerFire, found, armed, if_pos reached]

/-- The interrupt of the one arming whose window has ended goes out (R296). -/
theorem exec_counterInterrupt {s : State} {part cc : Nat} {p : Part} (found : Map.get? s.parts part = some p) {k : Counter}
    (counter : Map.get? p.counters cc = some k) {due : Nat} {later : List Nat} (armings : k.dueAt = due :: later) (ended : due ≤ s.gt)
    (pending : ∀ t ∈ later, s.gt < t) :
    exec (.counterInterrupt part cc) s = .next { s.setPart part { p with counters := Map.put p.counters cc { k with dueAt := later } } with
      outbox := s.outbox ++ [.interrupt part k.hart k.ident] } := by
  have now : k.dueAt.filter (fun t => decide (t ≤ s.gt)) = [due] := by
    rw [armings, List.filter_cons_of_pos (by simpa using ended), List.filter_eq_nil_iff.2 fun t member => by simpa using pending t member]
  have rest : k.dueAt.filter (fun t => !decide (t ≤ s.gt)) = later := by
    rw [armings, List.filter_cons_of_neg (by simpa using ended), List.filter_eq_self.2 fun t member => by simpa using pending t member]
  change execCounterInterrupt part cc s = _
  simp only [execCounterInterrupt, found, counter, now, rest]
  rfl

theorem State.markCancelled_of_found {s : State} {part : Nat} {p : Part} (found : Map.get? s.parts part = some p) (cc : Nat) :
    s.markCancelled part cc =
      s.setPart part { p with counters := Map.put p.counters cc ({ Map.get p.counters cc Counter.zero with cancelled := true }.notice s.gt) } := by
  rw [markCancelled, found]

/-- Settles O51: increments, triggers, notifications and cancel marks (R214, R242, R294 to R298). -/
theorem countersAndTriggers : Obligations.CountersAndTriggers := by
  intro s part cc p found
  refine ⟨fun i x listed covered => exec_counterIncrement listed covered, fun amt untriggered last => ?_,
    fun slot due armed reached => exec_timeTriggerFire found armed reached,
    fun k due later counter armings ended pending => exec_counterInterrupt found counter armings ended pending,
    fun k armed alive => ⟨fun reached => ?_, fun below => Counter.notice_below alive below s.gt⟩, ?_⟩
  · rw [State.bump_alone found untriggered last]
    refine ⟨rfl, rfl, rfl, rfl, _, State.parts_setPart .., ?_, fun k other => Map.get?_put_other _ _ other⟩
    rw [Map.get_put_self, Counter.value_notice]
    exact (BitVec.ofNat_add ..).trans (congrArg (· + _) (BitVec.ofNat_toNat ..))
  · rw [Counter.notice_reached armed alive reached]
    exact ⟨rfl, rfl⟩
  · exact ⟨_, _, _, congrArg Host.Outcome.next (State.markCancelled_of_found found cc), rfl, rfl, State.parts_setPart .., Map.get?_put_self ..,
      Counter.cancelled_notice .., Counter.value_notice ..⟩

end Sys2Proof.Machine
end

section
/-! PROOFS. BKREL releases what the unit owns (O44, R108). -/

namespace Sys2Proof.Machine

open Sys2Proof

/-- BKREL releases, of the banks that it names, those that the unit owns at issue (R108). -/
theorem exec_bkrel {s : State} {g : BitVec 4} (on : s.on g) (t : BitVec 7) (sh : BitVec 1) {m : BitVec 8} (some_ : m ≠ 0) :
    exec (.bkrel t g sh m) s = s.becomes (s.me.addItem 0 4 false false [.bkrel (bankMask sh m &&& s.me.owned)]) := by
  have listed : (m != 0) = true := by simpa using some_
  change s.checked (m != 0) _ = _
  rw [listed]
  exact State.guarded_on on _

/-- The package after reset, core 0 owning no bank. -/
def State.bankless : State := State.reset.setCore 0 { State.reset.core 0 with owned := 0 }

/-- Refutes O44: of the banks that a BKREL names only those that the unit owns at issue stand in its delay line (R108). A unit that owns none, and
names bank 0, puts the empty mask in flight, where the statement has bank 0. -/
theorem not_waitsAndBarriers : ¬ Obligations.WaitsAndBarriers := by
  intro holds
  have on : State.bankless.on 0 := Core.readP_zero _
  obtain ⟨-, -, -, -, releases, -⟩ := holds State.bankless 0 0 0 0 0 1 0 none on
  have released := (exec_bkrel on 0 0 (m := 1) (by decide)).symm.trans (releases (by decide))
  have acts := congrArg (fun t : State => (t.core 0).ctx.items.map Item.acts) (Host.Outcome.next.inj released)
  exact absurd acts (by decide)

end Sys2Proof.Machine
end

section
/-! PROOFS. The loop engine (O43, R100 to R104). -/

namespace Sys2Proof.Machine

open Sys2Proof

/-! ## The stage vector (R100) -/

@[simp] theorem Ctx.sv_setSV (x : Ctx) (v : BitVec 16) : (x.setSV v).sv = v := by
  rw [Ctx.sv, setSV]
  refine BitVec.eq_of_getLsbD_eq fun i inside => ?_
  simp only [BitVec.getLsbD_append, BitVec.getLsbD_extractLsb']
  by_cases low : i < 8
  · simp [low]
  · have high : i - 8 < 8 := by omega
    have place : 8 + (i - 8) = i := by omega
    simp [low, high, place]

/-! ## LOOP and LEXIT at the end of their bundle (R101, R104) -/

/-- What a LOOP that is the only thing due at the end of its bundle leaves. -/
theorem Core.ctx_applyFin_loopStart {c : Core} {count : Word} {n first len : Nat} (due : c.ctx.ctl.fin = [.loopStart count n first len]) :
    c.applyFin.ctx = ({ c.ctx with
      ctl := { c.ctx.ctl with fin := [] }, lcnt := count, lrot := 0, lN := BitVec.ofNat 5 n, lQD := false, lFirst := BitVec.ofNat 17 first
      lLen := BitVec.ofNat 17 len, la := count != 0 }).setSV (if count = 0 then 0 else 1) := by
  rw [applyFin, due]
  rfl

/-- The loop engine that such a LOOP starts. -/
theorem Core.loop_started {c : Core} {count : Word} {n first len : Nat} (due : c.ctx.ctl.fin = [.loopStart count n first len]) (stages : n < 2 ^ 5)
    (short : len < 2 ^ 17) :
    let x := c.applyFin.ctx
    x.la = decide (count ≠ 0) ∧ x.lcnt = count ∧ x.lrot = 0 ∧ x.lN.toNat = n ∧ x.lQD = false ∧ x.sv = (if count = 0 then 0 else 1) ∧
      (first < 2 ^ 17 → x.lFirst.toNat = first) ∧ x.lLen.toNat = len ∧ x.s = c.ctx.s := by
  rw [ctx_applyFin_loopStart due]
  refine ⟨?_, rfl, rfl, ?_, rfl, Ctx.sv_setSV .., fun inside => ?_, ?_, rfl⟩
  · exact (Bool.eq_iff_iff.2 (by simp) : (count != 0) = decide (count ≠ 0))
  · exact (BitVec.toNat_ofNat ..).trans (Nat.mod_eq_of_lt stages)
  · exact (BitVec.toNat_ofNat ..).trans (Nat.mod_eq_of_lt inside)
  · exact (BitVec.toNat_ofNat ..).trans (Nat.mod_eq_of_lt short)

/-- What a LEXIT that is the only thing due at the end of its bundle leaves. -/
theorem Core.ctx_applyFin_loopExit {c : Core} (due : c.ctx.ctl.fin = [.loopExit]) :
    c.applyFin.ctx = ({ c.ctx with ctl := { c.ctx.ctl with fin := [] }, la := false }).setSV 0 := by
  rw [applyFin, due]
  rfl

section
variable {s : State} {g : BitVec 4} (on : s.on g) (t : BitVec 7) (a : BitVec 6) (n : BitVec 4) (b : BitVec 5) (xw : Option (BitVec 32))

/-- A LOOP within a loop is ILLEGAL (R101). -/
theorem exec_loop_inside (wf : (Instr.loop t g a n b xw).wf = true) (inside : s.me.ctx.la = true) :
    exec (.loop t g a n b xw) s = s.becomes (s.illegal s.me) := by
  change s.checked (Instr.loop t g a n b xw).wf _ = _
  rw [wf]
  exact congrArg s.becomes (if_pos inside)

include on

/-- The core that a LOOP outside a loop leaves, no quench being requested (R101). -/
theorem exec_loop_outside (wf : (Instr.loop t g a n b xw).wf = true) (outside : s.me.ctx.la = false) (unquenched : s.me.ctx.qreq = false) :
    exec (.loop t g a n b xw) s =
      let first := seqNext s.mem s.cur s.me.ctx.pc
      let d := s.me.addFin (.loopStart (s.me.readS a) (n.toNat + 1) first.toNat (loopLen b xw))
      s.becomes (if s.me.readS a = 0 then d.jumpTo (walkPositions s.mem s.cur (loopLen b xw) first) else d) := by
  have guard : s.me.readP g = true := on
  change s.checked (Instr.loop t g a n b xw).wf _ = _
  rw [wf]
  refine congrArg s.becomes ?_
  simp only [outside, unquenched, guard, Bool.false_eq_true, if_false, Bool.not_true, Bool.false_and]

theorem exec_lexit_inside (inside : s.me.ctx.la = true) : exec (.lexit t g) s =
    s.becomes ((s.me.addFin .loopExit).jumpTo (walkPositions s.mem s.cur s.me.ctx.lLen.toNat (s.me.ctx.lFirst.setWidth 64))) :=
  (State.guarded_on on _).trans (congrArg s.becomes (if_pos inside))

theorem exec_lexit_outside (outside : s.me.ctx.la = false) : exec (.lexit t g) s = s.becomes s.me :=
  (State.guarded_on on _).trans (congrArg s.becomes (if_neg (Bool.eq_false_iff.1 outside)))

end

/-! ## The iteration boundary (R102) -/

theorem Ctx.flushPreds_of_empty {x : Ctx} (empty : x.items = []) : x.flushPreds = x := by
  cases x
  cases empty
  rfl

theorem loopLen_lt (b : BitVec 5) (xw : Option (BitVec 32)) : loopLen b xw < 2 ^ 17 := by
  cases xw with
  | none => exact b.isLt.trans (by decide)
  | some e => exact (e.extractLsb' 0 17).isLt

/-- The stage vector of the next iteration: shifted below the stage count, its first stage set while iterations remain. -/
def nextStages (sv : BitVec 16) (stages : Nat) (more : Bool) : BitVec 16 :=
  let shifted : BitVec 16 := BitVec.ofNat 16 ((sv.toNat * 2) % 2 ^ stages)
  if more then shifted ||| 1 else shifted &&& ~~~1#16

theorem getLsbD_nextStages (sv : BitVec 16) (stages : Nat) (more : Bool) {i : Nat} (inside : i < 16) :
    (nextStages sv stages more).getLsbD i = if i = 0 then more else decide (i < stages) && sv.getLsbD (i - 1) := by
  have shifted : (BitVec.ofNat 16 ((sv.toNat * 2) % 2 ^ stages)).getLsbD i = (decide (i < stages) && (decide (0 < i) && sv.getLsbD (i - 1))) := by
    rw [BitVec.getLsbD_ofNat, decide_eq_true inside, Bool.true_and, Nat.testBit_mod_two_pow]
    cases i with
    | zero => simp
    | succ i => simp [Nat.testBit_succ, BitVec.testBit_toNat]
  have one : (1#16).getLsbD i = decide (i = 0) := by
    simp [inside]
  rw [nextStages]
  by_cases bottom : i = 0
  · subst bottom
    cases more
    · simp
    · simp
  · have positive : 0 < i := Nat.pos_of_ne_zero bottom
    cases more
    · rw [if_neg Bool.false_ne_true, if_neg bottom, BitVec.getLsbD_and, BitVec.getLsbD_not, shifted, one]
      simp [bottom, positive, inside]
    · simp [shifted, one, bottom, positive]

/-- The iteration count that a boundary leaves. -/
def Ctx.countLeft (x : Ctx) : Word := if x.lcnt = 0 then 0 else x.lcnt - 1

/-- The stage vector that a boundary leaves. -/
def Ctx.stagesLeft (x : Ctx) : BitVec 16 := nextStages x.sv x.lN.toNat (x.countLeft != 0)

/-- A context after the boundary of its loop, with nothing in flight and no quench requested. -/
def Ctx.afterBoundary (m : Memory) (n : Nat) (x : Ctx) : Ctx :=
  let y := { x with lrot := x.lrot - 1, lcnt := x.countLeft }.setSV x.stagesLeft
  if x.stagesLeft = 0 then { y with la := false, pc := normAt m n (walkPositions m n x.lLen.toNat (x.lFirst.setWidth 64)) }
  else { y with pc := normAt m n (x.lFirst.setWidth 64) }

theorem loopBoundary_free (m : Memory) (n : Nat) {x : Ctx} (empty : x.items = []) : loopBoundary m n false x = (x.afterBoundary m n, false) := by
  rw [loopBoundary, Ctx.flushPreds_of_empty empty]
  simp only [Bool.not_false, Bool.true_and, Bool.false_and, Bool.false_eq_true, if_false, Ctx.afterBoundary]
  by_cases ends : x.stagesLeft = 0
  · rw [if_pos ends]
    exact if_pos ends
  · rw [if_neg ends]
    exact if_neg ends

/-- The iteration boundary of a core with nothing in flight and no quench requested (R102). -/
theorem exec_iterationBoundary {s : State} {n : Nat} (active : (s.core n).ctx.la = true) (unquenched : (s.core n).ctx.qreq = false)
    (empty : (s.core n).ctx.items = []) :
    exec (.iterationBoundary n) s = .next (s.setCore n { s.core n with ctx := (s.core n).ctx.afterBoundary s.mem n }) := by
  refine congrArg (fun c => Host.Outcome.next (s.setCore n c)) ?_
  simp only [active, unquenched, Bool.not_true, Bool.false_eq_true, if_false, Bool.false_and, loopBoundary_free s.mem n empty, Bool.not_false,
    if_true]

/-- What the boundary of an active loop leaves: it goes on while a stage is set. -/
theorem Ctx.afterBoundary_fields (m : Memory) (n : Nat) {x : Ctx} (active : x.la = true) :
    let y := x.afterBoundary m n
    y.lrot = x.lrot - 1 ∧ y.lcnt = x.countLeft ∧ y.sv = x.stagesLeft ∧ y.la = decide (y.sv ≠ 0) ∧
      (y.sv ≠ 0 → y.pc = normAt m n (x.lFirst.setWidth 64)) ∧ y.s = x.s := by
  have turned : ∃ y : Ctx, { x with lrot := x.lrot - 1, lcnt := x.countLeft }.setSV x.stagesLeft = y ∧ y.lrot = x.lrot - 1 ∧
      y.lcnt = x.countLeft ∧ y.sv = x.stagesLeft ∧ y.la = x.la ∧ y.s = x.s := ⟨_, rfl, rfl, rfl, Ctx.sv_setSV .., rfl, rfl⟩
  obtain ⟨y, is, lrot, lcnt, sv, la, scalars⟩ := turned
  have same (b : Bool) (pc : Word) : { y with la := b, pc := pc }.sv = x.stagesLeft := sv
  simp only [afterBoundary, is]
  by_cases ends : x.stagesLeft = 0
  · rw [if_pos ends, same]
    exact ⟨lrot, lcnt, rfl, (decide_eq_false (not_not.2 ends)).symm, fun some_ => absurd ends some_, scalars⟩
  · rw [if_neg ends, same y.la]
    exact ⟨lrot, lcnt, rfl, (la.trans active).trans (decide_eq_true ends).symm, fun _ => rfl, scalars⟩

/-- Settles O43: LOOP, LEXIT and the iteration boundary (R101 to R104). -/
theorem loopEngine : Obligations.LoopEngine := by
  refine ⟨fun s t g a n b xw on idle wf => ⟨fun outside unquenched => ?_, exec_loop_inside t a n b xw wf, fun inside => ?_,
    exec_lexit_outside on t⟩, fun s n active unquenched empty => ?_⟩
  · refine ⟨_, exec_loop_outside on t a n b xw wf outside unquenched, ?_⟩
    have due : s.me.ctx.ctl.fin ++ [Act.loopStart (s.me.readS a) (n.toNat + 1) (seqNext s.mem s.cur s.me.ctx.pc).toNat (loopLen b xw)] =
        [.loopStart (s.me.readS a) (n.toNat + 1) (seqNext s.mem s.cur s.me.ctx.pc).toNat (loopLen b xw)] := by rw [idle]; rfl
    have stages : n.toNat + 1 < 2 ^ 5 := by have := n.isLt; omega
    by_cases zero : s.me.readS a = 0
    · rw [if_pos zero]
      exact ⟨rfl, outside, (if_pos zero).symm, Core.loop_started due stages (loopLen_lt b xw)⟩
    · rw [if_neg zero]
      exact ⟨rfl, outside, (if_neg zero).symm, Core.loop_started due stages (loopLen_lt b xw)⟩
  · have due : s.me.ctx.ctl.fin ++ [Act.loopExit] = [.loopExit] := by rw [idle]; rfl
    refine ⟨_, exec_lexit_inside on t inside, rfl, ?_⟩
    rw [Core.ctx_applyFin_loopExit due]
    exact ⟨rfl, Ctx.sv_setSV .., rfl⟩
  · have more : ((s.core n).ctx.countLeft != 0) = decide (1 < (s.core n).ctx.lcnt.toNat) := by
      rw [Ctx.countLeft]
      split
      · next zero => simp [zero]
      · next some_ => exact Bool.eq_iff_iff.2 (by simp only [bne_iff_ne, decide_eq_true_eq]; bv_omega)
    obtain ⟨lrot, lcnt, sv, la, pc, scalars⟩ := Ctx.afterBoundary_fields s.mem n active
    refine ⟨_, exec_iterationBoundary active unquenched empty, fun j other => State.core_setCore_other _ _ other, rfl, ?_⟩
    rw [State.core_setCore]
    refine ⟨lrot, lcnt, fun i inside => ?_, la, pc, scalars⟩
    rw [← more, ← getLsbD_nextStages _ _ _ inside]
    exact congrArg (BitVec.getLsbD · i) sv

end Sys2Proof.Machine
end

section
/-! PROOFS. Ends, fences, traps and packed lines (O45, R82 to R84, R109 to R111). -/

namespace Sys2Proof.Machine

open Sys2Proof

/-! ## Ends, quench points and fences (R109 to R111) -/

section
variable {s : State} {g : BitVec 4} (on : s.on g) (t : BitVec 7)
include on

theorem exec_qpoint_requested (requested : s.me.ctx.qreq = true) (tenant : s.me.mode = 0) :
    exec (.qpoint t g) s = s.becomes (s.me.due ⟨cQUENCH, 0, false, 1, 0⟩) :=
  (State.guarded_on on _).trans (congrArg s.becomes (if_pos (by rw [requested, tenant]; rfl)))

theorem exec_qpoint_free (free : s.me.ctx.qreq = false) : exec (.qpoint t g) s = s.becomes s.me :=
  (State.guarded_on on _).trans (congrArg s.becomes (if_neg (by rw [free]; exact Bool.false_ne_true)))

theorem exec_drainnt : exec (.drainnt t g) s =
    s.becomes { s.me with nt := s.me.nt.map fun e => if e.drained.isNone then { e with drained := some s.me.epoch } else e } :=
  State.guarded_on on _

end

/-- A DRAINNT places an entry that none has placed before, and leaves the others. -/
theorem QEntry.drain_fields (epoch : Nat) (e : QEntry) :
    let f := if e.drained.isNone then { e with drained := some epoch } else e
    f.drained = some (e.drained.getD epoch) ∧ f.uid = e.uid ∧ f.kind = e.kind ∧ f.row = e.row := by
  cases drained : e.drained <;> simp [drained]

/-- PACK with its checks passed (R82 to R84). -/
theorem exec_pack {s : State} {k : BitVec 4} (low : k ≠ 0) (high : k ≠ 15) (first : s.me.line = none)
    (packed : isPacked (lineAt s.mem s.cur (s.me.ctx.pc.toNat / 16)) = true) (tenant : s.me.mode = 0)
    (clean : (lineAt s.mem s.cur (s.me.ctx.pc.toNat / 16)).toNat >>> (32 + 16 * k.toNat) = 0) {entry : Mask}
    (names : entry = BitVec.ofNat 256 (memNat s.mem (patKey s.cur (32 * patternOf (lineAt s.mem s.cur (s.me.ctx.pc.toNat / 16)) s.me.ctx.pc)) 32))
    (full : isPacked entry = false) : exec (.pack k) s = s.becomes { s.me with line := some entry } := by
  have listed : (k != 0 && k != 15) = true := by simpa using ⟨low, high⟩
  subst names
  change s.checked (k != 0 && k != 15) _ = _
  rw [listed]
  refine congrArg s.becomes (if_neg ?_)
  simp [first, packed, tenant, clean, full]

/-- Settles O45: UEND, QPOINT, the fences, TRAP, BRK and PACK (R82 to R84, R109 to R111). -/
theorem endsFencesAndTraps : Obligations.EndsFencesAndTraps := by
  intro s t g k x on
  refine ⟨State.guarded_on on _, exec_qpoint_requested on t, exec_qpoint_free on t, State.guarded_on on _,
    ⟨_, exec_drainnt on t, List.length_map _, fun i e listed => ⟨_, ?_, QEntry.drain_fields s.me.epoch e⟩⟩, State.guarded_on on _,
    State.guarded_on on _, rfl, fun low high first packed tenant clean full => exec_pack low high first packed tenant clean rfl full⟩
  rw [List.getElem?_map, listed]
  rfl

end Sys2Proof.Machine
end

section
/-! PROOFS. Vector memory: VLD, VST, VGATHER and VSCATTER (O31, R135 to R137). -/

namespace Sys2Proof.Machine

open Sys2Proof

/-! ## VLD, VST, VGATHER and VSCATTER at issue (R135, R136) -/

/-! The hazard count is all that a gather or scatter changes of its context at issue. -/

theorem Core.startAt_gatherIssued (c : Core) (slot p : Nat) : (c.gatherIssued slot).startAt p = c.startAt p := by
  rw [gatherIssued]; split <;> rfl
theorem Core.readS_gatherIssued (c : Core) (slot : Nat) (r : BitVec 6) : (c.gatherIssued slot).readS r = c.readS r := by
  rw [gatherIssued]; split <;> rfl
theorem Core.readV_gatherIssued (c : Core) (slot : Nat) (r : BitVec 7) : (c.gatherIssued slot).readV r = c.readV r := by
  rw [gatherIssued]; split <;> rfl
theorem Core.readK_gatherIssued (c : Core) (slot : Nat) (r : BitVec 3) : (c.gatherIssued slot).readK r = c.readK r := rfl
theorem Core.physV_gatherIssued (c : Core) (slot r : Nat) : (c.gatherIssued slot).ctx.physV r = c.ctx.physV r := by
  rw [gatherIssued]; split <;> rfl

section
variable {s : State} (room : s.roomy) (k : BitVec 3) (b : BitVec 6)
include room

theorem exec_vld_passes {w : BitVec 2} (format : w ≠ 3) (z : BitVec 1) (d : BitVec 7) (xw : Option (BitVec 32))
    (passes : s.me.check s.cur (s.me.readS b + off32 xw) 256 256 true false [.face] = none) :
    exec (.vld k z d w b xw) s =
      let m := laneMask (w2Width w) (2048 / w2Width w) fun i => (s.me.readK k).getLsbD i
      s.becomes (s.inFlight 3 [.vload (s.me.readS b + off32 xw) (s.me.ctx.physV d.toNat) m (if z = 1 then ~~~m else 0)]) := by
  have listed : (w != 3) = true := by simpa using format
  change s.checked (w != 3) _ = _
  rw [listed]
  refine congrArg s.becomes ((State.room_of_lt room _).trans ?_)
  simp only [passes]
  rfl

theorem exec_vld_stops {w : BitVec 2} (format : w ≠ 3) (z : BitVec 1) (d : BitVec 7) (xw : Option (BitVec 32)) {code : Nat} {v : Word}
    (stops : s.me.check s.cur (s.me.readS b + off32 xw) 256 256 true false [.face] = some (code, v)) :
    exec (.vld k z d w b xw) s = s.becomes (s.fault code (s.me.readS b + off32 xw) 0 s.me) := by
  have listed : (w != 3) = true := by simpa using format
  change s.checked (w != 3) _ = _
  rw [listed]
  refine congrArg s.becomes ((State.room_of_lt room _).trans ?_)
  simp only [stops]
  rfl

theorem exec_vst_passes {w : BitVec 2} (format : w ≠ 3) (d : BitVec 7) (xw : Option (BitVec 32))
    (passes : s.me.check s.cur (s.me.readS b + off32 xw) 256 256 false true [.face] = none) :
    exec (.vst k d w b xw) s = s.becomes (s.inFlight 3 [.vstore (s.me.readS b + off32 xw) (s.me.readV d)
      (BitVec.ofNat 256 (packNat 1 256 fun i => if (s.me.readK k).getLsbD (8 * i / w2Width w) then 1 else 0))]) := by
  have listed : (w != 3) = true := by simpa using format
  change s.checked (w != 3) _ = _
  rw [listed]
  refine congrArg s.becomes ((State.room_of_lt room _).trans ?_)
  simp only [passes]
  rfl

theorem gatherIssue_busy (busy : s.me.ctx.clk < s.me.ctx.gatherFree s.slot) (f : Bool → Core → Core) :
    gatherIssue s b f s.me = s.fault cII (BitVec.ofNat 64 s.slot) 0 s.me :=
  (State.room_of_lt room _).trans (if_pos busy)

theorem gatherIssue_unmapped (free : s.me.ctx.gatherFree s.slot ≤ s.me.ctx.clk) (unmapped : winOf (s.me.readS b).toNat = none)
    (f : Bool → Core → Core) : gatherIssue s b f s.me = s.fault cTABLE (s.me.readS b) 0 s.me := by
  refine (State.room_of_lt room _).trans ((if_neg (Nat.not_lt.2 free)).trans ?_)
  simp only [unmapped]

theorem gatherIssue_begins (free : s.me.ctx.gatherFree s.slot ≤ s.me.ctx.clk) {cl : Bool}
    (window : winOf (s.me.readS b).toNat = some (if cl then .cluster else .face)) (f : Bool → Core → Core) :
    gatherIssue s b f s.me = f cl (s.me.gatherIssued s.slot) := by
  refine (State.room_of_lt room _).trans ((if_neg (Nat.not_lt.2 free)).trans ?_)
  cases cl
  · simp only [window, Bool.false_eq_true, if_false]
  · simp only [window, if_true]

end

/-! ## A gather's elements (R136, R137) -/

/-- The lanes of a gather after elements that have loaded their values. -/
def gatherAcc (value : Nat → Nat) (mask : BitVec 64) (l : List Nat) (acc : Vec) : Vec :=
  l.foldl (fun acc i => if mask.getLsbD i then acc ||| (BitVec.ofNat 2048 (value i) <<< (32 * i)) else acc) acc

/-- The lanes that a gather delivers after elements. -/
def gatherGot (mask : BitVec 64) (zero : Bool) (l : List Nat) (got : BitVec 64) : BitVec 64 :=
  l.foldl (fun got i => if mask.getLsbD i || zero then got ||| (1#64 <<< i) else got) got

theorem getLsbD_gatherGot (mask : BitVec 64) (zero : Bool) (l : List Nat) (got : BitVec 64) {j : Nat} (inside : j < 64) :
    (gatherGot mask zero l got).getLsbD j = (got.getLsbD j || (decide (j ∈ l) && (mask.getLsbD j || zero))) := by
  induction l generalizing got with
  | nil => simp [gatherGot]
  | cons i l ih =>
    have step : gatherGot mask zero (i :: l) got = gatherGot mask zero l (if mask.getLsbD i || zero then got ||| (1#64 <<< i) else got) := rfl
    rw [step, ih]
    by_cases same : j = i
    · subst same
      cases mask.getLsbD j || zero <;> simp [inside]
    · have other : (1#64 <<< i).getLsbD j = false := by
        rw [BitVec.getLsbD_shiftLeft]
        by_cases low : j < i
        · simp [low]
        · simp [show ¬ j - i = 0 by omega]
      cases on : mask.getLsbD i || zero <;> simp [same, other]

/-- A lane of a gather after elements whose values have 32 bits. -/
theorem laneNat_gatherAcc {value : Nat → Nat} (word : ∀ i, value i < 2 ^ 32) (mask : BitVec 64) (l : List Nat) (acc : Vec) {j : Nat}
    (lane : j < 64) : laneNat (gatherAcc value mask l acc) j 32 = laneNat acc j 32 ||| (if j ∈ l ∧ mask.getLsbD j = true then value j else 0) := by
  induction l generalizing acc with
  | nil => simp [gatherAcc]
  | cons i l ih =>
    have step : gatherAcc value mask (i :: l) acc =
        gatherAcc value mask l (if mask.getLsbD i then acc ||| (BitVec.ofNat 2048 (value i) <<< (32 * i)) else acc) := rfl
    have joined : laneNat (acc ||| (BitVec.ofNat 2048 (value i) <<< (32 * i))) j 32 = laneNat acc j 32 ||| (if j = i then value i else 0) := by
      refine Nat.eq_of_testBit_eq fun b => ?_
      rw [Nat.testBit_or, testBit_laneNat, testBit_laneNat, BitVec.getLsbD_or, BitVec.getLsbD_shiftLeft, BitVec.getLsbD_ofNat]
      have high (k : Nat) (above : 32 ≤ k) : (value i).testBit k = false :=
        Nat.testBit_lt_two_pow ((word i).trans_le (Nat.pow_le_pow_right (by decide) above))
      by_cases bit : b < 32
      · by_cases same : j = i
        · subst same
          have place : j * 32 + b - 32 * j = b := by omega
          simp [bit, show j * 32 + b < 2048 by omega, show ¬ j * 32 + b < 32 * j by omega, place, show b < 2048 by omega]
        · by_cases low : j < i
          · simp [bit, same, show j * 32 + b < 32 * i by omega]
          · simp [bit, same, high (j * 32 + b - 32 * i) (by omega)]
      · by_cases same : j = i
        · simp [bit, same, high b (by omega)]
        · simp [bit, same]
    rw [step, ih]
    cases on : mask.getLsbD i
    · have off : j ∈ i :: l ∧ mask.getLsbD j = true ↔ j ∈ l ∧ mask.getLsbD j = true := by
        simp only [List.mem_cons]
        constructor
        · rintro ⟨rfl | there, masked⟩
          · rw [on] at masked; cases masked
          · exact ⟨there, masked⟩
        · exact fun ⟨there, masked⟩ => ⟨.inr there, masked⟩
      simp only [Bool.false_eq_true, if_false, off]
    · rw [if_pos rfl, joined, Nat.or_assoc]
      congr 1
      by_cases same : j = i
      · subst same
        by_cases again : j ∈ l <;> simp [on, again]
      · simp [same]

section
variable (m0 : Memory) (s : State) (n : Nat) (m : Macro) (base : Word) (offs : Vec) (mask : BitVec 64) (zero cl : Bool)

/-- The value that an element of a gather loads. -/
def gatherValue (i : Nat) : Nat := (s.core n).loadNat m0 n (base + BitVec.ofNat 64 (laneNat offs i 32)) 4

theorem gatherElems_append {l : List Nat} (passes : ∀ i ∈ l, mask.getLsbD i = true → elemFault s n m base offs cl true i = none) (r : List Nat)
    (acc : Vec) (got : BitVec 64) : gatherElems m0 s n m base offs mask zero cl (l ++ r) acc got =
      gatherElems m0 s n m base offs mask zero cl r (gatherAcc (gatherValue m0 s n base offs) mask l acc) (gatherGot mask zero l got) := by
  induction l generalizing acc got with
  | nil => rfl
  | cons i l ih =>
    have rest := ih fun j member => passes j (List.mem_cons_of_mem _ member)
    rw [List.cons_append, gatherElems]
    cases on : mask.getLsbD i
    · rw [Bool.not_false, if_pos rfl, rest]
      simp only [gatherAcc, gatherGot, List.foldl_cons, on, Bool.false_eq_true, if_false, Bool.false_or]
    · rw [Bool.not_true, if_neg Bool.false_ne_true, passes i (List.mem_cons_self ..) on]
      refine (rest ..).trans ?_
      simp only [gatherAcc, gatherGot, List.foldl_cons, on, if_true, Bool.true_or, gatherValue]

theorem gatherElems_fails {l : List Nat} (passes : ∀ i ∈ l, mask.getLsbD i = true → elemFault s n m base offs cl true i = none) {i : Nat}
    (on : mask.getLsbD i = true) {t : Trap} (fails : elemFault s n m base offs cl true i = some t) (r : List Nat) (acc : Vec) (got : BitVec 64) :
    gatherElems m0 s n m base offs mask zero cl (l ++ i :: r) acc got =
      (gatherAcc (gatherValue m0 s n base offs) mask l acc, gatherGot mask zero l got, some (i, t)) := by
  rw [gatherElems_append m0 s n m base offs mask zero cl passes, gatherElems, on, Bool.not_true, if_neg Bool.false_ne_true, fails]

end

/-- Four loaded bytes hold a word. -/
theorem gatherValue_lt (m0 : Memory) (s : State) (n : Nat) (base : Word) (offs : Vec) (i : Nat) : gatherValue m0 s n base offs i < 2 ^ 32 := by
  rw [gatherValue, Core.loadNat]
  split
  · have short := ofBytes_lt (memGetN m0 ((s.core n).keyOf n (base + BitVec.ofNat 64 (laneNat offs i 32)).toNat) 4)
    rwa [memGetN, List.length_map, List.length_range] at short
  · have short := ofBytes_lt ((s.core n).loadBytes m0 n (base + BitVec.ofNat 64 (laneNat offs i 32)) 4)
    rwa [Core.loadBytes, List.length_map, List.length_range] at short

/-! ## A scatter's elements -/

/-- The write of an element of a scatter. -/
def scatterWrite (s : State) (n : Nat) (m : Macro) (base : Word) (offs data : Vec) (cl : Bool) (i : Nat) : Wr :=
  ⟨n, m.seq, m.slot, (s.core n).keyOf n (base + BitVec.ofNat 64 (laneNat offs i 32)).toNat, toBytes 4 (laneNat data i 32), none, cl, false⟩

/-- An access that its checks let pass is aligned. -/
theorem Core.aligned_of_check {n : Nat} {c : Core} {ea : Word} {len align : Nat} {rd wr : Bool} {wins : List Win}
    (passes : c.check n ea len align rd wr wins = none) : ea.toNat % align = 0 := by
  by_contra misaligned
  simp only [Core.check, if_pos misaligned] at passes
  split at passes
  · cases passes
  · split at passes <;> cases passes

section
variable (s : State) (n : Nat) (m : Macro) (base : Word) (offs data : Vec) (mask : BitVec 64) (cl : Bool)

/-- What an element of a gather or scatter may fault on does not depend on the writes of its cycle. -/
theorem elemFault_wq (wq : List Wr) (rd : Bool) (i : Nat) :
    elemFault { s with wq := wq } n m base offs cl rd i = elemFault s n m base offs cl rd i := rfl

/-- An element of a scatter that its checks let pass is one write. -/
theorem writeAt_of_elem {i : Nat} (passes : elemFault s n m base offs cl false i = none) :
    s.writeAt n m.seq m.slot (base + BitVec.ofNat 64 (laneNat offs i 32)) (toBytes 4 (laneNat data i 32)) cl =
      { s with wq := s.wq ++ [scatterWrite s n m base offs data cl i] } := by
  have checked : (s.core n).check n (base + BitVec.ofNat 64 (laneNat offs i 32)) 4 4 false true [if cl then .cluster else .face] = none := by
    rw [elemFault] at passes
    split at passes
    · cases passes
    · next checked => exact checked
  have aligned := Core.aligned_of_check checked
  exact State.writeAt_of_one_page s n m.seq m.slot (by rw [length_toBytes]; omega) cl

theorem scatterElems_append {l : List Nat} (passes : ∀ i ∈ l, mask.getLsbD i = true → elemFault s n m base offs cl false i = none) (r : List Nat) :
    scatterElems s n m base offs data mask cl (l ++ r) =
      scatterElems { s with wq := s.wq ++ (l.filter mask.getLsbD).map (scatterWrite s n m base offs data cl) } n m base offs data mask cl r := by
  induction l generalizing s with
  | nil => rw [List.nil_append, List.filter_nil, List.map_nil, List.append_nil]
  | cons i l ih =>
    have rest (wq : List Wr) := ih { s with wq := wq } fun j member => passes j (List.mem_cons_of_mem _ member)
    rw [List.cons_append, scatterElems]
    cases on : mask.getLsbD i
    · rw [Bool.not_false, if_pos rfl, List.filter_cons_of_neg (by simp [on])]
      exact rest s.wq
    · have fine := passes i (List.mem_cons_self ..) on
      rw [Bool.not_true, if_neg Bool.false_ne_true, fine, List.filter_cons_of_pos on, List.map_cons, List.append_cons]
      simp only [writeAt_of_elem s n m base offs data cl fine]
      exact rest _

end


/-! ## The elements of a cycle -/

/-- The elements from the next one of an instruction of many steps up to `hi`. -/
def Macro.upTo (m : Macro) (hi : Nat) : List Nat := (List.range (hi - m.next)).map fun j => m.next + j

theorem Macro.mem_upTo (m : Macro) (hi i : Nat) : i ∈ m.upTo hi ↔ m.next ≤ i ∧ i < hi := by
  simp only [upTo, List.mem_map, List.mem_range]
  exact ⟨fun ⟨j, inside, is⟩ => by omega, fun ⟨low, high⟩ => ⟨i - m.next, by omega, by omega⟩⟩

theorem Macro.length_upTo (m : Macro) (hi : Nat) : (m.upTo hi).length = hi - m.next := by
  rw [upTo, List.length_map, List.length_range]

theorem Macro.upTo_split (m : Macro) {i hi : Nat} (low : m.next ≤ i) (high : i < hi) : ∃ r, m.upTo hi = m.upTo i ++ i :: r := by
  obtain ⟨k, rfl⟩ := Nat.exists_eq_add_of_lt high
  have count : i + k + 1 - m.next = (i - m.next) + (k + 1) := by omega
  refine ⟨((List.range k).map Nat.succ).map fun j => m.next + (i - m.next + j), ?_⟩
  rw [upTo, upTo, count, List.range_add, List.map_append, List.range_succ_eq_map, List.map_cons, List.map_cons, List.map_map]
  simp [Function.comp_def, show m.next + (i - m.next) = i by omega]

theorem groupOf_four {m : Macro} (total : m.total = 64) (next : m.next < 64) : groupOf m 4 = m.upTo (4 * (m.next / 4) + 4) := by
  rw [groupOf, total, Nat.min_eq_right (by omega)]
  rfl

theorem macroStep_early {m0 : Memory} {n : Nat} {s : State} {m : Macro} (early : (s.core n).ctx.clk < m.start + m.offset) :
    macroStep m0 n s m = (s, m, none) := if_pos early

section
variable {m0 : Memory} {n : Nat} {s : State} {m : Macro} {base : Word} {offs acc acc' : Vec} {mask got got' : BitVec 64} {zero cl : Bool} {d : Nat}
  (work : m.work = .gather base offs mask zero d cl acc got)
include work

theorem Macro.offset_gather : m.offset = (if cl then 10 else 2) + m.next / 4 := by rw [offset, work]

theorem macroStep_gather (due : m.start + ((if cl then 10 else 2) + m.next / 4) ≤ (s.core n).ctx.clk)
    (elems : gatherElems m0 s n m base offs mask zero cl (groupOf m 4) acc got = (acc', got', none)) :
    macroStep m0 n s m =
      (if m.next + (groupOf m 4).length < m.total then s else s.setCore n { s.core n with ctx := { (s.core n).ctx with
          items := (s.core n).ctx.items ++ [⟨max ((s.core n).ctx.clk + 1) (m.start + (if cl then 30 else 20)), m.seq, m.slot, true, false, m.uid,
            [.setV d acc' (laneMask 32 64 fun i => got'.getLsbD i)]⟩] } },
        { m with next := m.next + (groupOf m 4).length, work := .gather base offs mask zero d cl acc' got' }, none) := by
  rw [← Macro.offset_gather work] at due
  refine (if_neg (Nat.not_lt.2 due)).trans ?_
  simp only [work, elems]

theorem macroStep_gather_fails (due : m.start + ((if cl then 10 else 2) + m.next / 4) ≤ (s.core n).ctx.clk) {i : Nat} {t : Trap}
    (elems : gatherElems m0 s n m base offs mask zero cl (groupOf m 4) acc got = (acc', got', some (i, t))) :
    macroStep m0 n s m = (s, { m with next := i, work := .gather base offs mask zero d cl acc' got' }, some t) := by
  rw [← Macro.offset_gather work] at due
  refine (if_neg (Nat.not_lt.2 due)).trans ?_
  simp only [work, elems]

end

section
variable {m0 : Memory} {n : Nat} {s : State} {m : Macro} {base : Word} {offs data : Vec} {mask : BitVec 64} {cl : Bool}
  (work : m.work = .scatter base offs data mask cl) (due : m.start + ((if cl then 10 else 2) + m.next / 4) ≤ (s.core n).ctx.clk) {t : State}
include work due

theorem macroStep_scatter (elems : scatterElems s n m base offs data mask cl (groupOf m 4) = (t, none)) :
    macroStep m0 n s m = (t, { m with next := m.next + (groupOf m 4).length }, none) := by
  have offset : m.offset = (if cl then 10 else 2) + m.next / 4 := by rw [Macro.offset, work]
  rw [← offset] at due
  refine (if_neg (Nat.not_lt.2 due)).trans ?_
  simp only [work, elems]

theorem macroStep_scatter_fails {i : Nat} {f : Trap} (elems : scatterElems s n m base offs data mask cl (groupOf m 4) = (t, some (i, f))) :
    macroStep m0 n s m = (t, { m with next := i }, some f) := by
  have offset : m.offset = (if cl then 10 else 2) + m.next / 4 := by rw [Macro.offset, work]
  rw [← offset] at due
  refine (if_neg (Nat.not_lt.2 due)).trans ?_
  simp only [work, elems]

end

/-! ## VLD and VST perform (R135, R233) -/

/-- A byte of the vector that 256 bytes fill. -/
theorem extractLsb'_ofBytes (l : List Byte) {k : Nat} (inside : k < 256) :
    (BitVec.ofNat 2048 (ofBytes l)).extractLsb' (8 * k) 8 = l.getD k 0 := by
  refine BitVec.eq_of_getLsbD_eq fun j bit => ?_
  rw [BitVec.getLsbD_extractLsb', BitVec.getLsbD_ofNat, decide_eq_true bit, decide_eq_true (by omega : 8 * k + j < 2048), Bool.true_and,
    Bool.true_and, testBit_ofBytes l k bit]

/-- A marked byte joins the run behind it, or is a run of its own. -/
theorem byteRuns_marked (k : Nat) (b : Byte) (l : List (Bool × Byte)) :
    (∃ x t, byteRuns (k + 1) l = (k + 1, x) :: t ∧ byteRuns k ((true, b) :: l) = (k, b :: x) :: t) ∨
      byteRuns k ((true, b) :: l) = (k, [b]) :: byteRuns (k + 1) l := by
  rw [byteRuns]
  rcases byteRuns (k + 1) l with _ | ⟨⟨j, x⟩, t⟩
  · exact .inr rfl
  · by_cases next : j = k + 1
    · subst next
      exact .inl ⟨x, t, rfl, if_pos rfl⟩
    · exact .inr (if_neg next)

/-- Each byte of the runs is a marked one, at its place. -/
theorem marked_of_byteRuns {k : Nat} {l : List (Bool × Byte)} {r : Nat × List Byte} (run : r ∈ byteRuns k l) {j : Nat} {y : Byte}
    (byte : r.2[j]? = some y) : ∃ i, l[i]? = some (true, y) ∧ r.1 + j = k + i := by
  induction l generalizing k r j with
  | nil => cases run
  | cons e l ih =>
    have later {r : Nat × List Byte} {j : Nat} (run : r ∈ byteRuns (k + 1) l) (byte : r.2[j]? = some y) :
        ∃ i, (e :: l)[i]? = some (true, y) ∧ r.1 + j = k + i := by
      obtain ⟨i, marked, place⟩ := ih run byte
      exact ⟨i + 1, marked, by omega⟩
    obtain ⟨_ | _, b⟩ := e
    · exact later run byte
    · rcases byteRuns_marked k b l with ⟨x, t, tail, runs⟩ | runs
      · rw [runs] at run
        rcases List.mem_cons.1 run with rfl | behind
        · cases j with
          | zero => exact ⟨0, congrArg (fun z => Option.map (Prod.mk true) z) byte, rfl⟩
          | succ j =>
            obtain ⟨i, marked, place⟩ := later (r := (k + 1, x)) (by rw [tail]; exact List.mem_cons_self ..) byte
            exact ⟨i, marked, by dsimp only at place ⊢; omega⟩
        · exact later (by rw [tail]; exact List.mem_cons_of_mem _ behind) byte
      · rw [runs] at run
        rcases List.mem_cons.1 run with rfl | behind
        · cases j with
          | zero => exact ⟨0, congrArg (fun z => Option.map (Prod.mk true) z) byte, rfl⟩
          | succ j => cases byte
        · exact later behind byte

/-- Each marked byte stands in a run, at its place. -/
theorem byteRuns_of_marked (k : Nat) {l : List (Bool × Byte)} {i : Nat} {y : Byte} (marked : l[i]? = some (true, y)) :
    ∃ r ∈ byteRuns k l, ∃ j, r.1 + j = k + i ∧ r.2[j]? = some y := by
  induction l generalizing k i with
  | nil => cases marked
  | cons e l ih =>
    have later {i : Nat} (marked : l[i]? = some (true, y)) : ∃ r ∈ byteRuns (k + 1) l, ∃ j, r.1 + j = k + (i + 1) ∧ r.2[j]? = some y := by
      obtain ⟨r, run, j, place, byte⟩ := ih (k + 1) marked
      exact ⟨r, run, j, by omega, byte⟩
    obtain ⟨_ | _, b⟩ := e
    · cases i with
      | zero => cases marked
      | succ i => exact later marked
    · rcases byteRuns_marked k b l with ⟨x, t, tail, runs⟩ | runs
      · rw [runs]
        cases i with
        | zero =>
          cases marked
          exact ⟨_, List.mem_cons_self .., 0, rfl, rfl⟩
        | succ i =>
          obtain ⟨r, run, j, place, byte⟩ := later marked
          rw [tail] at run
          rcases List.mem_cons.1 run with rfl | behind
          · exact ⟨_, List.mem_cons_self .., j + 1, by dsimp only at place ⊢; omega, byte⟩
          · exact ⟨r, List.mem_cons_of_mem _ behind, j, place, byte⟩
      · rw [runs]
        cases i with
        | zero =>
          cases marked
          exact ⟨_, List.mem_cons_self .., 0, rfl, rfl⟩
        | succ i =>
          obtain ⟨r, run, j, place, byte⟩ := later marked
          exact ⟨r, List.mem_cons_of_mem _ run, j, place, byte⟩

/-- Writes joined one by one to those of the cycle. -/
theorem State.foldl_write (s : State) (n seq slot : Nat) (collides : Bool) (l : List (Nat × List Byte)) :
    l.foldl (fun s r => s.write n seq slot r.1 r.2 collides) s =
      { s with wq := s.wq ++ l.map fun r => ⟨n, seq, slot, r.1, r.2, none, collides, false⟩ } := by
  induction l generalizing s with
  | nil => rw [List.map_nil, List.append_nil, List.foldl_nil]
  | cons r l ih =>
    rw [List.foldl_cons, ih, List.map_cons, List.append_cons]
    rfl


/-- The bytes of a vector, each with its mark. -/
theorem getElem?_markedBytes (v : Vec) (bytes : Mask) (k : Nat) :
    ((toBytes 256 v.toNat).zipIdx.map fun x => (bytes.getLsbD x.2, x.1))[k]? =
      if k < 256 then some (bytes.getLsbD k, v.extractLsb' (8 * k) 8) else none := by
  rw [List.getElem?_map, List.getElem?_zipIdx]
  by_cases inside : k < 256
  · rw [if_pos inside, List.getElem?_eq_getElem (by rwa [length_toBytes]), getElem_toBytes]
    simp [BitVec.extractLsb']
  · rw [if_neg inside, List.getElem?_eq_none (by rw [length_toBytes]; omega)]
    rfl

/-- Settles O31: vector loads, stores, gathers and scatters, at issue and as they perform (R135 to R137). -/
theorem vectorMemory : Obligations.VectorMemory := by
  refine ⟨fun s k z d w b xw room format => ⟨exec_vld_passes room k b format z d xw,
    fun passes => ⟨_, exec_vst_passes room k b format d xw passes, fun i inside => ?_⟩, fun code v => exec_vld_stops room k b format z d xw⟩,
    fun s k z d a b room => ⟨fun free => ⟨fun cl window => ⟨?_, ?_⟩, fun unmapped => ?_⟩,
      fun busy => ⟨?_, ?_⟩⟩, fun m0 b n i s ea d m z => ⟨_, rfl, ?_⟩, fun m0 b n i s ea v bytes => ⟨_, State.foldl_write .., ?_, ?_⟩,
    fun m0 n s m base offs acc mask got zero cl d work total next => ⟨fun early => ?_, fun due => ⟨fun passes fresh => ?_, ?_⟩⟩,
    fun m0 n s m base offs data mask cl work total next due => ⟨fun passes => ?_, fun i t low high on fails passes => ?_⟩,
    fun s n m base offs cl rd i code v stops => ?_⟩
  · rw [getLsbD_packNat_one (by decide) (fun i => (s.me.readK k).getLsbD (8 * i / w2Width w)), decide_eq_true inside, Bool.true_and]
  · refine congrArg s.becomes ((gatherIssue_begins room b free window _).trans ?_)
    simp only [Core.startAt_gatherIssued, Core.readS_gatherIssued, Core.readV_gatherIssued, Core.readK_gatherIssued, Core.physV_gatherIssued]
    rfl
  · refine congrArg s.becomes ((gatherIssue_begins room b free window _).trans ?_)
    simp only [Core.startAt_gatherIssued, Core.readS_gatherIssued, Core.readV_gatherIssued, Core.readK_gatherIssued]
    rfl
  · exact congrArg s.becomes (gatherIssue_unmapped room b free unmapped _)
  · exact congrArg s.becomes (gatherIssue_busy room b busy _)
  · exact congrArg s.becomes (gatherIssue_busy room b busy _)
  · intro k inside
    rw [extractLsb'_ofBytes _ inside, Core.loadBytes, List.getD_eq_getElem?_getD, List.getElem?_map, List.getElem?_range inside]
    rfl
  · intro w member
    obtain ⟨r, run, rfl⟩ := List.mem_map.1 member
    refine ⟨rfl, rfl, rfl, rfl, fun j y byte => ?_⟩
    obtain ⟨k, marked, place⟩ := marked_of_byteRuns run byte
    rw [getElem?_markedBytes] at marked
    split at marked
    · next inside =>
      injection marked with pair
      injection pair with on data
      exact ⟨k, inside, on, place, data.symm⟩
    · cases marked
  · intro k inside on
    obtain ⟨r, run, j, place, byte⟩ := byteRuns_of_marked ((s.core n).keyOf n ea.toNat) (i := k) (y := v.extractLsb' (8 * k) 8)
      (l := (toBytes 256 v.toNat).zipIdx.map fun x => (bytes.getLsbD x.2, x.1)) (by rw [getElem?_markedBytes, if_pos inside, on])
    exact ⟨_, List.mem_map_of_mem run, j, place, byte⟩
  · exact macroStep_early (by rw [Macro.offset_gather work]; exact early)
  · have passing : ∀ i ∈ groupOf m 4, mask.getLsbD i = true → elemFault s n m base offs cl true i = none := by
      intro i member
      rw [groupOf_four total next, Macro.mem_upTo] at member
      exact passes i member.1 member.2
    have elems := gatherElems_append m0 s n m base offs mask zero cl passing [] acc got
    rw [List.append_nil, gatherElems] at elems
    have length : m.next + (groupOf m 4).length = 4 * (m.next / 4) + 4 := by
      rw [groupOf_four total next, Macro.length_upTo]; omega
    have step := macroStep_gather work due elems
    rw [length] at step
    refine ⟨_, _, _, step, fun i lane => ?_, fun i lane => ?_, fun more => if_pos (by omega), fun last => if_neg (by omega)⟩
    · rw [getLsbD_gatherGot _ _ _ _ lane, groupOf_four total next, decide_eq_decide.2 (Macro.mem_upTo ..)]
    · rw [laneNat_gatherAcc (gatherValue_lt m0 s n base offs) _ _ _ lane, groupOf_four total next]
      by_cases inside : m.next ≤ i ∧ i < 4 * (m.next / 4) + 4
      · rw [fresh i inside.1 lane, Nat.zero_or, if_pos inside]
        simp only [Macro.mem_upTo, inside, true_and]
        rfl
      · rw [if_neg inside, if_neg fun h => inside ((m.mem_upTo ..).1 h.1), Nat.or_zero]
  · intro i t low high on fails passes
    obtain ⟨r, split⟩ := m.upTo_split low high
    have elems := gatherElems_fails m0 s n m base offs mask zero cl (l := m.upTo i) (fun j member on => by
      rw [Macro.mem_upTo] at member
      exact passes j member.1 member.2 on) on fails r acc got
    rw [← split, ← groupOf_four total next] at elems
    exact ⟨_, macroStep_gather_fails work due elems⟩
  · have elems := scatterElems_append s n m base offs data mask cl (l := m.upTo (4 * (m.next / 4) + 4)) (fun i member on => by
      rw [Macro.mem_upTo] at member
      exact passes i member.1 member.2 on) []
    rw [List.append_nil, scatterElems, ← groupOf_four total next] at elems
    have length : m.next + (groupOf m 4).length = 4 * (m.next / 4) + 4 := by
      rw [groupOf_four total next, Macro.length_upTo]; omega
    have step := macroStep_scatter (m0 := m0) work due elems
    rw [length, groupOf_four total next] at step
    exact step
  · obtain ⟨r, split⟩ := m.upTo_split low high
    refine macroStep_scatter_fails work due ?_
    rw [groupOf_four total next, split]
    refine (scatterElems_append s n m base offs data mask cl (fun j member on => by
      rw [Macro.mem_upTo] at member
      exact passes j member.1 member.2 on) (i :: r)).trans ?_
    rw [scatterElems, on, Bool.not_true, if_neg Bool.false_ne_true, elemFault_wq, fails]
    rfl
  · simp only [elemFault, stops]

end Sys2Proof.Machine
end

section
/-! PROOFS. The gates of the assay, reheat and copy units (R144, R145, R163, R185): busy periods and kinds. -/

namespace Sys2Proof.Machine

open Sys2Proof

/-! ## The gates of the units (R144, R145, R163, R185) -/

/-- II_VIOLATION of the acting slot's instruction. -/
abbrev State.busyFault (s : State) : Out := s.becomes (s.fault cII (BitVec.ofNat 64 s.slot) 0 s.me)

/-- FORMAT of an assay context of the wrong kind. -/
abbrev State.contextFormat (s : State) (c : BitVec 2) : Out := s.becomes (s.fault cFORMAT (c.setWidth 64) 0 s.me)

theorem assayGate_busy {c : Core} (busy : c.ctx.clk < c.ctx.asBusy) (s : State) (x : BitVec 2) (need : Option Nat) (f : Core → Core) :
    assayGate s true x need f c = s.iiViolation c := by
  simp [assayGate, busy]

/-- Past the busy period, or for a query, which has none, the kind alone is asked for. -/
theorem assayGate_wrong {c : Core} {b : Bool} (free : b = false ∨ c.ctx.asBusy ≤ c.ctx.clk) (s : State) {x : BitVec 2} {n : Nat}
    (named : n ≠ 0) (wrong : (c.assayView x.toNat).kind ≠ n) (f : Core → Core) :
    assayGate s b x (some n) f c = s.fault cFORMAT (x.setWidth 64) 0 c := by
  have past : (b && decide (c.ctx.clk < c.ctx.asBusy)) = false := by
    rcases free with rfl | free
    · rfl
    · simp [Nat.not_lt.2 free]
  cases n with
  | zero => exact absurd rfl named
  | succ n => simp [assayGate, past, beq_eq_false_iff_ne.2 wrong]

/-- A query of any kind refuses an EMPTY context. -/
theorem assayGate_empty {c : Core} {x : BitVec 2} (empty : (c.assayView x.toNat).kind = 0) (s : State) (f : Core → Core) :
    assayGate s false x (some 0) f c = s.fault cFORMAT (x.setWidth 64) 0 c := by
  simp [assayGate, empty]

theorem assayGate_passes {c : Core} {b : Bool} (free : b = false ∨ c.ctx.asBusy ≤ c.ctx.clk) (s : State) {x : BitVec 2} {need : Option Nat}
    (right : ∀ n, need = some n → n ≠ 0 ∧ (c.assayView x.toNat).kind = n ∨ n = 0 ∧ (c.assayView x.toNat).kind ≠ 0) (f : Core → Core) :
    assayGate s b x need f c = f c := by
  have past : (b && decide (c.ctx.clk < c.ctx.asBusy)) = false := by
    rcases free with rfl | free
    · rfl
    · simp [Nat.not_lt.2 free]
  match need with
  | none => simp [assayGate, past]
  | some 0 =>
    have kind := (right 0 rfl).resolve_left fun h => h.1 rfl
    simp [assayGate, past, kind.2]
  | some (n + 1) =>
    have kind := (right (n + 1) rfl).resolve_right fun h => Nat.succ_ne_zero n h.1
    simp [assayGate, past, kind.2]

theorem reheatGate_busy {c : Core} (busy : c.ctx.clk < c.ctx.rhBusy) (s : State) (f : Core → Core) : reheatGate s f c = s.iiViolation c :=
  if_pos busy

theorem timedGate_busy {s : State} {c : Core} (busy : c.ctx.clk < c.ctx.copyFree s.slot) (f : Core → Core) : timedGate s f c = s.iiViolation c :=
  if_pos busy

theorem timedGate_free {s : State} {c : Core} (free : c.ctx.copyFree s.slot ≤ c.ctx.clk) (f : Core → Core) : timedGate s f c = f c :=
  if_neg (Nat.not_lt.2 free)

/-- A timed copy under a true guard in a busy period. -/
theorem State.guarded_timedGate_busy {s : State} {g : BitVec 4} (on : s.on g) (busy : s.me.ctx.clk < s.me.ctx.copyFree s.slot) (f : Core → Core) :
    s.guarded g (timedGate s f) = s.busyFault := by
  rw [State.guarded_on on, timedGate_busy busy]
  rfl

/-- A timed copy under a true guard outside a busy period. -/
theorem State.guarded_timedGate_free {s : State} {g : BitVec 4} (on : s.on g) (free : s.me.ctx.copyFree s.slot ≤ s.me.ctx.clk) (f : Core → Core) :
    s.guarded g (timedGate s f) = s.becomes (f s.me) := by
  rw [State.guarded_on on, timedGate_free free]

/-! ## The assay instructions at their gates -/

section
variable {s : State} (room : s.roomy)
include room

theorem State.room_assayGate_busy (busy : s.me.ctx.clk < s.me.ctx.asBusy) (c : BitVec 2) (need : Option Nat) (f : Core → Core) :
    s.act (s.room (assayGate s true c need f)) = s.busyFault := by
  rw [State.act_becomes, State.room_of_lt room, assayGate_busy busy]
  rfl

theorem State.room_assayGate_wrong {b : Bool} (free : b = false ∨ s.me.ctx.asBusy ≤ s.me.ctx.clk) {c : BitVec 2} {n : Nat} (named : n ≠ 0)
    (wrong : (s.me.assayView c.toNat).kind ≠ n) (f : Core → Core) : s.act (s.room (assayGate s b c (some n) f)) = s.contextFormat c := by
  rw [State.act_becomes, State.room_of_lt room, assayGate_wrong free s named wrong]

theorem State.room_assayGate_empty {c : BitVec 2} (empty : (s.me.assayView c.toNat).kind = 0) (f : Core → Core) :
    s.act (s.room (assayGate s false c (some 0) f)) = s.contextFormat c := by
  rw [State.act_becomes, State.room_of_lt room, assayGate_empty empty]

end

/-- A word with no reserved value, its condition given as a proposition. -/
theorem State.checked_of {s : State} {b : Bool} (listed : b = true) (k : Out) : s.checked b k = k := by
  rw [listed, State.checked_true]

/-! ## RHLIST's two checks -/

/-- In a busy period RHLIST is II_VIOLATION, with room for its stores and without. -/
theorem exec_rhlist_busy {s : State} (busy : s.me.ctx.clk < s.me.ctx.rhBusy) (r : BitVec 3) (a : BitVec 6) : exec (.rhlist r a) s = s.busyFault := by
  change execRhlist r a s = _
  simp only [execRhlist, State.act_becomes, State.roomFor, reheatGate_busy busy, ite_self]
  rfl

/-! ## The obligation -/

/-- Settles O33: each instruction of a unit stands behind its gate (`assayGate_busy`, `assayGate_wrong`, `reheatGate_busy`, `timedGate_busy`). -/
theorem engineGates : Obligations.EngineGates := by
  refine ⟨fun s k r c kind o p a b7 d e b w z sc room kindOk oOk pair scOk pOk => ?units, fun s g x y w m on busy => ?copies⟩
  case copies =>
    exact ⟨State.guarded_timedGate_busy on busy _, State.guarded_timedGate_busy on busy _, State.guarded_timedGate_busy on busy _,
      State.guarded_timedGate_busy on busy _, State.guarded_timedGate_busy on busy _⟩
  case units =>
    have cfgOk : (kind != 0 && o != 3 && (kind == 1 || o == 0)) = true := by
      simpa using And.intro (And.intro kindOk oOk) pair
    have operandOk : (sc == 0 || b7.getLsbD 6 == false) = true := by simpa using scOk
    have partOk : (p != 3) = true := by simpa using pOk
    refine ⟨fun busy => ?assayBusy, fun busy => ?reheatBusy, fun free => ?kinds, fun view => ?query, fun view => ?topk, fun view => ?estimate⟩
    case assayBusy =>
      refine ⟨(State.checked_of cfgOk _).trans ?_, congrArg s.becomes (assayGate_busy busy ..), State.room_assayGate_busy room busy ..,
        (State.checked_of operandOk _).trans (State.room_assayGate_busy room busy ..), State.room_assayGate_busy room busy ..,
        State.room_assayGate_busy room busy .., State.room_assayGate_busy room busy ..⟩
      exact congrArg s.becomes (assayGate_busy busy ..)
    case reheatBusy =>
      refine ⟨congrArg s.becomes (reheatGate_busy busy ..), ?_, exec_rhlist_busy busy r e, congrArg s.becomes (reheatGate_busy busy ..),
        congrArg s.becomes (reheatGate_busy busy ..)⟩
      exact congrArg s.becomes ((State.room_of_lt room _).trans (reheatGate_busy busy ..))
    case kinds =>
      exact ⟨fun view => State.room_assayGate_wrong room (.inr free) (by decide) view _,
        fun view => (State.checked_of operandOk _).trans (State.room_assayGate_wrong room (.inr free) (by decide) view _),
        fun view => State.room_assayGate_wrong room (.inr free) (by decide) view _⟩
    case query =>
      refine ⟨(State.checked_of (by simpa using operandOk) _).trans (State.room_assayGate_wrong room (.inl rfl) (by decide) view _),
        fun dOk bOk => ?_⟩
      refine (State.checked_of ?_ _).trans (State.room_assayGate_wrong room (.inl rfl) (by decide) view _)
      rw [dOk, bOk]
      rfl
    case topk => exact (State.checked_of partOk _).trans (State.room_assayGate_wrong room (.inl rfl) (by decide) view _)
    case estimate => exact State.room_assayGate_empty room view _

end Sys2Proof.Machine
end

section
/-! PROOFS. Queued copies at issue (R185 to R189): the checks in their order, and the entries that join their queues. -/

namespace Sys2Proof.Machine

open Sys2Proof

/-! ## The checks of a queued copy (R188), in their order -/

section
variable {n : Nat} {c : Core} {tile : Nat} {ea base stride : Word}

theorem queueCheck_pending (pending : c.tilePend.getLsbD tile = true) :
    queueCheck n c tile ea base stride = some (cTIMING, BitVec.ofNat 64 tile) := by
  simp [queueCheck, pending]

variable (settled : c.tilePend.getLsbD tile = false)
include settled

theorem queueCheck_uncovered (uncovered : c.lookup ea.toNat = none) : queueCheck n c tile ea base stride = some (cTABLE, ea) := by
  simp [queueCheck, settled, uncovered]

variable {k : Nat} {e : BitVec 128} (covered : c.lookup ea.toNat = some (k, e))
include covered

theorem queueCheck_base_uncovered (uncovered : c.lookup base.toNat = none) : queueCheck n c tile ea base stride = some (cTABLE, base) := by
  simp [queueCheck, settled, covered, uncovered]

variable (based : (c.lookup base.toNat).isSome = true)
include based

/-- With both addresses covered, the window, the format and the alignment are left to ask for. -/
theorem queueCheck_covered : queueCheck n c tile ea base stride =
    if winOf ea.toNat != some .device || !(frameOk n .device e) then some (cCLASS, ea)
    else if tileBytes (lttFMT e) = 0 then some (cFORMAT, ea)
    else if ea.toNat % tileBytes (lttFMT e) ≠ 0 then some (cALIGN, ea)
    else if stride.toNat % tileBytes (lttFMT e) ≠ 0 then some (cALIGN, stride)
    else none := by
  obtain ⟨⟨j, b⟩, found⟩ := Option.isSome_iff_exists.1 based
  simp [queueCheck, settled, covered, found]

theorem queueCheck_class (outside : winOf ea.toNat ≠ some .device ∨ frameOk n .device e = false) :
    queueCheck n c tile ea base stride = some (cCLASS, ea) := by
  rw [queueCheck_covered settled covered based]
  exact if_pos (by simpa using outside)

variable (device : winOf ea.toNat = some .device) (frame : frameOk n .device e = true)
include device frame

theorem queueCheck_device : queueCheck n c tile ea base stride =
    if tileBytes (lttFMT e) = 0 then some (cFORMAT, ea)
    else if ea.toNat % tileBytes (lttFMT e) ≠ 0 then some (cALIGN, ea)
    else if stride.toNat % tileBytes (lttFMT e) ≠ 0 then some (cALIGN, stride)
    else none := by
  rw [queueCheck_covered settled covered based]
  exact if_neg (by simp [device, frame])

end

/-! ## The queued copies at issue (R187, R189) -/

section
variable {s : State} {g : BitVec 4} (on : s.on g) {x y w : BitVec 6} {t : BitVec 3} {xw : Option (BitVec 32)}
include on

/-- A tile copy whose check fails takes its fault. -/
theorem tileOp_stops {code : Nat} {v : Word}
    (fails : queueCheck s.cur s.me t.toNat (s.me.readS x + off32 xw) (s.me.readS x) (BitVec.ofNat 64 ((s.me.readS y).toNat % 2 ^ 32)) =
      some (code, v)) :
    ∀ i ∈ [Instr.tld g x y w t xw, .tst g x y w t xw, .tstnt g x y w t xw], exec i s = s.becomes (s.fault code v 0 s.me) := by
  have stops (f) : tileOp s g x y w t xw f = s.becomes (s.fault code v 0 s.me) := by
    rw [tileOp, State.guarded_on on]
    simp only [fails]
  intro i listed
  simp only [List.mem_cons, List.not_mem_nil, or_false] at listed
  rcases listed with rfl | rfl | rfl
  · dsimp only [exec, execTld]
    exact stops _
  · dsimp only [exec, execTst]
    exact stops _
  · dsimp only [exec, execTstnt]
    exact stops _

/-- One whose checks pass performs on its tile, address, stride, extents and format. -/
theorem tileOp_passes
    (passes : queueCheck s.cur s.me t.toNat (s.me.readS x + off32 xw) (s.me.readS x) (BitVec.ofNat 64 ((s.me.readS y).toNat % 2 ^ 32)) = none)
    (f : Nat → Word → Nat → Nat → Nat → Nat → Core → Core) :
    tileOp s g x y w t xw f = s.becomes (f t.toNat (s.me.readS x + off32 xw) ((s.me.readS y).toNat % 2 ^ 32) (extents (s.me.readS w)).1
      (extents (s.me.readS w)).2 (s.me.pageFmt (s.me.readS x + off32 xw)) s.me) := by
  rw [tileOp, State.guarded_on on]
  simp only [passes]

theorem exec_gather_stops {code : Nat} {v : Word}
    (fails : queueCheck s.cur s.me t.toNat (s.me.readS x) (s.me.readS x) (BitVec.ofNat 64 ((s.me.readS w).toNat % 2 ^ 32)) = some (code, v)) :
    exec (.gather g x y w t) s = s.becomes (s.fault code v 0 s.me) := by
  change execGather g x y w t s = _
  rw [execGather, State.guarded_on on]
  simp only [fails]

theorem exec_gather_passes
    (passes : queueCheck s.cur s.me t.toNat (s.me.readS x) (s.me.readS x) (BitVec.ofNat 64 ((s.me.readS w).toNat % 2 ^ 32)) = none)
    (listed : s.me.check s.cur (s.me.readS y) 256 4 true false [.face] = none) :
    exec (.gather g x y w t) s = s.becomes ((s.me.enqueue s.slot t.toNat (.gather t.toNat (s.me.readS x) ((s.me.readS w).toNat % 2 ^ 32)
      (min 64 (laneNat (s.me.readS w) 5 8)) (min 64 (laneNat (s.me.readS w) 4 8)) (s.me.pageFmt (s.me.readS x)) (s.me.readS y) none
      (s.me.tile t.toNat))).addItem s.slot 2 false false [.gatherList s.me.nextUid (s.me.readS y)]) := by
  change execGather g x y w t s = _
  rw [execGather, State.guarded_on on]
  simp only [passes, listed]

end

/-- The rows and columns of a queued copy are the low two bytes of a scalar, at most 64 each. -/
theorem extents_eq (w : Word) : extents w = (min 64 (w.toNat % 2 ^ 8), min 64 (w.toNat / 2 ^ 8 % 2 ^ 8)) := by
  simp [extents, laneNat, Nat.shiftRight_eq_div_pow]

/-- Settles O37: with its checks passed a copy joins its queue (`tileOp_passes`, `exec_gather_passes`); otherwise it takes the fault of the first
failing one (`queueCheck_pending` to `queueCheck_device`). -/
theorem queuedCopies : Obligations.QueuedCopies := by
  intro s g x y w t xw on c ea sr er ec
  have address : s.me.readS x + off32 xw = ea := by cases xw <;> rfl
  refine ⟨fun passes => ?joins, fun u low passes listed => ?gathers, fun slot => rfl, ?stops⟩
  case joins =>
    rw [← address] at passes
    have ext : extents (s.me.readS w) = (er, ec) := extents_eq _
    dsimp only [exec, execTld, execTst, execTstnt]
    rw [tileOp_passes on passes, tileOp_passes on passes, tileOp_passes on passes, ext, address]
    exact ⟨rfl, rfl, rfl⟩
  case gathers =>
    subst low
    exact exec_gather_passes on passes listed
  case stops =>
    intro stops z
    have stop {code : Nat} {v : Word} (fails : queueCheck s.cur c t.toNat ea (c.readS x) (BitVec.ofNat 64 sr) = some (code, v)) : stops code v :=
      tileOp_stops on (address ▸ fails)
    refine ⟨fun pending => ⟨stop (queueCheck_pending pending), exec_gather_stops on (queueCheck_pending pending)⟩, fun settled =>
      ⟨fun uncovered => stop (queueCheck_uncovered settled uncovered), fun k e covered =>
        ⟨fun uncovered => stop (queueCheck_base_uncovered settled covered uncovered), fun based =>
          ⟨fun outside => stop (queueCheck_class settled covered based outside), fun device frame =>
            ⟨fun none => stop ?format, fun some => ⟨fun odd => stop ?align, fun even odd => stop ?stride⟩⟩⟩⟩⟩⟩
    all_goals rw [queueCheck_device settled covered based device frame]
    case format => exact if_pos none
    case align => exact (if_neg some).trans (if_pos odd)
    case stride =>
      have stride : (BitVec.ofNat 64 sr).toNat = sr := Nat.mod_eq_of_lt (Nat.lt_trans (Nat.mod_lt _ (by decide)) (by decide))
      rw [if_neg some, if_neg (not_not.2 even), stride]
      exact if_pos odd

end Sys2Proof.Machine
end

section
/-! PROOFS. Timed copies at issue (R191, R192, R206): scale loads, the swage and windows through a map. -/

namespace Sys2Proof.Machine

open Sys2Proof

section
variable {s : State} {g : BitVec 4} (on : s.on g) (free : s.me.ctx.copyFree s.slot ≤ s.me.ctx.clk) {x y w : BitVec 6}
include on free

/-! ## SCLD (R191) -/

theorem exec_scld_empty (empty : s.me.readS y = 0) : exec (.scld g x y) s = s.becomes s.me := by
  change execScld g x y s = _
  rw [execScld, State.guarded_timedGate_free on free]
  simp [empty]

theorem exec_scld_passes {n : Nat} (count : (s.me.readS y).toNat = n) (pos : 0 < n)
    (passes : s.me.check s.cur (s.me.readS x) (88 * n) 4 true false [.face] = none)
    (fits : n - s.me.startAt (s.slot - 2) ≤ 128 - s.me.sqTotal) :
    exec (.scld g x y) s = s.becomes ((s.me.addMacro s.slot (s.me.startAt (s.slot - 2)) n (.scld (s.me.readS x) n [])).copyBusy s.slot
      (5 + (n - 1) / 4)) := by
  change execScld g x y s = _
  rw [execScld, State.guarded_timedGate_free on free]
  simp only [count, if_neg pos.ne', passes, if_neg (Nat.not_lt.2 fits)]

/-! ## PULL and PUSH (R192) -/

theorem swageOp_empty (empty : s.me.readS w = 0) (push : Bool) : swageOp s g x y w push = s.becomes s.me := by
  rw [swageOp, State.guarded_timedGate_free on free]
  simp [empty]

/-- A swage copy of `n` pages whose checks pass, and which writes no compressed page of a format without blocks. -/
theorem swageOp_passes {n : Nat} (pages : (s.me.readS w).toNat = 4096 * n) (pos : 0 < n) {push : Bool} {e : BitVec 128}
    (entry : e = ((s.me.lookup (s.me.readS y).toNat).map Prod.snd).getD 0)
    (onFace : s.me.check s.cur (s.me.readS x) (s.me.readS w).toNat 4096 push (!push) [.face] = none)
    (onCluster : s.me.check s.cur (s.me.readS y) (s.me.readS w).toNat 4096 (!push) push [.cluster] = none)
    (blocks : (push && decide (1 ≤ lttCLASS e) && decide (10 ≤ lttFMT e)) = false) :
    swageOp s g x y w push = s.becomes ((s.me.addMacro s.slot (s.me.startAt (s.slot - 2)) (n + 1)
      (if push then .push (s.me.readS x) (s.me.readS y) n (lttCLASS e) (lttFMT e) []
       else .pull (s.me.readS x) (s.me.readS y) n (lttCLASS e) (lttFMT e) [])).copyBusy s.slot (21 + n * blockCycles (lttCLASS e))) := by
  have whole : 4096 * n % 4096 = 0 := Nat.mul_mod_right ..
  have count : 4096 * n / 4096 = n := Nat.mul_div_cancel_left n (by decide)
  have some : ¬ 4096 * n = 0 := by omega
  rw [swageOp, State.guarded_timedGate_free on free]
  rw [pages] at onFace onCluster
  simp only [pages, if_neg some, onFace, onCluster, whole, count, firstCheck, ite_self, ne_eq, not_true, if_false, ← entry, blocks,
    Bool.false_eq_true]

/-! ## CXTILE (R206) -/

theorem exec_cxtile_passes {m : BitVec 3} {p : LMap} {fmt : Nat} (mapped : Map.get? s.me.landing ((s.me.readS w).toNat % 16) = some p)
    (stands : p.st ≠ .free) (dims : (s.me.readS w).toNat / 16 % 4 ≠ (s.me.readS w).toNat / 64 % 4)
    (format : fmt = landWritten (lmFMT p.desc) (s.me.pageFmt (BitVec.ofNat 64 (lmBASE p.desc)))) (tiled : tileBytes fmt ≠ 0)
    (room : s.me.ctx.inFlight + min 2 (64 - s.me.startAt (s.slot - 2)) ≤ 64) :
    exec (.cxtile g x w m) s = s.becomes ((s.me.addMacro s.slot (s.me.startAt (s.slot - 2)) 64
      (.cxtile m.toNat p.desc (s.me.readS x) ((s.me.readS w).toNat / 16 % 4) ((s.me.readS w).toNat / 64 % 4) fmt)).copyBusy s.slot 66) := by
  have held : (p.st == .free) = false := by simpa using stands
  change execCxtile g x w m s = _
  rw [execCxtile, State.guarded_timedGate_free on free]
  simp only [mapped, ← format, held, dims, tiled, if_neg (Nat.not_lt.2 room), decide_false, Bool.or_self, Bool.false_eq_true, if_false]

end

/-- Settles O38: outside a busy period each timed copy with its checks passed begins (`exec_scld_passes`, `swageOp_passes`,
`exec_cxtile_passes`), and one of length 0 does nothing. -/
theorem timedCopies : Obligations.TimedCopies := by
  intro s g x y w m n on free pos c start e through wv
  refine ⟨fun count passes fits => exec_scld_passes on free count pos passes fits, fun pages cluster face => ?pull,
    fun pages face cluster blocks => ?push,
    fun p fmt mapped stands dims format tiled room => exec_cxtile_passes on free mapped stands dims format tiled room,
    fun empty => ⟨swageOp_empty on free empty _, swageOp_empty on free empty _⟩, exec_scld_empty on free⟩
  case pull => exact swageOp_passes on free pages pos (push := false) rfl face cluster rfl
  case push =>
    refine swageOp_passes on free pages pos (push := true) rfl face cluster ?_
    exact Bool.eq_false_iff.2 fun bad => by simp at bad; omega

end Sys2Proof.Machine
end

section
/-! PROOFS. Coordinate sends at issue (R196, R197): the cut of a box, its flits, and ROUTE. -/

namespace Sys2Proof.Machine

open Sys2Proof

/-! ## The cut of a box (R196, R197) -/

/-- Every packet numbered counts its flits: one head, and one for each 64 bytes. -/
theorem flits_of_mem_numberCuts {esz : Nat} {k : Cut} : ∀ {l : List Cut} {first : Nat}, k ∈ numberCuts esz first l → k.flits = cutFlits esz k.count
  | [], _, listed => nomatch listed
  | _ :: _, _, listed => by
    rcases List.mem_cons.1 listed with rfl | listed
    · rfl
    · exact flits_of_mem_numberCuts listed

theorem flits_of_cutBox {t : Map (BitVec 256)} {tag : Nat} {o : Word} {e : Nat → Nat} {esz start : Nat} {cuts : List Cut}
    (cut : cutBox t tag o e esz start = .ok cuts) {k : Cut} (listed : k ∈ cuts) : k.flits = cutFlits esz k.count := by
  unfold cutBox at cut
  simp only at cut
  split at cut
  · cases cut
  · cases cut
    exact flits_of_mem_numberCuts listed

/-! ## CXSEND with its checks passed -/

/-- The elements of the box that s[W] names. -/
def boxElems (w : Word) : Nat := laneNat w 0 12 * laneNat w 1 12 * laneNat w 2 12 * laneNat w 3 12

section
variable {s : State} {g : BitVec 4} (on : s.on g) (free : s.me.ctx.copyFree s.slot ≤ s.me.ctx.clk) {x y w : BitVec 6}

/-- What CXSEND makes of its cut: one instruction with a step for each flit, or ROUTE. -/
def State.cxsendOf (s : State) (a : Word) (fmt tag : Nat) (cut : Except Nat (List Cut)) : Core :=
  match cut with
  | .error i => s.fault cROUTE a (BitVec.ofNat 64 i) s.me
  | .ok cuts => (s.me.addMacro s.slot 0 (cuts.map Cut.flits).sum (.cxsend a fmt (BitVec.ofNat 16 tag) s.me.parity s.me.epoch cuts [])).copyBusy s.slot
      ((cuts.map Cut.flits).sum + 2)

include on free

theorem exec_cxsend_passes {i : Nat} {entry : BitVec 128} {win : Win} (covered : s.me.lookup (s.me.readS x).toNat = some (i, entry))
    (window : winOf (s.me.readS x).toNat = some win) (near : win ≠ .device) (frame : frameOk s.cur win entry = true)
    (format : elemBytes (lttFMT entry) ≠ 0) (some : boxElems (s.me.readS w) ≠ 0) (few : boxElems (s.me.readS w) ≤ 2 ^ 20)
    (inside : ∀ d, d < 4 → coordOf (s.me.readS y) d + laneNat (s.me.readS w) d 12 - 1 ≤ 0xFFFF)
    (passes : s.me.check s.cur (s.me.readS x) (boxElems (s.me.readS w) * elemBytes (lttFMT entry)) (elemBytes (lttFMT entry)) true false
      [.face, .cluster] = none) :
    exec (.cxsend g x y w) s = s.becomes (s.cxsendOf (s.me.readS x) (lttFMT entry) (laneNat (s.me.readS w) 3 16)
      (cutBox s.me.routes (laneNat (s.me.readS w) 3 16) (s.me.readS y) (fun d => laneNat (s.me.readS w) d 12) (elemBytes (lttFMT entry))
        (s.me.startAt (s.slot - 2)))) := by
  have class_ : (winOf (s.me.readS x).toNat == Option.some .device ||
      ((winOf (s.me.readS x).toNat).map fun q => !(frameOk s.cur q entry)).getD true) = false := by
    rw [window]
    simpa [frame] using near
  have bounded : ((List.range 4).any fun d => decide (0xFFFF < coordOf (s.me.readS y) d + laneNat (s.me.readS w) d 12 - 1)) = false :=
    List.any_eq_false.2 fun d listed => by simpa using inside d (List.mem_range.1 listed)
  have size : (decide (2 ^ 20 < boxElems (s.me.readS w)) || (List.range 4).any fun d =>
      decide (0xFFFF < coordOf (s.me.readS y) d + laneNat (s.me.readS w) d 12 - 1)) = false := by
    rw [bounded, decide_eq_false (Nat.not_lt.2 few)]
    rfl
  change execCxsend g x y w s = _
  rw [execCxsend, State.guarded_timedGate_free on free]
  change s.becomes (match s.me.lookup (s.me.readS x).toNat with | none => _ | Option.some (_, e) => _) = _
  rw [covered]
  refine congrArg s.becomes ((if_neg (Bool.eq_false_iff.1 class_)).trans ((if_neg format).trans ((if_neg some).trans
    ((if_neg (Bool.eq_false_iff.1 size)).trans ?_))))
  change (match s.me.check s.cur (s.me.readS x) (boxElems (s.me.readS w) * elemBytes (lttFMT entry)) (elemBytes (lttFMT entry)) true false
      [.face, .cluster] with | Option.some (code, v) => _ | none => _) = _
  rw [passes]
  rfl

end

/-- Settles O39: with its checks passed CXSEND makes what its cut says (`exec_cxsend_passes`), and a cut's packets count their flits
(`flits_of_cutBox`). -/
theorem coordinateSends : Obligations.CoordinateSends := by
  intro s g x y w i entry win on free c a o e n fmt z covered window near frame format some few inside passes
  have sends := exec_cxsend_passes on free covered window near frame format some few inside passes
  refine ⟨fun cuts cut => ⟨?send, fun k listed => flits_of_cutBox cut listed⟩, fun j cut => ?route⟩
  case send => exact sends.trans (congrArg (fun k => s.becomes (s.cxsendOf _ _ _ k)) cut)
  case route => exact sends.trans (congrArg (fun k => s.becomes (s.cxsendOf _ _ _ k)) cut)

end Sys2Proof.Machine
end

section
/-! PROOFS. The engine tables (R195 to R201, R205, R226): landing maps set, drained and retired, MAPQ's word, and changes of an LTT. -/

namespace Sys2Proof

/-! ## Maps with a key removed, and with their values changed -/

theorem Map.get?_del_self {α : Type} (m : Map α) (k : Nat) : Map.get? (Map.del m k) k = none := by
  induction m with
  | nil => rfl
  | cons x r ih =>
    obtain ⟨j, a⟩ := x
    by_cases same : j = k <;> simp_all [Map.del, Map.get?]

theorem Map.get?_del_other {α : Type} (m : Map α) {k n : Nat} (other : n ≠ k) : Map.get? (Map.del m k) n = Map.get? m n := by
  induction m with
  | nil => rfl
  | cons x r ih =>
    obtain ⟨j, a⟩ := x
    by_cases same : j = k
    · have apart : ¬ j = n := fun h => other (h.symm.trans same)
      simp_all [Map.del, Map.get?]
    · by_cases here : j = n <;> simp_all [Map.del, Map.get?]

/-- A change of values that keeps the keys reads as the value changed. -/
theorem Map.get?_map_value {α β : Type} (f : Nat × α → Nat × β) (keeps : ∀ x, (f x).1 = x.1) (m : Map α) (k : Nat) :
    Map.get? (m.map f) k = (Map.get? m k).map fun a => (f (k, a)).2 := by
  induction m with
  | nil => rfl
  | cons x r ih =>
    obtain ⟨j, a⟩ := x
    have key : (f (j, a)).1 = j := keeps (j, a)
    rw [List.map_cons]
    by_cases here : j = k
    · subst here
      simp [Map.get?, key]
    · simp [Map.get?, key, here, ih]

end Sys2Proof

namespace Sys2Proof.Machine

open Sys2Proof

/-! ## Landing tables (R198, R200, R205) -/

@[simp] theorem State.mem_putSlot (s : State) (d : Dest) (m : Nat) (x : LMap) : (s.putSlot d m x).mem = s.mem := by cases d <;> rfl
@[simp] theorem State.mem_retire (s : State) (d : Dest) (m k : Nat) : (s.retire d m k).mem = s.mem := by cases d <;> rfl

theorem Core.landing_onSys (c : Core) (f : Ctx → Ctx) : (c.onSys f).landing = c.landing := by
  unfold Core.onSys
  split <;> rfl

section
variable (s : State) (n : Nat) (cl : Bool) (m : Nat) (x : LMap)

/-- The table of a map instruction after one slot was put. -/
theorem State.landTable_putSlot :
    (s.putSlot (mapDest n cl) m x).landTable (mapDest n cl) = Map.put (s.landTable (mapDest n cl)) m x := by
  cases cl <;> simp [mapDest, State.landTable, State.putSlot, State.onCore, State.cluster]

/-- A retire event changes no table. -/
@[simp] theorem State.landTable_retire (k : Nat) : (s.retire (mapDest n cl) m k).landTable (mapDest n cl) = s.landTable (mapDest n cl) := by
  cases cl
  · simp [mapDest, State.landTable, State.retire, State.onCore, Core.landing_onSys]
  · rfl

end

/-- A slot that drains, or is free where nothing is to drain. -/
def LMap.drained (x : LMap) : LMap := if x.drain = 0 then { x with st := .free } else { x with st := .draining }

section
variable {s : State} {n m : Nat} {cl now : Bool} {x : LMap}

theorem State.mapDrain_absent {d : Dest} (absent : Map.get? (s.landTable d) m = none) : s.mapDrain d m now = s := by
  rw [State.mapDrain, absent]

variable (stands : Map.get? (s.landTable (mapDest n cl)) m = some x)
include stands

theorem State.mapDrain_rests (rests : x.st = .free ∨ x.st = .draining ∧ now = false) : s.mapDrain (mapDest n cl) m now = s := by
  rw [State.mapDrain, stands]
  exact if_pos (by rcases rests with free | ⟨drains, rfl⟩ <;> simp [*])

theorem State.mapDrain_frees (used : x.st ≠ .free) (done : now = true ∨ x.st = .active ∧ x.drain = 0) :
    s.mapDrain (mapDest n cl) m now = (s.putSlot (mapDest n cl) m { x with st := .free }).retire (mapDest n cl) m x.setter := by
  rw [State.mapDrain, stands]
  refine (if_neg ?_).trans (if_pos ?_) <;> rcases done with rfl | ⟨active, empty⟩ <;> simp [*]

theorem State.mapDrain_drains (active : x.st = .active) (left_ : x.drain ≠ 0) :
    s.mapDrain (mapDest n cl) m false = s.putSlot (mapDest n cl) m { x with st := .draining } := by
  rw [State.mapDrain, stands]
  exact (if_neg (by simp [active])).trans (if_neg (by simpa using left_))

/-- An ACTIVE slot that is retired drains, or is free. -/
theorem State.landTable_mapDrain_active (active : x.st = .active) :
    Map.get? ((s.mapDrain (mapDest n cl) m false).landTable (mapDest n cl)) m = some x.drained := by
  unfold LMap.drained
  by_cases empty : x.drain = 0
  · rw [State.mapDrain_frees stands (by simp [active]) (.inr ⟨active, empty⟩), State.landTable_retire, State.landTable_putSlot, if_pos empty,
      Map.get?_put_self]
  · rw [State.mapDrain_drains stands active empty, State.landTable_putSlot, if_neg empty, Map.get?_put_self]

theorem State.landTable_mapDrain_now (used : x.st ≠ .free) :
    Map.get? ((s.mapDrain (mapDest n cl) m true).landTable (mapDest n cl)) m = some { x with st := .free } := by
  rw [State.mapDrain_frees stands used (.inl rfl), State.landTable_retire, State.landTable_putSlot, Map.get?_put_self]

end

/-- A retire event of a core's own slot is in its MAPSTAT. -/
theorem State.mapstat_retire (s : State) (n k : Nat) {m : Nat} (slot : m < 16) :
    ((s.retire (.core n) m k).core n).sysCtx.mapstat.getLsbD m = true := by
  have inside : m < 33 := by omega
  have bit : ((s.core n).sysCtx.mapstat ||| (1#33 <<< m)).getLsbD m = true := by
    rw [BitVec.getLsbD_or, BitVec.getLsbD_shiftLeft]
    simp [inside]
  rw [State.retire, State.onCore, State.core_setCore, Core.sysCtx_onSys]
  exact bit

/-- What a change of one slot leaves: memory, and every other slot of the table. -/
theorem State.mapDrain_keeps (s : State) (n : Nat) (cl : Bool) (m : Nat) (now : Bool) :
    (s.mapDrain (mapDest n cl) m now).mem = s.mem ∧ ∀ k, k ≠ m →
      Map.get? ((s.mapDrain (mapDest n cl) m now).landTable (mapDest n cl)) k = Map.get? (s.landTable (mapDest n cl)) k := by
  unfold State.mapDrain
  split
  · exact ⟨rfl, fun _ _ => rfl⟩
  · split
    · exact ⟨rfl, fun _ _ => rfl⟩
    · split
      · refine ⟨by simp, fun k other => ?_⟩
        rw [State.landTable_retire, State.landTable_putSlot, Map.get?_put_other _ _ other]
      · refine ⟨by simp, fun k other => ?_⟩
        rw [State.landTable_putSlot, Map.get?_put_other _ _ other]

/-- A map set: the old one of a swap drains first. -/
theorem State.mapSet_eq (s : State) (n m : Nat) (old : Option Nat) (cl : Bool) (raw : BitVec 512) : ∃ u : State,
    s.mapSet n m old cl raw = u.putSlot (mapDest n cl) m ⟨raw, .active, BitVec.ofNat 16 (lmDRAIN raw), n⟩ ∧ u.mem = s.mem ∧
      (∀ k, old ≠ some k → Map.get? (u.landTable (mapDest n cl)) k = Map.get? (s.landTable (mapDest n cl)) k) ∧
      ∀ o, old = some o → o ≠ m → u = s.mapDrain (mapDest n cl) o false := by
  cases old with
  | none => exact ⟨s, rfl, rfl, fun _ _ => rfl, fun _ absurd => nomatch absurd⟩
  | some o =>
    by_cases same : o = m
    · exact ⟨s, by rw [State.mapSet, if_pos same], rfl, fun _ _ => rfl, fun p h other => absurd (Option.some.inj h ▸ same) other⟩
    · refine ⟨s.mapDrain (mapDest n cl) o false, by rw [State.mapSet, if_neg same], (s.mapDrain_keeps n cl o false).1, fun k other => ?_, ?_⟩
      · exact (s.mapDrain_keeps n cl o false).2 k fun h => other (congrArg some h.symm)
      · rintro p h -
        rw [Option.some.inj h]

/-! ## MAPQ's word (R201) -/

theorem lmTAG_lt (d : BitVec 512) : lmTAG d < 2 ^ 16 := Nat.mod_lt _ (by decide)

/-- A field of a word that a number makes. -/
theorem extractLsb'_ofNat {N : Nat} (fits : N < 2 ^ 64) (lo w : Nat) : (BitVec.ofNat 64 N).extractLsb' lo w = BitVec.ofNat w (N / 2 ^ lo) := by
  apply BitVec.eq_of_toNat_eq
  rw [BitVec.extractLsb'_toNat, BitVec.toNat_ofNat, BitVec.toNat_ofNat, Nat.mod_eq_of_lt fits, Nat.shiftRight_eq_div_pow]

theorem ofNat_congr_mod {w a b : Nat} (same : a % 2 ^ w = b % 2 ^ w) : BitVec.ofNat w a = BitVec.ofNat w b := by
  apply BitVec.eq_of_toNat_eq
  rw [BitVec.toNat_ofNat, BitVec.toNat_ofNat, same]

/-- Three fields packed into a word at bits 0, 16 and 32. -/
theorem extract_packed {a b c : Nat} (ha : a < 4) (hb : b < 2 ^ 16) (hc : c < 2 ^ 16) :
    (BitVec.ofNat 64 (a + b * 2 ^ 16 + c * 2 ^ 32)).extractLsb' 0 2 = BitVec.ofNat 2 a ∧
    (BitVec.ofNat 64 (a + b * 2 ^ 16 + c * 2 ^ 32)).extractLsb' 2 14 = BitVec.ofNat 14 0 ∧
    (BitVec.ofNat 64 (a + b * 2 ^ 16 + c * 2 ^ 32)).extractLsb' 16 16 = BitVec.ofNat 16 b ∧
    (BitVec.ofNat 64 (a + b * 2 ^ 16 + c * 2 ^ 32)).extractLsb' 32 16 = BitVec.ofNat 16 c ∧
    (BitVec.ofNat 64 (a + b * 2 ^ 16 + c * 2 ^ 32)).extractLsb' 48 16 = BitVec.ofNat 16 0 := by
  have fits : a + b * 2 ^ 16 + c * 2 ^ 32 < 2 ^ 64 := by omega
  simp only [extractLsb'_ofNat fits]
  refine ⟨?_, ?_, ?_, ?_, ?_⟩ <;> apply ofNat_congr_mod <;> omega

/-- The fields of the word that MAPQ delivers. -/
theorem mapWord_fields (p : LMap) :
    (mapWord (some p)).extractLsb' 0 2 = (match p.st with | .free => 0 | .active => 1 | .draining => 2) ∧ (mapWord (some p)).extractLsb' 2 14 = 0 ∧
      (mapWord (some p)).extractLsb' 16 16 = p.drain ∧ (mapWord (some p)).extractLsb' 32 16 = BitVec.ofNat 16 (lmTAG p.desc) ∧
      (mapWord (some p)).extractLsb' 48 16 = 0 := by
  obtain ⟨desc, st, drain, setter⟩ := p
  have packed (a : Nat) (small : a < 4) := extract_packed small drain.isLt (lmTAG_lt desc)
  rw [BitVec.ofNat_toNat, BitVec.setWidth_eq] at packed
  cases st
  · exact packed 0 (by decide)
  · exact packed 1 (by decide)
  · exact packed 2 (by decide)

/-! ## Changes of an LTT (R226) -/

/-- An entry that was put is its table's at the end of the cycle, and an entry of zeros is none. -/
theorem Core.ltt_applyLtt_put {c : Core} (quiet : c.lttDue = []) (k : Nat) (e : BitVec 128) :
    ({ c with lttDue := c.lttDue ++ [.put k e] } : Core).applyLtt.ltt = if e = 0 then Map.del c.ltt k else Map.put c.ltt k e := by
  simp [Core.applyLtt, Core.lttNext, LttWr.isInv, LttWr.apply, quiet]

theorem Core.ltt_applyLtt_of_due {c : Core} (due : c.lttDue ≠ []) : c.applyLtt.ltt = c.lttNext := by
  have some : c.lttDue.isEmpty = false := List.isEmpty_eq_false_iff.2 due
  unfold Core.applyLtt
  simp only [some, Bool.false_eq_true, if_false]
  split <;> rfl

/-- An LTTINV applies after the other changes of its cycle. -/
theorem Core.ltt_applyLtt_inv {c : Core} {k : Nat} {e : BitVec 128} (due : c.lttDue = [.inv k 1, .fill k e] ∨ c.lttDue = [.fill k e, .inv k 1])
    (valid : lttV e = true) : Map.get? c.applyLtt.ltt k = some (e &&& ~~~(1#128 <<< 39)) := by
  have some : c.lttDue ≠ [] := by rcases due with due | due <;> simp [due]
  have next : c.lttNext = LttWr.apply (Map.put c.ltt k e) (.inv k 1) := by
    rcases due with due | due <;> rw [Core.lttNext, due] <;> rfl
  rw [Core.ltt_applyLtt_of_due some, next, LttWr.apply, Map.get?_map_value _ fun x => by split <;> rfl, Map.get?_put_self]
  simp [valid]

end Sys2Proof.Machine
end

section
/-! PROOFS. The table instructions (R195, R200, R201, R205): what they put in flight, and what the tables hold once it falls due. -/

namespace Sys2Proof.Machine

open Sys2Proof

/-! ## The table instructions at issue (R195, R200, R201, R205) -/

section
variable {s : State} {g : BitVec 4} (on : s.on g) {x y w : BitVec 6}
include on

theorem exec_rtset_passes (passes : s.me.check s.cur (s.me.readS x) 32 32 true false [.face] = none) (r : BitVec 5) :
    exec (.rtset g x r) s = s.becomes (s.me.addItem s.slot 2 false false [.rtRead r.toNat (s.me.readS x)]) := by
  change execRtset g x r s = _
  rw [execRtset, State.guarded_on on, passes, State.unless_none]

theorem mapSetOp_passes (passes : s.me.check s.cur (s.me.readS x) 64 64 true false [.face] = none) (m : BitVec 4) (old : Option Nat)
    (cl : BitVec 1) : mapSetOp s g x m old cl = s.becomes (s.me.addItem s.slot 2 false false [.mapRead m.toNat old (cl == 1) (s.me.readS x)]) := by
  rw [mapSetOp, State.guarded_on on, passes, State.unless_none]

theorem exec_mapret (n cl : BitVec 1) (m : BitVec 4) :
    exec (.mapret g n cl m) s = s.becomes (s.me.addItem s.slot 1 false true [.mapRet m.toNat (cl == 1) (n == 1)]) := State.guarded_on on _

theorem exec_mapq (room : s.roomy) (cl : BitVec 1) (m : BitVec 4) :
    exec (.mapq g y cl m) s = s.becomes (s.inFlight 2 [.mapQ (s.me.ctx.physS y.toNat) m.toNat (cl == 1)]) := by
  change execMapq g y cl m s = _
  rw [execMapq, State.guarded_on on, State.deliver_of_lt room]

/-- The three words that STRAYPOP delivers: those of the oldest stray, or zeros. -/
def poppedWords (l : List Stray) : Word × Word × Word := match l with | e :: _ => strayWords e | [] => (0, 0, 0)

theorem exec_straypop (room : s.me.ctx.inFlight + 3 ≤ 64) : exec (.straypop g x y w) s = s.becomes
    ((({ s.me with strays := s.me.strays.drop 1 }.addItem s.slot 2 true false [.setS (s.me.ctx.physS x.toNat) (poppedWords s.me.strays).1]).addItem
      s.slot 2 true false [.setS (s.me.ctx.physS y.toNat) (poppedWords s.me.strays).2.1]).addItem
      s.slot 2 true false [.setS (s.me.ctx.physS w.toNat) (poppedWords s.me.strays).2.2]) := by
  change execStraypop g x y w s = _
  rw [execStraypop, State.guarded_on on]
  exact congrArg s.becomes (if_neg (Nat.not_lt.2 room))

end

/-- The first of the words, where the others and its number are known. -/
theorem poppedWords_eq {l : List Stray} {p q v : Word} (none : l = [] → p = 0 ∧ q = 0 ∧ v = 0)
    (oldest : ∀ e r, l = e :: r → p.toNat = e.tag.toNat + (if e.parity then 2 ^ 16 else 0) + e.fmt.toNat * 2 ^ 17 + e.src.toNat * 2 ^ 32 + 2 ^ 63 ∧
      q = e.coord ∧ v = e.elem.setWidth 64) : poppedWords l = (p, q, v) := by
  cases l with
  | nil =>
    obtain ⟨rfl, rfl, rfl⟩ := none rfl
    rfl
  | cons e r =>
    obtain ⟨number, rfl, rfl⟩ := oldest e r rfl
    have word : p = (strayWords e).1 := by
      rw [strayWords, ← number, BitVec.ofNat_toNat, BitVec.setWidth_eq]
    rw [word]
    rfl

/-! ## The tables once the work falls due -/

theorem Ctx.get_putS_self (x : Ctx) {y : Nat} (some : y ≠ 0) (v : Word) : Map.get (x.putS y v).s y 0 = v := by
  rw [Ctx.putS, if_neg some]
  exact Map.get_put_self ..

/-- The routes of a core after RTSET's put. -/
theorem get?_putRoute (t : Map (BitVec 256)) (e : Nat) (raw : BitVec 256) :
    Map.get? (if rtKIND raw = 0 then Map.del t e else Map.put t e raw) e = (if rtKIND raw = 0 then none else some raw) ∧
      ∀ k, k ≠ e → Map.get? (if rtKIND raw = 0 then Map.del t e else Map.put t e raw) k = Map.get? t k := by
  split
  · exact ⟨Map.get?_del_self .., fun k other => Map.get?_del_other _ other⟩
  · exact ⟨Map.get?_put_self .., fun k other => Map.get?_put_other _ _ other⟩

/-- An LTT whose entry is put, or removed where it is zeros. -/
theorem get?_putEntry (t : Map (BitVec 128)) (k : Nat) (e : BitVec 128) :
    Map.get? (if e = 0 then Map.del t k else Map.put t k e) k = (if e = 0 then none else some e) ∧
      ∀ j, j ≠ k → Map.get? (if e = 0 then Map.del t k else Map.put t k e) j = Map.get? t j := by
  split
  · exact ⟨Map.get?_del_self .., fun j other => Map.get?_del_other _ other⟩
  · exact ⟨Map.get?_put_self .., fun j other => Map.get?_put_other _ _ other⟩

section
variable (s : State) (n m : Nat) (cl : Bool)

/-- The table of a map instruction after MAPSET or MAPSWAP. -/
theorem State.mapSet_table (old : Option Nat) (raw : BitVec 512) :
    (s.mapSet n m old cl raw).mem = s.mem ∧
    Map.get? ((s.mapSet n m old cl raw).landTable (mapDest n cl)) m = some ⟨raw, .active, BitVec.ofNat 16 (lmDRAIN raw), n⟩ ∧
    (∀ k, k ≠ m → old ≠ some k → Map.get? ((s.mapSet n m old cl raw).landTable (mapDest n cl)) k = Map.get? (s.landTable (mapDest n cl)) k) ∧
    ∀ o x, old = some o → o ≠ m → Map.get? (s.landTable (mapDest n cl)) o = some x → x.st = .active →
      Map.get? ((s.mapSet n m old cl raw).landTable (mapDest n cl)) o = some x.drained := by
  obtain ⟨u, set, mem, keeps, drains⟩ := s.mapSet_eq n m old cl raw
  rw [set, State.mem_putSlot, State.landTable_putSlot]
  refine ⟨mem, Map.get?_put_self .., fun k other kept => (Map.get?_put_other _ _ other).trans (keeps k kept), fun o x swap other stands active => ?_⟩
  rw [Map.get?_put_other _ _ other, drains o swap other]
  exact State.landTable_mapDrain_active stands active

/-- The table of a map instruction after MAPRET. -/
theorem State.mapRet_table (now : Bool) :
    (s.mapDrain (mapDest n cl) m now).mem = s.mem ∧
    (∀ k, k ≠ m → Map.get? ((s.mapDrain (mapDest n cl) m now).landTable (mapDest n cl)) k = Map.get? (s.landTable (mapDest n cl)) k) ∧
    (Map.get? (s.landTable (mapDest n cl)) m = none → s.mapDrain (mapDest n cl) m now = s) ∧
    ∀ x, Map.get? (s.landTable (mapDest n cl)) m = some x →
      (x.st = .free ∨ (x.st = .draining ∧ now = false) → s.mapDrain (mapDest n cl) m now = s) ∧
      (x.st = .active → now = false → Map.get? ((s.mapDrain (mapDest n cl) m now).landTable (mapDest n cl)) m = some x.drained) ∧
      (x.st ≠ .free → now = true → Map.get? ((s.mapDrain (mapDest n cl) m now).landTable (mapDest n cl)) m = some { x with st := .free }) ∧
      (cl = false → m < 16 → x.st ≠ .free → now = true ∨ (x.st = .active ∧ x.drain = 0) →
        ((s.mapDrain (mapDest n cl) m now).core n).sysCtx.mapstat.getLsbD m = true) := by
  obtain ⟨mem, keeps⟩ := s.mapDrain_keeps n cl m now
  refine ⟨mem, keeps, State.mapDrain_absent, fun x stands => ⟨State.mapDrain_rests stands, ?_, ?_, ?_⟩⟩
  · rintro active rfl
    exact State.landTable_mapDrain_active stands active
  · rintro used rfl
    exact State.landTable_mapDrain_now stands used
  · rintro rfl slot used done
    rw [State.mapDrain_frees stands used done]
    exact State.mapstat_retire _ n _ slot

end

/-- A change of one core leaves memory and every other core. -/
theorem State.setCore_quiet (s : State) (n : Nat) (c : Core) : (s.setCore n c).mem = s.mem ∧ ∀ j, j ≠ n → (s.setCore n c).core j = s.core j :=
  ⟨rfl, fun _ other => s.core_setCore_other c other⟩

/-- Settles O40: at issue the table instructions join the delay lines or pop the strays (`exec_straypop`); once due, each puts its entry alone
(`get?_putRoute`, `State.mapSet_table`, `State.mapRet_table`, `Core.ltt_applyLtt_put`, `Core.ltt_applyLtt_inv`). -/
theorem routesMapsAndStrays : Obligations.RoutesMapsAndStrays := by
  refine ⟨fun s g x y w r n cl m o on => ?issue, ⟨fun s g y cl m on room => exec_mapq on room cl m, fun m0 b n i s y m cl some => ?mapq⟩,
    fun m0 b n i s => ?tables⟩
  case issue =>
    intro c timed
    refine ⟨fun passes => exec_rtset_passes on passes r, fun passes => ?sets, exec_mapret on n cl m, fun room p q v none oldest => ?pops⟩
    case sets => exact ⟨mapSetOp_passes on passes m none cl, mapSetOp_passes on passes m (some o.toNat) cl⟩
    case pops =>
      have words : poppedWords s.me.strays = (p, q, v) := poppedWords_eq none oldest
      rw [exec_straypop on room, words]
  case mapq =>
    intro d v
    have value : v = mapWord (Map.get? (s.landTable d) m) := by
      simp only [v, commitAct, State.core_setCore]
      exact Ctx.get_putS_self _ some _
    refine ⟨fun none => ?_, fun p stands => ?_⟩
    · rw [value, none]
      rfl
    · rw [value, stands]
      exact mapWord_fields p
  case tables =>
    intro c does quiet later
    refine ⟨fun _ _ => rfl, fun _ _ _ _ => rfl, fun _ _ => rfl, fun e raw => ?route, fun g raw => ?group, fun k e => ?entry,
      fun d k e due valid => Core.ltt_applyLtt_inv due valid, fun m cl => ⟨fun old raw => s.mapSet_table n m cl old raw,
        fun now => s.mapRet_table n m cl now⟩⟩
    case route =>
      refine ⟨s.setCore_quiet n _, ?_⟩
      simp only [does, commitAct, State.core_setCore]
      exact get?_putRoute c.routes e raw
    case group =>
      refine ⟨s.setCore_quiet n _, ?_⟩
      simp only [does, commitAct, State.core_setCore]
      exact ⟨Map.get?_put_self .., fun k other => Map.get?_put_other _ _ other⟩
    case entry =>
      refine ⟨s.setCore_quiet n _, ?_⟩
      simp only [does, commitAct, State.core_setCore]
      refine ⟨rfl, fun none => ?_⟩
      rw [Core.ltt_applyLtt_put none]
      exact get?_putEntry c.ltt k e

end Sys2Proof.Machine
end

section
/-! PROOFS. Slot 7 at issue (R207 to R215): its gate, direct sends and receives, groups, waybills, triggers, increments and collectives. -/

namespace Sys2Proof.Machine

open Sys2Proof

/-! ## Amounts, entries and members -/

/-- The amount of an increment: the low half of a scalar, or 1 for s0. -/
theorem setWidth_32_64 (x : Word) : (x.setWidth 32).setWidth 64 = BitVec.ofNat 64 (x.toNat % 2 ^ 32) := by
  apply BitVec.eq_of_toNat_eq
  rw [BitVec.toNat_setWidth, BitVec.toNat_setWidth, BitVec.toNat_ofNat]

/-- An instruction of many steps that is a waybill. -/
theorem Macro.waybill_iff (m : Macro) :
    (match m.work with | .waybill .. => true | _ => false) = true ↔ ∃ x k r q p l, m.work = .waybill x k r q p l := by
  cases m.work <;> simp

/-- The entry at a waybill's start, as its bytes stand at the start of the cycle. -/
def State.firstEntry (s : State) (a : Word) : BitVec 256 :=
  BitVec.ofNat 256 (ofBytes ((List.range 32).map fun i => s.startByte (s.me.keyOf s.cur (a.toNat + i))))

/-- The member of a group's descriptor that a node is. -/
def AGroup.member (gr : AGroup) (node : Nat) : Option Nat := (List.range (grCOUNT gr.desc)).find? fun j => grNODE gr.desc j == node

/-- MCLDR of a present member past its gate and with room: the poison of the group, then the checks on its operand. -/
def State.joins (s : State) (v : BitVec 7) (a : BitVec 6) (o : BitVec 2) (n : BitVec 3) (gr : AGroup) (i : Nat) (c : Core) : Core :=
  if gr.poison then s.fault cCOLL (n.setWidth 64) 0 c
  else
    match c.check s.cur (BitVec.ofNat 64 (grWBASE gr.desc i) + c.readS a) 256 256 true false [.face] with
    | some (code, x) => s.fault code x 0 c
    | none =>
      { c.addItem s.slot 2 true false [.mcRead n.toNat (BitVec.ofNat 64 (grWBASE gr.desc i) + c.readS a)] with
        agroups := Map.put c.agroups n.toNat { gr with seq := gr.seq + 1 }
        emits := c.emits ++ [.mcldr n.toNat o.toNat gr.seq (c.ctx.clk - c.ctx.base) gr.desc (c.ctx.physV v.toNat) (c.ctx.physS a.toNat)] }

/-- Past its checks a member's read is in flight, and its collective joined. -/
theorem State.joins_passes {s : State} {a : BitVec 6} {gr : AGroup} {i : Nat} {c : Core} (sound : gr.poison = false)
    (passes : c.check s.cur (BitVec.ofNat 64 (grWBASE gr.desc i) + c.readS a) 256 256 true false [.face] = none) (v : BitVec 7) (o : BitVec 2)
    (n : BitVec 3) : s.joins v a o n gr i c =
      { c.addItem s.slot 2 true false [.mcRead n.toNat (BitVec.ofNat 64 (grWBASE gr.desc i) + c.readS a)] with
        agroups := Map.put c.agroups n.toNat { gr with seq := gr.seq + 1 }
        emits := c.emits ++ [.mcldr n.toNat o.toNat gr.seq (c.ctx.clk - c.ctx.base) gr.desc (c.ctx.physV v.toNat) (c.ctx.physS a.toNat)] } := by
  refine (if_neg (Bool.eq_false_iff.1 sound)).trans ?_
  simp only [passes]

/-! ## Slot 7 and its gate (R213) -/

section
variable {s : State} {g : BitVec 4} (on : s.on g)
include on

theorem commOp_free (free : s.me.ctx.wbAt ≠ s.me.ctx.clk + 1) (f : Core → Core) : commOp s g f = s.becomes (f s.me) := by
  rw [commOp, State.guarded_on on]
  exact congrArg s.becomes (if_neg free)

/-- In a waybill-step cycle every instruction of the slot is II_VIOLATION. -/
theorem commOp_step (step_ : s.me.ctx.wbAt = s.me.ctx.clk + 1) (f : Core → Core) : commOp s g f = s.busyFault := by
  rw [commOp, State.guarded_on on]
  exact congrArg s.becomes (if_pos step_)

variable (free : s.me.ctx.wbAt ≠ s.me.ctx.clk + 1)

/-! ## Direct sends (R208, R209) -/

section
include free
variable {a : BitVec 6}

theorem exec_send_peer {m : Nat} {l : Launch} (peer : s.peerCore s.me (s.me.readS a).toNat = some m)
    (launch : Map.get? s.launches s.me.launch = some l) (v : BitVec 7) :
    exec (.send g v a) s = s.becomes { s.me with emits := s.me.emits ++
      [.flight (s.tickOf s.me + 6 + 2 * (l.path (s.me.node / 8) ((s.me.readS a).toNat / 8)).length)
        (l.path (s.me.node / 8) ((s.me.readS a).toNat / 8)) (.directSend m s.me.node (s.me.readV v) 0)] } := by
  have own : s.launchOf s.me = some l := launch
  change execSend g v a s = _
  rw [execSend, commOp_free on free]
  simp only [peer, State.sendVec, own]

theorem exec_send_stranger (stranger : s.peerCore s.me (s.me.readS a).toNat = none) (v : BitVec 7) :
    exec (.send g v a) s = s.becomes (s.fault cPEER (s.me.readS a) 0 s.me) := by
  change execSend g v a s = _
  rw [execSend, commOp_free on free]
  simp only [stranger]

theorem recvOp_peer {m : Nat} (room : s.roomy) (peer : s.peerCore s.me (s.me.readS a).toNat = some m) (r : Core → Recv) :
    recvOp s g a r = s.becomes { s.me with recv := some ((s.me.readS a).toNat, r s.me) } := by
  rw [recvOp, commOp_free on free, State.room_of_lt room]
  simp only [peer]

theorem recvOp_stranger (room : s.roomy) (stranger : s.peerCore s.me (s.me.readS a).toNat = none) (r : Core → Recv) :
    recvOp s g a r = s.becomes (s.fault cPEER (s.me.readS a) 0 s.me) := by
  rw [recvOp, commOp_free on free, State.room_of_lt room]
  simp only [stranger]

/-! ## Groups, triggers and increments (R210, R214, R215) -/

theorem exec_grpset_passes (passes : s.me.check s.cur (s.me.readS a) 520 8 true false [.face] = none) (n : BitVec 3) :
    exec (.grpset g a n) s = s.becomes (s.me.addItem s.slot 2 false false [.grpRead n.toNat (s.me.readS a)]) := by
  change execGrpset g a n s = _
  rw [execGrpset, commOp_free on free]
  simp only [passes]

theorem exec_ccinc {o : BitVec 3} (listed : o.toNat < 5) (n : BitVec 5) :
    exec (.ccinc g a o n) s = s.becomes { s.me with emits := s.me.emits ++
      [.incr ⟨s.me.partId.toNat, s.me.launch, n.toNat, if a = 0 then 1 else BitVec.ofNat 64 ((s.me.readS a).toNat % 2 ^ 32), o.toNat, s.cur,
        s.me.cover⟩] } := by
  change execCcinc g a o n s = _
  rw [execCcinc, decide_eq_true listed, State.checked_true, commOp_free on free, ← setWidth_32_64]
  rfl

end

/-! ## Waybills (R213, R316) -/

section
variable {a : BitVec 6} {n : BitVec 9} (some_ : n ≠ 0)
include some_

theorem exec_wbrun_running {m : Macro} (runs : m ∈ s.me.ctx.macros) (waybill : ∃ x k r q p l, m.work = .waybill x k r q p l) :
    exec (.wbrun g a n) s = s.busyFault := by
  have one : (s.me.ctx.macros.any fun m => match m.work with | .waybill .. => true | _ => false) = true :=
    List.any_eq_true.2 ⟨m, runs, m.waybill_iff.2 waybill⟩
  have listed : (n != 0) = true := by simpa using some_
  change execWbrun g a n s = _
  rw [execWbrun, listed, State.checked_true]
  by_cases step_ : s.me.ctx.wbAt = s.me.ctx.clk + 1
  · exact commOp_step on step_ _
  · rw [commOp_free on step_]
    exact congrArg s.becomes (if_pos one)

include free in
theorem exec_wbrun_passes (alone : ∀ m ∈ s.me.ctx.macros, ∀ x k r q p l, m.work ≠ .waybill x k r q p l)
    (room : s.me.ctx.inFlight + min 3 (n.toNat - s.me.startAt 6) ≤ 64)
    (passes : s.me.check s.cur (s.me.readS a) (32 * n.toNat) 32 true false [.face] = none) :
    exec (.wbrun g a n) s = s.becomes
      (if s.me.startAt 6 < n.toNat && wbOFFSET (s.firstEntry (s.me.readS a + BitVec.ofNat 64 (32 * s.me.startAt 6))) = 2 &&
          !(s.poisoned (s.me.keyOf s.cur (s.me.readS a + BitVec.ofNat 64 (32 * s.me.startAt 6)).toNat) 32)
       then s.me.addMacro s.slot (s.me.startAt 6) n.toNat (.waybill (s.me.readS a) n.toNat (s.me.startAt 6 + 1) 2 1
         [s.firstEntry (s.me.readS a + BitVec.ofNat 64 (32 * s.me.startAt 6))])
       else s.me.addMacro s.slot (s.me.startAt 6) n.toNat (.waybill (s.me.readS a) n.toNat (s.me.startAt 6) 1 1 [])) := by
  have none : ¬(s.me.ctx.macros.any fun m => match m.work with | .waybill .. => true | _ => false) = true := by
    intro one
    obtain ⟨m, runs, waybill⟩ := List.any_eq_true.1 one
    obtain ⟨x, k, r, q, p, l, work⟩ := m.waybill_iff.1 waybill
    exact alone m runs x k r q p l work
  have listed : (n != 0) = true := by simpa using some_
  change execWbrun g a n s = _
  rw [execWbrun, listed, State.checked_true, commOp_free on free]
  refine congrArg s.becomes ((if_neg none).trans ((if_neg (Nat.not_lt.2 room)).trans ?_))
  simp only [passes]
  rfl

end

/-! ## MCLDR (R211 to R213) -/

section
variable {v : BitVec 7} {a : BitVec 6} {o : BitVec 2} {n : BitVec 3} {gr : AGroup} (listed : o ≠ 3)
  (group : Map.get? s.me.agroups n.toNat = some gr)
include listed group

theorem exec_mcldr_stranger (stranger : gr.member s.me.node = none) :
    exec (.mcldr g v a o n) s = s.becomes (commGate s (s.fault cCOLL (n.setWidth 64) 0) s.me) := by
  have ok : (o != 3) = true := by simpa using listed
  have own : Map.get s.me.agroups n.toNat ⟨[], 0, false⟩ = gr := by rw [Map.get, group, Option.getD_some]
  change execMcldr g v a o n s = _
  rw [execMcldr, ok, State.checked_true, State.guarded_on on]
  change s.becomes (match (Map.get s.me.agroups n.toNat ⟨[], 0, false⟩).member s.me.node with | none => _ | some i => _) = _
  rw [own, stranger]

theorem exec_mcldr_member {i : Nat} (member : gr.member s.me.node = some i) :
    exec (.mcldr g v a o n) s = s.becomes (if grABSENT gr.desc i then s.me else commGate s (s.room (s.joins v a o n gr i)) s.me) := by
  have ok : (o != 3) = true := by simpa using listed
  have own : Map.get s.me.agroups n.toNat ⟨[], 0, false⟩ = gr := by rw [Map.get, group, Option.getD_some]
  change execMcldr g v a o n s = _
  rw [execMcldr, ok, State.checked_true, State.guarded_on on]
  change s.becomes (match (Map.get s.me.agroups n.toNat ⟨[], 0, false⟩).member s.me.node with | none => _ | some i => _) = _
  rw [own, member]
  rfl

theorem exec_mcldr_absent {i : Nat} (member : gr.member s.me.node = some i) (absent : grABSENT gr.desc i = true) :
    exec (.mcldr g v a o n) s = s.becomes s.me := by
  rw [exec_mcldr_member on listed group member]
  exact congrArg s.becomes (if_pos absent)

/-- A unit that is not absent stands behind the gate of slot 7. -/
theorem exec_mcldr_step (here : ¬∃ i, gr.member s.me.node = some i ∧ grABSENT gr.desc i = true) (step_ : s.me.ctx.wbAt = s.me.ctx.clk + 1) :
    exec (.mcldr g v a o n) s = s.becomes (s.iiViolation s.me) := by
  cases member : gr.member s.me.node with
  | none =>
    rw [exec_mcldr_stranger on listed group member]
    exact congrArg s.becomes (if_pos step_)
  | some i =>
    rw [exec_mcldr_member on listed group member]
    refine congrArg s.becomes ((if_neg fun absent => here ⟨i, member, absent⟩).trans (if_pos step_))

include free in
theorem exec_mcldr_present {i : Nat} (member : gr.member s.me.node = some i) (present : grABSENT gr.desc i = false) :
    exec (.mcldr g v a o n) s = s.becomes (s.room (s.joins v a o n gr i) s.me) := by
  rw [exec_mcldr_member on listed group member]
  exact congrArg s.becomes ((if_neg (Bool.eq_false_iff.1 present)).trans (if_neg free))

end

end

/-! ## The obligation -/

/-- Settles O41: each instruction of slot 7 stands behind the gate of a waybill step (`commOp_step`), and past it does what its lemma says. -/
theorem slotSevenInstructions : Obligations.SlotSevenInstructions := by
  refine ⟨fun s g t v a f n3 o n w n9 on => ?slot, fun s g v a o n gr on listed group => ?mcldr⟩
  case slot =>
    intro c node dest timed ii
    refine ⟨fun free => ⟨fun m l peer launch => exec_send_peer on free peer launch v,
      fun m peer room => ⟨recvOp_peer on free room peer _, fun fmt => ?formats⟩,
      fun stranger => ⟨exec_send_stranger on free stranger v, fun room => recvOp_stranger on free room stranger _⟩,
      fun passes => exec_grpset_passes on free passes n3, fun alone some_ room passes => ?waybill, commOp_free on free _, commOp_free on free _,
      commOp_free on free _, fun scope => exec_ccinc on free scope n⟩, fun step_ => ?step_,
      fun m runs x k r q p l waybill some_ => exec_wbrun_running on some_ runs ⟨x, k, r, q, p, l, waybill⟩⟩
    case formats =>
      exact ⟨(State.checked_of (decide_eq_true fmt) _).trans (recvOp_peer on free room peer _),
        (State.checked_of (decide_eq_true fmt) _).trans (recvOp_peer on free room peer _)⟩
    case waybill =>
      intro start at_ e begins
      have runs := exec_wbrun_passes on free some_ alone room passes
      refine ⟨fun later => runs.trans (congrArg s.becomes (if_neg ?_)), fun now inside sound => runs.trans (congrArg s.becomes (if_pos ?_))⟩
      · have other : ¬wbOFFSET (s.firstEntry at_) = 2 := later
        simp [at_, start, c] at other
        simp [other]
      · have first : wbOFFSET (s.firstEntry at_) = 2 := now
        have clean : s.poisoned (c.keyOf s.cur at_.toNat) 32 = false := by rw [State.poisoned, sound, List.any_nil]
        rw [decide_eq_true inside, decide_eq_true first, clean]
        rfl
    case step_ =>
      exact ⟨commOp_step on step_ _, commOp_step on step_ _, fun fmt => ⟨(State.checked_of (decide_eq_true fmt) _).trans (commOp_step on step_ _),
        (State.checked_of (decide_eq_true fmt) _).trans (commOp_step on step_ _)⟩, commOp_step on step_ _,
        fun some_ => (State.checked_of (by simpa using some_) _).trans (commOp_step on step_ _), commOp_step on step_ _, commOp_step on step_ _,
        commOp_step on step_ _, fun scope => (State.checked_of (decide_eq_true scope) _).trans (commOp_step on step_ _)⟩
  case mcldr =>
    intro c absent
    refine ⟨?absent, fun here step_ => exec_mcldr_step on listed group here step_, fun free i member => ⟨fun present full => ?full, ?_⟩,
      fun free stranger => ?stranger⟩
    case absent =>
      rintro ⟨i, member, away⟩
      exact exec_mcldr_absent on listed group member away
    case full =>
      rw [exec_mcldr_present on free listed group member present, State.room_of_full (Nat.not_lt.1 full)]
    case stranger =>
      rw [exec_mcldr_stranger on listed group stranger]
      exact congrArg s.becomes (if_neg free)
    · intro ea
      refine ⟨fun present room poisoned => ?_, fun present room sound passes => ?_⟩ <;>
        rw [exec_mcldr_present on free listed group member present, State.room_of_lt room]
      · exact congrArg s.becomes (if_pos poisoned)
      · rw [State.joins_passes sound passes]
        exact ⟨_, rfl, Map.get?_put_self .., fun m other => Map.get?_put_other _ _ other, rfl, rfl, rfl, rfl⟩

end Sys2Proof.Machine
end

section
/-! PROOFS. The reheat instructions at issue, a region once configured, the decision on a tile, and records (R161 to R168). -/

namespace Sys2Proof.Machine

open Sys2Proof

/-! ## The reheat instructions at issue (R163 to R168) -/

section
variable {s : State} {r : BitVec 3} (free : s.me.ctx.rhBusy ≤ s.me.ctx.clk)
include free

theorem exec_rhcfg_passes {b : BitVec 6} (passes : s.me.check s.cur (s.me.readS b) 64 64 true false [.face, .cluster] = none) :
    exec (.rhcfg r b) s = s.becomes (Core.reheatBusy 6 (s.me.addItem s.slot 3 false false [.rhRead r.toNat (s.me.readS b)])) := by
  change execRhcfg r b s = _
  rw [execRhcfg, State.act_becomes, reheatGate_of_free free]
  simp only [passes]

section
variable (room : s.roomy) {a b : BitVec 6} {g : Reheat} (configured : Map.get? s.me.reheat r.toNat = some g)
include configured room

/-- RHSIG of a tile that its region does not have. -/
theorem exec_rhsig_outside (outside : rhTILES g.desc ≤ (s.me.readS a).toNat) :
    exec (.rhsig r a b) s = s.becomes (s.regionFormat r (s.me.readS a) s.me) := by
  change execRhsig r a b s = _
  rw [execRhsig, State.act_becomes, State.room_of_lt room, reheatGate_of_free free]
  simp only [configured, if_pos outside]

theorem exec_rhsig_passes (inside : (s.me.readS a).toNat < rhTILES g.desc)
    (passes : rhSigCheck s.cur s.me g.desc (s.me.readS a).toNat (s.me.startAt 2) (s.me.readS b) = none) :
    exec (.rhsig r a b) s = s.becomes (Core.reheatBusy 68 (s.me.addMacro s.slot (s.me.startAt 2) 65
      (if s.me.startAt 2 = 0 then .rhsig r.toNat (s.me.readS a).toNat (s.me.readS b) (List.replicate 16 (.fin true 0 0)) (.fin false 0 0)
          (List.replicate 17 0)
       else .rhsig r.toNat (s.me.readS a).toNat (s.me.readS b) g.sums g.maxm g.rec_))) := by
  change execRhsig r a b s = _
  rw [execRhsig, State.act_becomes, State.room_of_lt room, reheatGate_of_free free]
  simp only [configured, if_neg (Nat.not_le.2 inside), passes]

end

section
variable {a : BitVec 6}

theorem exec_rhlist_passes {g : Reheat} (configured : Map.get? s.me.reheat r.toNat = some g)
    (room : s.me.ctx.inFlight + (1 + (rhTILES g.desc + 127) / 128) ≤ 64)
    (passes : s.me.check s.cur (BitVec.ofNat 64 (rhOUT g.desc)) (2 * rhTILES g.desc) 2 false true [.face] = none) :
    exec (.rhlist r a) s = s.becomes (Core.reheatBusy 12 ((s.me.addItem s.slot 3 true false [.rhCount r.toNat (s.me.ctx.physS a.toNat)]).addMacro
      s.slot 0 ((rhTILES g.desc + 127) / 128) (.rhlist r.toNat (BitVec.ofNat 64 (rhOUT g.desc)) []))) := by
  change execRhlist r a s = _
  rw [execRhlist, State.act_becomes]
  simp only [configured, Option.map_some, Option.getD_some, State.roomFor, if_neg (Nat.not_lt.2 room), reheatGate_of_free free, passes,
    State.unless_none]

theorem exec_rhlist_unconfigured (room : s.roomy) (unconfigured : Map.get? s.me.reheat r.toNat = none) :
    exec (.rhlist r a) s = s.becomes (s.regionFormat r 0 s.me) := by
  have one : ¬64 < s.me.ctx.inFlight + (1 + (0 + 127) / 128) := Nat.not_lt.2 room
  change execRhlist r a s = _
  rw [execRhlist, State.act_becomes]
  simp only [unconfigured, Option.map_none, Option.getD_none, State.roomFor, if_neg one, reheatGate_of_free free]

end

end

theorem exec_rhmap {s : State} {d : BitVec 7} {p r : BitVec 3} (room : s.roomy) (listed : p.toNat < 5) :
    exec (.rhmap d p r) s = s.becomes (s.inFlight 3 [.rhMap (s.me.ctx.physV d.toNat) r.toNat p.toNat]) := by
  change execRhmap d p r s = _
  rw [execRhmap, decide_eq_true listed, State.checked_true, State.act_becomes, State.deliver_of_lt room]

/-! ## The region after RHCFG (R162, R164) -/

/-- Another region's count stands. -/
theorem stepsOf_setSteps_other {r q : Nat} (other : q ≠ r) (x : BitVec 56) (n : Nat) :
    stepsOf (setSteps x r n) q = stepsOf x q := by
  refine BitVec.eq_of_getLsbD_eq fun i bit => ?_
  have apart : 7 * q + i < 7 * r ∨ 7 * r + 7 ≤ 7 * q + i := by omega
  have clear (v : Nat) (small : v < 2 ^ 7) : v.testBit (7 * q + i - 7 * r) = false ∨ 7 * q + i < 7 * r := by
    rcases apart with below | above
    · exact .inr below
    · exact .inl (Nat.testBit_lt_two_pow (Nat.lt_of_lt_of_le small (Nat.pow_le_pow_right (by decide) (by omega))))
  have mask := clear 127 (by decide)
  have count := clear (n % 128) (Nat.mod_lt _ (by decide))
  rcases Nat.lt_or_ge (7 * q + i) 56 with low | high
  · rcases mask with mask | below <;> rcases count with count | below' <;>
      simp_all [stepsOf, setSteps, BitVec.getLsbD_ofNat, -BitVec.getLsbD_eq_getElem]
  · simp [stepsOf, bit, BitVec.getLsbD_of_ge _ _ high]

/-- The force flags of a region just configured: one for each of its tiles. -/
theorem getLsbD_forceAll {n i : Nat} (inside : i < 1024) : (BitVec.ofNat 1024 (2 ^ n - 1)).getLsbD i = decide (i < n) := by
  rw [BitVec.getLsbD_ofNat, Nat.testBit_two_pow_sub_one, decide_eq_true inside, Bool.true_and]

/-- RHCFG leaves its region with every tile forced, none skipped, and every age 0. -/
theorem Core.rhPut_region (c : Core) {r : Nat} (inside : r < 8) (d : BitVec 512) : ∃ g, Map.get? (c.rhPut r d).reheat r = some g ∧ g.desc = d ∧
    g.skip = 0 ∧ (∀ i, i < 1024 → g.force.getLsbD i = decide (i < rhTILES d)) ∧ (∀ i, Map.get g.ages i 0 = 0) ∧
    stepsOf (c.rhPut r d).sysCtx.rhSteps r = 0 ∧
    ∀ q, q ≠ r → Map.get? (c.rhPut r d).reheat q = Map.get? c.reheat q ∧
      (q < 8 → stepsOf (c.rhPut r d).sysCtx.rhSteps q = stepsOf c.sysCtx.rhSteps q) := by
  have reheat : (c.rhPut r d).reheat = Map.put c.reheat r (rhConfigured d) := Core.reheat_onSys ..
  have steps : (c.rhPut r d).sysCtx.rhSteps = setSteps c.sysCtx.rhSteps r 0 := congrArg Ctx.rhSteps (Core.sysCtx_onSys ..)
  rw [reheat, steps]
  refine ⟨rhConfigured d, Map.get?_put_self .., rfl, rfl, fun i tile => getLsbD_forceAll tile, fun _ => rfl, ?_, fun q other =>
    ⟨Map.get?_put_other _ _ other, fun _ => stepsOf_setSteps_other other _ _⟩⟩
  exact BitVec.eq_of_toNat_eq (toNat_stepsOf_setSteps inside _ 0)

/-! ## The decision on a tile (R165) -/

/-- A value less itself is zero. -/
theorem abs_add_negate_self (b : Bool) (m : Nat) (e : Int) : ∃ k, ((Fv.fin b m e).add (Fv.fin b m e).negate).abs = .fin false 0 k := by
  by_cases zero : m = 0
  · exact ⟨0, by simp [Fv.negate, Fv.add, zero, Fv.abs]⟩
  · have cancel : smant b m + smant (!b) m = 0 := by cases b <;> simp [smant]
    exact ⟨e, by simp [Fv.negate, Fv.add, zero, Fv.abs, cancel]⟩

/-- The greater of a finite value and 2^-20 has no sign. -/
theorem max_two_pow_neg_20 (b : Bool) (m : Nat) (e : Int) : ∃ n g, (Fv.fin b m e).max (.fin false 1 (-20)) = .fin false n g := by
  unfold Fv.max
  simp only [Fv.isNaN, reduceCtorEq, decide_false, Bool.or_self, Bool.false_eq_true, if_false]
  split
  case isTrue => exact ⟨1, -20, rfl⟩
  case isFalse above =>
    cases b with
    | false => exact ⟨m, e, rfl⟩
    | true =>
      refine absurd ?_ above
      have neg : -(m : Int) * ((2 ^ (e - min e (-20)).toNat : Nat) : Int) ≤ 0 :=
        Int.mul_nonpos_of_nonpos_of_nonneg (by omega) (Int.natCast_nonneg _)
      have pos : (0 : Int) < ((2 ^ ((-20) - min e (-20)).toNat : Nat) : Int) := Int.natCast_pos.2 (Nat.two_pow_pos _)
      have less : (Fv.fin true m e).lt (.fin false 1 (-20)) = true := decide_eq_true (by
        simp only [smant, if_true, Bool.false_eq_true, if_false]
        omega)
      rw [Fv.below, less, Bool.true_or]

/-- No value without a sign is below zero. -/
theorem fin_not_lt_zero (m : Nat) (e k : Int) : (Fv.fin false m e).lt (.fin false 0 k) = false := by
  refine decide_eq_false ?_
  have : (0 : Int) ≤ (m : Int) * ((2 ^ (e - min e k).toNat : Nat) : Int) := Int.mul_nonneg (Int.natCast_nonneg _) (Int.natCast_nonneg _)
  simp only [smant, Bool.false_eq_true, if_false]
  omega

/-- A tile that is forced, stale, without a limit, or whose signature or record holds a NaN is not skipped. -/
theorem rhSkip_false {g : Reheat} {t : Nat} {sg old : List (BitVec 32)} (kept : g.force.getLsbD t = true ∨ rhREFRESH g.desc ≤ Map.get g.ages t 0 ∨
    fp32 (rhTHETA g.desc) = .nan ∨ ∃ i, i < 17 ∧ (fp32 (sg.getD i 0).toNat = .nan ∨ fp32 (old.getD i 0).toNat = .nan)) :
    rhSkip g t sg old = false := by
  unfold rhSkip
  rcases kept with forced | stale | limitless | ⟨i, value, nan⟩
  · simp only [forced, Bool.not_true, Bool.false_and]
  · simp only [decide_eq_false (Nat.not_lt.2 stale), Bool.and_false, Bool.false_and]
  · simp [limitless, Fv.isNaN]
  · refine Bool.and_eq_false_imp.2 fun _ => List.all_eq_false.2 ⟨i, List.mem_range.2 value, ?_⟩
    rcases nan with nan | nan <;>
      simp only [nan, Fv.isNaN, decide_true, Bool.not_true, Bool.false_and, Bool.and_false, Bool.false_eq_true, not_false_eq_true]

/-- A tile whose signature is that of its record is skipped, where nothing else forbids it. -/
theorem rhSkip_true {g : Reheat} {t : Nat} {sg old : List (BitVec 32)} (unforced : g.force.getLsbD t = false)
    (fresh : Map.get g.ages t 0 < rhREFRESH g.desc) (limit : ∃ m e, fp32 (rhTHETA g.desc) = .fin false m e)
    (same : ∀ i, i < 17 → ∃ b m e, fp32 (sg.getD i 0).toNat = .fin b m e ∧ fp32 (old.getD i 0).toNat = fp32 (sg.getD i 0).toNat) :
    rhSkip g t sg old = true := by
  obtain ⟨m, e, theta⟩ := limit
  obtain ⟨b, m16, e16, greatest, recorded⟩ := same 16 (by decide)
  obtain ⟨n, k, most⟩ := max_two_pow_neg_20 b m16 e16
  rw [greatest] at recorded
  unfold rhSkip
  simp only [unforced, decide_eq_true fresh, theta, recorded, most, Fv.mul, Fv.isNaN, reduceCtorEq, decide_false, Bool.not_false, Bool.true_and,
    bne_self_eq_false]
  refine List.all_eq_true.2 fun i value => ?_
  obtain ⟨c, p, q, new, stored⟩ := same i (List.mem_range.1 value)
  obtain ⟨z, zero⟩ := abs_add_negate_self c p q
  rw [new] at stored
  simp only [new, stored, zero, reduceCtorEq, decide_false, Bool.not_false, Bool.true_and]
  rw [fin_not_lt_zero]
  rfl

/-! ## Records (R161, R165) -/

theorem ofBytes_toBytes (n v : Nat) : ofBytes (toBytes n v) = v % 2 ^ (8 * n) := by
  refine Nat.eq_of_testBit_eq fun j => ?_
  have split : j = 8 * (j / 8) + j % 8 := (Nat.div_add_mod j 8).symm
  have bit : j % 8 < 8 := Nat.mod_lt _ (by decide)
  rw [split, testBit_ofBytes _ _ bit, Nat.testBit_mod_two_pow]
  by_cases inside : j / 8 < n
  · have bound : 8 * (j / 8) + j % 8 < 8 * n := by omega
    rw [List.getD_eq_getElem _ _ (by rwa [length_toBytes]), getElem_toBytes, BitVec.getLsbD_ofNat, Nat.testBit_shiftRight, decide_eq_true bit,
      decide_eq_true bound]
  · have bound : ¬8 * (j / 8) + j % 8 < 8 * n := by omega
    rw [List.getD_eq_default _ _ (by rw [length_toBytes]; omega), decide_eq_false bound, Bool.false_and]
    exact BitVec.getLsbD_zero

/-- A piece of a list made of pieces of one length. -/
theorem take_drop_flatMap {α β : Type} {z : Nat} (f : α → List β) (size : ∀ a, (f a).length = z) (l : List α) (r : List β) {i : Nat}
    (inside : i < l.length) : (((l.flatMap f) ++ r).drop (z * i)).take z = f l[i] := by
  induction l generalizing i with
  | nil => exact absurd inside (Nat.not_lt_zero i)
  | cons a l ih =>
    cases i with
    | zero => simp [← size a]
    | succ i =>
      rw [List.flatMap_cons, List.append_assoc, Nat.mul_succ, Nat.add_comm, ← List.drop_drop, List.drop_left' (size a)]
      exact ih (Nat.lt_of_succ_lt_succ inside)

theorem length_rhRecord {sg : List (BitVec 32)} (values : sg.length = 17) : (rhRecord sg).length = 72 := by
  simp [rhRecord, List.length_flatMap, length_toBytes, values]

/-- A value of a record. -/
theorem rhRecord_value {sg : List (BitVec 32)} (values : sg.length = 17) {i : Nat} (inside : i < 17) :
    ofBytes (((rhRecord sg).drop (4 * i)).take 4) = (sg.getD i 0).toNat := by
  have bound : i < sg.length := by rwa [values]
  rw [rhRecord, take_drop_flatMap _ (fun _ => length_toBytes ..) _ _ bound, ofBytes_toBytes, List.getD_eq_getElem _ _ bound]
  exact Nat.mod_eq_of_lt sg[i].isLt

end Sys2Proof.Machine
end

section
/-! PROOFS. The work of the reheat engine: rows and decisions of RHSIG, and RHMAP (R165, R168). -/

namespace Sys2Proof.Machine

open Sys2Proof

/-! ## A row of a signature, and its decision (R165) -/

theorem State.ecc_clean {s : State} (clean : s.poison = []) (n : Nat) (ea : Word) (len : Nat) : s.ecc n ea len = none := by
  rw [State.ecc, clean]
  rfl

/-- The sums and the greatest magnitude after the row that a signature has come to. -/
def Core.sigRow (m0 : Memory) (n : Nat) (c : Core) (d : BitVec 512) (row : Nat) (addr : Word) (sums : List Fv) (mx : Fv) : List Fv × Fv :=
  rhRow d row (c.loadBytes m0 n (addr + BitVec.ofNat 64 (row * rhSTRIDE d)) (64 * (rhElem d).2)) sums mx

/-- The record of a tile: read with the first row, and kept from then on. -/
def Core.sigRecord (m0 : Memory) (n : Nat) (c : Core) (d : BitVec 512) (row t : Nat) (old : List (BitVec 32)) : List (BitVec 32) :=
  if row = 0 then
    (List.range 17).map fun i => BitVec.ofNat 32 (c.loadNat m0 n (BitVec.ofNat 64 (rhSIG d + 72 * t) + BitVec.ofNat 64 (4 * i)) 4)
  else old

theorem Core.sigRecord_first {m0 : Memory} {n : Nat} {c : Core} {d : BitVec 512} {row t : Nat} {old : List (BitVec 32)} (first : row = 0) {i : Nat}
    (value : i < 17) : (c.sigRecord m0 n d row t old)[i]? =
      some (BitVec.ofNat 32 (c.loadNat m0 n (BitVec.ofNat 64 (rhSIG d + 72 * t) + BitVec.ofNat 64 (4 * i)) 4)) := by
  rw [Core.sigRecord, if_pos first, List.getElem?_map, List.getElem?_range value, Option.map_some]

/-- A tile decided on: its skip bit, and the record that a tile leaves which is not skipped. -/
def State.sigDecided (s : State) (n : Nat) (m : Macro) (r : Nat) (g : Reheat) (t : Nat) (sg : List (BitVec 32)) (skip : Bool) : State :=
  let s1 := s.setCore n { s.core n with reheat := Map.put (s.core n).reheat r (g.setSkip t skip) }
  if skip then s1 else s1.writeAt n m.seq m.slot (BitVec.ofNat 64 (rhSIG g.desc + 72 * t)) (rhRecord sg) false

section
variable {m0 : Memory} {n : Nat} {s : State} {m : Macro} {r t : Nat} {addr : Word} {sums : List Fv} {mx : Fv} {old : List (BitVec 32)} {g : Reheat}
  (work : m.work = .rhsig r t addr sums mx old) (configured : Map.get? (s.core n).reheat r = some g)
include work configured

/-- A row of a signature that is due: its sums, its greatest magnitude, and with the first row the record. -/
theorem macroStep_rhsig_row (clean : s.poison = []) (row : m.next < 64) (due : m.start + 3 + m.next ≤ (s.core n).ctx.clk) :
    macroStep m0 n s m = (s, { m with
      next := m.next + 1
      work := .rhsig r t addr ((s.core n).sigRow m0 n g.desc m.next addr sums mx).1 ((s.core n).sigRow m0 n g.desc m.next addr sums mx).2
        ((s.core n).sigRecord m0 n g.desc m.next t old) }, none) := by
  have offset : ¬(s.core n).ctx.clk < m.start + m.offset := by
    rw [Macro.offset, work]
    simp only [if_pos row]
    omega
  refine (if_neg offset).trans ?_
  simp only [work, rhsigStep, configured, if_pos row, State.ecc_clean clean, ite_self, Option.toList, List.append_nil, List.head?_nil]
  rfl

/-- After the last row: the tile's skip bit becomes the decision, and a tile that is not skipped leaves its record. -/
theorem macroStep_rhsig_decision (last : m.next = 64) (due : m.start + 70 ≤ (s.core n).ctx.clk) {skip : Bool}
    (decision : skip = rhSkip g t (rhSignature sums mx) old) :
    macroStep m0 n s m = (s.sigDecided n m r g t (rhSignature sums mx) skip, { m with next := 65 }, none) := by
  have rows : ¬m.next < 64 := by omega
  have offset : ¬(s.core n).ctx.clk < m.start + m.offset := by
    rw [Macro.offset, work]
    simp only [if_neg rows]
    omega
  refine (if_neg offset).trans ?_
  subst decision
  simp only [work, rhsigStep, configured, if_neg rows]
  rfl

end

/-- A row adds its elements to the sums of its sub-blocks. -/
theorem rhRow_sum {d : BitVec 512} {row b : Nat} {sums : List Fv} (count : sums.length = 16) (inside : b < 16) (bytes : List Byte) (mx : Fv) :
    (rhRow d row bytes sums mx).1[b]? = some (if b / 4 = row / 16 then (List.range 16).foldl (fun a i =>
      a.add ((rhElem d).1.decode (ofBytes ((bytes.drop ((rhElem d).2 * (16 * (b % 4) + i))).take (rhElem d).2)))) (sums.getD b .nan)
      else sums.getD b .nan) := by
  have bound : b < sums.length := by omega
  simp [rhRow, bound]

/-- And raises the greatest magnitude. -/
theorem rhRow_max (d : BitVec 512) (row : Nat) (bytes : List Byte) (sums : List Fv) (mx : Fv) : (rhRow d row bytes sums mx).2 =
    (List.range 64).foldl (fun a i => a.max ((rhElem d).1.decode (ofBytes ((bytes.drop ((rhElem d).2 * i)).take (rhElem d).2))).abs) mx := by
  simp only [rhRow]

theorem length_rhRow (d : BitVec 512) (row : Nat) (bytes : List Byte) (sums : List Fv) (mx : Fv) :
    (rhRow d row bytes sums mx).1.length = sums.length := by simp [rhRow]

/-- A skip bit set, and the others as they were. -/
theorem Reheat.getLsbD_setSkip (g : Reheat) (t : Nat) (b : Bool) {j : Nat} (inside : j < 1024) :
    (g.setSkip t b).skip.getLsbD j = if j = t then b else g.skip.getLsbD j := by
  have one : (1#1024 <<< t).getLsbD j = decide (j = t) := by
    rw [BitVec.getLsbD_shiftLeft, decide_eq_true inside, Bool.true_and, BitVec.getLsbD_one]
    by_cases same : j = t
    · simp [same]
    · simp only [same, decide_false]
      by_cases below : j < t
      · simp [below]
      · have later : ¬j - t = 0 := by omega
        simp [later]
  cases b with
  | true =>
    change (g.skip ||| (1#1024 <<< t)).getLsbD j = _
    rw [BitVec.getLsbD_or, one]
    by_cases same : j = t <;> simp [same]
  | false =>
    change (g.skip &&& ~~~(1#1024 <<< t)).getLsbD j = _
    rw [BitVec.getLsbD_and, BitVec.getLsbD_not, one, decide_eq_true inside]
    by_cases same : j = t <;> simp [same]

/-! ## A write joined to those of the cycle leaves the rest (R118) -/

/-- A write at an address adds to the writes of the cycle alone. -/
theorem State.writeAt_eq (s : State) (n seq slot : Nat) (ea : Word) (l : List Byte) (collides : Bool) :
    s.writeAt n seq slot ea l collides = { s with wq := s.wq ++ (pageStarts ea.toNat l.length).map fun p =>
      ⟨n, seq, slot, (s.core n).keyOf n p, (l.drop (p - ea.toNat)).take (0x4000 - p % 0x4000), none, collides, false⟩ } := by
  have pieces := State.foldl_write s n seq slot collides
    ((pageStarts ea.toNat l.length).map fun p => ((s.core n).keyOf n p, (l.drop (p - ea.toNat)).take (0x4000 - p % 0x4000)))
  rw [List.foldl_map, List.map_map] at pieces
  exact pieces

/-- The writes that a core with another reheat table would make are the same. -/
theorem State.wq_writeAt_reheat (s : State) (n seq slot : Nat) (ea : Word) (l : List Byte) (collides : Bool) (h : Map Reheat) :
    ((s.setCore n { s.core n with reheat := h }).writeAt n seq slot ea l collides).wq = (s.writeAt n seq slot ea l collides).wq := by
  rw [State.writeAt_eq, State.writeAt_eq, State.core_setCore]
  rfl

/-- What a decision leaves: its region but for one skip bit, memory, the other cores, and the core's context. -/
theorem State.sigDecided_region (s : State) (n : Nat) (m : Macro) (r : Nat) (g : Reheat) (t : Nat) (sg : List (BitVec 32)) (skip : Bool) :
    Map.get? ((s.sigDecided n m r g t sg skip).core n).reheat r = some (g.setSkip t skip) ∧ (s.sigDecided n m r g t sg skip).mem = s.mem ∧
      (∀ j, j ≠ n → (s.sigDecided n m r g t sg skip).core j = s.core j) ∧ ((s.sigDecided n m r g t sg skip).core n).ctx = (s.core n).ctx ∧
      (s.sigDecided n m r g t sg skip).wq =
        if skip then s.wq else (s.writeAt n m.seq m.slot (BitVec.ofNat 64 (rhSIG g.desc + 72 * t)) (rhRecord sg) false).wq := by
  have core : ((s.setCore n { s.core n with reheat := Map.put (s.core n).reheat r (g.setSkip t skip) }).core n) =
      { s.core n with reheat := Map.put (s.core n).reheat r (g.setSkip t skip) } := State.core_setCore ..
  have ctx : ((s.setCore n { s.core n with reheat := Map.put (s.core n).reheat r (g.setSkip t skip) }).core n).ctx = (s.core n).ctx := by
    rw [core]
  have others (j : Nat) (other : j ≠ n) := s.core_setCore_other { s.core n with reheat := Map.put (s.core n).reheat r (g.setSkip t skip) } other
  have region : Map.get? (Map.put (s.core n).reheat r (g.setSkip t skip)) r = some (g.setSkip t skip) := Map.get?_put_self ..
  cases skip with
  | true => exact ⟨(congrArg (fun c : Core => Map.get? c.reheat r) core).trans region, rfl, others, ctx, rfl⟩
  | false =>
    have writes := s.wq_writeAt_reheat n m.seq m.slot (BitVec.ofNat 64 (rhSIG g.desc + 72 * t)) (rhRecord sg) false
      (Map.put (s.core n).reheat r (g.setSkip t false))
    rw [State.sigDecided, if_neg Bool.false_ne_true, if_neg Bool.false_ne_true, writes, State.writeAt_eq]
    exact ⟨(congrArg (fun c : Core => Map.get? c.reheat r) core).trans region, rfl, others, ctx, rfl⟩

/-! ## RHMAP (R168) -/

/-- The skip map with the force flags. -/
theorem Core.rhMap_flags {c : Core} {r : Nat} {g : Reheat} (configured : Map.get? c.reheat r = some g) {j : Nat} (inside : j < 1024) :
    (c.rhMap r 0).getLsbD j = (decide (j < rhTILES g.desc) && g.skip.getLsbD j) ∧ (c.rhMap r 0).getLsbD (1024 + j) = g.force.getLsbD j := by
  have map : c.rhMap r 0 = g.force ++ BitVec.ofNat 1024 (g.skip.toNat % 2 ^ rhTILES g.desc) := by
    rw [Core.rhMap, configured]
    rfl
  rw [map, BitVec.getLsbD_append, BitVec.getLsbD_append, if_pos inside, if_neg (by omega), Nat.add_sub_cancel_left, BitVec.getLsbD_ofNat,
    Nat.testBit_mod_two_pow, decide_eq_true inside, Bool.true_and, BitVec.testBit_toNat]
  exact ⟨rfl, rfl⟩

/-- A part of the ages. -/
theorem Core.rhMap_ages {c : Core} {r part : Nat} {g : Reheat} (configured : Map.get? c.reheat r = some g) (ages : part ≠ 0) {j : Nat}
    (inside : j < 256) : laneNat (c.rhMap r part) j 8 =
      if 256 * (part - 1) + j < rhTILES g.desc then Map.get g.ages (256 * (part - 1) + j) 0 % 256 else 0 := by
  rw [Core.rhMap, configured]
  refine (congrArg (fun v : Vec => laneNat v j 8) (if_neg ages)).trans ((laneNat_ofLanes _ (by decide) inside).trans ?_)
  split <;> rfl

/-! ## The obligation -/

/-- Settles O34: the instructions at issue (`exec_rhcfg_passes` to `exec_rhmap`), a configured region (`Core.rhPut_region`), a row and a decision of
RHSIG (`macroStep_rhsig_row`, `macroStep_rhsig_decision`), what decides (`rhSkip_false`, `rhSkip_true`), and RHMAP's parts. -/
theorem reheatInstructions : Obligations.ReheatInstructions := by
  refine ⟨fun s r p a b d g room => ?issue, fun c r d inside _ => c.rhPut_region inside d,
    fun m0 n s m r t addr sums mx old g work configured clean count => ?work,
    fun g t sg old => ⟨rhSkip_false, rhSkip_true⟩, fun sg values => ⟨length_rhRecord values, fun i inside => rhRecord_value values inside⟩,
    fun m0 b n i s d r part listed => ?map⟩
  case issue =>
    exact ⟨fun free passes => exec_rhcfg_passes free passes, fun free configured =>
      ⟨fun inside passes => exec_rhsig_passes free room configured inside passes,
      fun outside => exec_rhsig_outside free room configured outside, fun fits passes => exec_rhlist_passes free configured fits passes⟩,
      fun part => exec_rhmap room part, fun free unconfigured => exec_rhlist_unconfigured free room unconfigured⟩
  case work =>
    intro c z rec_ row el
    refine ⟨fun more due => ⟨_, _, _, macroStep_rhsig_row work configured clean more due, ?_, ?_, ?_, ?_, ?_⟩, fun last due => ?decision⟩
    · rw [Core.sigRow, length_rhRow, count]
    · exact fun b inside => rhRow_sum count inside _ _
    · exact rhRow_max ..
    · exact fun later => if_neg later
    · intro first i value
      exact Core.sigRecord_first first value
    case decision =>
      intro sg skip
      obtain ⟨region, mem, others, ctx, writes⟩ := s.sigDecided_region n m r g t sg skip
      refine ⟨_, macroStep_rhsig_decision work configured last due rfl,
        ⟨_, region, rfl, rfl, rfl, fun j inside => g.getLsbD_setSkip t skip inside⟩, mem, others, ctx, writes.trans ?_⟩
      cases skip <;> rfl
  case map =>
    intro c
    refine ⟨c.rhMap r part, rfl, fun unconfigured => by rw [Core.rhMap, unconfigured], fun g configured => ⟨?_, ?_⟩⟩
    · rintro rfl j inside
      exact Core.rhMap_flags configured inside
    · exact fun ages j inside => Core.rhMap_ages configured ages inside

end Sys2Proof.Machine
end

section
/-! PROOFS. What keeps the registers of a core, its traps, its checks and its gates (R4, R95, R247) -/

namespace Sys2Proof.Machine

open Sys2Proof

/-! ## The registers of a core, and what leaves them (R4) -/

/-- The scalar, vector, mask and tile registers of a core. -/
def Core.regs (c : Core) : Map Word × Map Vec × Map Mask × Map Vec := (c.ctx.s, c.v, c.k, c.tiles)

/-- A change of a core that leaves its registers. -/
def KeepsRegs (f : Core → Core) : Prop := ∀ c, (f c).regs = c.regs

@[simp] theorem Core.regs_addItem (c : Core) (k l : Nat) (q e : Bool) (a : List Act) : (c.addItem k l q e a).regs = c.regs := rfl
@[simp] theorem Core.regs_addMacro (c : Core) (k a b : Nat) (w : Work) : (c.addMacro k a b w).regs = c.regs := rfl
@[simp] theorem Core.regs_addFin (c : Core) (a : Act) : (c.addFin a).regs = c.regs := rfl
@[simp] theorem Core.regs_due (c : Core) (t : Trap) : (c.due t).regs = c.regs := rfl
@[simp] theorem Core.regs_jumpTo (c : Core) (t : Word) : (c.jumpTo t).regs = c.regs := rfl
@[simp] theorem Core.regs_waitFor (c : Core) (w : Wait) : (c.waitFor w).regs = c.regs := rfl
@[simp] theorem Core.regs_rngTake (c : Core) (n : Nat) : (c.rngTake n).regs = c.regs := rfl
@[simp] theorem Core.regs_assayBusy (n : Nat) (c : Core) : (Core.assayBusy n c).regs = c.regs := rfl
@[simp] theorem Core.regs_reheatBusy (n : Nat) (c : Core) : (Core.reheatBusy n c).regs = c.regs := rfl
@[simp] theorem State.regs_holdFor (s : State) (n : Nat) (c : Core) : (s.holdFor n c).regs = c.regs := rfl
@[simp] theorem Core.regs_incr (n : Nat) (c : Core) (cc : Nat) (a : Word) (o : Nat) : (Core.incr n c cc a o).regs = c.regs := rfl

@[simp] theorem Core.regs_copyBusy (c : Core) (k n : Nat) : (c.copyBusy k n).regs = c.regs := by
  unfold Core.copyBusy
  split <;> rfl

@[simp] theorem Core.regs_gatherIssued (c : Core) (k : Nat) : (c.gatherIssued k).regs = c.regs := by
  unfold Core.gatherIssued
  split <;> rfl

@[simp] theorem Core.regs_setQueue (c : Core) (k : Nat) (q : List QEntry) : (c.setQueue k q).regs = c.regs := by
  unfold Core.setQueue
  split <;> rfl

@[simp] theorem Core.regs_enqueue (c : Core) (k t : Nat) (q : QKind) : (c.enqueue k t q).regs = c.regs :=
  Core.regs_setQueue c k _

/-! ## Traps -/

/-- A change of the system registers that leaves the scalars of its context. -/
theorem Core.regs_onSys (c : Core) {f : Ctx → Ctx} (keeps : ∀ x, (f x).s = x.s) : (c.onSys f).regs = c.regs := by
  unfold Core.onSys
  split
  · rfl
  · simp only [Core.regs, keeps]

theorem Ctx.s_setProg (x : Ctx) (i : Nat) (v : BitVec 32) : (x.setProg i v).s = x.s := by
  unfold Ctx.setProg
  split <;> rfl

theorem Ctx.s_storeProgs (x : Ctx) : x.storeProgs.s = x.s := by
  suffices all : ∀ (l : List Nat) (y : Ctx), (l.foldl (fun y i => y.setProg i (x.prog i)) y).s = y.s from all _ x
  intro l
  induction l with
  | nil => exact fun _ => rfl
  | cons i l ih => exact fun y => (ih _).trans (y.s_setProg i _)

/-- No system register is one of the registers. -/
@[simp] theorem Core.regs_sysWrite (c : Core) (n : Nat) (v : Word) : (c.sysWrite n v).regs = c.regs := by
  unfold Core.sysWrite
  split
  case h_1 | h_2 | h_3 | h_4 | h_5 | h_10 | h_11 | h_13 | h_14 | h_15 | h_16 | h_17 | h_18 | h_19 | h_20 | h_21 | h_22 | h_23 | h_24 | h_25 =>
    exact Core.regs_onSys c fun _ => rfl
  case h_6 | h_7 | h_8 | h_9 | h_12 | h_26 | h_27 | h_28 | h_29 | h_30 | h_31 => rfl
  case h_32 =>
    split
    · exact Core.regs_onSys c fun x => x.s_setProg _ _
    · rfl

/-- A change repeated over a list leaves the registers where each one does. -/
theorem regs_foldl {α : Type} {f : Core → α → Core} (keeps : ∀ c a, (f c a).regs = c.regs) (l : List α) (c : Core) : (l.foldl f c).regs = c.regs := by
  induction l generalizing c with
  | nil => rfl
  | cons a l ih => exact (ih _).trans (keeps c a)

@[simp] theorem Core.regs_applyFin (c : Core) : c.applyFin.regs = c.regs := by
  refine regs_foldl (fun d a => ?_) _ _
  split
  case h_1 => exact d.regs_sysWrite _ _
  all_goals rfl

@[simp] theorem Core.regs_holdReheat (c : Core) : c.holdReheat.regs = c.regs := by
  refine regs_foldl (fun d m => ?_) _ _
  split
  · split <;> rfl
  · rfl

/-- The handler of a trap begins with the registers of the context that it interrupts. -/
@[simp] theorem Core.regs_takeTrap (c : Core) (tick clk sres : Nat) (t : Trap) (pc : Word) (rep : BitVec 7) :
    (c.takeTrap tick clk sres t pc rep).regs = c.regs := by
  obtain ⟨v, k, tiles⟩ : c.holdReheat.v = c.v ∧ c.holdReheat.k = c.k ∧ c.holdReheat.tiles = c.tiles := by
    simpa [Core.regs] using (congrArg Prod.snd c.regs_holdReheat)
  unfold Core.takeTrap
  split
  · rfl
  · simp only [Core.regs, Ctx.s_storeProgs, v, k, tiles]

@[simp] theorem Core.regs_dropRelease (c : Core) : c.dropRelease.regs = c.regs := by
  unfold Core.dropRelease
  split <;> rfl

@[simp] theorem Core.regs_keepDrain (c : Core) : c.keepDrain.regs = c.regs := by
  unfold Core.keepDrain
  split <;> rfl

@[simp] theorem Core.regs_raise (tick slot code : Nat) (fval felem : Word) (c : Core) : (Core.raise tick slot code fval felem c).regs = c.regs := by
  refine (Core.regs_takeTrap ..).trans ?_
  exact (Core.regs_applyFin _).trans ((Core.regs_keepDrain _).trans (Core.regs_dropRelease c))

@[simp] theorem State.regs_fault (s : State) (code : Nat) (fval felem : Word) (c : Core) : (s.fault code fval felem c).regs = c.regs :=
  Core.regs_raise ..
@[simp] theorem State.regs_illegal (s : State) (c : Core) : (s.illegal c).regs = c.regs := s.regs_fault ..
@[simp] theorem State.regs_privilege (s : State) (c : Core) : (s.privilege c).regs = c.regs := s.regs_fault ..
@[simp] theorem State.regs_iiViolation (s : State) (c : Core) : (s.iiViolation c).regs = c.regs := s.regs_fault ..
@[simp] theorem State.regs_regionFormat (s : State) (r : BitVec 3) (x : Word) (c : Core) : (s.regionFormat r x c).regs = c.regs := s.regs_fault ..

/-! ## Checks and gates -/

section
variable (s : State) {f : Core → Core} (keeps : KeepsRegs f)
include keeps

theorem KeepsRegs.room : KeepsRegs (s.room f) := fun c => by
  unfold State.room
  split
  · exact s.regs_iiViolation c
  · exact keeps c

theorem KeepsRegs.roomFor (k : Nat) : KeepsRegs (s.roomFor k f) := fun c => by
  unfold State.roomFor
  split
  · exact s.regs_iiViolation c
  · exact keeps c

theorem KeepsRegs.unless (chk : Option (Nat × Word)) (v : Word) : KeepsRegs (s.unless chk v f) := fun c => by
  unfold State.unless
  split
  · exact s.regs_fault ..
  · exact keeps c

theorem KeepsRegs.unlessAt (chk : Option (Nat × Word)) : KeepsRegs (s.unlessAt chk f) := fun c => by
  unfold State.unlessAt
  split
  · exact s.regs_fault ..
  · exact keeps c

theorem KeepsRegs.assayGate (busy : Bool) (x : BitVec 2) (need : Option Nat) : KeepsRegs (assayGate s busy x need f) := fun c => by
  unfold Machine.assayGate
  split
  · exact s.regs_iiViolation c
  · extract_lets kind ok
    split
    · exact s.regs_fault ..
    · exact keeps c

theorem KeepsRegs.reheatGate : KeepsRegs (reheatGate s f) := fun c => by
  unfold Machine.reheatGate
  split
  · exact s.regs_iiViolation c
  · exact keeps c

theorem KeepsRegs.timedGate : KeepsRegs (timedGate s f) := fun c => by
  unfold Machine.timedGate
  split
  · exact s.regs_iiViolation c
  · exact keeps c

theorem KeepsRegs.commGate : KeepsRegs (commGate s f) := fun c => by
  unfold Machine.commGate
  split
  · exact s.regs_iiViolation c
  · exact keeps c

end

theorem keepsRegs_gatherIssue (s : State) (b : BitVec 6) {f : Bool → Core → Core} (keeps : ∀ cl, KeepsRegs (f cl)) :
    KeepsRegs (gatherIssue s b f) := by
  refine KeepsRegs.room s fun c => ?_
  split
  · exact s.regs_iiViolation c
  · split
    · exact s.regs_fault ..
    · exact s.regs_fault ..
    · exact (keeps _ _).trans (c.regs_gatherIssued _)
    · exact (keeps _ _).trans (c.regs_gatherIssued _)

@[simp] theorem State.regs_deliver (s : State) (lat : Nat) (a : List Act) (c : Core) : (s.deliver lat a c).regs = c.regs :=
  KeepsRegs.room s (f := fun c => c.addItem s.slot lat true false a) (fun _ => rfl) c
@[simp] theorem State.regs_deliverV (s : State) (lat w : Nat) (d : BitVec 7) (k : Mask) (z : BitVec 1) (f : Nat → Nat) (fl : BitVec 7) (c : Core) :
    (s.deliverV lat w d k z f fl c).regs = c.regs := s.regs_deliver ..
@[simp] theorem State.regs_deliverK (s : State) (lat n : Nat) (d : BitVec 3) (k : Mask) (z : BitVec 1) (f : Nat → Bool) (c : Core) :
    (s.deliverK lat n d k z f c).regs = c.regs := s.regs_deliver ..

/-! ## Outcomes in which the acting core keeps its registers -/

/-- An outcome in which the acting core alone may have changed, and none of its registers. -/
def State.quiet (s : State) (o : Out) : Prop := ∃ c, o = s.becomes c ∧ c.regs = s.me.regs

section
variable {s : State} {f : Core → Core} (keeps : KeepsRegs f)
include keeps

theorem State.quiet_act : s.quiet (s.act f) := ⟨_, rfl, keeps s.me⟩

theorem State.quiet_guarded (g : BitVec 4) : s.quiet (s.guarded g f) := State.quiet_act fun c => by
  split
  · exact keeps c
  · rfl

theorem State.quiet_runtime : s.quiet (s.runtime f) := State.quiet_act fun c => by
  split
  · exact s.regs_privilege c
  · exact keeps c

end

theorem State.quiet_checked {s : State} {o : Out} (quiet : s.quiet o) (ok : Bool) : s.quiet (s.checked ok o) := by
  cases ok
  · exact State.quiet_act s.regs_illegal
  · exact quiet

end Sys2Proof.Machine
end

section
/-! PROOFS. What the scalar, control, runtime, vector, assay and reheat instructions leave as they issue (R4) -/

namespace Sys2Proof.Machine

open Sys2Proof

/-! ## What each family and each instruction leaves (R4): scalar and control -/

section
variable (s : State) (g : BitVec 4)

theorem aluOp_quiet (d : BitVec 6) (lat : Nat) (f : Core → Word) : s.quiet (aluOp s g d lat f) :=
  State.quiet_guarded (fun _ => s.regs_deliver ..) g

theorem predOp_quiet (d : BitVec 4) (f : Core → Bool) : s.quiet (predOp s g d f) :=
  State.quiet_guarded (fun _ => s.regs_deliver ..) g

theorem loadOp_quiet (d a : BitVec 6) (off : Word) (size : Nat) (sg : Bool) : s.quiet (loadOp s g d a off size sg) :=
  State.quiet_guarded (KeepsRegs.room s fun c => KeepsRegs.unless s (fun c => c.regs_addItem ..) _ _ c) g

theorem storeOp_quiet (d a : BitVec 6) (off : Word) (size : Nat) : s.quiet (storeOp s g d a off size) :=
  State.quiet_guarded (KeepsRegs.room s fun c => KeepsRegs.unless s (fun c => c.regs_addItem ..) _ _ c) g

theorem atomOp_quiet (d a b : BitVec 6) (op : Option Nat) : s.quiet (atomOp s g d a b op) :=
  State.quiet_guarded (KeepsRegs.room s fun c => KeepsRegs.unless s (fun c => c.regs_addItem ..) _ _ c) g

theorem execMfs_quiet (d : BitVec 6) (r : BitVec 12) : s.quiet (execMfs g d r s) := State.quiet_act fun c => by
  split
  · exact s.regs_fault ..
  · split
    · exact s.regs_deliver ..
    · rfl

theorem execMts_quiet (d : BitVec 6) (r : BitVec 12) : s.quiet (execMts g d r s) := State.quiet_act fun c => by
  generalize (if c.readP g then mtsCheck c.mode c.owners r.toNat (c.readS d) else mtsAccess c.mode r.toNat) = check
  cases check
  · dsimp only
    split <;> rfl
  · exact s.regs_fault ..

theorem execCall_quiet (t : BitVec 7) (o : BitVec 15) (xw : Option (BitVec 32)) : s.quiet (execCall t g o xw s) :=
  State.quiet_guarded (KeepsRegs.room s fun _ => by rfl) g

theorem execLoop_quiet (t : BitVec 7) (a : BitVec 6) (n : BitVec 4) (b : BitVec 5) (xw : Option (BitVec 32)) :
    s.quiet (execLoop t g a n b xw s) := State.quiet_checked (State.quiet_act fun c => by
  split
  · exact s.regs_illegal c
  · split
    · rfl
    · dsimp only
      split
      · rfl
      · split <;> rfl) _

theorem execLexit_quiet (t : BitVec 7) : s.quiet (execLexit t g s) := State.quiet_guarded (fun c => by split <;> rfl) g

/-- An arrival at a barrier leaves the registers: the arrival stands in the table of the groups. -/
theorem keepsRegs_arriveAt (n : BitVec 3) (bar sync : Bool) (w : Nat → Wait) (late : Option Word) :
    KeepsRegs (arriveAt s n bar sync w late) := fun c => by
  unfold arriveAt
  split
  · exact s.regs_fault ..
  · split
    · exact s.regs_fault ..
    · split
      · exact s.regs_fault ..
      · split
        · split <;> rfl
        · rfl

theorem execBar_quiet (t : BitVec 7) (n : BitVec 3) : s.quiet (execBar t n s) :=
  State.quiet_act fun c => keepsRegs_arriveAt s n true false _ c.lazyLowest c

@[simp] theorem State.regs_waitUnless (w : Wait) (c : Core) : (s.waitUnless w c).regs = c.regs := by
  unfold State.waitUnless
  split <;> rfl

theorem execTwait_quiet (t : BitVec 7) (m : BitVec 8) : s.quiet (execTwait t g m s) :=
  State.quiet_checked (State.quiet_guarded (fun c => by
    split
    · exact s.regs_fault ..
    · exact s.regs_waitUnless ..) g) _

theorem execBkacq_quiet (t : BitVec 7) (sh : BitVec 1) (m : BitVec 8) : s.quiet (execBkacq t g sh m s) :=
  State.quiet_checked (State.quiet_guarded (fun c => by
    split
    · exact s.regs_fault ..
    · exact s.regs_waitUnless ..) g) _

theorem execQpoint_quiet (t : BitVec 7) : s.quiet (execQpoint t g s) := State.quiet_guarded (fun c => by split <;> rfl) g

theorem execPack_quiet (n : BitVec 4) : s.quiet (execPack n s) := State.quiet_checked (State.quiet_act fun c => by
  dsimp only
  split
  · exact s.regs_illegal c
  · rfl) _

/-! ## The instructions of runtime mode -/

theorem execEret_quiet (t : BitVec 7) (a : BitVec 6) : s.quiet (execEret t a s) := State.quiet_runtime fun c => by
  split
  · split
    · exact s.regs_illegal c
    · rfl
  · split
    · exact s.regs_illegal c
    · refine KeepsRegs.unlessAt s (fun c => ?_) _ c
      dsimp only
      split
      · exact s.regs_fault ..
      · rfl

theorem execSnapst_quiet (t : BitVec 7) (a : BitVec 6) : s.quiet (execSnapst t a s) := State.quiet_checked (State.quiet_runtime fun c => by
  split
  · exact s.regs_illegal c
  · exact KeepsRegs.unlessAt s (fun _ => by rfl) _ c) _

theorem execCtxsave_quiet (t : BitVec 7) (a : BitVec 6) : s.quiet (execCtxsave t a s) :=
  State.quiet_checked (State.quiet_runtime fun c => KeepsRegs.unlessAt s (fun _ => by rfl) _ c) _

theorem execCtxrest_quiet (t : BitVec 7) (a b : BitVec 6) (m : BitVec 2) : s.quiet (execCtxrest t a b m s) :=
  State.quiet_checked (State.quiet_runtime fun c => by
    refine KeepsRegs.unlessAt s (fun c => ?_) _ c
    split
    · exact s.regs_fault ..
    · split
      · exact s.regs_fault ..
      · rfl) _

theorem execLttld_quiet (t : BitVec 7) (a b : BitVec 6) : s.quiet (execLttld t a b s) := State.quiet_runtime fun c => by
  split
  · exact s.regs_fault ..
  · split
    · exact s.regs_fault ..
    · rfl

theorem execLttinv_quiet (t : BitVec 7) (a : BitVec 6) : s.quiet (execLttinv t a s) := State.quiet_runtime fun c => by
  split
  · exact s.regs_fault ..
  · rfl

end

/-! ## Vector instructions -/

section
variable (s : State) (k : BitVec 3) (z : BitVec 1)

theorem floatOp_quiet (d a b : BitVec 7) (sc : BitVec 1) (f : Rnd → Nat → Nat → Nat → Nat × BitVec 7) :
    s.quiet (floatOp s k z d a b sc f) := State.quiet_checked (State.quiet_act fun _ => s.regs_deliverV ..) _

theorem floatCmp_quiet (d : BitVec 3) (a b : BitVec 7) (sc : BitVec 1) (f : Fv → Fv → Bool) : s.quiet (floatCmp s k z d a b sc f) :=
  State.quiet_checked (State.quiet_act fun _ => s.regs_deliverK ..) _

theorem intOp_quiet (d a : BitVec 7) (n : BitVec 1) (b : BitVec 6) (sc : BitVec 1) (f : Nat → Nat → Nat → Nat) :
    s.quiet (intOp s k z d a n b sc f) := State.quiet_act fun _ => s.regs_deliverV ..

theorem intCmp_quiet (d : BitVec 3) (a : BitVec 7) (n : BitVec 1) (b : BitVec 6) (sc : BitVec 1) (f : Int → Int → Bool) :
    s.quiet (intCmp s k z d a n b sc f) := State.quiet_act fun _ => s.regs_deliverK ..

theorem sfuOp_quiet (d a : BitVec 7) (f : Nat → Nat × BitVec 7) : s.quiet (sfuOp s k z d a f) :=
  State.quiet_act fun _ => s.regs_deliverV ..

theorem reduceOp_quiet (d a : BitVec 7) (x : BitVec 1) (f : BitVec 2) (h : Mask → List Nat → Nat) : s.quiet (reduceOp s k d a x f h) :=
  State.quiet_checked (State.quiet_act fun _ => s.regs_deliver ..) _

/-- Lanes delivered under a mask. -/
theorem deliverV_quiet (lat w : Nat) (d : BitVec 7) (m : Core → Mask) (x : BitVec 1) (f : Core → Nat → Nat) (fl : Core → BitVec 7) :
    s.quiet (s.act fun c => s.deliverV lat w d (m c) x (f c) (fl c) c) := State.quiet_act fun _ => s.regs_deliverV ..

theorem execVcvt_quiet (d a : BitVec 7) (t f : BitVec 3) (p : BitVec 2) : s.quiet (execVcvt k z d a t f p s) :=
  State.quiet_checked (State.quiet_act (KeepsRegs.room s fun c => by
    dsimp only
    rw [Core.regs_addItem]
    split <;> rfl)) _

theorem execVqnt_quiet (d a : BitVec 7) : s.quiet (execVqnt k d a s) := State.quiet_act fun _ => s.regs_deliver ..

theorem execVrng_quiet (d : BitVec 7) : s.quiet (execVrng k z d s) :=
  State.quiet_act (KeepsRegs.room s fun c => (s.regs_deliverV ..).trans (c.regs_rngTake 1))

theorem execVld_quiet (d : BitVec 7) (w : BitVec 2) (b : BitVec 6) (xw : Option (BitVec 32)) : s.quiet (execVld k z d w b xw s) :=
  State.quiet_checked (State.quiet_act (KeepsRegs.room s fun c => KeepsRegs.unless s (fun c => c.regs_addItem ..) _ _ c)) _

theorem execVst_quiet (d : BitVec 7) (w : BitVec 2) (b : BitVec 6) (xw : Option (BitVec 32)) : s.quiet (execVst k d w b xw s) :=
  State.quiet_checked (State.quiet_act (KeepsRegs.room s fun c => KeepsRegs.unless s (fun c => c.regs_addItem ..) _ _ c)) _

theorem execVgather_quiet (d a : BitVec 7) (b : BitVec 6) : s.quiet (execVgather k z d a b s) :=
  State.quiet_act (keepsRegs_gatherIssue s b fun _ c => c.regs_addMacro ..)

theorem execVscatter_quiet (d a : BitVec 7) (b : BitVec 6) : s.quiet (execVscatter k d a b s) :=
  State.quiet_act (keepsRegs_gatherIssue s b fun _ c => c.regs_addMacro ..)

theorem execTwrow_quiet (d : BitVec 3) (a : BitVec 7) (b : BitVec 6) (x : BitVec 1) : s.quiet (execTwrow k z d a b x s) :=
  State.quiet_act fun _ => s.regs_deliver ..

/-! ## Assay and reheat -/

@[simp] theorem Core.regs_coinTake (c : Core) (n : Nat) : (c.coinTake n).2.regs = c.regs := by
  unfold Core.coinTake
  split <;> rfl

theorem execAscfg_quiet (o k c : BitVec 2) (b : BitVec 6) : s.quiet (execAscfg o k c b s) :=
  State.quiet_checked (State.quiet_act (KeepsRegs.assayGate s (fun _ => by rfl) _ _ _)) _

theorem execAsclr_quiet (f : BitVec 1) (c : BitVec 2) : s.quiet (execAsclr f c s) :=
  State.quiet_act (KeepsRegs.assayGate s (fun _ => by rfl) _ _ _)

theorem execAsqu_quiet (c : BitVec 2) (a : BitVec 7) : s.quiet (execAsqu k c a s) :=
  State.quiet_act (KeepsRegs.room s (KeepsRegs.assayGate s (fun x =>
    (Core.regs_assayBusy ..).trans ((Core.regs_addMacro ..).trans (x.regs_coinTake c.toNat))) _ _ _))

theorem execAshh_quiet (c : BitVec 2) (a b : BitVec 7) (x : BitVec 1) : s.quiet (execAshh k c a b x s) :=
  State.quiet_checked (State.quiet_act (KeepsRegs.room s (KeepsRegs.assayGate s (fun _ => by rfl) _ _ _))) _

theorem execAsdc_quiet (c : BitVec 2) (a : BitVec 7) (w : BitVec 1) : s.quiet (execAsdc k c a w s) :=
  State.quiet_act (KeepsRegs.room s (KeepsRegs.assayGate s (fun _ => by rfl) _ _ _))

theorem execAsmrg_quiet (c : BitVec 2) (b : BitVec 6) : s.quiet (execAsmrg c b s) :=
  State.quiet_act (KeepsRegs.room s (KeepsRegs.assayGate s
    (fun x => KeepsRegs.unless s (fun x => (Core.regs_assayBusy ..).trans ((Core.regs_addMacro ..).trans (x.regs_coinTake c.toNat))) _ _ x) _ _ _))

theorem execAssv_quiet (c : BitVec 2) (b : BitVec 6) : s.quiet (execAssv c b s) :=
  State.quiet_act (KeepsRegs.room s (KeepsRegs.assayGate s (fun x => KeepsRegs.unless s (fun _ => by rfl) _ _ x) _ _ _))

theorem execAsqry_quiet (d : BitVec 7) (x : BitVec 1) (c : BitVec 2) (b : BitVec 7) (y : BitVec 1) :
    s.quiet (execAsqry k z d x c b y s) :=
  State.quiet_checked (State.quiet_act (KeepsRegs.room s (KeepsRegs.assayGate s (fun q => by
    dsimp only
    split
    · exact s.regs_deliver ..
    · exact s.regs_deliverV ..) _ _ _))) _

theorem execAsest_quiet (d : BitVec 6) (c : BitVec 2) : s.quiet (execAsest d c s) :=
  State.quiet_act (KeepsRegs.room s (KeepsRegs.assayGate s (fun _ => s.regs_deliver ..) _ _ _))

theorem execAstopk_quiet (d : BitVec 7) (p c : BitVec 2) : s.quiet (execAstopk d p c s) :=
  State.quiet_checked (State.quiet_act (KeepsRegs.room s (KeepsRegs.assayGate s (fun _ => s.regs_deliver ..) _ _ _))) _

theorem execRhcfg_quiet (r : BitVec 3) (b : BitVec 6) : s.quiet (execRhcfg r b s) :=
  State.quiet_act (KeepsRegs.reheatGate s fun c => by
    dsimp only
    split
    · exact s.regs_fault ..
    · rfl)

theorem execRhsig_quiet (r : BitVec 3) (a b : BitVec 6) : s.quiet (execRhsig r a b s) :=
  State.quiet_act (KeepsRegs.room s (KeepsRegs.reheatGate s fun c => by
    dsimp only
    split
    · exact s.regs_regionFormat ..
    · split
      · exact s.regs_regionFormat ..
      · split
        · exact s.regs_fault ..
        · exact (Core.regs_reheatBusy 68 _).trans (Core.regs_addMacro ..)))

theorem execRhlist_quiet (r : BitVec 3) (a : BitVec 6) : s.quiet (execRhlist r a s) := State.quiet_act fun c =>
  KeepsRegs.roomFor s (KeepsRegs.reheatGate s fun c => by
    split
    · exact s.regs_regionFormat ..
    · refine KeepsRegs.unless s (fun x => ?_) _ _ c
      exact (Core.regs_reheatBusy 12 _).trans ((Core.regs_addMacro ..).trans (x.regs_addItem ..))) _ c

theorem execRhstep_quiet (f : BitVec 1) (r : BitVec 3) (a : BitVec 7) : s.quiet (execRhstep f r a s) :=
  State.quiet_checked (State.quiet_act (KeepsRegs.reheatGate s fun c => by
    split
    · exact s.regs_regionFormat ..
    · rfl)) _

theorem execRhmap_quiet (d : BitVec 7) (p r : BitVec 3) : s.quiet (execRhmap d p r s) :=
  State.quiet_checked (State.quiet_act fun _ => s.regs_deliver ..) _

end

end Sys2Proof.Machine
end

section
/-! PROOFS. What the matrix, copy and communication instructions leave, and the frame of every instruction that issues (O14) -/

namespace Sys2Proof.Machine

open Sys2Proof

/-! ## What each family and each instruction leaves (R4): matrix, copies and communication -/

section
variable (s : State) (g : BitVec 4)

theorem mxIssue_quiet (word : BitVec 32) (acc : BitVec 1) (a b t : BitVec 6) (z : BitVec 1) (y : BitVec 2) (three : Bool) :
    s.quiet (mxIssue s word g acc a b t z y three) := State.quiet_act fun c => by
  dsimp only
  split
  · exact s.regs_illegal c
  · split
    · rfl
    · split
      · exact s.regs_iiViolation c
      · split
        · exact s.regs_fault ..
        · rfl

theorem execMzero_quiet (c : BitVec 1) : s.quiet (execMzero g c s) := State.quiet_guarded (fun _ => by rfl) g

theorem execMband_quiet (c : BitVec 1) (a : BitVec 6) : s.quiet (execMband g c a s) := State.quiet_guarded (fun _ => by rfl) g

theorem tileOp_quiet (x y w : BitVec 6) (m : BitVec 3) (xw : Option (BitVec 32)) {f : Nat → Word → Nat → Nat → Nat → Nat → Core → Core}
    (keeps : ∀ t ea sr er ec fmt, KeepsRegs (f t ea sr er ec fmt)) : s.quiet (tileOp s g x y w m xw f) := State.quiet_guarded (fun c => by
  dsimp only
  split
  · exact s.regs_fault ..
  · exact keeps _ _ _ _ _ _ c) g

theorem execTld_quiet (x y w : BitVec 6) (m : BitVec 3) (xw : Option (BitVec 32)) : s.quiet (execTld g x y w m xw s) :=
  tileOp_quiet s g x y w m xw fun _ _ _ _ _ _ c => c.regs_enqueue ..

theorem execTst_quiet (x y w : BitVec 6) (m : BitVec 3) (xw : Option (BitVec 32)) : s.quiet (execTst g x y w m xw s) :=
  tileOp_quiet s g x y w m xw fun _ _ _ _ _ _ c => c.regs_enqueue ..

theorem execTstnt_quiet (x y w : BitVec 6) (m : BitVec 3) (xw : Option (BitVec 32)) : s.quiet (execTstnt g x y w m xw s) :=
  tileOp_quiet s g x y w m xw fun _ _ _ _ _ _ _ => by rfl

theorem execGather_quiet (x y w : BitVec 6) (m : BitVec 3) : s.quiet (execGather g x y w m s) := State.quiet_guarded (fun c => by
  dsimp only
  split
  · exact s.regs_fault ..
  · split
    · exact s.regs_fault ..
    · exact (Core.regs_addItem ..).trans (c.regs_enqueue ..)) g

theorem execScld_quiet (x y : BitVec 6) : s.quiet (execScld g x y s) := State.quiet_guarded (KeepsRegs.timedGate s fun c => by
  dsimp only
  split
  · rfl
  · split
    · exact s.regs_fault ..
    · split
      · exact s.regs_fault ..
      · exact (Core.regs_copyBusy ..).trans (c.regs_addMacro ..)) g

theorem swageOp_quiet (face cluster w : BitVec 6) (push : Bool) : s.quiet (swageOp s g face cluster w push) :=
  State.quiet_guarded (KeepsRegs.timedGate s fun c => by
    dsimp only
    split
    · rfl
    · split
      · exact s.regs_fault ..
      · split
        · exact s.regs_fault ..
        · exact (Core.regs_copyBusy ..).trans (c.regs_addMacro ..)) g

theorem execCxsend_quiet (x y w : BitVec 6) : s.quiet (execCxsend g x y w s) := State.quiet_guarded (KeepsRegs.timedGate s fun c => by
  dsimp only
  split
  · exact s.regs_fault ..
  · split
    · exact s.regs_fault ..
    · split
      · exact s.regs_fault ..
      · split
        · exact Core.regs_copyBusy ..
        · split
          · exact s.regs_fault ..
          · split
            · exact s.regs_fault ..
            · split
              · exact s.regs_fault ..
              · exact (Core.regs_copyBusy ..).trans (c.regs_addMacro ..)) g

theorem execCxtile_quiet (x w : BitVec 6) (m : BitVec 3) : s.quiet (execCxtile g x w m s) :=
  State.quiet_guarded (KeepsRegs.timedGate s fun c => by
    dsimp only
    split
    · exact s.regs_fault ..
    · split
      · exact s.regs_fault ..
      · split
        · exact s.regs_iiViolation c
        · exact (Core.regs_copyBusy ..).trans (c.regs_addMacro ..)) g

theorem execRtset_quiet (x : BitVec 6) (e : BitVec 5) : s.quiet (execRtset g x e s) :=
  State.quiet_guarded (fun c => KeepsRegs.unless s (fun c => c.regs_addItem ..) _ _ c) g

theorem mapSetOp_quiet (x : BitVec 6) (m : BitVec 4) (old : Option Nat) (cluster : BitVec 1) : s.quiet (mapSetOp s g x m old cluster) :=
  State.quiet_guarded (fun c => KeepsRegs.unless s (fun c => c.regs_addItem ..) _ _ c) g

theorem execMapret_quiet (n c : BitVec 1) (m : BitVec 4) : s.quiet (execMapret g n c m s) :=
  State.quiet_guarded (fun c => c.regs_addItem ..) g

theorem execMapq_quiet (y : BitVec 6) (c : BitVec 1) (m : BitVec 4) : s.quiet (execMapq g y c m s) :=
  State.quiet_guarded (fun _ => s.regs_deliver ..) g

theorem execStraypop_quiet (x y w : BitVec 6) : s.quiet (execStraypop g x y w s) := State.quiet_guarded (fun c => by
  split
  · exact s.regs_iiViolation c
  · exact (Core.regs_addItem ..).trans ((Core.regs_addItem ..).trans (Core.regs_addItem ..))) g

/-! ## The communication slot -/

theorem commOp_quiet {f : Core → Core} (keeps : KeepsRegs f) : s.quiet (commOp s g f) :=
  State.quiet_guarded (KeepsRegs.commGate s keeps) g

@[simp] theorem State.regs_sendVec (node n : Nat) (v : Vec) (ev : Nat → Vec → Instr) (c : Core) :
    (s.sendVec node n v ev c).regs = c.regs := by
  unfold State.sendVec
  split <;> rfl

theorem execSend_quiet (v : BitVec 7) (sn : BitVec 6) : s.quiet (execSend g v sn s) := commOp_quiet s g fun c => by
  split
  · exact s.regs_fault ..
  · exact s.regs_sendVec ..

theorem recvOp_quiet (sn : BitVec 6) (r : Core → Recv) : s.quiet (recvOp s g sn r) := commOp_quiet s g (KeepsRegs.room s fun c => by
  split
  · exact s.regs_fault ..
  · rfl)

theorem execGrpset_quiet (sa : BitVec 6) (n : BitVec 3) : s.quiet (execGrpset g sa n s) := commOp_quiet s g fun c => by
  split
  · exact s.regs_fault ..
  · rfl

theorem execMcldr_quiet (v : BitVec 7) (sa : BitVec 6) (o : BitVec 2) (n : BitVec 3) : s.quiet (execMcldr g v sa o n s) :=
  State.quiet_checked (State.quiet_guarded (fun c => by
    dsimp only
    split
    · exact KeepsRegs.commGate s (fun c => s.regs_fault ..) c
    · split
      · rfl
      · refine KeepsRegs.commGate s (KeepsRegs.room s fun c => ?_) c
        split
        · exact s.regs_fault ..
        · split
          · exact s.regs_fault ..
          · rfl) g) _

theorem execWbrun_quiet (sa : BitVec 6) (n : BitVec 9) : s.quiet (execWbrun g sa n s) :=
  State.quiet_checked (commOp_quiet s g fun c => by
    dsimp only
    split
    · exact s.regs_iiViolation c
    · split
      · exact s.regs_iiViolation c
      · split
        · exact s.regs_fault ..
        · split
          · exact c.regs_addMacro ..
          · exact c.regs_addMacro ..) _

end

/-! ## Every instruction of a bundle -/

/-! Slot by slot (R91 to R94). -/

theorem exec_quiet_slot0 (i : Instr) (s : State) (slot : i.slots = [0]) (busy : ∀ t, i ≠ .nop t) : s.quiet (exec i s) := by
  cases i
  case nop t => exact absurd rfl (busy t)
  case br | jmp | ret => exact State.quiet_guarded (fun c => c.regs_jumpTo _) _
  case call t g o xw => exact execCall_quiet s g t o xw
  case loop => exact execLoop_quiet ..
  case lexit t g => exact execLexit_quiet s g t
  case sync => exact State.quiet_act (keepsRegs_arriveAt s _ _ _ _ _)
  case barns => exact State.quiet_act (keepsRegs_arriveAt s _ _ _ _ _)
  case bar t n => exact execBar_quiet s t n
  case waitt => exact State.quiet_guarded (fun c => s.regs_waitUnless _ c) _
  case ccwait => exact State.quiet_guarded (fun c => s.regs_waitUnless _ c) _
  case twait t g m => exact execTwait_quiet s g t m
  case bkacq t g b m => exact execBkacq_quiet s g t b m
  case bkrel => exact State.quiet_checked (State.quiet_guarded (fun c => c.regs_addItem ..) _) _
  case uend | ifence | drainnt | qfence => exact State.quiet_guarded (fun _ => by rfl) _
  case trap => exact State.quiet_guarded (fun _ => by rfl) _
  case qpoint t g => exact execQpoint_quiet s g t
  case pack => exact execPack_quiet ..
  case brk => exact State.quiet_act (s.regs_fault _ _ _)
  case eret t a => exact execEret_quiet s t a
  case snapst t a => exact execSnapst_quiet s t a
  case snaprel => exact State.quiet_runtime fun c => c.regs_addFin _
  case ctxsave t a => exact execCtxsave_quiet s t a
  case ctxrest t a b m => exact execCtxrest_quiet s t a b m
  case lttld t a b => exact execLttld_quiet s t a b
  case lttinv t a => exact execLttinv_quiet s t a
  all_goals cases slot

theorem exec_quiet_slot1 (i : Instr) (s : State) (slot : i.slots = [1]) : s.quiet (exec i s) := by
  cases i
  case add | addi | sub | mul | and | or | xor | andi | ori | xori | shl | shr | sar | shli | shri | sari | sel | movi | movhi | lea | rdcyc
    | rdgt => exact aluOp_quiet ..
  case mulh | div | minmax | bitc | ext => exact State.quiet_checked (aluOp_quiet ..) _
  case cmp => exact State.quiet_checked (predOp_quiet ..) _
  case cmpi | plog | bitcTest => exact predOp_quiet ..
  case ldb | ldbu | ldh | ldw | ldhu | ldwu | ldd => exact loadOp_quiet ..
  case stb | sth | stw | std => exact storeOp_quiet ..
  case atom => exact State.quiet_checked (atomOp_quiet ..) _
  case acas => exact atomOp_quiet ..
  case mfs => exact execMfs_quiet ..
  case mts => exact execMts_quiet ..
  all_goals cases slot

theorem exec_quiet_vector (i : Instr) (s : State) (slot : i.slots = [2, 3]) : s.quiet (exec i s) := by
  cases i
  case vadd | vsub | vmul | vfma | vfms | vmin | vmax =>
    dsimp only [exec]
    exact floatOp_quiet ..
  case vabs | vneg | vperm | vrot | trdcol =>
    dsimp only [exec]
    exact deliverV_quiet ..
  case vcmpeq | vcmplt | vcmple | vcmpne =>
    dsimp only [exec]
    exact floatCmp_quiet ..
  case viadd | visub | vimul | vand | vor | vxor | vshl | vshr | vsar | vimin | vimax =>
    dsimp only [exec]
    exact intOp_quiet ..
  case viadds =>
    dsimp only [exec]
    exact deliverV_quiet ..
  case vicmpeq | vicmplt =>
    dsimp only [exec]
    exact intCmp_quiet ..
  case vsel | vmov | vbcast | vbcastExt =>
    dsimp only [exec]
    exact State.quiet_checked (deliverV_quiet ..) _
  case vcvt => exact execVcvt_quiet ..
  case vqnt => exact execVqnt_quiet ..
  case vrng => exact execVrng_quiet ..
  case vrsum | vrmax =>
    dsimp only [exec]
    exact reduceOp_quiet ..
  case vld => exact execVld_quiet ..
  case vst => exact execVst_quiet ..
  case vgather => exact execVgather_quiet ..
  case vscatter => exact execVscatter_quiet ..
  case twrow => exact execTwrow_quiet ..
  all_goals cases slot

theorem exec_quiet_engines (i : Instr) (s : State) (slotted : i.slotted) (no0 : i.slots ≠ [0]) (no1 : i.slots ≠ [1]) (noV : i.slots ≠ [2, 3]) :
    s.quiet (exec i s) := by
  cases i
  case vrcp | vrsq | vexp2 | vlog2 | vsin | vcos | vtanh => exact sfuOp_quiet ..
  case ascfg => exact execAscfg_quiet ..
  case asclr => exact execAsclr_quiet ..
  case asqu => exact execAsqu_quiet ..
  case ashh => exact execAshh_quiet ..
  case asdc => exact execAsdc_quiet ..
  case asmrg => exact execAsmrg_quiet ..
  case assv => exact execAssv_quiet ..
  case asqry => exact execAsqry_quiet ..
  case asest => exact execAsest_quiet ..
  case astopk => exact execAstopk_quiet ..
  case rhcfg => exact execRhcfg_quiet ..
  case rhsig => exact execRhsig_quiet ..
  case rhlist => exact execRhlist_quiet ..
  case rhstep => exact execRhstep_quiet ..
  case rhmap => exact execRhmap_quiet ..
  case mma | mma3 => exact mxIssue_quiet ..
  case mzero => exact execMzero_quiet ..
  case mband => exact execMband_quiet ..
  case tld => exact execTld_quiet ..
  case tst => exact execTst_quiet ..
  case tstnt => exact execTstnt_quiet ..
  case gather => exact execGather_quiet ..
  case scld => exact execScld_quiet ..
  case pull | push => exact swageOp_quiet ..
  case cxsend => exact execCxsend_quiet ..
  case cxtile => exact execCxtile_quiet ..
  case rtset => exact execRtset_quiet ..
  case mapset | mapswap => exact mapSetOp_quiet ..
  case mapret => exact execMapret_quiet ..
  case mapq => exact execMapq_quiet ..
  case straypop => exact execStraypop_quiet ..
  case send => exact execSend_quiet ..
  case recv => exact recvOp_quiet ..
  case recvadd | recvmax => exact State.quiet_checked (recvOp_quiet ..) _
  case grpset => exact execGrpset_quiet ..
  case mcldr => exact execMcldr_quiet ..
  case wbrun => exact execWbrun_quiet ..
  case ttarm | ctarm | trdis => exact commOp_quiet _ _ fun c => c.regs_addItem ..
  case ccinc => exact State.quiet_checked (commOp_quiet _ _ fun c => c.regs_incr ..) _
  case nop | br | jmp | call | ret | loop | lexit | sync | bar | barns | waitt | twait | ccwait | uend | qpoint | ifence | bkacq | bkrel | drainnt
    | qfence | pack | trap | brk | eret | snapst | snaprel | ctxsave | ctxrest | lttld | lttinv => exact absurd rfl no0
  case add | addi | sub | mul | and | or | xor | andi | ori | xori | shl | shr | sar | shli | shri | sari | sel | movi | movhi | lea | rdcyc |
    rdgt | mulh | div | minmax | bitc | ext | cmp | cmpi | plog | bitcTest | ldb | ldbu | ldh | ldw | ldhu | ldwu | ldd | stb | sth | stw | std
    | atom | acas | mfs | mts => exact absurd rfl no1
  case vadd | vsub | vmul | vfma | vfms | vmin | vmax | vabs | vneg | vperm | vrot | trdcol | vcmpeq | vcmplt | vcmple | vcmpne | viadd |
    visub | vimul | vand | vor | vxor | vshl | vshr | vsar | vimin | vimax | viadds | vicmpeq | vicmplt | vsel | vmov | vbcast | vbcastExt |
    vcvt | vqnt | vrng | vrsum | vrmax | vld | vst | vgather | vscatter | twrow => exact absurd rfl noV
  all_goals exact absurd rfl slotted

/-- An instruction of a bundle, NOP but, leaves the state with the acting core in place of the one before, with the registers of it. -/
theorem exec_quiet (i : Instr) (s : State) (slotted : i.slotted) (busy : ∀ t, i ≠ .nop t) : s.quiet (exec i s) := by
  by_cases at0 : i.slots = [0]
  · exact exec_quiet_slot0 i s at0 busy
  · by_cases at1 : i.slots = [1]
    · exact exec_quiet_slot1 i s at1
    · by_cases atV : i.slots = [2, 3]
      · exact exec_quiet_vector i s atV
      · exact exec_quiet_engines i s slotted at0 at1 atV

/-- What a quiet outcome leaves: memory and every other core, and the registers of the acting one. -/
theorem State.quiet_frame {s t : State} (quiet : s.quiet (.next t)) :
    t.mem = s.mem ∧ (∀ m, m ≠ s.cur → t.core m = s.core m) ∧ t = s.setCore s.cur (t.core s.cur) ∧ (t.core s.cur).regs = s.me.regs := by
  obtain ⟨c, next, keeps⟩ := quiet
  obtain ⟨mem, others, one⟩ := State.oneCore_frame ⟨c, rfl⟩ next.symm
  refine ⟨mem, others, one, ?_⟩
  cases next
  rw [State.core_setCore, keeps]

/-- Settles O14: NOP answers the state that it finds, and every other instruction of a bundle is quiet. -/
theorem issueChangesOneCore : Obligations.IssueChangesOneCore := by
  unfold Obligations.IssueChangesOneCore
  have frame : ∀ (i : Instr) (s t : State), i.slotted → exec i s = .next t → t = s ∨ s.quiet (.next t) := by
    intro i s t slotted next
    by_cases nop : ∃ x, i = .nop x
    · obtain ⟨x, rfl⟩ := nop
      cases next
      exact .inl rfl
    · exact .inr (next ▸ exec_quiet i s slotted fun x e => nop ⟨x, e⟩)
  refine ⟨fun i s t slotted next => ?_, fun i s t slotted next => ?_⟩
  · obtain rfl | quiet := frame i s t slotted next
    · exact ⟨fun _ => rfl, fun _ _ => rfl, .inl rfl⟩
    · obtain ⟨mem, others, one, -⟩ := State.quiet_frame quiet
      exact ⟨fun a => by rw [mem], others, .inr one⟩
  · obtain rfl | quiet := frame i s t slotted next
    · exact ⟨rfl, rfl, rfl, rfl⟩
    · obtain ⟨-, -, -, keeps⟩ := State.quiet_frame quiet
      simpa [Core.regs] using keeps

end Sys2Proof.Machine
end

section
/-! PROOFS. Guards: what a false one keeps back, and the checks made whatever it holds (R90) -/

namespace Sys2Proof.Machine

open Sys2Proof

/-! ## A false guard (R90) -/

/-- The guarded instructions that make a check of their own whatever their guard holds (R24, R90, R103, R174). -/
def checksFirst (i : Instr) : Bool :=
  match i with
  | .loop .. | .mfs .. | .mts .. | .mma .. | .mma3 .. => true
  | _ => false

section
variable {i : Instr} {g : BitVec 4} (guarded : i.guard = some g) (plain : checksFirst i = false) (s : State)
include guarded plain

theorem exec_guarded_slot0 (slot : i.slots = [0]) : ∃ f, exec i s = s.checked i.wf (s.guarded g f) := by
  cases i
  case br | jmp | call | ret | lexit | waitt | twait | ccwait | uend | qpoint | ifence | bkacq | bkrel | drainnt | qfence | trap =>
    cases guarded
    exact ⟨_, rfl⟩
  case loop => cases plain
  case nop | sync | bar | barns | pack | brk | eret | snapst | snaprel | ctxsave | ctxrest | lttld | lttinv => cases guarded
  all_goals cases slot

theorem exec_guarded_slot1 (slot : i.slots = [1]) : ∃ f, exec i s = s.checked i.wf (s.guarded g f) := by
  cases i
  case mfs | mts => cases plain
  case add | addi | sub | mul | mulh | div | and | or | xor | andi | ori | xori | shl | shr | sar | shli | shri | sari | minmax | cmp | cmpi
    | sel | movi | movhi | lea | plog | bitc | bitcTest | ldb | ldbu | ldh | ldw | ldhu | ldwu | ldd | stb | sth | stw | std | atom | acas
    | rdcyc | rdgt | ext =>
    cases guarded
    exact ⟨_, rfl⟩
  all_goals cases slot

theorem exec_guarded_engines (no0 : i.slots ≠ [0]) (no1 : i.slots ≠ [1]) : ∃ f, exec i s = s.checked i.wf (s.guarded g f) := by
  cases i
  case mma | mma3 => cases plain
  case mzero | mband | tld | tst | tstnt | scld | pull | push | cxsend | cxtile | gather | rtset | mapset | mapret | mapswap | mapq | straypop
    | send | recv | recvadd | recvmax | grpset | mcldr | wbrun | ttarm | ctarm | trdis | ccinc =>
    cases guarded
    exact ⟨_, rfl⟩
  case br | jmp | call | ret | loop | lexit | waitt | twait | ccwait | uend | qpoint | ifence | bkacq | bkrel | drainnt | qfence | trap =>
    exact absurd rfl no0
  case add | addi | sub | mul | mulh | div | and | or | xor | andi | ori | xori | shl | shr | sar | shli | shri | sari | minmax | cmp | cmpi
    | sel | movi | movhi | lea | plog | bitc | bitcTest | ldb | ldbu | ldh | ldw | ldhu | ldwu | ldd | stb | sth | stw | std | atom | acas
    | mfs | mts | rdcyc | rdgt | ext => exact absurd rfl no1
  all_goals cases guarded

/-- A guarded instruction looks at its reserved values, then at its guard. -/
theorem exec_guarded : ∃ f, exec i s = s.checked i.wf (s.guarded g f) := by
  by_cases at0 : i.slots = [0]
  · exact exec_guarded_slot0 guarded plain s at0
  · by_cases at1 : i.slots = [1]
    · exact exec_guarded_slot1 guarded plain s at1
    · exact exec_guarded_engines guarded plain s at0 at1

end

/-- Under a false guard an instruction with no reserved value leaves its core. -/
theorem exec_off {i : Instr} {g : BitVec 4} (guarded : i.guard = some g) (plain : checksFirst i = false) {s : State}
    (off : s.me.readP g = false) (listed : i.wf = true) : exec i s = s.becomes s.me := by
  obtain ⟨f, shape⟩ := exec_guarded guarded plain s
  rw [shape, State.checked_of listed, State.guarded_off off]

/-- A reserved value is ILLEGAL whatever the guard holds. -/
theorem exec_reserved {i : Instr} {g : BitVec 4} (guarded : i.guard = some g) (plain : checksFirst i = false) (s : State)
    (reserved : i.wf = false) : exec i s = s.becomes (s.illegal s.me) := by
  obtain ⟨f, shape⟩ := exec_guarded guarded plain s
  rw [shape, reserved, State.checked_false]

/-! The five that make a check first. -/

section
variable {s : State} {g : BitVec 4}

theorem exec_loop_reserved {t : BitVec 7} {a : BitVec 6} {n : BitVec 4} {b : BitVec 5} {xw : Option (BitVec 32)}
    (reserved : (Instr.loop t g a n b xw).wf = false) : exec (.loop t g a n b xw) s = s.becomes (s.illegal s.me) := by
  change execLoop t g a n b xw s = _
  rw [execLoop, reserved, State.checked_false]

theorem exec_loop_within {t : BitVec 7} {a : BitVec 6} {n : BitVec 4} {b : BitVec 5} {xw : Option (BitVec 32)}
    (listed : (Instr.loop t g a n b xw).wf = true) (within : s.me.ctx.la = true) :
    exec (.loop t g a n b xw) s = s.becomes (s.illegal s.me) := by
  change execLoop t g a n b xw s = _
  rw [execLoop, listed, State.checked_true, State.act_becomes, if_pos within]

theorem exec_loop_off (off : s.me.readP g = false) {t : BitVec 7} {a : BitVec 6} {n : BitVec 4} {b : BitVec 5} {xw : Option (BitVec 32)}
    (listed : (Instr.loop t g a n b xw).wf = true) (outside : s.me.ctx.la = false) : exec (.loop t g a n b xw) s = s.becomes s.me := by
  have idle : (!s.me.readP g) = true := by rw [off]; rfl
  change execLoop t g a n b xw s = _
  rw [execLoop, listed, State.checked_true, State.act_becomes, if_neg (Bool.eq_false_iff.1 outside), if_pos idle]

theorem exec_mfs_refused {d : BitVec 6} {r : BitVec 12} {code : Nat} (refused : mfsCheck s.me.mode r.toNat = some code) :
    exec (.mfs g d r) s = s.becomes (s.fault code (BitVec.ofNat 64 s.slot) 0 s.me) := by
  change execMfs g d r s = _
  rw [execMfs, State.act_becomes, refused]

theorem exec_mfs_off (off : s.me.readP g = false) {d : BitVec 6} {r : BitVec 12} (open_ : mfsCheck s.me.mode r.toNat = none) :
    exec (.mfs g d r) s = s.becomes s.me := by
  change execMfs g d r s = _
  rw [execMfs, State.act_becomes, open_]
  exact congrArg s.becomes (if_neg (Bool.eq_false_iff.1 off))

theorem exec_mts_refused (off : s.me.readP g = false) {d : BitVec 6} {r : BitVec 12} {code : Nat}
    (refused : mtsAccess s.me.mode r.toNat = some code) :
    exec (.mts g d r) s = s.becomes (s.fault code (BitVec.ofNat 64 s.slot) 0 s.me) := by
  change execMts g d r s = _
  rw [execMts, State.act_becomes, if_neg (Bool.eq_false_iff.1 off), refused]

theorem exec_mts_off (off : s.me.readP g = false) {d : BitVec 6} {r : BitVec 12} (open_ : mtsAccess s.me.mode r.toNat = none) :
    exec (.mts g d r) s = s.becomes s.me := by
  change execMts g d r s = _
  rw [execMts, State.act_becomes, if_neg (Bool.eq_false_iff.1 off), open_]
  exact congrArg s.becomes (if_neg (Bool.eq_false_iff.1 off))

theorem mxIssue_off (off : s.me.readP g = false) {three : Bool} (none_ : (s.me.held.map fun h => !h.mx.runs.isEmpty).getD false = false)
    (left : s.me.startAt 0 < mxSteps three) (word : BitVec 32) (acc : BitVec 1) (a b t : BitVec 6) (z : BitVec 1) (y : BitVec 2) :
    mxIssue s word g acc a b t z y three = s.becomes s.me := by
  have ready : ¬((s.me.held.map fun h => !h.mx.runs.isEmpty).getD false || decide (mxSteps three ≤ s.me.startAt 0)) = true := by
    simpa [none_] using left
  have idle : (!s.me.readP g) = true := by rw [off]; rfl
  rw [mxIssue, State.act_becomes]
  exact congrArg s.becomes ((if_neg ready).trans (if_pos idle))

end

/-- No reserved value stands in the four that check a register or the engine first. -/
theorem wf_of_checksFirst {i : Instr} (first : checksFirst i = true) (noLoop : ∀ t g a n b xw, i ≠ .loop t g a n b xw) : i.wf = true := by
  cases i
  case loop t g a n b xw => exact absurd rfl (noLoop t g a n b xw)
  case mfs | mts | mma | mma3 => rfl
  all_goals cases first

end Sys2Proof.Machine
end

section
/-! PROOFS. A full flight queue is II_VIOLATION before any other check (O15, R20) -/

namespace Sys2Proof.Machine

open Sys2Proof

/-! ## A full flight queue (R20) -/

section
variable {s : State} (full : 64 ≤ s.me.ctx.inFlight)
include full

/-- An instruction that asks for room first takes II_VIOLATION. -/
theorem State.act_room_full (f : Core → Core) : s.act (s.room f) = s.busyFault := congrArg s.becomes (State.room_of_full full f)

/-- A result has no room. -/
theorem State.act_deliver_full (lat : Nat) (a : Core → List Act) : (s.act fun c => s.deliver lat (a c) c) = s.busyFault :=
  congrArg s.becomes (State.room_of_full full _)

theorem State.act_deliverV_full (lat w : Nat) (d : BitVec 7) (m : Core → Mask) (z : BitVec 1) (f : Core → Nat → Nat) (fl : Core → BitVec 7) :
    (s.act fun c => s.deliverV lat w d (m c) z (f c) (fl c) c) = s.busyFault := State.act_deliver_full full ..

theorem State.act_deliverK_full (lat n : Nat) (d : BitVec 3) (m : Core → Mask) (z : BitVec 1) (f : Core → Nat → Bool) :
    (s.act fun c => s.deliverK lat n d (m c) z (f c) c) = s.busyFault := State.act_deliver_full full ..

section
variable {g : BitVec 4} (on : s.on g)
include on

theorem State.guarded_room_full (f : Core → Core) : s.guarded g (s.room f) = s.busyFault :=
  (State.guarded_on on _).trans (congrArg s.becomes (State.room_of_full full f))

theorem State.guarded_deliver_full (lat : Nat) (a : Core → List Act) : (s.guarded g fun c => s.deliver lat (a c) c) = s.busyFault :=
  (State.guarded_on on _).trans (congrArg s.becomes (State.room_of_full full _))

theorem aluOp_full (d : BitVec 6) (lat : Nat) (f : Core → Word) : aluOp s g d lat f = s.busyFault := State.guarded_deliver_full full on _ _
theorem predOp_full (d : BitVec 4) (f : Core → Bool) : predOp s g d f = s.busyFault := State.guarded_deliver_full full on _ _
theorem loadOp_full (d a : BitVec 6) (off : Word) (size : Nat) (sg : Bool) : loadOp s g d a off size sg = s.busyFault :=
  State.guarded_room_full full on _
theorem storeOp_full (d a : BitVec 6) (off : Word) (size : Nat) : storeOp s g d a off size = s.busyFault := State.guarded_room_full full on _
theorem atomOp_full (d a b : BitVec 6) (op : Option Nat) : atomOp s g d a b op = s.busyFault := State.guarded_room_full full on _

theorem exec_mfs_full {d : BitVec 6} {r : BitVec 12} (open_ : mfsCheck s.me.mode r.toNat = none) : exec (.mfs g d r) s = s.busyFault := by
  change execMfs g d r s = _
  rw [execMfs, State.act_becomes, open_]
  exact congrArg s.becomes ((if_pos on).trans (State.room_of_full full _))

/-- A receive behind the gate of slot 7, which is II_VIOLATION too. -/
theorem recvOp_full (sn : BitVec 6) (r : Core → Recv) : recvOp s g sn r = s.busyFault := by
  rw [recvOp, commOp, State.guarded_on on]
  refine congrArg s.becomes ?_
  unfold commGate
  split
  · rfl
  · exact State.room_of_full full _

end

theorem floatOp_full (k : BitVec 3) (z : BitVec 1) (d a b : BitVec 7) (sc : BitVec 1) (f : Rnd → Nat → Nat → Nat → Nat × BitVec 7)
    (listed : (sc == 0 || b.getLsbD 6 == false) = true) : floatOp s k z d a b sc f = s.busyFault :=
  (State.checked_of listed _).trans (State.act_deliverV_full full ..)

theorem floatCmp_full (k : BitVec 3) (z : BitVec 1) (d : BitVec 3) (a b : BitVec 7) (sc : BitVec 1) (f : Fv → Fv → Bool)
    (listed : (sc == 0 || b.getLsbD 6 == false) = true) : floatCmp s k z d a b sc f = s.busyFault :=
  (State.checked_of listed _).trans (State.act_deliverK_full full ..)

theorem intOp_full (k : BitVec 3) (z : BitVec 1) (d a : BitVec 7) (n : BitVec 1) (b : BitVec 6) (sc : BitVec 1) (f : Nat → Nat → Nat → Nat) :
    intOp s k z d a n b sc f = s.busyFault := State.act_deliverV_full full ..

theorem intCmp_full (k : BitVec 3) (z : BitVec 1) (d : BitVec 3) (a : BitVec 7) (n : BitVec 1) (b : BitVec 6) (sc : BitVec 1)
    (f : Int → Int → Bool) : intCmp s k z d a n b sc f = s.busyFault := State.act_deliverK_full full ..

theorem sfuOp_full (k : BitVec 3) (z : BitVec 1) (d a : BitVec 7) (f : Nat → Nat × BitVec 7) : sfuOp s k z d a f = s.busyFault :=
  State.act_deliverV_full full ..

theorem reduceOp_full (k : BitVec 3) (d a : BitVec 7) (x : BitVec 1) (f : BitVec 2) (h : Mask → List Nat → Nat)
    (listed : (f != 3 && (x == 0 || d.getLsbD 6 == false)) = true) : reduceOp s k d a x f h = s.busyFault :=
  (State.checked_of listed _).trans (State.act_deliver_full full ..)

end

/-! ## Every instruction that adds one, slot by slot -/

section
variable {i : Instr} {s : State} (adds : i.addsOne = true) (full : 64 ≤ s.me.ctx.inFlight) (listed : i.wf = true)
include adds full listed

theorem exec_full_slot1 (slot : i.slots = [1]) (on : ∀ g, i.guard = some g → s.on g)
    (open_ : ∀ g d r, i = .mfs g d r → mfsCheck s.me.mode r.toNat = none) : exec i s = s.busyFault := by
  cases i
  case mfs g d r => exact exec_mfs_full full (on g rfl) (open_ g d r rfl)
  case mts => cases adds
  case add | addi | sub | mul | and | or | xor | andi | ori | xori | shl | shr | sar | shli | shri | sari | sel | movi | movhi | lea | rdcyc
    | rdgt => exact aluOp_full full (on _ rfl) _ _ _
  case mulh | div | minmax | bitc | ext => exact (State.checked_of listed _).trans (aluOp_full full (on _ rfl) _ _ _)
  case cmp => exact (State.checked_of listed _).trans (predOp_full full (on _ rfl) _ _)
  case cmpi | plog | bitcTest => exact predOp_full full (on _ rfl) _ _
  case ldb | ldbu | ldh | ldw | ldhu | ldwu | ldd => exact loadOp_full full (on _ rfl) _ _ _ _ _
  case stb | sth | stw | std => exact storeOp_full full (on _ rfl) _ _ _ _
  case atom => exact (State.checked_of listed _).trans (atomOp_full full (on _ rfl) _ _ _ _)
  case acas => exact atomOp_full full (on _ rfl) _ _ _ _
  all_goals cases slot

theorem exec_full_vector (slot : i.slots = [2, 3]) : exec i s = s.busyFault := by
  cases i
  case vadd | vsub | vmul | vfma | vfms | vmin | vmax =>
    dsimp only [exec]
    exact floatOp_full full _ _ _ _ _ _ _ listed
  case vcmpeq | vcmplt | vcmple | vcmpne =>
    dsimp only [exec]
    exact floatCmp_full full _ _ _ _ _ _ _ listed
  case viadd | visub | vimul | vand | vor | vxor | vshl | vshr | vsar | vimin | vimax =>
    dsimp only [exec]
    exact intOp_full full ..
  case vicmpeq | vicmplt =>
    dsimp only [exec]
    exact intCmp_full full ..
  case vabs | vneg | vperm | vrot | trdcol | viadds =>
    dsimp only [exec]
    exact State.act_deliverV_full full ..
  case vsel | vmov | vbcast | vbcastExt =>
    dsimp only [exec]
    exact (State.checked_of listed _).trans (State.act_deliverV_full full ..)
  case vqnt | twrow =>
    dsimp only [exec]
    exact State.act_deliver_full full ..
  case vrsum | vrmax =>
    dsimp only [exec]
    exact reduceOp_full full _ _ _ _ _ _ listed
  case vrng | vgather | vscatter =>
    dsimp only [exec]
    exact State.act_room_full full _
  case vcvt | vld | vst =>
    dsimp only [exec]
    exact (State.checked_of listed _).trans (State.act_room_full full _)
  all_goals cases slot

theorem exec_full_engines (no1 : i.slots ≠ [1]) (noV : i.slots ≠ [2, 3]) (on : ∀ g, i.guard = some g → s.on g) :
    exec i s = s.busyFault := by
  cases i
  case call => exact State.guarded_room_full full (on _ rfl) _
  case vrcp | vrsq | vexp2 | vlog2 | vsin | vcos | vtanh =>
    dsimp only [exec]
    exact sfuOp_full full ..
  case asqu | asdc | asest =>
    dsimp only [exec]
    exact State.act_room_full full _
  case ashh | asqry | astopk =>
    dsimp only [exec]
    exact (State.checked_of listed _).trans (State.act_room_full full _)
  case rhmap =>
    dsimp only [exec]
    exact (State.checked_of listed _).trans (State.act_deliver_full full ..)
  case mapq => exact State.guarded_deliver_full full (on _ rfl) _ _
  case recv => exact recvOp_full full (on _ rfl) _ _
  case recvadd | recvmax => exact (State.checked_of listed _).trans (recvOp_full full (on _ rfl) _ _)
  case add | addi | sub | mul | mulh | div | and | or | xor | andi | ori | xori | shl | shr | sar | shli | shri | sari | minmax | cmp | cmpi
    | sel | movi | movhi | lea | plog | bitc | bitcTest | ldb | ldbu | ldh | ldw | ldhu | ldwu | ldd | stb | sth | stw | std | atom | acas
    | mfs | rdcyc | rdgt | ext => exact absurd rfl no1
  case vadd | vsub | vmul | vfma | vfms | vmin | vmax | vabs | vneg | vperm | vrot | trdcol | vcmpeq | vcmplt | vcmple | vcmpne | viadd | visub
    | vimul | vand | vor | vxor | vshl | vshr | vsar | vimin | vimax | viadds | vicmpeq | vicmplt | vsel | vmov | vbcast | vbcastExt | vcvt
    | vqnt | vrng | vrsum | vrmax | vld | vst | vgather | vscatter | twrow => exact absurd rfl noV
  all_goals cases adds

/-- With 64 results in flight an instruction that adds one takes II_VIOLATION at its slot. -/
theorem exec_full (on : ∀ g, i.guard = some g → s.on g) (open_ : ∀ g d r, i = .mfs g d r → mfsCheck s.me.mode r.toNat = none) :
    exec i s = s.busyFault := by
  by_cases at1 : i.slots = [1]
  · exact exec_full_slot1 adds full listed at1 on open_
  · by_cases atV : i.slots = [2, 3]
    · exact exec_full_vector adds full listed atV
    · exact exec_full_engines adds full listed at1 atV on

end

/-! ## The instructions that add more than one, or none at a false check -/

/-- The member that is the first of a descriptor to be a node. -/
theorem AGroup.member_first {d : AGroup} {node x : Nat} (counted : x < grCOUNT d.desc) (named : grNODE d.desc x = node)
    (first : ∀ y, y < x → grNODE d.desc y ≠ node) : d.member node = some x := by
  rw [AGroup.member, List.find?_range_eq_some]
  exact ⟨by simpa using named, List.mem_range.2 counted, fun y below => by simpa using first y below⟩

section
variable {s : State} {g : BitVec 4} (on : s.on g)
include on

theorem exec_straypop_full (full : 64 < s.me.ctx.inFlight + 3) (x y w : BitVec 6) : exec (.straypop g x y w) s = s.busyFault := by
  change execStraypop g x y w s = _
  rw [execStraypop, State.guarded_on on]
  exact congrArg s.becomes (if_pos full)

theorem exec_wbrun_full {n : BitVec 9} (full : 64 < s.me.ctx.inFlight + min 3 (n.toNat - s.me.startAt 6)) (some_ : (n != 0) = true)
    (a : BitVec 6) : exec (.wbrun g a n) s = s.busyFault := by
  change execWbrun g a n s = _
  rw [execWbrun, some_, State.checked_true, commOp, State.guarded_on on]
  refine congrArg s.becomes ?_
  unfold commGate
  split
  · rfl
  · dsimp only
    rw [if_pos full, ite_self]
    rfl

theorem exec_cxtile_full {x w : BitVec 6} {m : BitVec 3} {p : LMap} (mapped : Map.get? s.me.landing ((s.me.readS w).toNat % 16) = some p)
    (stands : p.st ≠ .free) (dims : (s.me.readS w).toNat / 16 % 4 ≠ (s.me.readS w).toNat / 64 % 4)
    (tiled : tileBytes (landWritten (lmFMT p.desc) (s.me.pageFmt (BitVec.ofNat 64 (lmBASE p.desc)))) ≠ 0)
    (full : 64 < s.me.ctx.inFlight + min 2 (64 - s.me.startAt (s.slot - 2))) : exec (.cxtile g x w m) s = s.busyFault := by
  have held : ¬(p.st == .free || decide ((s.me.readS w).toNat / 16 % 4 = (s.me.readS w).toNat / 64 % 4) ||
      decide (tileBytes (landWritten (lmFMT p.desc) (s.me.pageFmt (BitVec.ofNat 64 (lmBASE p.desc)))) = 0)) = true := by
    simp [stands, dims, tiled]
  change execCxtile g x w m s = _
  rw [execCxtile, State.guarded_on on]
  refine congrArg s.becomes ?_
  unfold timedGate
  split
  · rfl
  · simp only [mapped]
    exact (if_neg held).trans (if_pos full)

theorem exec_mcldr_full {v : BitVec 7} {a : BitVec 6} {o : BitVec 2} {n : BitVec 3} {d : AGroup} {x : Nat} (listed : o ≠ 3)
    (group : Map.get? s.me.agroups n.toNat = some d) (member : d.member s.me.node = some x) (present : grABSENT d.desc x = false)
    (full : 64 ≤ s.me.ctx.inFlight) : exec (.mcldr g v a o n) s = s.busyFault := by
  rw [exec_mcldr_member on listed group member]
  refine congrArg s.becomes ((if_neg (Bool.eq_false_iff.1 present)).trans ?_)
  unfold commGate
  split
  · rfl
  · exact State.room_of_full full _

end

theorem exec_rhlist_full {s : State} {r : BitVec 3} {h : Reheat} (configured : Map.get? s.me.reheat r.toNat = some h)
    (full : 64 < s.me.ctx.inFlight + (1 + (rhTILES h.desc + 127) / 128)) (a : BitVec 6) : exec (.rhlist r a) s = s.busyFault := by
  change execRhlist r a s = _
  rw [execRhlist, State.act_becomes]
  simp only [configured, Option.map_some, Option.getD_some, State.roomFor, if_pos full]
  rfl

/-! ## The obligation -/

/-- Settles O15: `exec_off` and `exec_reserved` say what a guard keeps back, `exec_full` what a full flight queue does. -/
theorem guardsAndRoom : Obligations.GuardsAndRoom := by
  refine ⟨fun i g s guarded off => ⟨fun reserved => ?reserved, fun listed outside mts mfs mma mma3 => ?idle, ?loop, ?mts, ?mfs⟩,
    fun i s on listed => ⟨fun adds full open_ => exec_full adds full listed on open_, ?stray, ?list, ?collective, ?waybill, ?tile⟩⟩
  case reserved =>
    by_cases first : checksFirst i = true
    · by_cases loop : ∃ t g a n b xw, i = .loop t g a n b xw
      · obtain ⟨t, g, a, n, b, xw, rfl⟩ := loop
        exact exec_loop_reserved reserved
      · rw [wf_of_checksFirst first fun t g a n b xw e => loop ⟨t, g, a, n, b, xw, e⟩] at reserved
        cases reserved
    · exact exec_reserved guarded (by simpa using first) s reserved
  case idle =>
    cases first : checksFirst i
    case false => exact exec_off guarded first off listed
    case true =>
      cases i
      case loop => cases guarded; exact exec_loop_off off listed (outside _ _ _ _ _ rfl)
      case mfs => cases guarded; exact exec_mfs_off off (mfs _ _ rfl)
      case mts => cases guarded; exact exec_mts_off off (mts _ _ rfl)
      case mma =>
        cases guarded
        obtain ⟨none_, left⟩ := mma _ _ _ _ _ _ rfl
        exact mxIssue_off off none_ left ..
      case mma3 =>
        cases guarded
        obtain ⟨none_, left⟩ := mma3 _ _ _ _ _ rfl
        exact mxIssue_off off none_ left ..
      all_goals cases first
  case loop =>
    rintro t a n b xw rfl listed within
    exact exec_loop_within listed within
  case mts =>
    rintro d r code rfl refused
    exact exec_mts_refused off refused
  case mfs =>
    rintro d r code rfl refused
    exact exec_mfs_refused refused
  case stray =>
    rintro g x y w rfl full
    exact exec_straypop_full (on g rfl) full x y w
  case list =>
    rintro r a h rfl configured full
    exact exec_rhlist_full configured full a
  case collective =>
    rintro g v a o n d x rfl group counted named first present full
    exact exec_mcldr_full (on g rfl) (by simpa [Instr.wf] using listed) group (AGroup.member_first counted named first) present full
  case waybill =>
    rintro g a n rfl full
    exact exec_wbrun_full (on g rfl) full listed a
  case tile =>
    rintro g x w m p rfl mapped stands dims tiled full
    exact exec_cxtile_full (on g rfl) mapped stands dims tiled full

end Sys2Proof.Machine
end

section
/-! PROOFS. What leaves memory, and what leaves its canonical form: the fabric and landing (R203, R282) -/

namespace Sys2Proof.Machine

open Sys2Proof

/-! ## Memory through the shared operations: what leaves every byte, and what leaves the canonical form -/

/-- A list of changes of the state each of which leaves memory. -/
theorem State.mem_foldl {α : Type} {f : State → α → State} (keeps : ∀ s a, (f s a).mem = s.mem) (l : List α) (s : State) :
    (l.foldl f s).mem = s.mem := by
  induction l generalizing s with
  | nil => rfl
  | cons a l ih => exact (ih _).trans (keeps s a)

/-- A list of changes of the state each of which keeps the canonical form. -/
theorem State.memInv_foldl {α : Type} {f : State → α → State} (keeps : ∀ s a, s.memInv → (f s a).memInv) (l : List α) {s : State}
    (inv : s.memInv) : (l.foldl f s).memInv := by
  induction l generalizing s with
  | nil => exact inv
  | cons a l ih => exact ih (keeps s a inv)

/-- The canonical form is a matter of memory alone. -/
theorem State.memInv_of_mem {s t : State} (mem : t.mem = s.mem) (inv : s.memInv) : t.memInv := by
  rw [State.memInv, mem]
  exact inv

/-- One of two states. -/
theorem State.memInv_ite {s t : State} (p : Prop) [Decidable p] (left : s.memInv) (right : t.memInv) : (if p then s else t).memInv := by
  split
  · exact left
  · exact right

@[simp] theorem State.mem_onCore (s : State) (n : Nat) (f : Core → Core) : (s.onCore n f).mem = s.mem := rfl
@[simp] theorem State.mem_setMsu (s : State) (u : Nat) (m : Msu) : (s.setMsu u m).mem = s.mem := rfl
@[simp] theorem State.mem_setPart (s : State) (part : Nat) (p : Part) : (s.setPart part p).mem = s.mem := rfl
@[simp] theorem State.mem_logFabric (s : State) (k w p r : Nat) : (s.logFabric k w p r).mem = s.mem := rfl
@[simp] theorem State.mem_logMemory (s : State) (k a : Nat) : (s.logMemory k a).mem = s.mem := rfl
@[simp] theorem State.mem_sendFlight (s : State) (f : Flight) : (s.sendFlight f).mem = s.mem := rfl

@[simp] theorem State.mem_tlbPut (s : State) (part die x : Nat) : (s.tlbPut part die x).mem = s.mem := by
  unfold State.tlbPut
  split
  · rfl
  · split
    · extract_lets key room old
      split
      · rfl
      · rfl
    · rfl

@[simp] theorem State.mem_ctxDrain (s : State) (n : Nat) (p : Word) (first : Nat) : (s.ctxDrain n p first).mem = s.mem := by
  unfold State.ctxDrain
  dsimp only
  split <;> rfl

@[simp] theorem State.mem_lanes (s : State) (part tick : Nat) : (s.lanes part tick).mem = s.mem := by
  unfold State.lanes
  extract_lets all apart first lost waits s1 tardy
  split
  · rfl
  · exact (State.mem_foldl (fun _ _ => State.mem_logFabric ..) _ s :)

@[simp] theorem State.mem_sendEvent (s : State) (part offset unit : Nat) : (s.sendEvent part offset unit).mem = s.mem := by
  unfold State.sendEvent
  split
  · rfl
  · extract_lets old e s1
    have keeps : s1.mem = s.mem := by
      unfold s1
      split <;> rfl
    split <;> exact keeps

@[simp] theorem State.mem_checkHallmark (part : Nat) (s : State) (f : Nat) : (State.checkHallmark part s f).mem = s.mem := by
  unfold State.checkHallmark
  extract_lets u m
  split
  · rfl
  · split
    · split
      · rfl
      · split
        · exact State.mem_sendEvent ..
        · rfl
    · rfl

theorem State.memInv_putKey {s : State} (inv : s.memInv) (k : Nat) (l : List Byte) : (s.putKey k l).memInv := memPutN_wf inv k l
theorem State.memInv_writeKey {s : State} (inv : s.memInv) (k : Nat) (l : List Byte) : (s.writeKey k l).memInv := memPutN_wf inv k l
theorem State.memInv_clearKey {s : State} (inv : s.memInv) (k n : Nat) : (s.clearKey k n).memInv := memClear_wf inv k n
theorem State.memInv_moveBytes {s : State} (inv : s.memInv) (old new z : Nat) : (s.moveBytes old new z).memInv := memCopy_wf inv old new z

theorem State.memInv_devWrite {s : State} (inv : s.memInv) (part a : Nat) (l : List Byte) : (s.devWrite part a l).memInv := by
  unfold State.devWrite
  split
  · exact inv
  · exact State.memInv_of_mem (State.mem_foldl (fun t f => t.mem_checkHallmark part f) _ _) (State.memInv_writeKey inv a l)

theorem State.memInv_releaseWrites {s : State} (inv : s.memInv) : s.releaseWrites.memInv :=
  State.memInv_foldl (fun _ w held => State.memInv_devWrite held w.1 w.2.1 w.2.2) _ (s := { s with heldWrites := [] }) inv

/-! ## Landing -/

@[simp] theorem State.mem_overlap (s : State) (d : Dest) (setter part : Nat) : (s.overlap d setter part).mem = s.mem := by
  unfold State.overlap
  dsimp only
  split
  · rfl
  · split
    · rfl
    · split <;> rfl
  · rfl

@[simp] theorem State.mem_stray (s : State) (d : Dest) (p : Packet) (x : Word) (v : Nat) : (s.stray d p x v).mem = s.mem := by
  have sender : (match p.sent with
      | some (n, _) => if p.spkg == 0 && (s.core n).runsIn p.part then s.onCore n fun c => { c with strayIn := c.strayIn ++
          [(⟨p.tag, p.parity, p.fmt, BitVec.ofNat 16 p.src, x, BitVec.ofNat 32 v⟩ : Stray)] } else s.logFabric 6 (clusterOf n) p.part p.src
      | none => s.logFabric 6 0 p.part p.src).mem = s.mem := by
    split
    · split <;> rfl
    · rfl
  unfold State.stray
  dsimp only
  split
  · rfl
  · split
    · rfl
    · exact sender
  · exact sender

theorem State.memInv_landWrite {s t : State} (inv : s.memInv) {d : Dest} {a : Int} {esz v part : Nat}
    (wrote : s.landWrite d a esz v part = some t) : t.memInv := by
  unfold State.landWrite at wrote
  split at wrote
  · cases wrote
  · dsimp only at wrote
    split at wrote
    · split at wrote <;> cases wrote
      exact State.memInv_writeKey inv _ _
    · split at wrote <;> cases wrote
      exact State.memInv_writeKey inv _ _
    · split at wrote <;> cases wrote
      exact State.memInv_devWrite inv _ _ _

theorem landElement_memInv {s : State} (inv : s.memInv) (d : Dest) (p : Packet) (i : Nat) : (landElement d p s i).memInv := by
  unfold landElement
  dsimp only
  split
  · exact State.memInv_of_mem (State.mem_stray ..) inv
  case h_2 slot tie decided =>
    split
    · exact inv
    case h_2 m found =>
      have inv1 : (s.putSlot d slot m.landed.1).memInv := State.memInv_of_mem (State.mem_putSlot ..) inv
      have inv2 := State.memInv_ite (tie = true) (State.memInv_of_mem (State.mem_overlap _ d m.setter p.part) inv1) inv1
      have inv3 := State.memInv_ite (m.landed.2 = true) (State.memInv_of_mem (State.mem_retire _ d slot m.setter) inv2) inv2
      split
      case h_1 wrote => exact State.memInv_landWrite inv3 wrote
      case h_2 => exact State.memInv_of_mem (State.mem_stray ..) inv3

theorem landPacket_memInv {s : State} (inv : s.memInv) (d : Dest) (p : Packet) : (landPacket d p s).memInv :=
  State.memInv_foldl (fun _ i held => landElement_memInv held d p i) _ inv

@[simp] theorem State.mem_noteLanding (s : State) (n : Nat) (p : Packet) : (s.noteLanding n p).mem = s.mem := rfl

@[simp] theorem State.mem_payloadErrorBut (but : List Nat) (s : State) (part : Nat) (ctx : BitVec 16) (src : Nat) :
    (s.payloadErrorBut but part ctx src).mem = s.mem := by
  refine State.mem_foldl (fun t n => ?_) _ s
  dsimp only
  split <;> rfl

@[simp] theorem State.mem_payloadError (s : State) (part : Nat) (ctx : BitVec 16) (src : Nat) : (s.payloadError part ctx src).mem = s.mem :=
  State.mem_payloadErrorBut ..

/-- What has landed, or the core with the arrival held. -/
theorem State.memInv_holdOr {s land : State} (inv : s.memInv) (landed : land.memInv) (n : Nat) (ev : Instr) : (s.holdOr n ev land).memInv := by
  unfold State.holdOr
  dsimp only
  split
  · exact inv
  · exact landed

theorem State.mem_waitAway {s t : State} {p : Packet} {ev : Instr} (away : s.waitAway p ev = some t) : t.mem = s.mem := by
  unfold State.waitAway at away
  split at away
  · cases away
  · obtain ⟨w, -, rfl⟩ := Option.map_eq_some_iff.1 away
    rfl

@[simp] theorem State.mem_fabricError (s : State) (n bad router src : Nat) : (s.fabricError n bad router src).mem = s.mem := by
  unfold State.fabricError
  dsimp only
  split
  · rfl
  · exact State.mem_payloadError ..
  · rfl
  · rfl

@[simp] theorem State.mem_noteHeld (s : State) (k : Nat) (frame : Option (Nat × BitVec 32)) : (s.noteHeld k frame).mem = s.mem := by
  cases frame <;> rfl

end Sys2Proof.Machine
end

section
/-! PROOFS. Memory through queued rows, collectives, images and save areas (R218, R222, R224) -/

namespace Sys2Proof.Machine

open Sys2Proof

/-! ## Memory through queued rows, collectives, images and save areas -/

/-- The state of a pair. -/
theorem State.memInv_of_some {β : Type} {s t : State} {a b : β} (pair : some (s, a) = some (t, b)) (inv : s.memInv) : t.memInv := by
  cases pair
  exact inv

theorem State.mem_readOutRow {s t : State} {n : Nat} {head : Bool} {e e1 : QEntry} (read : readOutRow s n head e = some (t, e1)) :
    t.mem = s.mem := by
  unfold readOutRow at read
  split at read
  · dsimp only at read
    split at read
    · cases read
    · split at read
      · split at read <;> cases read
        rfl
      · split at read <;> cases read <;> rfl
  · cases read

theorem State.memInv_performRow {s t : State} (inv : s.memInv) {n bad : Nat} {e e1 : QEntry} (done : performRow s n bad e = some (t, e1)) :
    t.memInv := by
  unfold performRow at done
  extract_lets part at done
  split at done
  · split at done
    · cases done
    · split at done
      · cases done
        exact inv
      · extract_lets ps s1 at done
        have inv1 : s1.memInv := by
          unfold s1
          split
          · exact inv
          · exact State.memInv_of_mem (State.mem_fabricError ..) inv
        split at done
        · cases done
        · split at done
          · exact State.memInv_of_some done (State.memInv_foldl (fun _ p held => State.memInv_devWrite held _ p.1 p.2) _ inv1)
          · exact State.memInv_of_some done inv1
  · extract_lets b s1 s2 at done
    have inv1 : s1.memInv := State.memInv_of_mem (State.mem_fabricError ..) inv
    have inv2 : s2.memInv := landPacket_memInv inv1 _ _
    split at done
    · exact State.memInv_of_some done inv1
    · split at done
      · exact State.memInv_of_some done inv1
      · split at done
        · cases done
        · exact State.memInv_of_some done inv2
  · split at done
    · cases done
      exact inv
    · split at done
      · cases done
        exact inv
      · dsimp only at done
        have inv1 := State.memInv_ite ((e.kind.rowAt e.row).2 = 0) inv (State.memInv_of_mem (State.mem_fabricError s n bad
          (msuRouter (clusterOf n) (msuOf ((s.core n).keyOf n (e.kind.rowAt e.row).1.toNat))) (s.core n).node) inv)
        split at done
        · exact State.memInv_of_some done inv1
        · exact State.memInv_of_some done inv1

@[simp] theorem State.mem_joinColl (s : State) (n g op : Nat) (seq : BitVec 16) (count : Nat) (desc : List Byte) (d sd : Nat) :
    (s.joinColl n g op seq count desc d sd).mem = s.mem := by
  unfold State.joinColl
  dsimp only
  split <;> rfl

@[simp] theorem State.mem_contribute (s : State) (n g : Nat) (v : Vec) : (s.contribute n g v).mem = s.mem := by
  unfold State.contribute
  dsimp only
  split <;> rfl

@[simp] theorem State.mem_holdDelivery (s : State) (n : Nat) : (s.holdDelivery n).mem = s.mem := by
  unfold State.holdDelivery
  dsimp only
  split
  · rfl
  · split <;> rfl

@[simp] theorem State.mem_endColls (s : State) : s.endColls.mem = s.mem := by
  unfold State.endColls
  split
  · rfl
  · exact (State.mem_foldl (fun t n => t.mem_holdDelivery n) _ s :)

/-! ## Images and save areas -/

/-- Rows of bytes written one after another. -/
theorem memPutN_foldl_wf (f : Nat × List Byte → Nat) (l : List (Nat × List Byte)) {m : Memory} (wf : m.wf = true) :
    (l.foldl (fun m x => memPutN m (f x) x.2) m).wf = true := by
  induction l generalizing m with
  | nil => exact wf
  | cons x l ih => exact ih (memPutN_wf wf _ _)

theorem writeImage_wf {m : Memory} (wf : m.wf = true) (a : Nat) (c : Core) (x : Ctx) (h : Nat) : (writeImage m a c x h).wf = true :=
  memPutN_foldl_wf _ _ (memClear_wf wf _ _)

theorem State.writeSave_wf {s : State} (inv : s.memInv) (n a : Nat) (c : Core) (incrs : List Incr) (sent : List Nat) (h : Nat) :
    (s.writeSave n a c incrs sent h).wf = true := by
  unfold State.writeSave
  refine memPutN_foldl_wf _ _ (memPutN_foldl_wf _ _ (memPutN_foldl_wf _ _ (memPutN_foldl_wf _ _ (memPutN_foldl_wf _ _ ?_))))
  exact memCopy_wf (memCopy_wf (memCopy_wf (memCopy_wf (memClear_wf inv _ _) _ _ _) _ _ _) _ _ _) _ _ _

theorem State.memInv_engineWrote {s : State} (inv : s.memInv) (part a n : Nat) {m : Memory} (wf : m.wf = true) :
    (s.engineWrote part a n m).memInv := by
  unfold State.engineWrote
  extract_lets t s1
  have inv1 : s1.memInv := State.memInv_of_mem (State.mem_foldl (fun t f => t.mem_checkHallmark part f) _ _) (s := t) wf
  split
  · exact inv1
  · exact State.memInv_foldl (fun _ f held => State.memInv_devWrite held _ _ _) _ inv

theorem State.memInv_snapSave {s : State} (inv : s.memInv) (n : Nat) (a : Word) : (s.snapSave n a).memInv := by
  unfold State.snapSave
  dsimp only
  split
  · exact inv
  · exact State.memInv_engineWrote inv _ _ _ (writeImage_wf inv _ _ _ _)

@[simp] theorem State.mem_snapRest (s : State) (n : Nat) (a : Option Word) : (s.snapRest n a).mem = s.mem := by
  unfold State.snapRest
  dsimp only
  split <;> rfl

theorem State.memInv_ctxSave {s : State} (inv : s.memInv) (n : Nat) (a : Word) : (s.ctxSave n a).memInv :=
  State.memInv_engineWrote inv _ _ _ (State.writeSave_wf inv _ _ _ _ _ _)

theorem State.memInv_restAll {s : State} (inv : s.memInv) (n : Nat) (a : Word) (late : Bool) : (s.restAll n a late).memInv := by
  have base : ∀ c, (memCopy (memCopy (memCopy s.mem (a.toNat + 0x118000) (padKey n (Core.shadowHalf c) 0) 0x100000) (a.toNat + 0x218000) (codeKey n 0)
      0x40000) (a.toNat + 0x258000) (patKey n 0) 0x4000).wf = true := fun _ => memCopy_wf (memCopy_wf (memCopy_wf inv _ _ _) _ _ _) _ _ _
  cases late
  · exact memCopy_wf (base _) _ _ _
  · exact base _

theorem State.memInv_restPage {s : State} (inv : s.memInv) (n : Nat) (a b : Word) : (s.restPage n a b).memInv := by
  unfold State.restPage
  dsimp only
  split
  · exact inv
  · exact memCopy_wf inv _ _ _

theorem State.memInv_ctxRest {s : State} (inv : s.memInv) (n : Nat) (a : Word) (mode : Nat) (page : Word) : (s.ctxRest n a mode page).memInv := by
  unfold State.ctxRest
  split
  · exact State.memInv_restPage inv _ _ _
  · exact State.memInv_restAll inv _ _ _

@[simp] theorem State.mem_write (s : State) (n seq slot key : Nat) (l : List Byte) (collides : Bool) :
    (s.write n seq slot key l collides).mem = s.mem := rfl

@[simp] theorem State.mem_writeAt (s : State) (n seq slot : Nat) (ea : Word) (l : List Byte) (collides : Bool) :
    (s.writeAt n seq slot ea l collides).mem = s.mem := (State.mem_foldl (fun t _ => t.mem_write ..) _ s :)

end Sys2Proof.Machine
end

section
/-! PROOFS. Memory through a cycle: instructions of many steps, commits, writes and arrivals (R231, R233) -/

namespace Sys2Proof.Machine

open Sys2Proof

/-! ## Macro-instructions write no byte of memory: their writes join those of the cycle -/

@[simp] theorem scatterElems_mem (s : State) (n : Nat) (m : Macro) (base : Word) (offs data : Vec) (mask : BitVec 64) (cluster : Bool)
    (l : List Nat) : (scatterElems s n m base offs data mask cluster l).1.mem = s.mem := by
  induction l generalizing s with
  | nil => rfl
  | cons i r ih =>
    unfold scatterElems
    split
    · exact ih s
    · split
      · rfl
      · exact (ih _).trans (State.mem_writeAt ..)

theorem rhsigStep_mem (m0 : Memory) (s : State) (n : Nat) (m : Macro) (r t : Nat) (addr : Word) (sums : List Fv) (mx : Fv)
    (old : List (BitVec 32)) : (rhsigStep m0 s n m r t addr sums mx old).1.mem = s.mem := by
  unfold rhsigStep
  extract_lets c
  split
  · rfl
  · extract_lets record
    split
    · split <;> rfl
    · dsimp only
      split
      · rfl
      · exact State.mem_writeAt ..

theorem scldStep_mem (m0 : Memory) (s : State) (n : Nat) (m : Macro) (addr : Word) (cnt : Nat) (read : List (List Byte)) :
    (scldStep m0 s n m addr cnt read).1.mem = s.mem := by
  unfold scldStep
  extract_lets c clk due
  split
  split
  · rfl
  · split <;> rfl

theorem swageStep_mem (m0 : Memory) (s : State) (n : Nat) (m : Macro) (push : Bool) (fa ca : Word) (cnt cls fmt : Nat)
    (read : List (Nat × List Byte)) : (swageStep m0 s n m push fa ca cnt cls fmt read).1.mem = s.mem := by
  unfold swageStep
  dsimp only
  split
  · rfl
  · have keeps : ∀ l : List (Nat × List Byte), (l.foldl (fun t x =>
        if push then
          let block := swageBlock true cls fmt t.sramMark x.2
          let s1 := t.writeAt n m.seq m.slot (ca + BitVec.ofNat 64 (4096 * x.1)) block.1 false
          let s2 := if cls = 0 then s1
            else s1.writeAt n m.seq m.slot (ca + BitVec.ofNat 64 (4096 * x.1) + 0xFF8) (toBytes 8 t.sramMark.toNat) false
          if block.2 then s2.onCore (hwCore n) fun c => c.onSys Ctx.countTrim else s2
        else t.writeAt n m.seq m.slot (fa + BitVec.ofNat 64 (4096 * x.1)) x.2 false) s).mem = s.mem := fun l => by
      refine State.mem_foldl (fun t x => ?_) l s
      split
      · extract_lets block s1 s2
        have wrote : s2.mem = t.mem := by
          unfold s2
          split
          · exact State.mem_writeAt ..
          · exact (State.mem_writeAt ..).trans (State.mem_writeAt ..)
        split <;> exact wrote
      · exact State.mem_writeAt ..
    split
    · split <;> exact keeps _
    · exact keeps _

@[simp] theorem launchPacket_mem (s : State) (n : Nat) (m : Macro) (fmt : Nat) (tag : BitVec 16) (parity : Bool) (epoch : Nat) (k : Cut)
    (payload : List Byte) : (launchPacket s n m fmt tag parity epoch k payload).mem = s.mem := by
  unfold launchPacket
  extract_lets c
  split
  · rfl
  · split <;> rfl

theorem flitStep_mem (m0 : Memory) (s : State) (n : Nat) (m : Macro) (addr : Word) (fmt : Nat) (cuts : List Cut) (data : List Byte)
    (mk : List Byte → Work) {send : State → Cut → List Byte → State} (keeps : ∀ s k l, (send s k l).mem = s.mem) :
    (flitStep m0 s n m addr fmt cuts data mk send).1.mem = s.mem := by
  unfold flitStep
  extract_lets c
  split
  · rfl
  · split
    · rfl
    · dsimp only
      split
      · exact keeps ..
      · rfl

theorem cxtileStep_mem (m0 : Memory) (s : State) (n : Nat) (m : Macro) (tile : Nat) (d : BitVec 512) (origin : Word) (rd cd fmt : Nat) :
    (cxtileStep m0 s n m tile d origin rd cd fmt).1.mem = s.mem := by
  unfold cxtileStep
  extract_lets c esz cells fault
  clear_value fault
  cases fault <;> rfl

@[simp] theorem wbPerform_mem (m0 : Memory) (s : State) (n seq : Nat) (e : BitVec 256) : (wbPerform m0 s n seq e).mem = s.mem := by
  unfold wbPerform
  extract_lets c node ea v take peer
  split
  case h_8 => split <;> rfl
  all_goals rfl

theorem waybillStep_mem (m0 : Memory) (s : State) (n : Nat) (m : Macro) (addr : Word) (cnt read last prev : Nat) (latched : List (BitVec 256)) :
    (waybillStep m0 s n m addr cnt read last prev latched).1.mem = s.mem := by
  unfold waybillStep
  extract_lets c next poison
  clear_value poison
  split
  cases poison
  case some => rfl
  case none =>
    dsimp only
    split
    · rfl
    · split
      · rfl
      · split
        · rfl
        · split
          · rfl
          · exact wbPerform_mem ..

/-- No step of an instruction of many steps writes memory itself. -/
@[simp] theorem macroStep_mem (m0 : Memory) (n : Nat) (s : State) (m : Macro) : (macroStep m0 n s m).1.mem = s.mem := by
  unfold macroStep
  extract_lets c
  split
  · rfl
  · split
    case h_1 =>
      split
      split
      · rfl
      · dsimp only
        split <;> rfl
    case h_2 base offs data mask cl work =>
      have keeps := scatterElems_mem s n m base offs data mask cl (groupOf m 4)
      split
      case h_1 eq => rw [eq] at keeps; exact keeps
      case h_2 eq => rw [eq] at keeps; exact keeps
    case h_3 => rfl
    case h_4 => exact State.mem_writeAt ..
    case h_5 =>
      dsimp only
      split <;> rfl
    case h_6 => exact rhsigStep_mem ..
    case h_7 => exact State.mem_writeAt ..
    case h_8 => exact scldStep_mem ..
    case h_9 => exact swageStep_mem ..
    case h_10 => exact swageStep_mem ..
    case h_11 => exact flitStep_mem _ _ _ _ _ _ _ _ _ fun _ _ _ => launchPacket_mem ..
    case h_12 => exact flitStep_mem _ _ _ _ _ _ _ _ _ fun _ _ _ => State.mem_onCore ..
    case h_13 => exact cxtileStep_mem ..
    case h_14 => exact waybillStep_mem ..
    case h_15 => split <;> rfl

@[simp] theorem stepMacros_mem (m0 : Memory) (n : Nat) (l : List Macro) (s : State) : (stepMacros m0 n l s).1.mem = s.mem := by
  induction l generalizing s with
  | nil => rfl
  | cons m r ih => exact (ih _).trans (macroStep_mem ..)

/-! ## What the delay lines commit -/

@[simp] theorem State.mem_mapDrain (s : State) (d : Dest) (slot : Nat) (now : Bool) : (s.mapDrain d slot now).mem = s.mem := by
  unfold State.mapDrain
  split
  · rfl
  · split
    · rfl
    · split
      · exact (State.mem_retire ..).trans (State.mem_putSlot ..)
      · exact State.mem_putSlot ..

@[simp] theorem State.mem_mapSet (s : State) (n m : Nat) (old : Option Nat) (cluster : Bool) (raw : BitVec 512) :
    (s.mapSet n m old cluster raw).mem = s.mem := by
  refine (State.mem_putSlot ..).trans ?_
  split
  · rfl
  · split
    · rfl
    · exact State.mem_mapDrain ..

@[simp] theorem State.mem_setTrigger (s : State) (n t : Nat) (v : Option Trigger) : (s.setTrigger n t v).mem = s.mem := by
  unfold State.setTrigger
  split <;> rfl

/-- The commits of an item keep the canonical form: saves and restores alone write memory. -/
theorem commitAct_memInv {s : State} (inv : s.memInv) (m0 : Memory) (b : Core) (n : Nat) (i : Item) (a : Act) :
    (commitAct m0 b n i s a).memInv := by
  cases a
  case snapSave p => exact State.memInv_snapSave inv n p
  case ctxSave p => exact State.memInv_ctxSave inv n p
  case ctxRest p mode page => exact State.memInv_ctxRest inv n p mode page
  case snapRest p => exact State.memInv_of_mem (State.mem_snapRest ..) inv
  case store => exact State.memInv_of_mem (State.mem_writeAt ..) inv
  case wbStore => exact State.memInv_of_mem (State.mem_writeAt ..) inv
  case vstore => exact State.memInv_of_mem (State.mem_foldl (fun t _ => t.mem_write ..) _ s :) inv
  case armTime | armCounter | disarm => exact State.memInv_of_mem (State.mem_setTrigger ..) inv
  case mcRead => exact State.memInv_of_mem (State.mem_contribute ..) inv
  case mapPut => exact State.memInv_of_mem (State.mem_mapSet ..) inv
  case mapRet => exact State.memInv_of_mem (State.mem_mapDrain ..) inv
  case ctxDrain => exact State.memInv_of_mem (State.mem_ctxDrain ..) inv
  case bkrel mask =>
    unfold commitAct
    dsimp only
    split <;> exact inv
  all_goals exact inv

@[simp] theorem itemFailed_mem (n : Nat) (s : State) (i : Item) : (itemFailed n s i).mem = s.mem :=
  State.mem_foldl (fun t a => by cases a <;> rfl) _ s

theorem commitDue_memInv {s : State} (inv : s.memInv) (m0 : Memory) (b : Core) (n : Nat) (l : List (Item ⊕ MxPend)) :
    (commitDue m0 b n l s).memInv := by
  refine State.memInv_foldl (fun t x held => ?_) l (s := s.onCore n _) inv
  cases x with
  | inl i => exact State.memInv_foldl (fun _ a held => commitAct_memInv held m0 b n i a) _ held
  | inr d => exact held

@[simp] theorem State.mem_logConsumed (s : State) (n : Nat) (t : Trap) : (s.logConsumed n t).mem = s.mem := by
  unfold State.logConsumed
  split
  · rfl
  · exact State.mem_logMemory ..

theorem tickWork_memInv {s : State} (inv : s.memInv) (m0 : Memory) (queued : List Trap) (frozen : List Nat) (n : Nat) :
    (tickWork m0 queued frozen s n).1.memInv := by
  have macros : ∀ (l : List Macro) {t : State}, t.memInv → (stepMacros m0 n l t).1.memInv := fun l t held =>
    State.memInv_of_mem (stepMacros_mem m0 n l t) held
  unfold tickWork
  dsimp only
  split
  · refine macros _ (commitDue_memInv (macros _ ?_) m0 _ n _)
    exact macros _ inv
  · refine State.memInv_of_mem (s := s) ?_ inv
    refine (State.mem_onCore ..).trans ((State.mem_logConsumed ..).trans ((State.mem_foldl (fun t i => itemFailed_mem n t i) _ _).trans ?_))
    exact stepMacros_mem ..

theorem tickCore_memInv {s : State} (inv : s.memInv) (m0 : Memory) (frozen : List Nat) (n : Nat) : (tickCore m0 frozen s n).memInv := by
  have worked := tickWork_memInv inv m0 (s.core n).lateEntries frozen n
  unfold tickCore
  dsimp only
  split
  case h_1 eq => rw [eq] at worked; exact worked
  case h_2 eq => rw [eq] at worked; exact worked

theorem tickTail_memInv {s : State} (inv : s.memInv) (m0 : Memory) (n : Nat) : (tickTail m0 s n).memInv := by
  have worked := fun x => tickWork_memInv (s := s.setCore n { s.core n with ctx := x }) inv m0 [] [] n
  unfold tickTail
  extract_lets b
  split
  · exact inv
  case h_2 x _ =>
    replace worked := worked x
    change (tickWork m0 [] [] (s.setCore n { b with ctx := x }) n).1.memInv at worked
    generalize tickWork m0 [] [] (s.setCore n { b with ctx := x }) n = work at worked ⊢
    obtain ⟨s1, t⟩ := work
    cases t <;> exact worked

theorem applyWrite_memInv {s : State} (inv : s.memInv) (w : Wr) : (applyWrite s w).memInv := by
  unfold applyWrite
  split
  · exact State.memInv_writeKey inv _ _
  · exact State.memInv_writeKey inv _ _

theorem State.memInv_applyWrites {s : State} (inv : s.memInv) : s.applyWrites.memInv := by
  have applied := State.memInv_foldl (fun t w held => applyWrite_memInv held w) (ordSort (fun w => hwCore w.core)
    (ordSort (fun w => if w.core < 1024 then 2 ^ 20 else w.core) (ordSort s.issuedAge (ordSort (fun w => 8 * w.seq + w.slot) s.wq))))
    (s := { s with wq := [] }) inv
  exact State.memInv_of_mem (State.mem_foldl (fun t n => State.mem_onCore ..) _ _ :) applied

/-! ## Arrivals and the cycle -/

@[simp] theorem State.mem_parkFlights (s : State) : s.parkFlights.mem = s.mem := by
  unfold State.parkFlights
  extract_lets parks s1
  refine State.mem_foldl (fun t f => ?_) _ s1
  split <;> rfl

@[simp] theorem State.mem_lostError (s : State) (f : Flight) : (s.lostError f).mem = s.mem := by
  unfold State.lostError
  extract_lets at_ src
  split
  · exact State.mem_payloadError ..
  all_goals rfl

@[simp] theorem State.mem_landings (s : State) (pick : Instr → Bool) : (s.landings pick).1.mem = s.mem :=
  (State.mem_foldl (fun t f => t.mem_lostError f) _ s :)

@[simp] theorem State.mem_arrivals (s : State) : s.arrivals.mem = s.mem :=
  (State.mem_landings s.parkFlights fun ev => !(isResult ev)).trans s.mem_parkFlights

@[simp] theorem State.mem_results (s : State) : s.results.mem = s.mem := State.mem_landings s _

theorem State.memInv_tick {s : State} (inv : s.memInv) (frozen : List Nat) : (s.tick frozen).memInv := by
  refine State.memInv_of_mem (State.mem_arrivals _) (State.memInv_applyWrites ?_)
  exact State.memInv_foldl (fun _ n held => tickCore_memInv held s.mem frozen n) _
    (State.memInv_foldl (fun _ n held => tickTail_memInv held s.mem n) _ inv)

end Sys2Proof.Machine
end

section
/-! PROOFS. Memory through the timing groups, fetch, the end of a bundle, and counters -/

namespace Sys2Proof.Machine

open Sys2Proof

/-! ## Outcomes that answer a next state and keep the canonical form -/

/-- The outcome is a next state, whose memory has its canonical form where the state before had it. -/
def State.carriesOn (s : State) (o : Out) : Prop := ∃ t, o = .next t ∧ (s.memInv → t.memInv)

theorem State.carriesOn_next {s t : State} (keeps : s.memInv → t.memInv) : s.carriesOn (.next t) := ⟨t, rfl, keeps⟩

theorem State.carriesOn_self (s : State) : s.carriesOn (.next s) := ⟨s, rfl, id⟩

theorem State.carriesOn_of_mem {s t : State} (mem : t.mem = s.mem) : s.carriesOn (.next t) := ⟨t, rfl, State.memInv_of_mem mem⟩

theorem State.carriesOn_of_quiet {s : State} {o : Out} (quiet : s.quiet o) : s.carriesOn o := by
  obtain ⟨c, rfl, -⟩ := quiet
  exact ⟨_, rfl, id⟩

theorem State.carriesOn_ite {s : State} {a b : Out} (p : Prop) [Decidable p] (left : s.carriesOn a) (right : s.carriesOn b) :
    s.carriesOn (if p then a else b) := by
  split
  · exact left
  · exact right

/-! ## Timing groups, stalls and restarts -/

@[simp] theorem State.mem_setGroup (s : State) (g : Nat) (x : Group) : (s.setGroup g x).mem = s.mem := rfl

@[simp] theorem State.mem_setSkews (s : State) (g : Nat) : (s.setSkews g).mem = s.mem := by
  unfold State.setSkews
  exact State.mem_foldl (fun _ _ => State.mem_onCore ..) _ s

@[simp] theorem State.mem_stallGroup (s : State) (g tick : Nat) (trap quench : Bool) : (s.stallGroup g tick trap quench).mem = s.mem := by
  unfold State.stallGroup
  split
  · rfl
  · exact State.mem_setSkews ..

@[simp] theorem State.mem_stallEvent (s : State) (n e : Nat) : (s.stallEvent n e).mem = s.mem := by
  unfold State.stallEvent
  dsimp only
  refine (State.mem_foldl (fun t m => ?_) _ _).trans (State.mem_stallGroup ..)
  split
  · rfl
  · split <;> rfl

@[simp] theorem State.mem_spread (s : State) (next : Bool) : (s.spread next).mem = s.mem := by
  unfold State.spread
  exact State.mem_foldl (fun t n => t.mem_stallEvent n _) _ s

theorem execGroupStall_carriesOn (n : Nat) (s : State) : s.carriesOn (execGroupStall n s) := by
  unfold execGroupStall
  dsimp only
  split
  · exact s.carriesOn_self
  · split
    · exact State.carriesOn_of_mem rfl
    · refine State.carriesOn_of_mem ?_
      split
      · exact (State.mem_onCore ..).trans (State.mem_stallGroup ..)
      · exact State.mem_stallGroup ..

@[simp] theorem State.mem_restartGroup (s : State) (g : Nat) : (s.restartGroup g).mem = s.mem := by
  unfold State.restartGroup
  split
  · exact State.mem_foldl (fun t n => t.mem_onCore n _) _ _
  · rfl

theorem execGroupResume_carriesOn (g : Nat) (s : State) : s.carriesOn (execGroupResume g s) := State.carriesOn_of_mem (s.mem_restartGroup g)

theorem execDynamicWaitRelease_carriesOn (n : Nat) (s : State) : s.carriesOn (execDynamicWaitRelease n s) :=
  State.carriesOn_of_mem (s.mem_restartGroup _)

@[simp] theorem State.mem_leaveSync (s : State) (n g tick : Nat) : (s.leaveSync n g tick).mem = s.mem := rfl
@[simp] theorem State.mem_joinStopped (s : State) (n g tick : Nat) : (s.joinStopped n g tick).mem = s.mem := rfl

theorem execBarrierRelease_carriesOn (n g : Nat) (s : State) : s.carriesOn (execBarrierRelease n g s) := by
  unfold execBarrierRelease
  dsimp only
  split
  · exact s.carriesOn_self
  · refine State.carriesOn_of_mem ((State.mem_foldl (fun t m => ?_) _ _).trans ?_)
    · split
      · rfl
      · split <;> rfl
    · split <;> rfl

theorem execPendingEvent_carriesOn (n : Nat) (s : State) : s.carriesOn (execPendingEvent n s) := by
  unfold execPendingEvent
  dsimp only
  split
  · exact s.carriesOn_self
  · split
    · exact s.carriesOn_self
    · exact State.carriesOn_of_mem rfl

theorem execForcedQuench_carriesOn (launch : Nat) (s : State) : s.carriesOn (execForcedQuench launch s) := State.carriesOn_of_mem rfl

@[simp] theorem State.mem_lateQueues (s : State) : s.lateQueues.mem = s.mem := by
  unfold State.lateQueues
  refine State.mem_foldl (fun t n => ?_) _ s
  dsimp only
  split
  · rfl
  · split
    · rfl
    · split
      · rfl
      · exact (State.mem_setCore ..).trans (State.mem_logConsumed ..)

theorem execNestedWalk_carriesOn (n : Nat) (s : State) : s.carriesOn (execNestedWalk n s) := by
  unfold execNestedWalk
  dsimp only
  split
  · split
    · exact State.carriesOn_of_mem rfl
    · split
      · exact State.carriesOn_of_mem rfl
      · exact State.carriesOn_of_mem rfl
      · exact State.carriesOn_of_mem rfl
      · refine State.carriesOn_of_mem ((State.mem_onCore ..).trans ?_)
        exact State.mem_foldl (fun t x => t.mem_tlbPut _ _ x) _ _
  · exact s.carriesOn_self

/-! ## Fetch and the end of a bundle -/

@[simp] theorem State.mem_fetchTrap (s : State) (n code : Nat) : (s.fetchTrap n code).mem = s.mem := rfl

@[simp] theorem State.mem_bundle (s : State) (n : Nat) : (s.bundle n).mem = s.mem := by
  unfold State.bundle
  dsimp only
  split
  · rfl
  · split <;> rfl

theorem State.mem_fetchStop {s t : State} {n : Nat} (stop : s.fetchStop n = some t) : t.mem = s.mem := by
  unfold State.fetchStop at stop
  dsimp only at stop
  split at stop
  · cases stop
    rfl
  · split at stop
    · cases stop
      rfl
    · split at stop
      · cases stop
        rfl
      · split at stop <;> cases stop
        rfl

@[simp] theorem State.mem_fetch (s : State) (n : Nat) : (s.fetch n).mem = s.mem := by
  unfold State.fetch
  extract_lets s1
  have keeps : s1.mem = s.mem := by
    unfold s1
    split <;> rfl
  clear_value s1
  split
  case h_1 stop => exact (State.mem_fetchStop stop).trans keeps
  case h_2 =>
    split
    · exact keeps
    · exact (State.mem_bundle ..).trans keeps

@[simp] theorem State.mem_endBundle (s : State) (n : Nat) : (s.endBundle n).mem = s.mem := by
  unfold State.endBundle
  dsimp only
  split
  · exact State.mem_snapRest ..
  · split
    · rfl
    · split
      · split
        · exact State.mem_ctxDrain ..
        · rfl
      · split
        all_goals split <;> rfl

@[simp] theorem State.mem_afterSlot (s : State) (n k : Nat) : (s.afterSlot n k).mem = s.mem := by
  unfold State.afterSlot
  dsimp only
  split
  · rfl
  · split
    · exact State.mem_endBundle ..
    · rfl

@[simp] theorem State.mem_softTraps (s : State) : s.softTraps.mem = s.mem := by
  unfold State.softTraps
  refine State.mem_foldl (fun t n => ?_) _ s
  dsimp only
  split
  · rfl
  · split
    · rfl
    · split
      · rfl
      · split
        all_goals split <;> rfl

@[simp] theorem State.mem_waitQuench (s : State) : s.waitQuench.mem = s.mem := by
  unfold State.waitQuench
  refine State.mem_foldl (fun t n => ?_) _ s
  dsimp only
  split
  · rfl
  · split
    · split
      · rfl
      · split <;> rfl
    · rfl
  · rfl

@[simp] theorem State.mem_barrierQuench (s : State) : s.barrierQuench.mem = s.mem := by
  unfold State.barrierQuench
  refine State.mem_foldl (fun t n => ?_) _ s
  dsimp only
  split
  · split
    · exact State.mem_stallEvent ..
    · rfl
  · rfl

@[simp] theorem State.mem_barrierStalls (s : State) : s.barrierStalls.mem = s.mem := rfl

@[simp] theorem State.mem_putFirmware (s : State) (n : Nat) (v : Word) : (s.putFirmware n v).mem = s.mem := by
  unfold State.putFirmware
  split
  · rfl
  · split <;> rfl
  · rfl
  · rfl

@[simp] theorem State.mem_emit (n : Nat) (s : State) (e : Emit) : (State.emit n s e).mem = s.mem := by
  cases e
  case mcldr => exact State.mem_joinColl ..
  case gtAdj => exact State.mem_putFirmware ..
  case gtRate => exact State.mem_putFirmware ..
  case fatalBase => exact State.mem_putFirmware ..
  all_goals rfl

theorem State.memInv_endItems {s : State} (inv : s.memInv) (n : Nat) : (s.endItems n).memInv := by
  unfold State.endItems
  extract_lets c due keep l
  exact State.memInv_foldl (fun _ i held => State.memInv_foldl (fun _ a held => commitAct_memInv held _ _ _ _ _) _ held) _ (s := s.setCore n _) inv

theorem State.memInv_finishCores {s : State} (inv : s.memInv) : s.finishCores.memInv := by
  unfold State.finishCores
  extract_lets ns s1 s2 s3 s4 bars
  have inv1 : s1.memInv := State.memInv_of_mem (State.mem_foldl (fun t n => by
    dsimp only
    split
    · rfl
    · split <;> rfl) ns s) inv
  have inv2 : s2.memInv := State.memInv_of_mem (State.mem_foldl (fun t n => State.mem_foldl (fun u e => u.mem_emit n e) _ t) ns s1) inv1
  have inv3 : s3.memInv := State.memInv_foldl (fun t n held => State.memInv_endItems (s := t.setCore n _) held n) ns inv2
  exact State.memInv_of_mem (s3.mem_spread true) inv3

@[simp] theorem State.mem_finishBounds (s : State) : s.finishBounds.mem = s.mem := s.mem_barrierQuench

@[simp] theorem State.mem_settle (s : State) : s.settle.mem = s.mem := rfl

/-! ## Completion counters and triggers -/

@[simp] theorem bumpCounter_mem (fuel part cc amt : Nat) (s : State) : (bumpCounter fuel part cc amt s).mem = s.mem := by
  induction fuel generalizing cc amt s with
  | zero => rfl
  | succ f ih =>
    unfold bumpCounter
    split
    · rfl
    case h_2 p _ =>
      have fired : ∀ (l : List Nat) (t : State), (l.foldl (fun s slot =>
          match (Map.get? s.parts part).bind fun p => (Map.get? p.triggers slot).map fun t => (p, t) with
          | some (p, .counter _ _ target) => bumpCounter f part target 1 (s.setPart part { p with triggers := Map.del p.triggers slot })
          | _ => s) t).mem = t.mem := fun l t => by
        refine State.mem_foldl (fun u slot => ?_) l t
        split
        · exact ih ..
        · rfl
      extract_lets k v k1 s1 s2 crossed
      have keeps : s2.mem = s.mem := fired _ s1
      clear_value s2
      split
      · split
        · exact keeps
        · exact (ih ..).trans keeps
      · exact keeps

@[simp] theorem State.mem_bump (s : State) (part cc amt : Nat) : (s.bump part cc amt).mem = s.mem := bumpCounter_mem ..

@[simp] theorem State.mem_markCancelled (s : State) (part cc : Nat) : (s.markCancelled part cc).mem = s.mem := by
  unfold State.markCancelled
  split <;> rfl

theorem execCancelMark_carriesOn (part cc : Nat) (s : State) : s.carriesOn (execCancelMark part cc s) :=
  State.carriesOn_of_mem (s.mem_markCancelled part cc)

theorem execCounterInterrupt_carriesOn (part cc : Nat) (s : State) : s.carriesOn (execCounterInterrupt part cc s) := by
  unfold execCounterInterrupt
  split
  · exact s.carriesOn_self
  · split
    · exact s.carriesOn_self
    · exact State.carriesOn_of_mem rfl

theorem execTimeTriggerFire_carriesOn (part slot : Nat) (s : State) : s.carriesOn (execTimeTriggerFire part slot s) := by
  unfold execTimeTriggerFire
  split
  · exact s.carriesOn_self
  · split
    · split
      · exact State.carriesOn_of_mem (State.mem_bump ..)
      · exact s.carriesOn_self
    · exact s.carriesOn_self

@[simp] theorem State.mem_fireArmed (s : State) : s.fireArmed.mem = s.mem := by
  unfold State.fireArmed
  refine State.mem_foldl (fun t x => State.mem_foldl (fun u slot => ?_) _ t) _ s
  split
  · split
    · exact State.mem_bump ..
    · rfl
  · rfl

theorem execCounterIncrement_carriesOn (index : Nat) (s : State) : s.carriesOn (execCounterIncrement index s) := by
  unfold execCounterIncrement
  split
  · exact s.carriesOn_self
  · split
    · exact s.carriesOn_self
    · exact State.carriesOn_of_mem (State.mem_bump ..)

end Sys2Proof.Machine
end

section
/-! PROOFS. Memory through the scheduler: records, starts of units, completion, cancelling and restore -/

namespace Sys2Proof.Machine

open Sys2Proof

/-! ## Memory through the scheduler: records, regions, admission -/

@[simp] theorem State.mem_setLaunch (s : State) (k : Nat) (l : Launch) : (s.setLaunch k l).mem = s.mem := rfl

@[simp] theorem State.mem_setQueue (s : State) (part q : Nat) (x : Queue) : (s.setQueue part q x).mem = s.mem := by
  unfold State.setQueue
  split <;> rfl

theorem State.memInv_gpaWrite {s : State} (inv : s.memInv) (part a : Nat) (l : List Byte) : (s.gpaWrite part a l).memInv := by
  unfold State.gpaWrite
  split
  · exact inv
  · refine State.memInv_foldl (fun t x held => ?_) _ inv
    split
    · exact State.memInv_devWrite held _ _ _
    · exact held

theorem execLaunchRecord_carriesOn (part queue : Nat) (s : State) : s.carriesOn (execLaunchRecord part queue s) := by
  unfold execLaunchRecord
  split
  · exact s.carriesOn_self
  · split
    · exact s.carriesOn_self
    · split
      · exact s.carriesOn_self
      · dsimp only
        split
        · exact State.carriesOn_of_mem ((State.mem_sendEvent ..).trans (State.mem_setQueue ..))
        · split
          · exact State.carriesOn_of_mem (State.mem_setQueue ..)
          · exact State.carriesOn_next fun inv => State.memInv_gpaWrite (State.memInv_of_mem (State.mem_setQueue ..) inv) _ _ _

theorem State.memInv_writeBanks {s : State} (inv : s.memInv) (part g last : Nat) : (s.writeBanks part g last).memInv :=
  State.memInv_gpaWrite inv _ _ _

theorem State.memInv_takeClusters {s : State} (inv : s.memInv) (k : Nat) (l : Launch) : (s.takeClusters k l).memInv := by
  refine State.memInv_foldl (fun t x held => ?_) _ inv
  exact State.memInv_ite _ held (State.memInv_clearKey held _ _)

@[simp] theorem State.mem_passClusters (s : State) (key : Nat) (l : Launch) : (s.passClusters key l).mem = s.mem := rfl

theorem State.memInv_place {s : State} (inv : s.memInv) (l : Launch) (o : Nat × Nat) : (s.place l o).memInv := by
  refine State.memInv_takeClusters ?_ _ _
  exact inv

@[simp] theorem State.mem_refuse (s : State) (part queue : Nat) (q : Queue) (r : BitVec 512) : (s.refuse part queue q r).mem = s.mem := by
  unfold State.refuse
  dsimp only
  split
  · exact (State.mem_markCancelled ..).trans (State.mem_setQueue ..)
  · exact State.mem_setQueue ..

@[simp] theorem State.mem_admitted (s : State) (part queue ids : Nat) : (s.admitted part queue ids).mem = s.mem := by
  unfold State.admitted
  split <;> rfl

theorem State.memInv_placeReplay {s : State} (inv : s.memInv) (part : Nat) (p : Part) (queue job : Nat) (r : BitVec 512) (h : List Byte)
    (bank : Nat) (nodes : List (Nat × Launch)) (regions : Map (Nat × Nat)) :
    (s.placeReplay part p queue job r h bank nodes regions).memInv := by
  unfold State.placeReplay
  extract_lets g id patched last launches s1 firsts s2
  have inv1 : s1.memInv := State.memInv_ite (rcPARAMS r = 0) inv (State.memInv_gpaWrite inv _ _ _)
  exact State.memInv_writeBanks (State.memInv_foldl (fun _ x held => State.memInv_takeClusters held x.1 x.2) _ inv1) _ _ _

@[simp] theorem State.mem_moveColls (s : State) (key : Nat) (old new : Launch) : (s.moveColls key old new).mem = s.mem := rfl

theorem State.memInv_considerBack {s : State} (inv : s.memInv) (part : Nat) (p : Part) (queue : Nat) (q : Queue) (k : Nat) :
    (s.considerBack part p queue q k).memInv := by
  unfold State.considerBack
  split
  · exact State.memInv_of_mem (State.mem_setQueue ..) inv
  · split
    · exact inv
    · extract_lets old l' s1
      have inv1 : s1.memInv := State.memInv_of_mem (State.mem_setQueue ..) inv
      clear_value s1
      split
      · refine State.memInv_takeClusters ?_ _ _
        exact inv1
      · exact inv1

/-- What a verdict admits keeps the canonical form. -/
def Verdict.keeps (s : State) (v : Verdict) : Prop := ∀ t ids, v = .admits t ids → s.memInv → t.memInv

theorem Verdict.keeps_refused (s : State) : Verdict.keeps s .refused := fun _ _ no => by cases no
theorem Verdict.keeps_waits (s : State) : Verdict.keeps s .waits := fun _ _ no => by cases no
theorem Verdict.keeps_admits {s t : State} (keeps : s.memInv → t.memInv) (ids : Nat) : Verdict.keeps s (.admits t ids) := fun _ _ eq => by
  cases eq
  exact keeps

theorem State.considerReplay_keeps (s : State) (part : Nat) (p : Part) (queue job : Nat) (r : BitVec 512) :
    Verdict.keeps s (s.considerReplay part p queue job r) := by
  unfold State.considerReplay
  split
  · exact Verdict.keeps_refused s
  · split
    · exact Verdict.keeps_refused s
    · extract_lets g bank b plans nodes shape odd
      clear_value odd shape nodes plans b bank
      split
      · exact Verdict.keeps_refused s
      · split
        · exact Verdict.keeps_refused s
        · split
          · exact Verdict.keeps_waits s
          · split
            · exact Verdict.keeps_waits s
            · split
              · exact Verdict.keeps_waits s
              · exact Verdict.keeps_admits (fun inv => State.memInv_placeReplay inv ..) _

theorem State.considerLaunch_keeps (s : State) (p : Part) (l : Launch) : Verdict.keeps s (s.considerLaunch p l) := by
  unfold State.considerLaunch
  split
  · exact Verdict.keeps_refused s
  · split
    · exact Verdict.keeps_admits (by exact id) _
    · split
      · exact Verdict.keeps_waits s
      · exact Verdict.keeps_admits (fun inv => State.memInv_place inv _ _) _

theorem State.considerRecord_keeps (s : State) (part : Nat) (p : Part) (queue : Nat) (q : Queue) (r : BitVec 512) :
    Verdict.keeps s (s.considerRecord part p queue q r) := by
  unfold State.considerRecord
  extract_lets job plan
  split
  · exact s.considerReplay_keeps part p queue job r
  · clear_value plan
    split
    · exact Verdict.keeps_refused s
    · split
      · exact Verdict.keeps_waits s
      · exact s.considerLaunch_keeps p _

theorem execAdmission_carriesOn (part : Nat) (s : State) : s.carriesOn (execAdmission part s) := by
  unfold execAdmission
  split
  · exact s.carriesOn_self
  case h_2 p _ =>
    split
    · exact s.carriesOn_self
    · split
      · exact s.carriesOn_self
      · split
        · exact State.carriesOn_next fun inv => State.memInv_considerBack inv ..
        · split
          · exact s.carriesOn_self
          · dsimp only
            split
            · exact State.carriesOn_of_mem (State.mem_refuse ..)
            · split
              · exact State.carriesOn_of_mem (State.mem_refuse ..)
              · exact s.carriesOn_self
              case h_3 verdict =>
                refine State.carriesOn_next fun inv => State.memInv_of_mem ((State.mem_admitted ..).trans (State.mem_setQueue ..)) ?_
                exact State.considerRecord_keeps _ _ _ _ _ _ _ _ verdict inv

/-! ## Loading and starting units -/

theorem State.memInv_loadHandler {s : State} (inv : s.memInv) (l : Launch) (n : Nat) : (s.loadHandler l n).memInv := by
  unfold State.loadHandler
  split
  · exact inv
  · exact State.memInv_putKey inv _ _

theorem State.memInv_loadCore {s : State} (inv : s.memInv) (p : Part) (l : Launch) (i : Image) (n half : Nat) (handed : Bool) :
    (s.loadCore p l i n half handed).memInv := by
  unfold State.loadCore
  extract_lets s1 s2 s3 s4 s5
  have inv1 : s1.memInv := State.memInv_ite (handed = true) (State.memInv_ite (l.psize = 0) inv (State.memInv_clearKey inv _ _))
    (State.memInv_clearKey inv _ _)
  have inv2 : s2.memInv := State.memInv_putKey (State.memInv_clearKey inv1 _ _) _ _
  have inv3 : s3.memInv := State.memInv_loadHandler inv2 l n
  have inv4 : s4.memInv := State.memInv_putKey (State.memInv_clearKey inv3 _ _) _ _
  have inv5 : s5.memInv := State.memInv_foldl (fun _ _ held => State.memInv_ite _ (State.memInv_putKey held _ _) held) _ inv4
  exact State.memInv_ite (l.psize = 0) inv5 (State.memInv_putKey inv5 _ _)

theorem State.memInv_loadCluster {s : State} (inv : s.memInv) (p : Part) (i : Image) (x : Nat) : (s.loadCluster p i x).memInv := by
  unfold State.loadCluster
  refine State.memInv_foldl (fun t e held => ?_) _ inv
  dsimp only
  split
  · exact held
  · split
    · exact State.memInv_clearKey held _ _
    · exact State.memInv_putKey held _ _

theorem State.memInv_zeroDevice {s : State} (inv : s.memInv) (part : Nat) (p : Part) (i : Image) : (s.zeroDevice part p i).memInv := by
  unfold State.zeroDevice
  refine State.memInv_foldl (fun t x held => ?_) _ inv
  dsimp only
  split
  · exact held
  · exact State.memInv_engineWrote held _ _ _ (memClear_wf held _ _)

theorem State.memInv_loadDevice {s : State} (inv : s.memInv) (part : Nat) (p : Part) (i : Image) : (s.loadDevice part p i).memInv := by
  unfold State.loadDevice
  refine State.memInv_foldl (fun t e held => ?_) _ (State.memInv_zeroDevice inv part p i)
  split
  · exact held
  · refine State.memInv_foldl (fun u k kept => ?_) _ held
    dsimp only
    split
    · split
      · exact State.memInv_devWrite kept _ _ _
      · exact kept
    · exact kept

@[simp] theorem State.mem_renameFlights (s : State) (c : Core) (old new : Nat) (pick : Nat → Bool) :
    (s.renameFlights c old new pick).mem = s.mem := rfl

@[simp] theorem State.mem_handCore (s : State) (n : Nat) (bank7 : Bool) (c : Core) : (s.handCore n bank7 c).1.mem = s.mem := by
  unfold State.handCore
  dsimp only
  split <;> rfl

/-- A unit begun on its core: the core named by a hand-over or a start in place, with its scratchpads loaded. -/
theorem State.memInv_startOne {s : State} (inv : s.memInv) (p : Part) (l : Launch) (i : Image) (n : Nat) (handed : Bool) (c : Core) :
    (let (t, d) := if handed then s.handCore n (l.psize != 0) c else (s, c)
     let u := t.loadCore p l i n d.faceHalf handed
     u.setCore n { d with ctx := { d.ctx with pc := normAt u.mem n 0 } }).memInv := by
  cases handed
  · exact State.memInv_loadCore inv p l i n _ false
  · exact State.memInv_loadCore (State.memInv_of_mem (State.mem_handCore ..) inv) p l i n _ true

theorem State.memInv_startUnits {s : State} (inv : s.memInv) (key : Nat) (handed : Bool) : (s.startUnits key handed).memInv := by
  unfold State.startUnits
  split
  · exact inv
  · split
    · exact inv
    · split
      · refine State.memInv_foldl (fun t y held => ?_) _
          (State.memInv_foldl (fun t x held => State.memInv_loadCluster held _ _ _) _ (State.memInv_loadDevice inv _ _ _))
        exact State.memInv_startOne held ..
      · exact inv

theorem execBankPass_carriesOn (n bank : Nat) (s : State) : s.carriesOn (execBankPass n bank s) := by
  unfold execBankPass
  dsimp only
  split
  · exact State.carriesOn_of_mem rfl
  · exact s.carriesOn_self

/-! ## Completion, vacated launches and cancelled ones -/

@[simp] theorem State.mem_freeCore (s : State) (n : Nat) : (s.freeCore n).mem = s.mem := by
  unfold State.freeCore
  split <;> rfl

theorem State.memInv_vacated {s : State} (inv : s.memInv) (key : Nat) (l : Launch) : (s.vacated key l).memInv := by
  have kept := State.memInv_foldl (fun t x held => State.memInv_foldl (fun u (g : Nat × Nat) held =>
    State.memInv_moveBytes held (sramSpa (l.cluster x) + g.1) (keptKey key x + g.1) g.2)
    (sramPages ((l.inCluster x).map fun n => (s.core n).ltt)) held) (List.range l.area) inv
  have freed := State.memInv_of_mem (State.mem_foldl (fun t n => t.mem_freeCore n) l.members _) kept
  unfold State.vacated
  dsimp only
  split
  · exact State.memInv_of_mem (State.mem_setQueue ..) freed
  · exact freed

@[simp] theorem State.mem_markAbsent (s : State) (group node : Nat) : (s.markAbsent group node).mem = s.mem := by
  unfold State.markAbsent
  split <;> rfl

/-- A launch put back, vacated where its last unit has left. -/
theorem State.memInv_leaves {s : State} (inv : s.memInv) (key : Nat) (l : Launch) (p : Prop) [Decidable p] :
    (if p then (s.setLaunch key l).vacated key l else s.setLaunch key l).memInv := by
  split
  · refine State.memInv_vacated ?_ _ _
    exact inv
  · exact inv

theorem execUnitComplete_carriesOn (n : Nat) (s : State) : s.carriesOn (execUnitComplete n s) := by
  unfold execUnitComplete
  dsimp only
  split
  · exact s.carriesOn_self
  · split
    · exact s.carriesOn_self
    · refine State.carriesOn_next fun inv => ?_
      split
      · exact State.memInv_leaves (s := { s.setCore n _ with incrs := _ }) inv _ _ _
      · exact State.memInv_leaves (State.memInv_of_mem ((State.mem_markAbsent ..).trans (s.mem_freeCore n)) inv) _ _ _

theorem State.memInv_endReplay {s : State} (inv : s.memInv) (id : Nat) : (s.endReplay id).memInv := by
  unfold State.endReplay
  split
  · exact inv
  · split
    · exact inv
    · dsimp only
      split
      · exact inv
      case h_2 r _ _ _ h _ =>
        have written := State.memInv_writeBanks (s := { s with replays := Map.put s.replays id { r with done := true } }) inv r.part r.graph
          (grLast h)
        have counted := State.memInv_ite ((imgField h 6 1).testBit 7 = true)
          (State.memInv_of_mem (State.mem_bump _ r.part (imgField h 6 1 % 32) 1) written) written
        split
        · exact State.memInv_of_mem (State.mem_bump ..) counted
        · exact counted

theorem execCompletionIncrement_carriesOn (key : Nat) (unit : Option Nat) (s : State) : s.carriesOn (execCompletionIncrement key unit s) := by
  unfold execCompletionIncrement
  split
  · exact s.carriesOn_self
  case h_2 l _ =>
    split
    · split
      · exact s.carriesOn_self
      · dsimp only
        refine State.carriesOn_of_mem ?_
        split
        · exact State.mem_bump ..
        · rfl
    · split
      · exact s.carriesOn_self
      · extract_lets s1 s2 s3
        have mem : s3.mem = s.mem := by
          unfold s3
          split
          · exact State.mem_bump ..
          · rfl
        clear_value s3
        refine State.carriesOn_next fun inv => ?_
        have inv3 := State.memInv_of_mem mem inv
        split
        · exact State.memInv_endReplay inv3 _
        · exact inv3

theorem State.memInv_stopLaunch {s : State} (inv : s.memInv) (key : Nat) : (s.stopLaunch key).memInv := by
  unfold State.stopLaunch
  split
  · exact inv
  · exact State.memInv_clearKey (State.memInv_of_mem (State.mem_foldl (fun t n => t.mem_freeCore n) _ s) inv) (keptKey key 0) (2 ^ 40)

theorem State.memInv_cancelLaunches {s : State} (inv : s.memInv) (part : Nat) (keys : List Nat) (cc : Option Nat) (hit : Nat → Bool) :
    (s.cancelLaunches part keys cc hit).memInv := by
  have stopped := State.memInv_foldl (fun _ k held => State.memInv_stopLaunch held k) (s.withReplays keys) inv
  refine State.memInv_foldl (fun t r held => ?_) _ stopped
  dsimp only
  split
  · exact held
  · split
    · refine State.memInv_writeBanks ?_ _ _ _
      exact held
    · exact held

theorem State.memInv_cancelOne {s : State} (inv : s.memInv) (key : Nat) : (s.cancelOne key).memInv := by
  unfold State.cancelOne
  split
  · exact inv
  · exact State.memInv_ite _ (State.memInv_cancelLaunches inv _ _ _ _) inv

theorem State.memInv_refuseStart {s : State} (inv : s.memInv) (key : Nat) (l : Launch) : (s.refuseStart key l).memInv := by
  unfold State.refuseStart
  split
  · exact State.memInv_cancelOne inv key
  · exact State.memInv_of_mem (State.mem_markCancelled ..) (State.memInv_stopLaunch inv key)
  · exact State.memInv_stopLaunch inv key

theorem execLaunchStart_carriesOn (key : Nat) (s : State) : s.carriesOn (execLaunchStart key s) := by
  unfold execLaunchStart
  split
  · split
    · exact State.carriesOn_next fun inv => State.memInv_ite _ (State.memInv_refuseStart inv _ _) (State.memInv_startUnits inv _ _)
    · exact s.carriesOn_self
  · exact s.carriesOn_self

/-- A launch refused in its start cycle, or begun on the clusters that it takes. -/
theorem State.memInv_startOrRefuse {s : State} (inv : s.memInv) (key : Nat) (l : Launch) (handed : Bool) :
    (if s.startRefused l then s.refuseStart key l else (s.takeClusters key l).startUnits key handed).memInv :=
  State.memInv_ite _ (State.memInv_refuseStart inv _ _) (State.memInv_startUnits (State.memInv_takeClusters inv _ _) _ _)

theorem execHandoverStart_carriesOn (key : Nat) (s : State) : s.carriesOn (execHandoverStart key s) := by
  unfold execHandoverStart
  split
  · split
    · exact State.carriesOn_next fun inv => State.memInv_startOrRefuse inv _ _ _
    · exact s.carriesOn_self
  · exact s.carriesOn_self

theorem execNodeStart_carriesOn (replay node : Nat) (s : State) : s.carriesOn (execNodeStart replay node s) := by
  unfold execNodeStart
  split
  · exact s.carriesOn_self
  · split
    · exact s.carriesOn_self
    · refine State.carriesOn_next fun inv => ?_
      have started := fun k l handed => State.memInv_startOrRefuse inv k l handed
      split
      · split
        · exact State.memInv_gpaWrite (started _ _ _) _ _ _
        · exact started _ _ _
      · exact started _ _ _

theorem State.memInv_cancelCounter {s : State} (inv : s.memInv) (part cc : Nat) : (s.cancelCounter part cc).memInv := by
  unfold State.cancelCounter
  split
  · exact inv
  · exact State.memInv_cancelLaunches (s := s.setPart part _) inv _ _ _ _

theorem State.memInv_phantomFaults {s : State} (inv : s.memInv) : s.phantomFaults.memInv :=
  State.memInv_foldl (fun _ x held => State.memInv_cancelOne held x.2.launch) _ inv

@[simp] theorem State.mem_quench (s : State) (key : Nat) (l : Launch) (limit : Option Nat) : (s.quench key l limit).mem = s.mem := rfl

@[simp] theorem State.mem_quenchLimits (s : State) : s.quenchLimits.mem = s.mem := by
  unfold State.quenchLimits
  refine State.mem_foldl (fun t x => ?_) _ s
  split
  · rfl
  · split
    · rfl
    · split
      · rfl
      · split <;> rfl

@[simp] theorem State.mem_watchdogs (s : State) : s.watchdogs.mem = s.mem := by
  unfold State.watchdogs
  refine State.mem_foldl (fun t x => ?_) _ s
  split
  · rfl
  · split <;> rfl

theorem execWatchdog_carriesOn (key : Nat) (s : State) : s.carriesOn (execWatchdog key s) := by
  unfold execWatchdog
  split
  · exact s.carriesOn_self
  · split
    · exact s.carriesOn_self
    · extract_lets w s1 mine s2
      split
      · exact State.carriesOn_of_mem rfl
      · split
        · exact State.carriesOn_next fun inv => State.memInv_cancelOne (s := s2) inv key
        · exact State.carriesOn_of_mem rfl

/-! ## Restore -/

theorem State.memInv_restoreCluster {s : State} (inv : s.memInv) (p : Part) (key : Nat) (l : Launch) (x : Nat) :
    (s.restoreCluster p key l x).memInv := by
  unfold State.restoreCluster
  extract_lets k kept pages saved mapped s1
  have moved : s1.memInv := State.memInv_clearKey (State.memInv_foldl (fun _ g held => State.memInv_moveBytes held _ _ _) _ inv) _ _
  exact State.memInv_of_mem (State.mem_foldl (fun _ _ => State.mem_putSlot ..) _ s1) moved

theorem execRestoreStart_carriesOn (key : Nat) (s : State) : s.carriesOn (execRestoreStart key s) := by
  unfold execRestoreStart
  split
  · exact s.carriesOn_self
  case h_2 l _ =>
    split
    · exact s.carriesOn_self
    · split
      · exact s.carriesOn_self
      case h_2 p hbase code _ =>
        refine State.carriesOn_next fun inv => ?_
        refine State.memInv_foldl (fun t y held => ?_) _ (State.memInv_foldl (fun t x held => State.memInv_restoreCluster held p key l x) _ inv)
        dsimp only
        split
        · exact held
        · exact State.memInv_loadHandler (State.memInv_clearKey (State.memInv_clearKey held _ _) _ _) _ _

end Sys2Proof.Machine
end

section
/-! PROOFS. PROOFS. Memory keeps its form through migration, re-keying, stacks, partitions and the Ethernet ports. -/

namespace Sys2Proof.Machine

open Sys2Proof

/-! ## Memory through the memory side: migration, re-keying, stacks, partitions -/

theorem State.memInv_migDone {s : State} (inv : s.memInv) (part index status : Nat) : (s.migDone part index status).memInv := by
  unfold State.migDone
  split
  · exact inv
  · exact State.memInv_gpaWrite (State.memInv_gpaWrite inv _ _ _) _ _ _

theorem State.memInv_putLeaf {s : State} (inv : s.memInv) (part : Nat) (l : List Nat) (e : Word) : (s.putLeaf part l e).memInv :=
  State.memInv_foldl (fun _ _ held => State.memInv_of_mem (State.mem_checkHallmark ..) (State.memInv_writeKey held _ _)) _ inv

theorem State.memInv_startMove {s : State} (inv : s.memInv) (part : Nat) (p : Part) (g : Mig) (leaf : Word) (ats : List Nat) :
    (s.startMove part p g leaf ats).memInv := State.memInv_putLeaf inv part ats (leaf ||| (1 <<< 6))

theorem execMigrationRequest_carriesOn (part index : Nat) (s : State) : s.carriesOn (execMigrationRequest part index s) := by
  have done : ∀ status, s.carriesOn (.next (s.migDone part index status)) := fun status =>
    State.carriesOn_next fun inv => State.memInv_migDone inv part index status
  unfold execMigrationRequest
  split
  · exact s.carriesOn_self
  · split
    · exact s.carriesOn_self
    · dsimp only
      split
      · exact done 5
      · split
        · exact done 5
        · split
          · exact done 2
          · split
            · exact done 5
            · split
              · exact done 5
              · split
                · exact done 3
                · split
                  · exact done 4
                  · split
                    · exact s.carriesOn_self
                    · refine State.carriesOn_next fun inv => State.memInv_startMove ?_ ..
                      exact inv

theorem State.memInv_clearSummary {s : State} (inv : s.memInv) (a : Nat) : (s.clearSummary a).memInv :=
  State.memInv_foldl (fun _ _ held => State.memInv_devWrite held _ _ _) _ inv

theorem State.memInv_setMsu {s : State} (inv : s.memInv) (u : Nat) (m : Msu) : (s.setMsu u m).memInv :=
  State.memInv_of_mem (s.mem_setMsu u m) inv

theorem moveFrame_memInv {s : State} (inv : s.memInv) (part old new : Nat) : (moveFrame part old new s).memInv := by
  unfold moveFrame
  split
  · exact State.memInv_clearSummary (State.memInv_setMsu (State.memInv_writeKey (State.memInv_moveBytes inv _ _ _) _ _) _ _) _
  · exact State.memInv_of_mem (State.mem_checkHallmark ..) (State.memInv_moveBytes inv _ _ _)

/-- A page copied to its new frame, its leaf rewritten, and the requests for it ended. -/
def State.moved (s : State) (index owner key : Nat) (g : Mig) (leaf : Word) (ats : List Nat) : State :=
  let s1 := (List.range (g.size / 0x1000)).foldl (fun s i => moveFrame owner (g.old + 0x1000 * i) (g.dest + 0x1000 * i) s) s
  let s2 := s1.putLeaf owner ats leaf
  let s3 := { s2 with migs := s2.migs.eraseIdx index, moves := Map.put s2.moves key [s.gt] }
  let s4 := match g.index with | some i => s3.migDone g.part i 1 | none => s3
  (s4.samePage owner g.gpa g.size).foldl (fun s x => s.migDone x.1 x.2 2) s4

theorem State.memInv_moved {s : State} (inv : s.memInv) (index owner key : Nat) (g : Mig) (leaf : Word) (ats : List Nat) :
    (s.moved index owner key g leaf ats).memInv := by
  unfold State.moved
  extract_lets s1 s2 s3 s4
  have inv3 : s3.memInv := State.memInv_putLeaf (State.memInv_foldl (fun _ _ held => moveFrame_memInv held _ _ _) _ inv) _ _ _
  have inv4 : s4.memInv := by
    unfold s4
    split
    · exact State.memInv_migDone inv3 _ _ _
    · exact inv3
  exact State.memInv_foldl (fun _ x held => State.memInv_migDone held x.1 x.2 2) _ inv4

theorem execMigrationCopy_carriesOn (index : Nat) (s : State) : s.carriesOn (execMigrationCopy index s) := by
  unfold execMigrationCopy
  split
  · exact s.carriesOn_self
  · split
    · exact State.carriesOn_of_mem rfl
    · refine State.carriesOn_ite _ s.carriesOn_self ?_
      exact State.carriesOn_next fun inv => State.memInv_moved inv ..

theorem execReKey_carriesOn (u : Nat) (hallmark : Word) (s : State) : s.carriesOn (execReKey u hallmark s) := by
  unfold execReKey
  split
  · exact s.carriesOn_self
  · extract_lets packed raw exc s1 m s2
    refine State.carriesOn_next fun inv => State.memInv_releaseWrites ?_
    have inv2 : s2.memInv := State.memInv_foldl (fun _ _ held => State.memInv_writeKey held _ _) _ inv
    exact State.memInv_ite _ inv2 (State.memInv_of_mem (State.mem_foldl (fun _ _ => State.mem_sendEvent ..) _ s2) inv2)

theorem execPatrolScrub_carriesOn (a : Nat) (uncorrectable : Bool) (s : State) : s.carriesOn (execPatrolScrub a uncorrectable s) := by
  cases uncorrectable <;> exact State.carriesOn_of_mem rfl

theorem execStackOffline_carriesOn (stack : Nat) (s : State) : s.carriesOn (execStackOffline stack s) := by
  unfold execStackOffline
  split
  · exact s.carriesOn_self
  · extract_lets m s0 s1
    refine State.carriesOn_next fun inv => ?_
    have inv1 : s1.memInv := State.memInv_foldl (fun t x held => State.memInv_foldl (fun u l kept => by
      split
      · refine State.memInv_startMove ?_ ..
        exact kept
      · exact kept) _ held) _ (s := s0) inv
    clear_value s1
    split <;> exact inv1

theorem execCompatibilityMode_carriesOn (part u : Nat) (table : Option Nat) (s : State) : s.carriesOn (execCompatibilityMode part u table s) := by
  unfold execCompatibilityMode
  split
  · exact s.carriesOn_self
  · exact State.carriesOn_of_mem rfl

theorem execPartitionFormation_carriesOn (part row col rows cols : Nat) (s : State) :
    s.carriesOn (execPartitionFormation part row col rows cols s) := by
  unfold execPartitionFormation
  dsimp only
  split
  · exact s.carriesOn_self
  · refine State.carriesOn_next fun inv => State.memInv_foldl (fun _ _ held => ?_) _ ?_
    · exact State.memInv_clearKey held _ _
    · exact inv

/-! ## Memory through the Ethernet ports -/

@[simp] theorem State.mem_transmit (s : State) (port prio : Nat) (l : List Output) : (s.transmit port prio l).mem = s.mem := by
  unfold State.transmit
  split <;> rfl

@[simp] theorem State.mem_release (s : State) : s.release.mem = s.mem := rfl

@[simp] theorem State.mem_unpause (s : State) : s.unpause.mem = s.mem := by
  unfold State.unpause
  dsimp only
  split <;> rfl

@[simp] theorem State.mem_sendSct (s : State) (n peer : Nat) (pkt : Packet) : (s.sendSct n peer pkt).mem = s.mem := by
  unfold State.sendSct
  dsimp only
  split
  · rfl
  · split <;> exact State.mem_transmit ..

@[simp] theorem State.mem_sendAll (s : State) : s.sendAll.mem = s.mem := by
  unfold State.sendAll
  refine State.mem_foldl (fun t x => State.mem_foldl (fun u e => ?_) _ t) _ s
  cases e
  case sct => exact State.mem_sendSct ..
  all_goals rfl

@[simp] theorem State.mem_setFlow (s : State) (i : Nat) (t : TxFlow) : (s.setFlow i t).mem = s.mem := rfl

theorem execSctAcknowledgement_carriesOn (flow : Nat) (ackPsn : BitVec 32) (s : State) : s.carriesOn (execSctAcknowledgement flow ackPsn s) := by
  unfold execSctAcknowledgement
  split
  · exact s.carriesOn_self
  · dsimp only
    split
    · exact s.carriesOn_self
    · exact State.carriesOn_of_mem rfl

@[simp] theorem State.mem_launchesEvent (s : State) (part : Nat) (keys : List Nat) (t : Trap) : (s.launchesEvent part keys t).mem = s.mem := rfl

theorem execRetransmitTimeout_carriesOn (flow : Nat) (s : State) : s.carriesOn (execRetransmitTimeout flow s) := by
  unfold execRetransmitTimeout
  split
  · exact s.carriesOn_self
  · split
    · exact s.carriesOn_self
    · split
      · exact State.carriesOn_of_mem (State.mem_sendEvent ..)
      · exact State.carriesOn_of_mem (State.mem_transmit ..)

@[simp] theorem State.mem_acknowledge (s : State) (i k : Nat) (r : RxFlow) : (s.acknowledge i k r).mem = s.mem := State.mem_transmit ..

theorem execSctFrame_carriesOn (port vlan : Nat) (flags : Byte) (flow : BitVec 16) (psn : BitVec 32) (pkt : Packet) (s : State) :
    s.carriesOn (execSctFrame port vlan flags flow psn pkt s) := by
  unfold execSctFrame
  split
  · exact s.carriesOn_self
  · split
    · exact State.carriesOn_of_mem rfl
    · split
      split
      · exact s.carriesOn_self
      · extract_lets r1 s1 s2
        have keeps : s2.mem = s.mem := by
          unfold s2
          split <;> rfl
        clear_value s2
        refine State.carriesOn_of_mem ?_
        split <;> exact keeps

theorem execCumulativeAcknowledgement_carriesOn (flow : Nat) (s : State) : s.carriesOn (execCumulativeAcknowledgement flow s) := by
  unfold execCumulativeAcknowledgement
  split
  · exact s.carriesOn_self
  · split
    · exact s.carriesOn_self
    · exact State.carriesOn_of_mem (State.mem_acknowledge ..)

@[simp] theorem State.mem_reply (s : State) (qp : Nat) (o : Output) : (s.reply qp o).mem = s.mem := State.mem_transmit ..
@[simp] theorem State.mem_refused (s : State) (qp : Nat) : (s.refused qp).mem = s.mem := State.mem_reply ..

@[simp] theorem State.mem_congested (s : State) (qp : Nat) (marked : Bool) : (s.congested qp marked).mem = s.mem := by
  cases marked
  · rfl
  · exact State.mem_reply ..

@[simp] theorem State.mem_advanceQp (s : State) (qp : Nat) (n : BitVec 24) : (s.advanceQp qp n).mem = s.mem := rfl

theorem execRdmaWrite_carriesOn (qp addr : Nat) (data : List Byte) (marked : Bool) (s : State) :
    s.carriesOn (execRdmaWrite qp addr data marked s) := by
  unfold execRdmaWrite
  dsimp only
  split
  · refine State.carriesOn_next fun inv => State.memInv_of_mem (State.mem_reply ..) ?_
    exact State.memInv_gpaWrite (State.memInv_of_mem (s.mem_congested qp marked) inv) _ _ _
  · exact State.carriesOn_of_mem ((State.mem_refused ..).trans (State.mem_congested ..))

theorem execRdmaRead_carriesOn (qp addr len : Nat) (marked : Bool) (s : State) : s.carriesOn (execRdmaRead qp addr len marked s) := by
  unfold execRdmaRead
  dsimp only
  split
  · exact State.carriesOn_of_mem ((State.mem_reply ..).trans (State.mem_congested ..))
  · exact State.carriesOn_of_mem ((State.mem_refused ..).trans (State.mem_congested ..))

theorem execRoceSendRequest_carriesOn (qp : Nat) (marked : Bool) (s : State) : s.carriesOn (execRoceSendRequest qp marked s) :=
  State.carriesOn_of_mem ((State.mem_refused ..).trans (State.mem_congested ..))

theorem execRoceAtomicRequest_carriesOn (qp : Nat) (marked : Bool) (s : State) : s.carriesOn (execRoceAtomicRequest qp marked s) :=
  State.carriesOn_of_mem ((State.mem_refused ..).trans (State.mem_congested ..))

theorem execPtpEventMessage_carriesOn (port seqId : Nat) (oneStep : Bool) (s : State) : s.carriesOn (execPtpEventMessage port seqId oneStep s) :=
  State.carriesOn_of_mem rfl

theorem execPriorityFlowControl_carriesOn (port : Nat) (enable : Byte) (quanta : List Nat) (s : State) :
    s.carriesOn (execPriorityFlowControl port enable quanta s) := State.carriesOn_of_mem rfl

end Sys2Proof.Machine
end

section
/-! PROOFS. PROOFS. Memory keeps its form through boot, halts, power states and the management commands. -/

namespace Sys2Proof.Machine

open Sys2Proof

/-! ## Memory through boot and attestation -/

theorem execPowerGood_carriesOn (rom ioFw dieFw training uefi : List Byte) (hallmark fatalBase : Word) (s : State) :
    s.carriesOn (execPowerGood rom ioFw dieFw training uefi hallmark fatalBase s) := State.carriesOn_next fun _ => by rfl

theorem execPowerRemoved_carriesOn (s : State) : s.carriesOn (execPowerRemoved s) := State.carriesOn_next fun _ => by rfl

theorem execMeasurementExtension_carriesOn (hart reg : Nat) (image : List Byte) (s : State) :
    s.carriesOn (execMeasurementExtension hart reg image s) := State.carriesOn_ite _ (State.carriesOn_of_mem rfl) s.carriesOn_self

theorem execFirmwareLogRead_carriesOn (memoryLog : Bool) (s : State) : s.carriesOn (execFirmwareLogRead memoryLog s) :=
  State.carriesOn_of_mem rfl

@[simp] theorem State.mem_agree (s : State) (tcp : Bool) (x : Spdm) : (s.agree tcp x).mem = s.mem := rfl
@[simp] theorem State.mem_respond (s : State) (tcp : Bool) (code : Nat) (data : List Byte) : (s.respond tcp code data).mem = s.mem := rfl
@[simp] theorem State.mem_spdmError (s : State) (tcp : Bool) (code : Nat) : (s.spdmError tcp code).mem = s.mem := rfl
@[simp] theorem State.mem_signed (s : State) (tcp : Bool) (code : Nat) (request data : List Byte) :
    (s.signed tcp code request data).mem = s.mem := rfl

theorem State.carriesOn_spdm {f : State → State} (s : State) (keeps : (f s).mem = s.mem) (tcp ready : Bool) : s.carriesOn (s.spdm tcp ready f) := by
  unfold State.spdm
  split
  · exact s.carriesOn_self
  · split
    · exact State.carriesOn_of_mem keeps
    · exact State.carriesOn_of_mem rfl

theorem execGetVersion_carriesOn (tcp : Bool) (s : State) : s.carriesOn (execGetVersion tcp s) :=
  State.carriesOn_spdm s (by rfl) _ _

theorem execGetCapabilities_carriesOn (tcp : Bool) (s : State) : s.carriesOn (execGetCapabilities tcp s) :=
  State.carriesOn_spdm s (by rfl) _ _

theorem execNegotiateAlgorithms_carriesOn (tcp : Bool) (hashes signatures dheGroups : List Nat) (s : State) :
    s.carriesOn (execNegotiateAlgorithms tcp hashes signatures dheGroups s) := State.carriesOn_spdm s (by rfl) _ _

theorem execGetDigests_carriesOn (tcp : Bool) (s : State) : s.carriesOn (execGetDigests tcp s) := State.carriesOn_spdm s (by rfl) _ _

theorem execGetCertificate_carriesOn (tcp : Bool) (offset length : Nat) (s : State) : s.carriesOn (execGetCertificate tcp offset length s) :=
  State.carriesOn_spdm s (by rfl) _ _

theorem execChallenge_carriesOn (tcp : Bool) (nonce : List Byte) (s : State) : s.carriesOn (execChallenge tcp nonce s) :=
  State.carriesOn_spdm s (State.mem_signed ..) _ _

theorem execGetMeasurements_carriesOn (tcp : Bool) (index : Nat) (nonce : List Byte) (signed : Bool) (s : State) :
    s.carriesOn (execGetMeasurements tcp index nonce signed s) := by
  refine State.carriesOn_spdm s ?_ _ _
  cases signed
  · exact State.mem_respond ..
  · exact State.mem_signed ..

theorem execKeyExchange_carriesOn (tcp : Bool) (session : Nat) (peerKey : List Byte) (s : State) :
    s.carriesOn (execKeyExchange tcp session peerKey s) :=
  State.carriesOn_spdm s (State.mem_signed _ tcp 0x64 peerKey s.boot.summary) _ _

theorem execFinish_carriesOn (tcp : Bool) (session : Nat) (mac : List Byte) (s : State) : s.carriesOn (execFinish tcp session mac s) := by
  refine State.carriesOn_spdm s ?_ _ _
  dsimp only
  split <;> rfl

theorem execEndSession_carriesOn (tcp : Bool) (session : Nat) (s : State) : s.carriesOn (execEndSession tcp session s) :=
  State.carriesOn_spdm s (by rfl) _ _

/-! ## Memory through halts, power states and resets -/

/-- A fold whose every step keeps the canonical form of memory. -/
theorem Memory.wf_foldl {α : Type} {f : Memory → α → Memory} (keeps : ∀ m a, m.wf = true → (f m a).wf = true) (l : List α) {m : Memory}
    (wf : m.wf = true) : (l.foldl f m).wf = true := by
  induction l generalizing m with
  | nil => exact wf
  | cons a l ih => exact ih (keeps m a wf)

theorem State.memInv_writeFatal {s : State} (inv : s.memInv) (part cause : Nat) (p : Part) : (s.writeFatal part cause p).memInv := by
  unfold State.writeFatal
  extract_lets base ns snaps place m0 m1 m2 m3
  have wf1 : m1.wf = true := Memory.wf_foldl (fun _ _ held => memPutN_wf held _ _) _ (memPutN_wf (memClear_wf inv _ _) _ _)
  have wf2 : m2.wf = true := Memory.wf_foldl (fun m n held => by
    split
    · exact writeImage_wf held _ _ _ _
    · exact held) _ wf1
  exact State.memInv_engineWrote inv _ _ _ (memPutN_wf (memPutN_wf wf2 _ _) _ _)

@[simp] theorem State.mem_haltCores (s : State) (ns : List Nat) : (s.haltCores ns).mem = s.mem := rfl

theorem State.memInv_fatal {s : State} (inv : s.memInv) (part cause : Nat) (p : Part) : (s.fatal part cause p).memInv :=
  State.memInv_of_mem (State.mem_sendEvent ..) (State.memInv_writeFatal (State.memInv_of_mem (State.mem_setPart ..) inv) part cause p)

theorem State.memInv_haltPart {s : State} (inv : s.memInv) (part cause : Nat) : (s.haltPart part cause).memInv := by
  unfold State.haltPart
  split
  · exact inv
  · split
    · exact inv
    · exact State.memInv_fatal (State.memInv_of_mem (State.mem_haltCores ..) inv) _ _ _

theorem execPartitionHalted_carriesOn (part : Nat) (s : State) : s.carriesOn (execPartitionHalted part s) :=
  State.carriesOn_next fun inv => State.memInv_haltPart inv _ _

theorem execEmergencyStop_carriesOn (milliamps micros celsius : Nat) (s : State) :
    s.carriesOn (execEmergencyStop milliamps micros celsius s) := by
  unfold execEmergencyStop
  split
  · refine State.carriesOn_next fun inv => ?_
    exact State.memInv_foldl (fun _ x held => State.memInv_fatal held x.1 0x21 x.2) s.parts (State.memInv_of_mem (State.mem_haltCores ..) inv)
  · exact s.carriesOn_self

theorem State.memInv_powerOffPart {s : State} (inv : s.memInv) (p : Part) : (s.powerOffPart p).memInv :=
  State.memInv_foldl (fun _ _ held => State.memInv_clearKey held _ _) p.cores
    (State.memInv_foldl (fun _ _ held => State.memInv_clearKey held _ _) p.area inv)

theorem State.memInv_powerTo {s : State} (inv : s.memInv) (part state : Nat) (p : Part) : (s.powerTo part state p).memInv := by
  have kept : ∀ q : Part, (s.setPart part q).memInv := fun q => State.memInv_of_mem (State.mem_setPart ..) inv
  unfold State.powerTo
  exact State.memInv_ite _ (State.memInv_powerOffPart (kept _) p)
    (State.memInv_ite _ (kept _) (State.memInv_ite _ (kept _) (State.memInv_ite _ (kept _) (kept _))))

theorem execPstateOnDelay_carriesOn (part : Nat) (s : State) : s.carriesOn (execPstateOnDelay part s) := by
  unfold execPstateOnDelay
  split
  · exact s.carriesOn_self
  · split
    · exact s.carriesOn_self
    · exact State.carriesOn_ite _ (State.carriesOn_of_mem rfl) s.carriesOn_self

@[simp] theorem State.mem_purgeStalls (s : State) (part : Nat) : (s.purgeStalls part).mem = s.mem := by
  refine State.mem_foldl (fun t g => ?_) _ s
  dsimp only
  split
  · rfl
  · split
    · rfl
    · exact (State.mem_setGroup ..).trans (State.mem_foldl (fun _ _ => State.mem_onCore ..) _ _)

theorem State.memInv_resetPart {s : State} (inv : s.memInv) (part : Nat) (p : Part) : (s.resetPart part p).memInv :=
  State.memInv_foldl (fun _ _ held => State.memInv_clearKey held _ _) p.area
    (State.memInv_cancelLaunches (State.memInv_of_mem (s.mem_purgeStalls part) inv) part _ none _)

/-! ## Memory through the management commands -/

@[simp] theorem State.mem_status (s : State) (page : Option Nat) (code st : Nat) : (s.status page code st).mem = s.mem := by
  unfold State.status
  dsimp only
  split <;> rfl

theorem State.carriesOn_command {s : State} {f : Nat → Part → Option State} (keeps : ∀ q p t, f q p = some t → s.memInv → t.memInv)
    (page : Option Nat) (part code : Nat) (hv : Bool) : s.carriesOn (s.command page part code hv f) := by
  unfold State.command
  split
  · exact State.carriesOn_of_mem (State.mem_status ..)
  · dsimp only
    split
    case h_1 t done =>
      obtain ⟨p, _, made⟩ := Option.bind_eq_some_iff.mp done
      exact State.carriesOn_next fun inv => State.memInv_of_mem (State.mem_status ..) (keeps _ p t made inv)
    · exact State.carriesOn_of_mem (State.mem_status ..)

/-- What a command leaves, where it does anything, keeps the form of memory. -/
def State.keptBy (s : State) (o : Option State) : Prop := ∀ t, o = some t → s.memInv → t.memInv

theorem State.keptBy_none (s : State) : s.keptBy none := fun _ no => by cases no

theorem State.keptBy_some {s t : State} (keeps : s.memInv → t.memInv) : s.keptBy (some t) := fun _ eq => by
  cases eq
  exact keeps

theorem State.keptBy_of_mem {s t : State} (mem : t.mem = s.mem) : s.keptBy (some t) := State.keptBy_some (State.memInv_of_mem mem)

theorem execQset_carriesOn (page : Option Nat) (part queue addr : Nat) (s : State) : s.carriesOn (execQset page part queue addr s) := by
  refine State.carriesOn_command (fun q p => ?_) ..
  change s.keptBy _
  split
  · exact s.keptBy_none
  · split
    · exact s.keptBy_none
    · extract_lets d old on
      clear_value d old
      split
      · exact s.keptBy_none
      · generalize (if on = true then gpaBytes s.mem p (qdHEAD d) 8 else some []) = head
        split
        · exact s.keptBy_none
        · split
          · exact State.keptBy_of_mem (State.mem_setQueue ..)
          · split
            · exact State.keptBy_of_mem (State.mem_setQueue ..)
            · exact State.keptBy_of_mem ((State.mem_setQueue ..).trans (State.mem_setPart ..))

theorem execCcset_carriesOn (page : Option Nat) (part cc : Nat) (words : BitVec 8) (addr : Nat) (s : State) :
    s.carriesOn (execCcset page part cc words addr s) := by
  refine State.carriesOn_command (fun q p => ?_) ..
  change s.keptBy _
  split
  · exact s.keptBy_none
  · split
    · exact s.keptBy_none
    · split
      · exact s.keptBy_none
      · exact State.keptBy_of_mem (State.mem_setPart ..)

theorem execCmdCancel_carriesOn (page : Option Nat) (part cc : Nat) (s : State) : s.carriesOn (execCmdCancel page part cc s) := by
  refine State.carriesOn_command (fun q p => ?_) ..
  change s.keptBy _
  split
  · exact s.keptBy_none
  · exact State.keptBy_some fun inv => State.memInv_cancelCounter inv q cc

theorem execCmdQuench_carriesOn (page : Option Nat) (part : Nat) (launchId : BitVec 32) (s : State) :
    s.carriesOn (execCmdQuench page part launchId s) := by
  refine State.carriesOn_command (fun q p => ?_) ..
  change s.keptBy _
  split
  · split
    · exact s.keptBy_none
    · exact State.keptBy_of_mem (State.mem_quench ..)
  · exact s.keptBy_none

theorem State.setHold_kept (s : State) (part : Nat) (launchId : BitVec 32) (b : Bool) : s.keptBy (s.setHold part launchId b) := by
  intro t held
  obtain ⟨x, _, rfl⟩ := Option.map_eq_some_iff.mp held
  exact State.memInv_of_mem (State.mem_setLaunch ..)

theorem execCmdHold_carriesOn (page : Option Nat) (part : Nat) (launchId : BitVec 32) (s : State) :
    s.carriesOn (execCmdHold page part launchId s) := State.carriesOn_command (fun q _ => s.setHold_kept q launchId true) ..

theorem execCmdUnhold_carriesOn (page : Option Nat) (part : Nat) (launchId : BitVec 32) (s : State) :
    s.carriesOn (execCmdUnhold page part launchId s) := State.carriesOn_command (fun q _ => s.setHold_kept q launchId false) ..

theorem execQlimit_carriesOn (page : Option Nat) (part : Nat) (micros : Word) (s : State) : s.carriesOn (execQlimit page part micros s) :=
  State.carriesOn_command (fun _ _ => State.keptBy_of_mem (State.mem_setPart ..)) ..

theorem execMsumap_carriesOn (page : Option Nat) (part msu slot addr : Nat) (s : State) :
    s.carriesOn (execMsumap page part msu slot addr s) := by
  refine State.carriesOn_command (fun q p => ?_) ..
  change s.keptBy _
  split
  · exact s.keptBy_none
  · split
    · exact s.keptBy_none
    · dsimp only
      split
      · exact s.keptBy_none
      · exact State.keptBy_of_mem (State.mem_putSlot ..)

theorem execMigq_carriesOn (page : Option Nat) (part addr entries : Nat) (s : State) : s.carriesOn (execMigq page part addr entries s) := by
  refine State.carriesOn_command (fun q p => ?_) ..
  change s.keptBy _
  split
  · exact s.keptBy_none
  · exact State.keptBy_of_mem (State.mem_setPart ..)

theorem execRoots_carriesOn (page : Option Nat) (part : Nat) (guest system : Word) (s : State) :
    s.carriesOn (execRoots page part guest system s) :=
  State.carriesOn_command (fun _ _ => State.keptBy_of_mem (State.mem_setPart ..)) ..

theorem execInvtlb_carriesOn (page : Option Nat) (part base len : Nat) (s : State) : s.carriesOn (execInvtlb page part base len s) := by
  refine State.carriesOn_command (fun q p => ?_) ..
  change s.keptBy _
  split
  · exact s.keptBy_none
  · exact State.keptBy_of_mem (State.mem_setPart ..)

theorem execSctpeer_carriesOn (page : Option Nat) (part index addr : Nat) (s : State) :
    s.carriesOn (execSctpeer page part index addr s) := by
  refine State.carriesOn_command (fun q p => ?_) ..
  change s.keptBy _
  split
  · exact s.keptBy_none
  · split
    · exact s.keptBy_none
    · dsimp only
      split
      · exact s.keptBy_none
      · exact State.keptBy_of_mem rfl

theorem execPstate_carriesOn (page : Option Nat) (part state : Nat) (s : State) : s.carriesOn (execPstate page part state s) := by
  refine State.carriesOn_command (fun q p => ?_) ..
  change s.keptBy _
  dsimp only
  split
  · exact s.keptBy_none
  · exact State.keptBy_some fun inv => State.memInv_powerTo inv _ _ _

theorem execCmdReset_carriesOn (page : Option Nat) (part : Nat) (s : State) : s.carriesOn (execCmdReset page part s) :=
  State.carriesOn_command (fun _ _ => State.keptBy_some fun inv => State.memInv_resetPart inv _ _) ..

theorem State.markHarvested_kept (s : State) (kind router port : Nat) : s.keptBy (s.markHarvested kind router port) := by
  unfold State.markHarvested
  split
  · exact s.keptBy_none
  · split
    · split
      · exact s.keptBy_none
      · exact State.keptBy_of_mem rfl
    · split
      · exact s.keptBy_none
      · split
        · exact s.keptBy_none
        · exact State.keptBy_of_mem rfl
    · exact s.keptBy_none

theorem execHarvest_carriesOn (page : Option Nat) (part kind router port : Nat) (s : State) :
    s.carriesOn (execHarvest page part kind router port s) := by
  unfold execHarvest
  split
  · exact State.carriesOn_of_mem (State.mem_status ..)
  · split
    case h_1 t made =>
      exact State.carriesOn_next fun inv => State.memInv_of_mem (State.mem_status ..) (s.markHarvested_kept _ _ _ t made inv)
    · exact State.carriesOn_of_mem (State.mem_status ..)

theorem execHandler_carriesOn (page : Option Nat) (part base addr : Nat) (s : State) : s.carriesOn (execHandler page part base addr s) := by
  refine State.carriesOn_command (fun q p => ?_) ..
  change s.keptBy _
  split
  · exact s.keptBy_none
  · split
    · exact s.keptBy_none
    · split
      · exact State.keptBy_of_mem (State.mem_setPart ..)
      · exact s.keptBy_none

theorem takeCommand_carriesOn (page : Option Nat) (r : List Byte) (s : State) : s.carriesOn (takeCommand page r s) := by
  unfold takeCommand
  extract_lets f part code
  clear_value f part code
  split
  · exact State.carriesOn_of_mem (State.mem_status ..)
  · split
    · exact State.carriesOn_of_mem (State.mem_status ..)
    · split
      · exact execQset_carriesOn ..
      · exact execCcset_carriesOn ..
      · exact execCmdCancel_carriesOn ..
      · exact execCmdQuench_carriesOn ..
      · exact execCmdHold_carriesOn ..
      · exact execCmdUnhold_carriesOn ..
      · exact execQlimit_carriesOn ..
      · exact execMsumap_carriesOn ..
      · exact execMigq_carriesOn ..
      · exact execRoots_carriesOn ..
      · exact execInvtlb_carriesOn ..
      · exact execSctpeer_carriesOn ..
      · exact execPstate_carriesOn ..
      · exact execCmdReset_carriesOn ..
      · exact execHarvest_carriesOn ..
      · exact execHandler_carriesOn ..
      · exact State.carriesOn_of_mem (State.mem_status ..)

theorem memInv_nextOr {s t : State} {o : Out} (on : t.carriesOn o) (inv : t.memInv) : (nextOr s o).memInv := by
  obtain ⟨u, rfl, keeps⟩ := on
  exact keeps inv

theorem State.memInv_takeRecord {s : State} (inv : s.memInv) (k : Nat) : (s.takeRecord k).memInv := by
  unfold State.takeRecord
  dsimp only
  split
  · exact State.memInv_ite _ inv (State.memInv_of_mem (State.mem_sendEvent ..) inv)
  · refine memInv_nextOr (takeCommand_carriesOn ..) ?_
    exact inv

end Sys2Proof.Machine
end

section
/-! PROOFS. PROOFS. Memory keeps its form through the debugger, arrivals and the rows of queued copies. -/

namespace Sys2Proof.Machine

open Sys2Proof

/-! ## Memory through the debugger -/

theorem execDebuggerHalt_carriesOn (n : Nat) (s : State) : s.carriesOn (execDebuggerHalt n s) := by
  unfold execDebuggerHalt
  extract_lets c t s1 s2
  split
  · exact s.carriesOn_self
  · have keeps : s2.mem = s.mem := by
      unfold s2
      split <;> rfl
    clear_value s2
    split
    · exact State.carriesOn_of_mem keeps
    · exact State.carriesOn_of_mem keeps

theorem State.memInv_staged {s : State} (inv : s.memInv) (k : Nat) (l : List Byte) :
    ({ s with mem := memPutN s.mem k l } : State).memInv := memPutN_wf inv k l

theorem State.memInv_launched {s : State} (inv : s.memInv) (k : Nat) (l : List Byte) (part queue : Nat) (x : Queue) (last ids : Nat) :
    ((({ s with mem := memPutN s.mem k l } : State).setQueue part queue x).admitted part last ids).memInv :=
  State.memInv_of_mem ((State.mem_admitted ..).trans (State.mem_setQueue ..)) (State.memInv_staged inv k l)

theorem execDbgLaunch_carriesOn (params : List Word) (s : State) : s.carriesOn (execDbgLaunch params s) := by
  unfold execDbgLaunch
  split
  · exact s.carriesOn_self
  case h_2 p _ =>
    refine State.carriesOn_ite _ s.carriesOn_self ?_
    split
    · exact s.carriesOn_self
    · split
      case h_1 s1 ids verdict =>
        exact State.carriesOn_next fun inv => State.memInv_launched (s.considerLaunch_keeps p _ s1 ids verdict inv) ..
      · exact s.carriesOn_self

theorem execRt_carriesOn (code : Nat) (operands : List Byte) (s : State) : s.carriesOn (execRt code operands s) := by
  unfold execRt
  extract_lets k g r s1
  refine State.carriesOn_next fun inv => ?_
  have inv1 : s1.memInv := inv
  exact State.memInv_ite _ (State.memInv_takeRecord inv1 k) inv1

theorem State.carriesOn_display (s : State) (kind unit : Nat) (f : Core → List Word) : s.carriesOn (s.display kind unit f) := by
  unfold State.display
  split
  · exact s.carriesOn_self
  · exact State.carriesOn_of_mem rfl

theorem execLandlog_carriesOn (unit : Nat) (s : State) : s.carriesOn (execLandlog unit s) := by
  unfold execLandlog
  split
  · exact s.carriesOn_self
  · exact s.carriesOn_display ..

theorem execDbgRh_carriesOn (unit region : Nat) (s : State) : s.carriesOn (execDbgRh unit region s) := by
  unfold execDbgRh
  split
  · exact s.carriesOn_self
  · exact s.carriesOn_display ..

theorem execRedlog_carriesOn (unit group lane : Nat) (s : State) : s.carriesOn (execRedlog unit group lane s) := by
  unfold execRedlog
  split
  · exact s.carriesOn_self
  · split
    · exact s.carriesOn_display ..
    · exact s.carriesOn_display ..

/-! ## Memory through arrivals and queued rows -/

theorem execDirectSend_carriesOn (n src : Nat) (data : Vec) (bad : Nat) (s : State) : s.carriesOn (execDirectSend n src data bad s) := by
  have held : ∀ (t : State) (ev : Instr) (d : Option Vec), t.mem = s.mem →
      s.carriesOn (.next (t.holdOr n ev (t.onCore n fun c => { c with arrived := c.arrived ++ [⟨src, d⟩] }))) := fun t ev d mem =>
    State.carriesOn_next fun inv =>
      have inv1 : t.memInv := State.memInv_of_mem mem inv
      State.memInv_holdOr inv1 (State.memInv_of_mem (State.mem_onCore ..) inv1) n ev
  unfold execDirectSend
  extract_lets c part arrive s0 s1 s2
  have mem1 : s1.mem = s.mem := State.mem_payloadErrorBut ..
  have mem2 : s2.mem = s.mem := by
    unfold s2
    split <;> rfl
  clear_value s1 s2
  split
  · exact State.carriesOn_of_mem rfl
  · exact held s1 _ none mem1
  · exact held s _ none rfl
  · exact held s2 _ _ mem2

theorem execCollectiveContribution_carriesOn (id n : Nat) (data : Vec) (bad : Nat) (s : State) :
    s.carriesOn (execCollectiveContribution id n data bad s) := by
  unfold execCollectiveContribution
  split
  · exact s.carriesOn_self
  · split
    extract_lets put
    split
    · exact State.carriesOn_of_mem rfl
    · exact State.carriesOn_of_mem rfl
    · exact State.carriesOn_of_mem (State.mem_payloadErrorBut ..)
    · exact State.carriesOn_of_mem rfl

theorem execCollectiveResult_carriesOn (pkt : CollResult) (n : Nat) (s : State) : s.carriesOn (execCollectiveResult pkt n s) := by
  unfold execCollectiveResult
  extract_lets id
  split
  · exact s.carriesOn_self
  · split
    · exact s.carriesOn_self
    · extract_lets put s0 s1 old d s2
      have mem1 : s1.mem = s.mem := by
        unfold s1
        split <;> rfl
      have mem2 : s2.mem = s.mem := by
        unfold s2
        split <;> exact mem1
      clear_value s1 s2
      split
      · exact State.carriesOn_of_mem rfl
      · exact State.carriesOn_of_mem (State.mem_payloadErrorBut ..)
      · exact State.carriesOn_of_mem ((State.mem_onCore ..).trans mem2)

theorem execCoordinatePacket_carriesOn (node : Nat) (pkt : Packet) (s : State) : s.carriesOn (execCoordinatePacket node pkt s) := by
  unfold execCoordinatePacket
  extract_lets p at_ s0 s1 q d
  have mem1 : s1.mem = s.mem := by
    unfold s1
    split <;> rfl
  clear_value s1 d q
  split
  · exact State.carriesOn_of_mem rfl
  · split
    · exact State.carriesOn_of_mem (State.mem_payloadErrorBut ..)
    · refine State.carriesOn_next fun inv => ?_
      have inv1 : s1.memInv := State.memInv_of_mem mem1 inv
      split
      · split
        case h_1 t away => exact State.memInv_of_mem (State.mem_waitAway away) inv1
        · exact State.memInv_holdOr inv1 (landPacket_memInv (State.memInv_of_mem (State.mem_noteLanding ..) inv1) _ _) _ _
      · exact State.memInv_of_mem (State.mem_noteHeld ..) (landPacket_memInv inv1 _ _)

/-- A row of a queued entry, read out or performed. -/
theorem State.memInv_rowStep {s t : State} (inv : s.memInv) {n : Nat} {head : Bool} {e e1 : QEntry} {perform : Option Nat}
    (done : (match perform with | none => readOutRow s n head e | some bad => performRow s n bad e) = some (t, e1)) : t.memInv := by
  cases perform with
  | none => exact State.memInv_of_mem (State.mem_readOutRow done) inv
  | some bad => exact State.memInv_performRow inv done

theorem execQueuedRowPerform_carriesOn (n slot : Nat) (perform : Option Nat) (s : State) :
    s.carriesOn (execQueuedRowPerform n slot perform s) := by
  unfold execQueuedRowPerform
  extract_lets readOut q cand
  clear_value cand
  split
  · exact s.carriesOn_self
  case h_2 e _ =>
    refine State.carriesOn_ite _ s.carriesOn_self ?_
    split
    · exact s.carriesOn_self
    case h_2 s1 e1 row => exact State.carriesOn_next fun inv => State.memInv_of_mem (State.mem_onCore ..) (State.memInv_rowStep inv row)

theorem execNonTemporalPerform_carriesOn (n i : Nat) (perform : Option Nat) (s : State) :
    s.carriesOn (execNonTemporalPerform n i perform s) := by
  unfold execNonTemporalPerform
  extract_lets readOut
  split
  · exact s.carriesOn_self
  case h_2 e _ =>
    refine State.carriesOn_ite _ s.carriesOn_self ?_
    split
    · exact s.carriesOn_self
    case h_2 s1 e1 row => exact State.carriesOn_next fun inv => State.memInv_of_mem (State.mem_onCore ..) (State.memInv_rowStep inv row)

end Sys2Proof.Machine
end

section
/-! PROOFS. PROOFS. Every instruction and every step answers a next state and keeps the form of memory (O6, O9). -/

namespace Sys2Proof.Machine

open Sys2Proof

/-! ## Every instruction answers a next state and keeps the form of memory -/

/-- The rows of the table that stand in no slot: the events, the commands, the debugger's and the rest. -/
theorem exec_carriesOn_event (i : Instr) (s : State) (event : i.slots = []) : s.carriesOn (exec i s) := by
  cases i
  case iterationBoundary | mtsCsw | mtsVstat | mtsRngpos | mtsRngkey | mtsWdog | mtsRhstat | mtsAsstat | mtsMapstat | mtsStrayn |
    mtsCollide | mtsGtadj | dbgBreak | dbgBreakAll | dbgContinue => exact State.carriesOn_of_mem rfl
  case dbgFq | dbgMtx | dbgLtt | dbgAssay | efdbLoop | dbgGroup =>
    dsimp only [exec, execDbgFq, execDbgMtx, execDbgLtt, execDbgAssay, execEfdbLoop, execDbgGroup]
    exact s.carriesOn_display ..
  case dynamicWaitRelease => exact execDynamicWaitRelease_carriesOn ..
  case barrierRelease => exact execBarrierRelease_carriesOn ..
  case groupStall => exact execGroupStall_carriesOn ..
  case groupResume => exact execGroupResume_carriesOn ..
  case pendingEvent => exact execPendingEvent_carriesOn ..
  case forcedQuench => exact execForcedQuench_carriesOn ..
  case watchdog => exact execWatchdog_carriesOn ..
  case debuggerHalt => exact execDebuggerHalt_carriesOn ..
  case coordinatePacket => exact execCoordinatePacket_carriesOn ..
  case directSend => exact execDirectSend_carriesOn ..
  case collectiveContribution => exact execCollectiveContribution_carriesOn ..
  case collectiveResult => exact execCollectiveResult_carriesOn ..
  case waybillMemoryTransfer => exact execDirectSend_carriesOn ..
  case queuedRowPerform => exact execQueuedRowPerform_carriesOn ..
  case nonTemporalPerform => exact execNonTemporalPerform_carriesOn ..
  case counterIncrement => exact execCounterIncrement_carriesOn ..
  case timeTriggerFire => exact execTimeTriggerFire_carriesOn ..
  case counterInterrupt => exact execCounterInterrupt_carriesOn ..
  case nestedWalk => exact execNestedWalk_carriesOn ..
  case migrationRequest => exact execMigrationRequest_carriesOn ..
  case migrationCopy => exact execMigrationCopy_carriesOn ..
  case reKey => exact execReKey_carriesOn ..
  case patrolScrub => exact execPatrolScrub_carriesOn ..
  case launchRecord => exact execLaunchRecord_carriesOn ..
  case admission => exact execAdmission_carriesOn ..
  case launchStart => exact execLaunchStart_carriesOn ..
  case nodeStart => exact execNodeStart_carriesOn ..
  case handoverStart => exact execHandoverStart_carriesOn ..
  case bankPass => exact execBankPass_carriesOn ..
  case unitComplete => exact execUnitComplete_carriesOn ..
  case completionIncrement => exact execCompletionIncrement_carriesOn ..
  case cancelMark => exact execCancelMark_carriesOn ..
  case restoreStart => exact execRestoreStart_carriesOn ..
  case partitionHalted => exact execPartitionHalted_carriesOn ..
  case emergencyStop => exact execEmergencyStop_carriesOn ..
  case powerGood => exact execPowerGood_carriesOn ..
  case measurementExtension hart reg image => exact execMeasurementExtension_carriesOn hart reg image s
  case firmwareLogRead => exact execFirmwareLogRead_carriesOn ..
  case pstateOnDelay => exact execPstateOnDelay_carriesOn ..
  case sctFrame port vlan flags flow psn pkt => exact execSctFrame_carriesOn port vlan flags flow psn pkt s
  case sctAcknowledgement => exact execSctAcknowledgement_carriesOn ..
  case cumulativeAcknowledgement => exact execCumulativeAcknowledgement_carriesOn ..
  case retransmitTimeout => exact execRetransmitTimeout_carriesOn ..
  case rdmaWrite => exact execRdmaWrite_carriesOn ..
  case rdmaRead => exact execRdmaRead_carriesOn ..
  case roceSendRequest => exact execRoceSendRequest_carriesOn ..
  case roceAtomicRequest => exact execRoceAtomicRequest_carriesOn ..
  case ptpEventMessage => exact execPtpEventMessage_carriesOn ..
  case getVersion => exact execGetVersion_carriesOn ..
  case getCapabilities => exact execGetCapabilities_carriesOn ..
  case negotiateAlgorithms => exact execNegotiateAlgorithms_carriesOn ..
  case getDigests => exact execGetDigests_carriesOn ..
  case getCertificate => exact execGetCertificate_carriesOn ..
  case challenge => exact execChallenge_carriesOn ..
  case getMeasurements => exact execGetMeasurements_carriesOn ..
  case keyExchange => exact execKeyExchange_carriesOn ..
  case finish => exact execFinish_carriesOn ..
  case endSession => exact execEndSession_carriesOn ..
  case qset => exact execQset_carriesOn ..
  case ccset => exact execCcset_carriesOn ..
  case cmdCancel => exact execCmdCancel_carriesOn ..
  case cmdQuench => exact execCmdQuench_carriesOn ..
  case cmdHold => exact execCmdHold_carriesOn ..
  case cmdUnhold => exact execCmdUnhold_carriesOn ..
  case qlimit => exact execQlimit_carriesOn ..
  case msumap => exact execMsumap_carriesOn ..
  case migq => exact execMigq_carriesOn ..
  case roots => exact execRoots_carriesOn ..
  case invtlb => exact execInvtlb_carriesOn ..
  case sctpeer => exact execSctpeer_carriesOn ..
  case pstate => exact execPstate_carriesOn ..
  case cmdReset => exact execCmdReset_carriesOn ..
  case harvest page part kind router port => exact execHarvest_carriesOn page part kind router port s
  case handler => exact execHandler_carriesOn ..
  case dbgLaunch params => exact execDbgLaunch_carriesOn params s
  case rt => exact execRt_carriesOn ..
  case landlog => exact execLandlog_carriesOn ..
  case dbgRh => exact execDbgRh_carriesOn ..
  case redlog => exact execRedlog_carriesOn ..
  case stackOffline => exact execStackOffline_carriesOn ..
  case powerRemoved => exact execPowerRemoved_carriesOn ..
  case partitionFormation => exact execPartitionFormation_carriesOn ..
  case compatibilityMode => exact execCompatibilityMode_carriesOn ..
  case priorityFlowControl => exact execPriorityFlowControl_carriesOn ..
  all_goals cases event

/-- Every instruction answers a next state, with memory in its form where it was. -/
theorem exec_carriesOn (i : Instr) (s : State) : s.carriesOn (exec i s) := by
  by_cases event : i.slots = []
  · exact exec_carriesOn_event i s event
  · by_cases nop : ∃ t, i = .nop t
    · obtain ⟨t, rfl⟩ := nop
      exact s.carriesOn_self
    · exact State.carriesOn_of_quiet (exec_quiet i s event fun t e => nop ⟨t, e⟩)

/-! ## Memory through what comes to the package -/

@[simp] theorem State.mem_putPageByte (s : State) (k o : Nat) (b : Byte) : (s.putPageByte k o b).mem = s.mem := by
  unfold State.putPageByte
  dsimp only
  split
  · split <;> rfl
  · split
    · rfl
    · split <;> rfl

/-- A firmware register written, or not. -/
theorem State.memInv_putFirmware_if {s : State} (inv : s.memInv) (p : Prop) [Decidable p] (n : Nat) (v : Word) :
    (if p then s.putFirmware n v else s).memInv := State.memInv_ite p (State.memInv_of_mem (s.mem_putFirmware n v) inv) inv

theorem State.memInv_droverStore {s : State} (inv : s.memInv) (machine : Bool) (part a : Nat) (l : List Byte) :
    (s.droverStore machine part a l).memInv := by
  unfold State.droverStore
  refine State.memInv_ite _ ?_ (State.memInv_ite _ (State.memInv_devWrite inv _ _ _) (State.memInv_ite _ (State.memInv_writeKey inv _ _) inv))
  cases ctlRegister a with
  | some n => exact State.memInv_putFirmware_if inv _ ..
  | none =>
    refine State.memInv_foldl (fun t x held => ?_) _ inv
    cases ctlPage (a + x.2) with
    | some _ => exact State.memInv_of_mem (State.mem_putPageByte ..) held
    | none => exact held

theorem State.memInv_frameAt {s : State} (inv : s.memInv) (port : Nat) (b : List Byte) : (s.frameAt port b).memInv := by
  unfold State.frameAt
  split
  · exact inv
  · extract_lets s1
    have inv1 : s1.memInv := memInv_nextOr (execSctAcknowledgement_carriesOn ..) inv
    exact State.memInv_ite _ inv1 inv1

theorem State.memInv_request {s : State} (inv : s.memInv) (qp : Nat) (psn : BitVec 24) (ev : Instr) : (s.request qp psn ev).memInv := by
  have answered : ∀ o, (s.reply qp o).memInv := fun o => State.memInv_of_mem (State.mem_reply ..) inv
  unfold State.request
  extract_lets q ahead
  split
  · exact State.memInv_ite _ (memInv_nextOr (execRdmaWrite_carriesOn ..) inv) (State.memInv_ite _ (answered _) (answered _))
  · refine State.memInv_ite _ (memInv_nextOr (execRdmaRead_carriesOn ..) inv) (State.memInv_ite _ (answered _) ?_)
    split
    · exact answered _
    · exact State.memInv_of_mem (State.mem_refused ..) inv
  · exact memInv_nextOr (execRoceSendRequest_carriesOn ..) inv
  · exact memInv_nextOr (execRoceAtomicRequest_carriesOn ..) inv
  · exact inv

theorem State.memInv_take {s : State} (inv : s.memInv) (f : Feed) : (s.take f).memInv := by
  cases f with
  | store machine part a l => exact State.memInv_droverStore inv _ _ _ _
  | frame port b => exact State.memInv_frameAt inv _ _
  | rdma qp psn ev => exact State.memInv_request inv _ _ _
  | load | queuePair | spdmAddress | flitError | image => exact inv

theorem State.memInv_feedNow {s : State} (inv : s.memInv) : s.feedNow.memInv := by
  unfold State.feedNow
  extract_lets now s1
  exact State.memInv_ite _ inv (State.memInv_foldl (fun _ _ held => State.memInv_take held _) now (s := s1) inv)

/-! ## Memory through a cycle -/

@[simp] theorem State.mem_clock (s : State) : s.clock.mem = s.mem := by
  unfold State.clock
  dsimp only
  split
  · rfl
  · split <;> rfl

@[simp] theorem State.mem_gate (s : State) : s.gate.mem = s.mem := rfl
@[simp] theorem State.mem_inputs (s : State) (pick : Instr → Bool) : (s.inputs pick).mem = s.mem := rfl
@[simp] theorem State.mem_resumes (s : State) : s.resumes.mem = s.mem := rfl

@[simp] theorem State.mem_restarts (s : State) : s.restarts.mem = s.mem :=
  (State.mem_foldl (fun t n => t.mem_onCore n (Core.restartNow t.mem n)) _ s :)

@[simp] theorem State.mem_allLanes (s : State) : s.allLanes.mem = s.mem := by
  refine State.mem_foldl (fun t x => ?_) _ s
  split
  · rfl
  · exact State.mem_lanes ..

/-- Time, the fabric, restarts and the stops that come before a cycle. -/
theorem State.mem_beforeFeed (s : State) :
    ((s.clock.gate.allLanes.restarts.barrierStalls.softTraps.lateQueues.waitQuench.spread false).resumes.results).mem = s.mem := by
  simp only [mem_results, mem_resumes, mem_spread, mem_waitQuench, mem_lateQueues, mem_softTraps, mem_barrierStalls, mem_restarts, mem_allLanes,
    mem_gate, mem_clock]

theorem State.memInv_begin {s : State} (inv : s.memInv) : s.begin_.memInv := by
  unfold State.begin_
  extract_lets s1 s2
  have inv1 : ((s1.spread false).resumes.results).memInv := State.memInv_of_mem (State.mem_beforeFeed { s with undo := [] }) inv
  clear_value s1
  have inv2 : s2.memInv :=
    State.memInv_of_mem ((State.mem_quenchLimits _).trans ((State.mem_watchdogs _).trans (State.mem_inputs _ _))) (State.memInv_feedNow inv1)
  exact inv2

theorem State.memInv_stopAtFetch {s : State} (inv : s.memInv) (n : Nat) : (s.stopAtFetch n).memInv := by
  unfold State.stopAtFetch
  extract_lets t
  split
  · obtain ⟨u, next, keeps⟩ := exec_carriesOn (.debuggerHalt n) t
    rw [next]
    exact keeps inv
  · cases stop : s.fetchStop n with
    | none => exact inv
    | some u => exact State.memInv_of_mem (State.mem_fetchStop stop) inv

theorem State.memInv_timed {s : State} (inv : s.memInv) : s.timed.memInv := by
  unfold State.timed
  extract_lets s1 stops waits
  exact State.memInv_ite _ (State.memInv_tick inv _)
    (State.memInv_tick (State.memInv_foldl (fun _ n held => State.memInv_stopAtFetch held n) stops inv) _)

theorem State.memInv_forced {s : State} (inv : s.memInv) : s.forced.memInv := by
  unfold State.forced
  extract_lets s1
  have fired : (s.timed.spread false).fireArmed.memInv :=
    State.memInv_of_mem ((State.mem_fireArmed _).trans (State.mem_spread ..)) (State.memInv_timed inv)
  have inv1 : s1.memInv := State.memInv_phantomFaults fired
  clear_value s1
  exact inv1

@[simp] theorem State.mem_nextIssue (s : State) (rest : List Nat) : (s.nextIssue rest).mem = s.mem := rfl

@[simp] theorem State.mem_executed (s : State) (n k : Nat) (rest : List Nat) : (s.executed n k rest).mem = s.mem := by
  unfold State.executed
  dsimp only
  split <;> exact State.mem_afterSlot ..

@[simp] theorem State.mem_packed (s : State) (n : Nat) (rest : List Nat) : (s.packed n rest).mem = s.mem := by
  unfold State.packed
  dsimp only
  split <;> exact State.mem_bundle ..

theorem State.carriesOn_mapNext {s t : State} {o : Out} {f : State → State} (keeps : ∀ u, (f u).mem = u.mem) (mem : t.mem = s.mem)
    (on : t.carriesOn o) : s.carriesOn (mapNext f o) := by
  obtain ⟨u, rfl, held⟩ := on
  exact State.carriesOn_next fun inv => State.memInv_of_mem (keeps u) (held (State.memInv_of_mem mem inv))

theorem issueStep_carriesOn (n : Nat) (rest : List Nat) (s : State) : s.carriesOn (issueStep n rest s) := by
  unfold issueStep
  extract_lets c
  split
  · split
    · exact State.carriesOn_of_mem (State.mem_endBundle ..)
    · dsimp only
      split
      · exact State.carriesOn_mapNext (fun u => u.mem_executed n _ rest) rfl (exec_carriesOn ..)
      · exact State.carriesOn_mapNext (fun u => u.mem_executed n _ rest) rfl (State.carriesOn_of_mem rfl)
  · split
    · refine State.carriesOn_mapNext (t := s.setCore n { c with pass := false }) (fun u => u.mem_packed n rest) rfl ?_
      split
      · exact exec_carriesOn ..
      · exact State.carriesOn_of_mem rfl
    · split
      · exact State.carriesOn_of_mem rfl
      · refine State.carriesOn_of_mem ?_
        split <;> exact State.mem_fetch ..

theorem State.memInv_finish {s : State} (inv : s.memInv) : s.finish.memInv := by
  have ended : s.unpause.sendAll.endColls.memInv :=
    State.memInv_of_mem ((State.mem_endColls _).trans ((State.mem_sendAll _).trans (State.mem_unpause s))) inv
  exact State.memInv_releaseWrites (State.memInv_finishCores ended)

theorem State.memInv_freeStep {s : State} (inv : s.memInv) : s.freeStep.memInv := by
  unfold State.freeStep
  extract_lets s1 l s2 k
  have inv1 : s1.memInv := State.memInv_of_mem (State.mem_finishBounds s) inv
  refine State.memInv_ite _ inv1 ?_
  split
  · exact inv1
  · split
    · exact State.memInv_takeRecord (s := s2) inv1 _
    · exact State.memInv_of_mem (State.mem_settle s2) inv1

theorem phaseStep_carriesOn (s : State) : s.carriesOn (phaseStep s) := by
  unfold phaseStep
  split
  · exact State.carriesOn_next State.memInv_begin
  · exact State.carriesOn_next State.memInv_forced
  · exact issueStep_carriesOn ..
  · exact State.carriesOn_of_mem rfl
  · exact State.carriesOn_next State.memInv_finish
  · exact State.carriesOn_next State.memInv_freeStep

/-- A step of a state that names only cores of the package. -/
theorem step_carriesOn {s : State} (named : s.coresNamed) : s.carriesOn (step s) := by
  rw [step_of_coresNamed named]
  split
  · exact exec_carriesOn _ s.popAgenda
  · exact phaseStep_carriesOn s

/-- Settles O6: every outcome of an instruction and of a step is a next state. -/
theorem everyInstructionAnswers : Obligations.EveryInstructionAnswers := by
  unfold Obligations.EveryInstructionAnswers
  refine ⟨fun i s => ?_, fun s named => ?_⟩
  · obtain ⟨t, next, -⟩ := exec_carriesOn i s
    exact ⟨t, next⟩
  · obtain ⟨t, next, -⟩ := step_carriesOn named
    exact ⟨t, next⟩

/-- A state that names a core which the package does not have takes no step. -/
theorem coresNamed_of_step {s t : State} (next : step s = .next t) : s.coresNamed := by
  by_contra unnamed
  have outside : s.cores.any (fun x => decide (16384 ≤ x.1)) = true := by
    simpa [State.coresNamed] using unnamed
  rw [step, if_pos outside] at next
  cases next

/-- Settles O9: an invariant of every instruction and of every phase of a cycle. -/
theorem stepKeepsMemoryForm : Obligations.StepKeepsMemoryForm := by
  unfold Obligations.StepKeepsMemoryForm
  intro s t inv next
  obtain ⟨u, same, keeps⟩ := step_carriesOn (coresNamed_of_step next)
  cases same.symm.trans next
  exact keeps inv

end Sys2Proof.Machine
end

section
/-! PROOFS. PROOFS. Taking a trap and returning from one (O47). -/

namespace Sys2Proof.Machine

open Sys2Proof

/-! ## Taking a trap and returning from one -/

/-- A context with other progress registers. -/
def Ctx.withProgs (x : Ctx) (m v2 v3 ca cb as_ cm : BitVec 32) : Ctx :=
  { x with progM := m, progV2 := v2, progV3 := v3, progCA := ca, progCB := cb, progAS := as_, progCm := cm }

theorem Ctx.setProg_withProgs (x : Ctx) (m v2 v3 ca cb as_ cm v : BitVec 32) (i : Nat) :
    ∃ a b c d e f g, (x.withProgs m v2 v3 ca cb as_ cm).setProg i v = x.withProgs a b c d e f g := by
  unfold Ctx.setProg
  split <;> exact ⟨_, _, _, _, _, _, _, rfl⟩

/-- Storing the progress registers leaves every other field. -/
theorem Ctx.storeProgs_eq (x : Ctx) : ∃ a b c d e f g, x.storeProgs = x.withProgs a b c d e f g := by
  suffices all : ∀ (l : List Nat) (y : Ctx), (∃ a b c d e f g, y = x.withProgs a b c d e f g) →
      ∃ a b c d e f g, l.foldl (fun y i => y.setProg i (x.prog i)) y = x.withProgs a b c d e f g from
    all _ x ⟨x.progM, x.progV2, x.progV3, x.progCA, x.progCB, x.progAS, x.progCm, rfl⟩
  intro l
  induction l with
  | nil => exact fun _ same => same
  | cons i l ih =>
    rintro _ ⟨a, b, c, d, e, f, g, rfl⟩
    exact ih _ (x.setProg_withProgs ..)

/-- A stopped RHSIG's sums are held with the regions, and nothing else changes. -/
theorem Core.holdReheat_eq (c : Core) : ∃ m, c.holdReheat = { c with reheat := m } := by
  suffices all : ∀ (l : List Macro) (d : Core), (∃ m, d = { c with reheat := m }) → ∃ m, (l.foldl (fun c m =>
      match m.work with
      | .rhsig r _ _ sums mx rec_ =>
        match Map.get? c.reheat r with
        | some g => { c with reheat := Map.put c.reheat r { g with sums := sums, maxm := mx, rec_ := rec_ } }
        | none => c
      | _ => c) d) = { c with reheat := m } from all _ c ⟨c.reheat, rfl⟩
  intro l
  induction l with
  | nil => exact fun _ same => same
  | cons w l ih =>
    rintro _ ⟨m, rfl⟩
    refine ih _ ?_
    dsimp only
    split
    · split
      · exact ⟨_, rfl⟩
      · exact ⟨m, rfl⟩
    · exact ⟨m, rfl⟩

theorem causeOf_fields {t : Trap} (code : t.code < 256) (orig : t.orig < 16) :
    (causeOf t).extractLsb' 0 8 = BitVec.ofNat 8 t.code ∧ (causeOf t).extractLsb' 8 4 = BitVec.ofNat 4 t.orig ∧
      (causeOf t).getLsbD 12 = t.late ∧ (causeOf t).extractLsb' 13 51 = 0 := by
  have late : (if t.late then 4096 else 0) = 4096 * t.late.toNat := by cases t.late <;> rfl
  have bit : t.late.toNat < 2 := t.late.toNat_lt
  have fits : t.code + t.orig * 256 + 4096 * t.late.toNat < 2 ^ 64 := by omega
  rw [causeOf, late]
  refine ⟨?_, ?_, ?_, ?_⟩
  · rw [extractLsb'_ofNat fits]
    exact ofNat_congr_mod (by omega)
  · rw [extractLsb'_ofNat fits]
    exact ofNat_congr_mod (by omega)
  · rw [BitVec.getLsbD_ofNat, Nat.testBit_eq_decide_div_mod_eq]
    have top : (t.code + t.orig * 256 + 4096 * t.late.toNat) / 2 ^ 12 % 2 = t.late.toNat := by omega
    rw [top]
    cases t.late <;> rfl
  · rw [extractLsb'_ofNat fits]
    have none : (t.code + t.orig * 256 + 4096 * t.late.toNat) / 2 ^ 13 = 0 := by omega
    rw [none]
    rfl

/-- The number that EPC holds of a transfer. -/
def jumpField (jump : Option Word) : Nat := match jump with | some t => 1 + t.toNat % 2 ^ 17 * 2 | none => 0

theorem epcOf_eq (pc : Word) (rep : BitVec 7) (jump : Option Word) :
    epcOf pc rep jump = BitVec.ofNat 64 (pc.toNat % 2 ^ 17 + rep.toNat * 2 ^ 17 + jumpField jump * 2 ^ 24) := by
  unfold epcOf jumpField
  cases jump
  · rfl
  · refine congrArg (BitVec.ofNat 64) ?_
    dsimp only
    omega

theorem jumpField_lt (jump : Option Word) : jumpField jump < 2 ^ 18 := by
  unfold jumpField
  split <;> omega

theorem epcOf_fields (pc : Word) (rep : BitVec 7) (jump : Option Word) :
    (epcOf pc rep jump).extractLsb' 0 17 = pc.setWidth 17 ∧ (epcOf pc rep jump).extractLsb' 17 7 = rep ∧
      (epcOf pc rep jump).getLsbD 24 = jump.isSome ∧ ∀ j, jump = some j → (epcOf pc rep jump).extractLsb' 25 17 = j.setWidth 17 := by
  have size := jumpField_lt jump
  have reps := rep.isLt
  have fits : pc.toNat % 2 ^ 17 + rep.toNat * 2 ^ 17 + jumpField jump * 2 ^ 24 < 2 ^ 64 := by omega
  rw [epcOf_eq]
  refine ⟨?_, ?_, ?_, ?_⟩
  · rw [extractLsb'_ofNat fits, ← BitVec.ofNat_toNat]
    exact ofNat_congr_mod (by omega)
  · rw [extractLsb'_ofNat fits]
    have same : (pc.toNat % 2 ^ 17 + rep.toNat * 2 ^ 17 + jumpField jump * 2 ^ 24) / 2 ^ 17 % 2 ^ 7 = rep.toNat := by omega
    exact BitVec.eq_of_toNat_eq (by rw [BitVec.toNat_ofNat, same])
  · rw [BitVec.getLsbD_ofNat, Nat.testBit_eq_decide_div_mod_eq]
    have field : (pc.toNat % 2 ^ 17 + rep.toNat * 2 ^ 17 + jumpField jump * 2 ^ 24) / 2 ^ 24 % 2 = jumpField jump % 2 := by omega
    rw [field]
    cases jump
    · rfl
    · simp [jumpField]
  · rintro j rfl
    rw [extractLsb'_ofNat fits, ← BitVec.ofNat_toNat]
    refine ofNat_congr_mod ?_
    have whole : jumpField (some j) = 1 + j.toNat % 2 ^ 17 * 2 := rfl
    rw [whole]
    omega

/-- The context that a trap leaves held: the registers of the trap, and every other field as it stood but the progress registers. -/
def Core.trapped (c : Core) (clk sres : Nat) (t : Trap) (pc : Word) (rep : BitVec 7) : Ctx :=
  { c.ctx with
    cause := causeOf t, fval := t.fval, felem := t.felem
    epc := epcOf pc rep c.ctx.ctl.jump
    sres := BitVec.ofNat 3 sres
    qreq := c.ctx.qreq && t.code != cQUENCH
    clk := clk, pc := pc, rep := rep, mode := c.mode }

theorem Core.takeTrap_held {c : Core} (free : c.tm = false) (tick clk sres : Nat) (t : Trap) (pc : Word) (rep : BitVec 7) :
    (c.takeTrap tick clk sres t pc rep).held = some (c.trapped clk sres t pc rep).storeProgs := by
  rw [Core.takeTrap, free]
  rfl

/-- The core that a trap with TM clear leaves. -/
theorem Core.takeTrap_fields {c : Core} (free : c.tm = false) (tick clk sres : Nat) (t : Trap) (pc : Word) (rep : BitVec 7) :
    let d := c.takeTrap tick clk sres t pc rep
    d.mode = 1 ∧ d.tm = true ∧ d.sh = true ∧ d.run = .run ∧ d.holdTo = tick + 4 ∧ d.line = none ∧
      d.ctx.pc = BitVec.ofNat 64 (c.hvec.toNat % 2 ^ 17) ∧ d.ctx.items = [] ∧ d.ctx.macros = [] ∧ d.ctx.s = c.ctx.s ∧ d.ctx.p = c.ctx.p ∧
      d.v = c.v ∧ d.k = c.k ∧ d.tiles = c.tiles ∧ d.qa = c.qa ∧ d.qb = c.qb := by
  obtain ⟨m, hold⟩ := c.holdReheat_eq
  obtain ⟨p0, p1, p2, p3, p4, p5, p6, store⟩ := (c.trapped clk sres t pc rep).storeProgs_eq
  unfold Core.trapped at store
  rw [Core.takeTrap, free, hold]
  dsimp only
  rw [store]
  simp only [Bool.false_eq_true, if_false, Ctx.withProgs, and_self]

/-- The registers that an interrupted context holds (R245, R247). -/
theorem Core.takeTrap_snapshot {c : Core} (free : c.tm = false) (tick clk sres : Nat) (t : Trap) (pc : Word) (rep : BitVec 7) :
    ∃ x, (c.takeTrap tick clk sres t pc rep).held = some x ∧ x.items = c.ctx.items ∧ x.macros = c.ctx.macros ∧ x.mx = c.ctx.mx ∧
      x.s = c.ctx.s ∧ x.p = c.ctx.p ∧ x.vstat = c.ctx.vstat ∧ x.mode = c.mode ∧ x.clk = clk ∧ x.pc = pc ∧ x.rep = rep ∧ x.fval = t.fval ∧
      x.felem = t.felem ∧ x.sres = BitVec.ofNat 3 sres ∧ x.qreq = (c.ctx.qreq && decide (t.code ≠ cQUENCH)) ∧ x.cause = causeOf t ∧
      x.epc = epcOf pc rep c.ctx.ctl.jump := by
  obtain ⟨p0, p1, p2, p3, p4, p5, p6, store⟩ := (c.trapped clk sres t pc rep).storeProgs_eq
  refine ⟨_, Core.takeTrap_held free tick clk sres t pc rep, ?_⟩
  rw [store]
  refine ⟨rfl, rfl, rfl, rfl, rfl, rfl, rfl, rfl, rfl, rfl, rfl, rfl, rfl, ?_, rfl, rfl⟩
  exact congrArg (c.ctx.qreq && ·) (by by_cases quench : t.code = cQUENCH <;> simp [quench])

theorem Ctx.refill_of_full {x : Ctx} (full : x.lQD = false) : x.refill = x := by
  rw [Ctx.refill, full]
  rfl

/-- Refilling a loop changes its stages, and no scalar, delay line or place. -/
theorem Ctx.refill_fields (x : Ctx) : x.refill.s = x.s ∧ x.refill.items = x.items ∧ x.refill.vstat = x.vstat ∧ x.refill.pc = x.pc ∧
    x.refill.rep = x.rep ∧ x.refill.ctl = x.ctl := by
  unfold Ctx.refill
  split <;> exact ⟨rfl, rfl, rfl, rfl, rfl, rfl⟩

/-- The context that a return makes live, before its loop refills (R77, R220). -/
def Ctx.returned (x : Ctx) : Ctx :=
  Ctx.loadProgs { x with
    pc := (x.epc.extractLsb' 0 17).setWidth 64
    rep := x.epc.extractLsb' 17 7
    ctl := { x.ctl with
      jump := if x.epc.getLsbD 24 then some ((x.epc.extractLsb' 25 17).setWidth 64) else none
      fin := [], soft := x.ctl.soft.filter fun t => !t.pends } }

theorem Core.ctx_eret (mode : BitVec 2) (c : Core) (x : Ctx) : (c.eret mode x).ctx = x.returned.refill := rfl

/-- A trap and its return, with no loop drained by a quench. -/
theorem Core.eret_takeTrap {c : Core} {pc : Word} (free : c.tm = false) (low : pc.toNat < 2 ^ 17) (full : c.ctx.lQD = false)
    (tick clk sres : Nat) (t : Trap) (rep : BitVec 7) {x : Ctx} (held : (c.takeTrap tick clk sres t pc rep).held = some x) :
    x.mode = c.mode ∧
    let y := ((c.takeTrap tick clk sres t pc rep).eret x.mode x).ctx
    y.pc = pc ∧ y.rep = rep ∧ y.s = c.ctx.s ∧ y.p = c.ctx.p ∧ y.items = c.ctx.items ∧ y.lcnt = c.ctx.lcnt ∧ y.lrot = c.ctx.lrot ∧
      y.la = c.ctx.la ∧ y.vstat = c.ctx.vstat ∧ y.vrm = c.ctx.vrm := by
  obtain ⟨p0, p1, p2, p3, p4, p5, p6, store⟩ := (c.trapped clk sres t pc rep).storeProgs_eq
  cases held.symm.trans (Core.takeTrap_held free tick clk sres t pc rep)
  obtain ⟨place, reps, -, -⟩ := epcOf_fields pc rep c.ctx.ctl.jump
  rw [Core.ctx_eret, store]
  have kept : ((c.trapped clk sres t pc rep).withProgs p0 p1 p2 p3 p4 p5 p6).returned.lQD = false := full
  refine ⟨rfl, ?_⟩
  rw [Ctx.refill_of_full kept]
  refine ⟨?_, reps, rfl, rfl, rfl, rfl, rfl, rfl, rfl, rfl⟩
  have same : ((c.trapped clk sres t pc rep).withProgs p0 p1 p2 p3 p4 p5 p6).returned.pc =
      ((epcOf pc rep c.ctx.ctl.jump).extractLsb' 0 17).setWidth 64 := rfl
  rw [same, place]
  exact BitVec.eq_of_toNat_eq (by
    rw [BitVec.toNat_setWidth, BitVec.toNat_setWidth, Nat.mod_eq_of_lt low, Nat.mod_eq_of_lt pc.isLt])

/-- Settles O47: the fields of `Core.takeTrap` and of `Core.eret`, and both in a row. -/
theorem trapEntryAndReturn : Obligations.TrapEntryAndReturn := by
  unfold Obligations.TrapEntryAndReturn
  refine ⟨?_, ?_, ?_⟩
  · intro c tick clk sres t pc rep d
    refine ⟨fun free => ?_, fun double => Core.takeTrap_double double tick clk sres t pc rep⟩
    obtain ⟨mode, tm, sh, run, hold, line, at_, items, macros, ss, ps, v, k, tiles, qa, qb⟩ := Core.takeTrap_fields free tick clk sres t pc rep
    obtain ⟨x, held, items', macros', mx, s', p', vstat, mode', clk', pc', rep', fval, felem, sres', qreq, cause, epc⟩ :=
      Core.takeTrap_snapshot free tick clk sres t pc rep
    refine ⟨mode, tm, sh, run, hold, line, at_, items, macros, ss, ps, v, k, tiles, qa, qb, x, held, items', macros', mx, s', p', vstat, mode', clk',
      pc', rep', fval, felem, sres', qreq, fun code orig => ?_, ?_⟩
    · rw [cause]
      exact causeOf_fields code orig
    · rw [epc]
      exact epcOf_fields pc rep c.ctx.ctl.jump
  · intro c x mode d
    obtain ⟨ss, items, vstat, place, rep, ctl⟩ := x.returned.refill_fields
    refine ⟨rfl, rfl, rfl, rfl, rfl, ss, items, vstat, place, rep, congrArg Ctl.jump ctl, fun full => ?_, rfl, rfl, rfl⟩
    have kept : x.returned.lQD = false := full
    exact (congrArg Ctx.p (Ctx.refill_of_full kept) : x.returned.refill.p = x.returned.p)
  · intro c tick clk sres t pc rep x free low full held d
    obtain ⟨mode, fields⟩ := Core.eret_takeTrap free low full tick clk sres t rep held
    obtain ⟨place, rep', ss, ps, items, lcnt, lrot, la, vstat, vrm⟩ := fields
    obtain ⟨-, -, -, -, -, -, -, -, -, -, -, v, k, tiles, -, -⟩ := Core.takeTrap_fields free tick clk sres t pc rep
    exact ⟨mode, rfl, place, rep', ss, ps, items, lcnt, lrot, la, vstat, vrm, v, k, tiles⟩

end Sys2Proof.Machine
end

section
/-! PROOFS. PROOFS. Units complete, are counted once, and end their launch (O54). -/

namespace Sys2Proof.Machine

open Sys2Proof

/-! ## Units that complete -/

/-- A fold whose every step leaves all of a state but its partitions does so too. -/
theorem State.foldl_parts {α : Type} {f : State → α → State} (keeps : ∀ s a, ∃ ps, f s a = { s with parts := ps }) (l : List α) (s : State) :
    ∃ ps, l.foldl f s = { s with parts := ps } := by
  induction l generalizing s with
  | nil => exact ⟨s.parts, rfl⟩
  | cons a l ih =>
    obtain ⟨ps, one⟩ := keeps s a
    obtain ⟨qs, rest⟩ := ih { s with parts := ps }
    exact ⟨qs, by rw [List.foldl_cons, one, rest]⟩

/-- A counter that is added to, with all that chains from it, changes its partition alone. -/
theorem bumpCounter_parts (fuel part cc amt : Nat) (s : State) : ∃ ps, bumpCounter fuel part cc amt s = { s with parts := ps } := by
  induction fuel generalizing cc amt s with
  | zero => exact ⟨s.parts, rfl⟩
  | succ f ih =>
    unfold bumpCounter
    split
    · exact ⟨s.parts, rfl⟩
    case h_2 p _ =>
      have fired : ∀ (l : List Nat) (t : State), ∃ ps, l.foldl (fun s slot =>
          match (Map.get? s.parts part).bind fun p => (Map.get? p.triggers slot).map fun t => (p, t) with
          | some (p, .counter _ _ target) => bumpCounter f part target 1 (s.setPart part { p with triggers := Map.del p.triggers slot })
          | _ => s) t = { t with parts := ps } := fun l t => by
        refine State.foldl_parts (fun u slot => ?_) l t
        split
        · exact ih ..
        · exact ⟨u.parts, rfl⟩
      extract_lets k v k1 s1 s2 crossed
      have keeps : ∃ ps, s2 = { s with parts := ps } := fired _ s1
      clear_value s2
      obtain ⟨ps, rfl⟩ := keeps
      split
      · split
        · exact ⟨ps, rfl⟩
        · exact ih ..
      · exact ⟨ps, rfl⟩

theorem State.bump_parts (s : State) (part cc amt : Nat) : ∃ ps, s.bump part cc amt = { s with parts := ps } := bumpCounter_parts ..

theorem State.core_onCore (s : State) (n : Nat) (f : Core → Core) : (s.onCore n f).core n = f (s.core n) := State.core_setCore ..

theorem State.core_onCore_other (s : State) {n m : Nat} (f : Core → Core) (other : m ≠ n) : (s.onCore n f).core m = s.core m :=
  State.core_setCore_other _ _ other

/-- Marking a member absent changes its timing group alone. -/
theorem State.markAbsent_groups (s : State) (group node : Nat) : ∃ gs, s.markAbsent group node = { s with groups := gs } := by
  unfold State.markAbsent
  split
  · exact ⟨_, rfl⟩
  · exact ⟨s.groups, rfl⟩

theorem Core.run_of_drained {c : Core} (drained : c.drained = true) : c.run = .drain := by
  simp only [Core.drained, Bool.and_eq_true, beq_iff_eq] at drained
  exact drained.1.1.1.1.1.1.1.1

/-- A unit in tenant mode that has drained, of a launch that no unit has vacated. -/
theorem exec_unitComplete {s : State} {n : Nat} {l : Launch} (found : Map.get? s.launches (s.core n).launch = some l)
    (drained : (s.core n).drained = true) (tenant : (s.core n).mode = 0) (stays : l.vacatedUnits = []) :
    exec (.unitComplete n) s = .next (((s.freeCore n).markAbsent (s.core n).group (l.nodeOf (s.core n).unitId.toNat)).setLaunch (s.core n).launch
      { l with
        doneUnits := l.doneUnits ++ [(s.core n).unitId.toNat]
        covers := Map.put l.covers (s.core n).unitId.toNat (n, s.sentBy n) }) := by
  change execUnitComplete n s = _
  have remains : ((s.core n).run == .drain && (s.core n).mode != 0 && (s.core n).saved.isSome) = false := by
    rw [tenant]
    simp
  simp only [execUnitComplete, found, remains, drained, stays, Bool.or_true, Bool.not_true, Bool.false_eq_true, if_false, List.isEmpty_nil,
    Bool.false_and]

/-- The launch to which a cluster passes when the launch on it ends (R301, R302). -/
def State.inherits (s : State) (key : Nat) (l : Launch) (x : Nat) : Option Nat :=
  (s.heir key l).bind fun y => if (rectangle y.2.row y.2.col y.2.rows y.2.cols).contains x then some y.1 else none

theorem State.busy_passClusters (s : State) (key : Nat) (l : Launch) {x : Nat} (mine : (s.cluster x).busy = some key) :
    ((s.passClusters key l).cluster x).busy = s.inherits key l x := by
  unfold State.cluster Map.get at mine ⊢
  have mapped := Map.get?_map_value (fun y : Nat × Cluster =>
    if y.2.busy = some key then (y.1, { y.2 with busy := s.inherits key l y.1 }) else y) (fun y => by dsimp only; split <;> rfl) s.clusters x
  cases found : Map.get? s.clusters x with
  | none =>
    rw [found] at mine
    cases mine
  | some c =>
    rw [found] at mine mapped
    have busy : c.busy = some key := mine
    refine (congrArg (fun o : Option Cluster => (o.getD ⟨none, none, none, false, []⟩).busy) mapped).trans ?_
    simp only [Option.map_some, Option.getD_some, if_pos busy]

/-- The state that the completion of a launch leaves before its counters: its clusters pass on and its timing groups are gone. -/
def State.launchDone (s : State) (key : Nat) (l : Launch) : State :=
  let t := (s.setLaunch key { l with st := .done }).passClusters key l
  { t with groups := t.groups.filter fun g => g.2.launch != key }

theorem exec_completionIncrement_last {s : State} {key : Nat} {l : Launch} (found : Map.get? s.launches key = some l)
    (resident : l.st = .resident) (all : l.counted.length = l.units) (single : l.replay = none) :
    ∃ ps, exec (.completionIncrement key none) s = .next { s.launchDone key l with parts := ps } := by
  have ended : exec (.completionIncrement key none) s =
      .next (match l.ccl with | some cc => (s.launchDone key l).bump l.part cc 1 | none => s.launchDone key l) := by
    change execCompletionIncrement key none s = _
    simp only [execCompletionIncrement, found, resident, all, bne_self_eq_false, Bool.or_self, Bool.false_eq_true, if_false]
    split
    case h_1 replayed => cases single.symm.trans replayed
    · rfl
  cases counter : l.ccl with
  | none =>
    rw [counter] at ended
    exact ⟨_, ended⟩
  | some cc =>
    obtain ⟨ps, bumped⟩ := (s.launchDone key l).bump_parts l.part cc 1
    rw [counter] at ended
    exact ⟨ps, ended.trans (congrArg Host.Outcome.next bumped)⟩

/-- Settles O54: `exec_unitComplete`, `exec_completionIncrement_last` and `State.busy_passClusters` together. -/
theorem unitsComplete : Obligations.UnitsComplete := by
  unfold Obligations.UnitsComplete
  intro s n key u l found
  refine ⟨?_, ?_, ?_⟩
  · rintro rfl drained tenant stays small
    obtain ⟨gs, mark⟩ := (s.freeCore n).markAbsent_groups (s.core n).group (l.nodeOf (s.core n).unitId.toNat)
    have freed : s.freeCore n = s.onCore n fun c => if c.run == .dead then { c with launch := 0 } else c.freed := if_neg (by omega)
    have left : ∀ m, (((s.freeCore n).markAbsent (s.core n).group (l.nodeOf (s.core n).unitId.toNat)).core m) = (s.freeCore n).core m := fun m => by
      rw [mark]
      rfl
    refine ⟨_, _, exec_unitComplete found drained tenant stays, ?_, ?_, fun m other => ?_, Map.get?_put_self .., rfl⟩
    · exact (State.mem_setLaunch ..).trans ((State.mem_markAbsent ..).trans (s.mem_freeCore n))
    · refine (congrArg Core.run (left n)).trans ?_
      rw [freed, s.core_onCore, Core.run_of_drained drained]
      rfl
    · refine (left m).trans ?_
      rw [freed]
      exact s.core_onCore_other _ other
  · intro uncounted covered
    change execCompletionIncrement key (some u) s = _
    simp only [execCompletionIncrement, found, uncounted, covered, Bool.not_true, Bool.or_false, Bool.false_eq_true, if_false] <;> rfl
  · intro resident all single
    obtain ⟨ps, ended⟩ := exec_completionIncrement_last found resident all single
    exact ⟨_, _, ended, Map.get?_put_self .., rfl, rfl, rfl, fun x mine => (s.setLaunch key { l with st := .done }).busy_passClusters key l mine⟩

end Sys2Proof.Machine
end

section
/-! PROOFS. PROOFS. A core that issues takes the line at its issue address (O5). -/

namespace Sys2Proof.Machine

open Sys2Proof

/-! ## Fetch -/

/-- A core as it fetches at an address that names itself: past its fence and its breakpoint. -/
def Core.fetching (c : Core) : Core := { c with ctx := { c.ctx with fence := false, broke := false } }

/-- A core that has fetched a full line. -/
def Core.onLine (c : Core) (l : Mask) : Core := { c.fetching with line := some l }

/-- The state in which the core at an address that names itself fetches. -/
def State.fetching (s : State) (n : Nat) : State := (s.setCore n (s.atFetch n)).setCore n (s.core n).fetching

section
variable {s : State} {n : Nat}

@[simp] theorem State.core_fetching : (s.fetching n).core n = (s.core n).fetching := State.core_setCore ..

theorem State.core_fetching_other {m : Nat} (other : m ≠ n) : (s.fetching n).core m = s.core m :=
  (State.core_setCore_other _ _ other).trans (State.core_setCore_other _ _ other)

variable (named : normAt s.mem n (s.core n).ctx.pc = (s.core n).ctx.pc) (unbroken : s.breakAt n = false)
include named

theorem State.breakAt_atFetch : (s.setCore n (s.atFetch n)).breakAt n = s.breakAt n := by
  unfold State.breakAt
  rw [State.core_setCore]
  simp only [State.atFetch, named]
  rfl

include unbroken

/-- What takes the place of a fetch at an address that names itself, with no breakpoint there. -/
theorem State.fetchStop_named : s.fetchStop n =
    match fetchFault s.mem n (s.core n).fetching with
    | some code => some ((s.fetching n).fetchTrap n code)
    | none =>
      match (s.fetching n).fetchPoison n (s.core n).ctx.pc with
      | some k => some (((s.fetching n).logMemory 3 k).onCore n
          (Core.trapHere ((s.fetching n).tickOf (s.core n).fetching) ⟨cECC, 9, true, (s.core n).ctx.pc, 0⟩))
      | none =>
        if (s.core n).ctx.wre && !(waitsInSlot0 (bundleAt s.mem n (s.core n).ctx.pc)) then some ((s.fetching n).fetchTrap n cILLEGAL) else none := by
  have broken := (s.breakAt_atFetch named).trans unbroken
  have same : s.atFetch n = { s.core n with ctx := { (s.core n).ctx with fence := false } } := by simp only [State.atFetch, named]
  rw [State.fetchStop]
  simp only [broken, Bool.false_eq_true, if_false]
  rw [State.fetching, same]
  rfl

/-- An address that cannot be fetched is a trap in the place of the fetch. -/
theorem State.fetchStop_of_fault {code : Nat} (fault : fetchFault s.mem n (s.core n) = some code) :
    s.fetchStop n = some ((s.fetching n).fetchTrap n code) := by
  have faulty : fetchFault s.mem n (s.core n).fetching = some code := fault
  rw [s.fetchStop_named named unbroken, faulty]

/-- Where nothing forbids the fetch, nothing takes its place. -/
theorem State.fetchStop_of_clear (clear : fetchFault s.mem n (s.core n) = none) (clean : s.poison = []) (waits : (s.core n).ctx.wre = false) :
    s.fetchStop n = none := by
  have free : fetchFault s.mem n (s.core n).fetching = none := clear
  have none : ∀ k z, (s.fetching n).poisoned k z = false := fun k z => by
    unfold State.poisoned
    rw [show (s.fetching n).poison = [] from clean]
    rfl
  have whole : (s.fetching n).fetchPoison n (s.core n).ctx.pc = Option.none := by simp [State.fetchPoison, none]
  rw [s.fetchStop_named named unbroken, free, whole, waits]
  rfl

/-- A fetch that nothing stops, of a full line: its core is about to begin the bundle. -/
theorem State.fetch_of_full (clear : fetchFault s.mem n (s.core n) = none) (clean : s.poison = []) (waits : (s.core n).ctx.wre = false)
    (empty : (s.core n).recv = none) (full : isPacked (lineAt s.mem n ((s.core n).ctx.pc.toNat / 16)) = false) :
    s.fetch n = (s.setCore n ((s.core n).onLine (lineAt s.mem n ((s.core n).ctx.pc.toNat / 16)))).bundle n := by
  have same : s.atFetch n = { s.core n with ctx := { (s.core n).ctx with fence := false } } := by simp only [State.atFetch, named]
  have still : ¬(s.core n).recv.isSome = true := by simp [empty]
  rw [State.fetch, if_neg still]
  simp only [s.fetchStop_of_clear named unbroken clear clean waits, same, full, Bool.false_eq_true, if_false]
  rfl

/-- A fetch that a fault of its address stops. -/
theorem State.fetch_of_fault (empty : (s.core n).recv = none) {code : Nat} (fault : fetchFault s.mem n (s.core n) = some code) :
    s.fetch n = (s.fetching n).fetchTrap n code := by
  have still : ¬(s.core n).recv.isSome = true := by simp [empty]
  rw [State.fetch, if_neg still, s.fetchStop_of_fault named unbroken fault]

end

/-! ## The faults of an issue address (R75 to R77) -/

/-- Whether a mode may issue from the page of an address (R76). -/
def Core.pageOwned (c : Core) (pc : Word) : Prop := c.mode = 2 ∨ c.mode = 3 ∨ c.owners.getLsbD (pc.toNat / 4096) = decide (c.mode ≠ 0)

theorem Core.pageOwned_iff (c : Core) (pc : Word) :
    c.pageOwned pc ↔ (decide (c.mode.toNat < 2) && c.owners.getLsbD (pc.toNat / 4096) == (c.mode == 0)) = false := by
  unfold Core.pageOwned
  generalize c.owners.getLsbD (pc.toNat / 4096) = owner
  generalize c.mode = mode
  revert owner mode
  decide

section
variable {m : Memory} {n : Nat} {c : Core}

theorem fetchFault_of_high (high : 0x1FFFF < c.ctx.pc.toNat) : fetchFault m n c = some cILLEGAL := if_pos high

theorem fetchFault_of_foreign (low : c.ctx.pc.toNat < 2 ^ 17) (foreign : ¬c.pageOwned c.ctx.pc) : fetchFault m n c = some cPRIVILEGE := by
  have taken : (decide (c.mode.toNat < 2) && c.owners.getLsbD (c.ctx.pc.toNat / 4096) == (c.mode == 0)) = true := by
    rw [← Bool.not_eq_false]
    exact fun no => foreign ((c.pageOwned_iff _).2 no)
  exact (if_neg (by omega)).trans (if_pos taken)

/-- On a page of its own, only the line decides. -/
theorem fetchFault_of_owned (low : c.ctx.pc.toNat < 2 ^ 17) (owned : c.pageOwned c.ctx.pc) :
    fetchFault m n c =
      let l := lineAt m n (c.ctx.pc.toNat / 16)
      if isPacked l then
        (if 0 < packCount l && packCount l < 15 && (decide (packCount l < c.ctx.pc.toNat % 16) || decide (issuesOf m n c.ctx.pc ≤ c.ctx.rep.toNat))
         then some cILLEGAL else none)
      else if c.ctx.pc.toNat % 16 ≠ 0 || 0 < c.ctx.rep.toNat then some cILLEGAL
      else none := by
  have free := (c.pageOwned_iff _).1 owned
  exact (if_neg (by omega)).trans (if_neg (by rw [free]; exact Bool.false_ne_true))

theorem fetchFault_of_first (low : c.ctx.pc.toNat < 2 ^ 17) (owned : c.pageOwned c.ctx.pc)
    (full : isPacked (lineAt m n (c.ctx.pc.toNat / 16)) = false) (word : c.ctx.pc.toNat % 16 = 0) (rep : c.ctx.rep = 0) :
    fetchFault m n c = none := by
  rw [fetchFault_of_owned low owned]
  simp [full, word, rep]

theorem fetchFault_of_later (low : c.ctx.pc.toNat < 2 ^ 17) (owned : c.pageOwned c.ctx.pc)
    (full : isPacked (lineAt m n (c.ctx.pc.toNat / 16)) = false) (later : c.ctx.pc.toNat % 16 ≠ 0 ∨ c.ctx.rep ≠ 0) :
    fetchFault m n c = some cILLEGAL := by
  have repeats : c.ctx.rep ≠ 0 → 0 < c.ctx.rep.toNat := fun ne => Nat.pos_of_ne_zero fun zero => ne (BitVec.eq_of_toNat_eq zero)
  rw [fetchFault_of_owned low owned]
  simp only [full, Bool.false_eq_true, if_false]
  refine if_pos ?_
  rcases later with word | rep
  · simp [word]
  · simp [repeats rep]

theorem fetchFault_of_past (low : c.ctx.pc.toNat < 2 ^ 17) (owned : c.pageOwned c.ctx.pc)
    (packed : isPacked (lineAt m n (c.ctx.pc.toNat / 16)) = true) (some_ : 0 < packCount (lineAt m n (c.ctx.pc.toNat / 16)))
    (few : packCount (lineAt m n (c.ctx.pc.toNat / 16)) < 15) (past : packCount (lineAt m n (c.ctx.pc.toNat / 16)) < c.ctx.pc.toNat % 16) :
    fetchFault m n c = some cILLEGAL := by
  rw [fetchFault_of_owned low owned]
  simp only [packed, if_true]
  exact if_pos (by simp [some_, few, past])

theorem pc_of_clear (clear : fetchFault m n c = none) : c.ctx.pc.toNat ≤ 0x1FFFF := by
  by_contra high
  rw [fetchFault_of_high (by omega)] at clear
  cases clear

end

/-! ## The template (R80) -/

/-- A slot that breaks a rule of the template: surrendered after a surrendered one, or after a word that takes no extension. -/
def Mask.breaks (l : Mask) (k : Nat) : Bool :=
  surrendered l k && ((decide (2 ≤ k) && surrendered l (k - 1)) || !(takesExtension (k - 1) (slotWord l (k - 1))))

theorem Mask.breaks_iff (l : Mask) (k : Nat) : Mask.breaks l k = true ↔
    surrendered l k = true ∧ ((2 ≤ k ∧ surrendered l (k - 1) = true) ∨ takesExtension (k - 1) (slotWord l (k - 1)) = false) := by
  simp [Mask.breaks]

/-- Of a line that is not packed, the template's fault is the lowest slot that breaks a rule. -/
theorem templateFault_eq {l : Mask} (plain : l.extractLsb' 25 7 ≠ 0x7F) :
    templateFault l = (List.range 7).findSome? fun j => if Mask.breaks l (j + 1) then some (j + 1) else none := by
  have no : (l.extractLsb' 25 7 == 0x7F#7) = false := beq_eq_false_iff_ne.2 plain
  rw [templateFault, no, Bool.false_and, if_neg Bool.false_ne_true]
  refine congrArg (fun f => List.findSome? f (List.range 7)) (funext fun j => ?_)
  cases j <;> simp [Mask.breaks, surrendered]

/-- The lowest number from 1 to `n` that a test takes. -/
theorem findSome?_range_succ (p : Nat → Bool) (n : Nat) :
    (((List.range n).findSome? fun j => if p (j + 1) then some (j + 1) else none) = none ↔ ∀ k, 1 ≤ k → k ≤ n → p k = false) ∧
    ∀ k, ((List.range n).findSome? fun j => if p (j + 1) then some (j + 1) else none) = some k ↔
      (1 ≤ k ∧ k ≤ n ∧ p k = true) ∧ ∀ j, 1 ≤ j → j < k → p j = false := by
  induction n with
  | zero =>
    refine ⟨by simp; omega, fun k => ?_⟩
    simp
    omega
  | succ n ih =>
    obtain ⟨none, some_⟩ := ih
    rw [List.range_succ, List.findSome?_append]
    generalize (List.range n).findSome? (fun j => if p (j + 1) then some (j + 1) else Option.none) = found at none some_
    cases found with
    | some j =>
      obtain ⟨⟨low, high, took⟩, before⟩ := (some_ j).1 rfl
      refine ⟨⟨fun no => (by cases no), fun all => ?_⟩, fun k => ⟨fun same => ?_, ?_⟩⟩
      · cases took.symm.trans (all j low (by omega))
      · cases same
        exact ⟨⟨low, by omega, took⟩, before⟩
      · rintro ⟨⟨lowk, -, tookk⟩, beforek⟩
        obtain less | rfl | more := Nat.lt_trichotomy j k
        · cases took.symm.trans (beforek j low less)
        · rfl
        · cases tookk.symm.trans (before k lowk more)
    | none =>
      have free := none.1 rfl
      refine ⟨?_, fun k => ?_⟩
      · cases last : p (n + 1)
        · simp only [List.findSome?_cons, last, List.findSome?_nil, Option.none_or, Bool.false_eq_true, if_false, true_iff]
          intro k low high
          obtain less | rfl := Nat.lt_or_eq_of_le high
          · exact free k low (by omega)
          · exact last
        · simp only [List.findSome?_cons, last, if_true, Option.none_or, reduceCtorEq, false_iff]
          exact fun all => by cases last.symm.trans (all (n + 1) (by omega) (by omega))
      · cases last : p (n + 1)
        · simp only [List.findSome?_cons, last, List.findSome?_nil, Option.none_or, Bool.false_eq_true, if_false, reduceCtorEq, false_iff]
          rintro ⟨⟨low, high, took⟩, -⟩
          obtain less | rfl := Nat.lt_or_eq_of_le high
          · cases took.symm.trans (free k low (by omega))
          · cases took.symm.trans last
        · simp only [List.findSome?_cons, last, if_true, Option.none_or, Option.some.injEq]
          refine ⟨?_, ?_⟩
          · rintro rfl
            exact ⟨⟨by omega, by omega, last⟩, fun j low less => free j low (by omega)⟩
          · rintro ⟨⟨low, high, took⟩, before⟩
            obtain less | same := Nat.lt_or_eq_of_le high
            · cases took.symm.trans (free k low (by omega))
            · exact same.symm

/-- What the template forbids (R80). -/
theorem templateFault_packed {l : Mask} (ones : l.extractLsb' 25 7 = 0x7F) (other : l.extractLsb' 19 6 ≠ 0x14) : templateFault l = some 1 := by
  have tpl : (l.extractLsb' 25 7 == 0x7F#7) = true := beq_iff_eq.2 ones
  have op : (l.extractLsb' 19 6 != 0x14#6) = true := bne_iff_ne.2 other
  rw [templateFault, tpl, op]
  rfl

theorem templateFault_iff {l : Mask} (plain : l.extractLsb' 25 7 ≠ 0x7F) :
    (templateFault l = none ↔ ∀ k, 1 ≤ k → k ≤ 7 → Mask.breaks l k = false) ∧
    ∀ k, templateFault l = some k ↔ (1 ≤ k ∧ k ≤ 7 ∧ Mask.breaks l k = true) ∧ ∀ j, 1 ≤ j → j < k → Mask.breaks l j = false := by
  rw [templateFault_eq plain]
  exact findSome?_range_succ (Mask.breaks l) 7

/-! ## The step that fetches -/

/-- A core that issues begins its bundle, and the next core has its turn where a stop takes the place of the fetch. -/
theorem step_of_fetch {s : State} {n : Nat} {rest : List Nat} (cores : s.coresNamed) (idle : s.agenda = []) (turn : s.phase = .issue (n :: rest))
    (line : (s.core n).line = none) (pass : (s.core n).pass = false) (issues : s.issues (s.core n) = true) :
    step s = .next (if ((s.fetch n).core n).line.isSome || ((s.fetch n).core n).pass then s.fetch n else (s.fetch n).nextIssue rest) := by
  rw [step_of_phase cores idle, phaseStep_issue turn]
  unfold issueStep
  extract_lets c
  split
  case h_1 held => cases line.symm.trans held
  · refine (if_neg (by rw [pass]; exact Bool.false_ne_true)).trans ?_
    exact if_neg (by rw [issues]; exact Bool.false_ne_true)

theorem Core.pass_takeTrap {c : Core} (free : c.tm = false) (tick clk sres : Nat) (t : Trap) (pc : Word) (rep : BitVec 7) :
    (c.takeTrap tick clk sres t pc rep).pass = c.pass := by
  obtain ⟨m, hold⟩ := c.holdReheat_eq
  rw [Core.takeTrap, free, hold]
  simp only [Bool.false_eq_true, if_false]

/-- An address past word 0 names itself. -/
theorem normAt_of_word {m : Memory} {n : Nat} {pc : Word} (word : pc.toNat % 16 ≠ 0) : normAt m n pc = pc := by
  simp [normAt, normalPc, word]

/-- What a fetch that ends in a trap leaves: the trap is one at its fetch, whose context stands in the held snapshot. -/
theorem step_of_fetchTrap {s u : State} {n : Nat} {rest : List Nat} {d : Core} {tick clk code : Nat} {fval felem pc : Word} {rep : BitVec 7}
    (next : step s = .next (if ((s.fetch n).core n).line.isSome || ((s.fetch n).core n).pass then s.fetch n else (s.fetch n).nextIssue rest))
    (fetched : s.fetch n = u.setCore n (d.takeTrap tick clk 0 ⟨code, 0, false, fval, felem⟩ pc rep))
    (mem : u.mem = s.mem) (idle : u.agenda = []) (others : ∀ m, m ≠ n → u.core m = s.core m) (free : d.tm = false) (pass : d.pass = false) :
    ∃ t x, step s = .next t ∧ (t.mem = s.mem ∧ t.agenda = [] ∧ ∀ m, m ≠ n → t.core m = s.core m) ∧ t.phase = .issue rest ∧
      (t.core n).mode = 1 ∧ (t.core n).tm = true ∧ (t.core n).sh = true ∧ (t.core n).holdTo = tick + 4 ∧ (t.core n).held = some x ∧
      x.cause = BitVec.ofNat 64 code ∧ x.fval = fval ∧ x.felem = felem ∧ x.sres = 0 ∧ x.epc.extractLsb' 0 17 = pc.setWidth 17 ∧
      x.mode = d.mode ∧ x.s = d.ctx.s ∧ x.p = d.ctx.p ∧ (t.core n).v = d.v ∧ (t.core n).k = d.k ∧ (t.core n).tiles = d.tiles := by
  obtain ⟨mode, tm, sh, -, hold, line, -, -, -, -, -, v, k, tiles, -, -⟩ :=
    Core.takeTrap_fields free tick clk 0 ⟨code, 0, false, fval, felem⟩ pc rep
  obtain ⟨x, held, -, -, -, s', p', -, mode', -, -, -, fval', felem', sres', -, cause, epc⟩ :=
    Core.takeTrap_snapshot free tick clk 0 ⟨code, 0, false, fval, felem⟩ pc rep
  have there : (s.fetch n).core n = d.takeTrap tick clk 0 ⟨code, 0, false, fval, felem⟩ pc rep := by rw [fetched, State.core_setCore]
  have past : (((s.fetch n).core n).line.isSome || ((s.fetch n).core n).pass) = false := by
    rw [there, line, Core.pass_takeTrap free, pass]
    rfl
  rw [past] at next
  refine ⟨(s.fetch n).nextIssue rest, x, next, ?_, rfl, ?_⟩
  · rw [fetched]
    exact ⟨mem, idle, fun m other => (u.core_setCore_other _ other).trans (others m other)⟩
  · have same : ((s.fetch n).nextIssue rest).core n = (s.fetch n).core n := rfl
    rw [same, there]
    refine ⟨mode, tm, sh, hold, held, ?_, fval', felem', sres', ?_, mode', s', p', v, k, tiles⟩
    · rw [cause, causeOf]
      exact congrArg (BitVec.ofNat 64) (by simp)
    · rw [epc]
      exact (epcOf_fields ..).1

theorem Core.raise_of_clear {c : Core} (clear : c.ctx.ctl.fin = []) (free : c.tm = false) (tick slot code : Nat) (fval felem : Word) :
    Core.raise tick slot code fval felem c =
      ({ c with ctx := { c.ctx with pend := c.ctx.pend || c.ctx.ctl.soft.any Trap.pends } } : Core).takeTrap (tick + 1) (c.ctx.clk + 1) slot
        ⟨code, slot, false, fval, felem⟩ c.ctx.pc c.ctx.rep := by
  have drop : c.dropRelease = c := by rw [Core.dropRelease, free]; rfl
  have keep : c.keepDrain = c := by rw [Core.keepDrain, clear]; rfl
  have apply : c.applyFin = { c with ctx := { c.ctx with ctl := { c.ctx.ctl with fin := [] } } } := by rw [Core.applyFin, clear]; rfl
  rw [Core.raise, drop, keep, apply]
  dsimp only
  rw [← clear]

/-- The core that a fault of its address finds: no transfer of the bundle before is committed (R77). -/
def Core.atFault (c : Core) : Core := { c.fetching with ctx := { c.fetching.ctx with ctl := { c.fetching.ctx.ctl with jump := none } } }

theorem State.fetchTrap_fetching (s : State) (n code : Nat) :
    (s.fetching n).fetchTrap n code = (s.fetching n).setCore n ((s.core n).atFault.takeTrap (s.tickOf (s.core n)) (s.core n).ctx.clk 0
      ⟨code, 0, false, 8, (s.core n).ctx.pc⟩ (BitVec.ofNat 64 ((s.core n).ctx.pc.toNat % 2 ^ 17)) 0) := by
  unfold State.fetchTrap State.onCore
  rw [State.core_fetching]
  rfl

/-- A full line whose template nothing forbids: the bundle begins at slot SRES. -/
theorem State.bundle_begins {s : State} {n : Nat} {c : Core} {l : Mask} (line : c.line = some l) (sound : templateFault l = none) :
    (s.setCore n c).bundle n = { s.setCore n c with cur := n, slot := c.ctx.sres.toNat } := by
  rw [State.bundle]
  simp only [State.core_setCore, line, sound]

/-- A full line whose template is forbidden at a slot. -/
theorem State.bundle_faults {s : State} {n k : Nat} {c : Core} {l : Mask} (line : c.line = some l) (fault : templateFault l = some k) :
    (s.setCore n c).bundle n = (s.setCore n c).onCore n (Core.raise ((s.setCore n c).tickOf c) 0 cTEMPLATE (BitVec.ofNat 64 k) 0) := by
  rw [State.bundle]
  simp only [State.core_setCore, line, fault]

/-- A full line whose template is forbidden, at the end of a bundle that leaves nothing due: the trap of the next cycle. -/
theorem State.bundle_traps {s : State} {n k : Nat} {c : Core} {l : Mask} (line : c.line = some l) (fault : templateFault l = some k)
    (clear : c.ctx.ctl.fin = []) (free : c.tm = false) : (s.setCore n c).bundle n = (s.setCore n c).setCore n
      (({ c with ctx := { c.ctx with pend := c.ctx.pend || c.ctx.ctl.soft.any Trap.pends } } : Core).takeTrap ((s.setCore n c).tickOf c + 1)
        (c.ctx.clk + 1) 0 ⟨cTEMPLATE, 0, false, BitVec.ofNat 64 k, 0⟩ c.ctx.pc c.ctx.rep) := by
  rw [State.bundle_faults line fault, State.onCore, State.core_setCore, Core.raise_of_clear clear free]

theorem setWidth_ofNat_mod (pc : Word) : (BitVec.ofNat 64 (pc.toNat % 2 ^ 17)).setWidth 17 = pc.setWidth 17 :=
  BitVec.eq_of_toNat_eq (by
    have low := Nat.mod_lt pc.toNat (show 0 < 2 ^ 17 by decide)
    rw [BitVec.toNat_setWidth, BitVec.toNat_setWidth, BitVec.toNat_ofNat, Nat.mod_eq_of_lt (a := pc.toNat % 2 ^ 17) (by omega), Nat.mod_mod])

/-- Settles O5: `State.fetch` by the faults of its address and of its template, and the step around it. -/
theorem fetchTakesTheLineAtThePc : Obligations.FetchTakesTheLineAtThePc := by
  unfold Obligations.FetchTakesTheLineAtThePc
  intro s n rest cores idle turn noLine noPass issues noRecv noWre unbroken c pc line kept traps owned fetched
  have next := step_of_fetch cores idle turn noLine noPass issues
  have named : isPacked line = false → normAt s.mem n pc = pc := normAt_of_full
  -- an address that cannot be fetched
  have faulty : ∀ code, c.tm = false → normAt s.mem n pc = pc → fetchFault s.mem n c = some code → traps code 8 pc 0 := by
    intro code free self fault
    obtain ⟨t, x, stepped, rest', phase, mode, tm, sh, hold, held, cause, fval, felem, sres, epc, fields⟩ :=
      step_of_fetchTrap next ((s.fetch_of_fault self unbroken noRecv fault).trans (s.fetchTrap_fetching n code)) rfl idle
        (fun m other => State.core_fetching_other other) free noPass
    exact ⟨t, x, stepped, rest', phase, mode, tm, sh, hold, held, cause, fval, felem, sres, epc.trans (setWidth_ofNat_mod pc), fields⟩
  refine ⟨?_, ?_, ?_, ?_⟩
  · rintro ⟨clear, clean, full⟩ sound
    have begun := (s.fetch_of_full (named full) unbroken clear clean noWre noRecv full).trans (State.bundle_begins rfl sound)
    have there : (s.fetch n).core n = c.onLine line := by
      rw [begun]
      exact State.core_setCore ..
    have busy : (((s.fetch n).core n).line.isSome || ((s.fetch n).core n).pass) = true := by
      rw [there]
      rfl
    rw [busy] at next
    refine ⟨s.fetch n, next, ?_, ?_, ?_, ?_, ?_⟩
    · rw [begun]
      exact ⟨rfl, idle, fun m other => s.core_setCore_other _ other⟩
    · rw [begun]
      rfl
    · rw [there]
      rfl
    · rw [begun]
      rfl
    · rw [there]
      rfl
  · exact fun low word rep full own => fetchFault_of_first low own full word rep
  · intro free
    refine ⟨fun high => ?_, fun low foreign full => ?_, fun low own full later => ?_, fun low own packed some_ few past => ?_, ?_⟩
    · exact faulty _ free (if_neg (by omega)) (fetchFault_of_high high)
    · exact faulty _ free (named full) (fetchFault_of_foreign low foreign)
    · exact faulty _ free (named full) (fetchFault_of_later low own full later)
    · exact faulty _ free (normAt_of_word (by omega)) (fetchFault_of_past low own packed some_ few past)
    · rintro ⟨clear, clean, full⟩ fin k fault
      have stopped := (s.fetch_of_full (named full) unbroken clear clean noWre noRecv full).trans
        (State.bundle_traps (c := c.onLine line) (l := line) rfl fault fin free)
      obtain ⟨t, x, stepped, rest', phase, mode, tm, sh, hold, held, cause, fval, felem, sres, epc, xmode, xs, xp, v, ks, tiles⟩ :=
        step_of_fetchTrap next stopped rfl idle (fun m other => s.core_setCore_other _ other) free noPass
      exact ⟨t, x, stepped, rest', phase, mode, tm, sh, hold, held, cause, fval, felem, sres, epc, xmode, xs, xp, v, ks, tiles⟩
  · intro l bad
    refine ⟨fun ones other => templateFault_packed ones other, fun plain => ?_⟩
    obtain ⟨none, some_⟩ := templateFault_iff plain
    have breaks : ∀ k, bad k ↔ (1 ≤ k ∧ k ≤ 7) ∧ Mask.breaks l k = true := fun k => by
      rw [Mask.breaks_iff]
      exact and_assoc.symm
    have unbroken' : ∀ k, ¬bad k ↔ (1 ≤ k → k ≤ 7 → Mask.breaks l k = false) := fun k => by
      rw [breaks, not_and, and_imp, Bool.not_eq_true]
    refine ⟨?_, fun k => ?_⟩
    · simp only [none, unbroken']
    · rw [some_, breaks, ← and_assoc (a := 1 ≤ k) (b := k ≤ 7)]
      refine and_congr_right fun inside => ?_
      simp only [unbroken']
      exact ⟨fun all j less low _ => all j low less, fun all j low less => all j less low (by omega)⟩

end Sys2Proof.Machine
end

section
/-! PROOFS. PROOFS. The runtime instructions (O46). -/

namespace Sys2Proof.Machine

open Sys2Proof

/-! ## The runtime instructions -/

/-- Issue held for `n` cycles by an act that ends in the last of them (R216). -/
def State.heldFor (s : State) (n : Nat) (x : Act) : Out :=
  s.becomes { s.me.addItem 0 (n - 1) false false [x] with holdTo := s.tickOf s.me + n }

/-- An image that an ERET refuses: none, one of another mode, or one with too many entries in flight (R220, R221). -/
def State.refusesImage (s : State) (p : Word) : Bool :=
  !(imageMagic s.mem p.toNat) || 2 ≤ memNat s.mem (p.toNat + 0x100) 8 % 4 || 64 < memNat s.mem (p.toNat + 6) 1

theorem State.refusesImage_iff (s : State) (p : Word) : s.refusesImage p = true ↔
    imageMagic s.mem p.toNat = false ∨ 2 ≤ memNat s.mem (p.toNat + 0x100) 8 % 4 ∨ 64 < memNat s.mem (p.toNat + 6) 1 := by
  simp only [refusesImage, Bool.or_eq_true, Bool.not_eq_true', decide_eq_true_eq, or_assoc]

theorem lttRange_of_bad {v : Word} (bad : (v.extractLsb' 16 11).toNat = 0 ∨ 1024 < (v.extractLsb' 16 11).toNat ∨
    1024 < (v.extractLsb' 0 10).toNat + (v.extractLsb' 16 11).toNat) : lttRange v = none := by
  refine if_neg ?_
  simp only [Bool.and_eq_true, decide_eq_true_eq]
  omega

theorem lttRange_of_good {v : Word} (good : ¬((v.extractLsb' 16 11).toNat = 0 ∨ 1024 < (v.extractLsb' 16 11).toNat ∨
    1024 < (v.extractLsb' 0 10).toNat + (v.extractLsb' 16 11).toNat)) :
    lttRange v = some ((v.extractLsb' 0 10).toNat, (v.extractLsb' 16 11).toNat) := by
  refine if_pos ?_
  simp only [Bool.and_eq_true, decide_eq_true_eq]
  omega

theorem lttRange_of_fields {v : Word} {e n : Nat} (first : e = v.toNat % 2 ^ 10) (count : n = v.toNat / 2 ^ 16 % 2 ^ 11) (some_ : 1 ≤ n)
    (within : e + n ≤ 1024) : lttRange v = some (e, n) := by
  have he : (v.extractLsb' 0 10).toNat = e := by rw [BitVec.extractLsb'_toNat, Nat.shiftRight_zero, first]
  have hn : (v.extractLsb' 16 11).toNat = n := by rw [BitVec.extractLsb'_toNat, Nat.shiftRight_eq_div_pow, count]
  have good := lttRange_of_good (v := v) (by rw [he, hn]; omega)
  rw [good, he, hn]

section
variable {s : State} (t : BitVec 7) (a b : BitVec 6)

section
variable (tenant : s.me.mode = 0)
include tenant

theorem exec_eret_tenant : exec (.eret t a) s = s.becomes (s.privilege s.me) := State.runtime_tenant tenant _
theorem exec_snaprel_tenant : exec (.snaprel t) s = s.becomes (s.privilege s.me) := State.runtime_tenant tenant _
theorem exec_lttld_tenant : exec (.lttld t a b) s = s.becomes (s.privilege s.me) := State.runtime_tenant tenant _
theorem exec_lttinv_tenant : exec (.lttinv t a) s = s.becomes (s.privilege s.me) := State.runtime_tenant tenant _

variable (named : (a != 0) = true)
include named

theorem exec_snapst_tenant : exec (.snapst t a) s = s.becomes (s.privilege s.me) :=
  (State.checked_of named _).trans (State.runtime_tenant tenant _)
theorem exec_ctxsave_tenant : exec (.ctxsave t a) s = s.becomes (s.privilege s.me) :=
  (State.checked_of named _).trans (State.runtime_tenant tenant _)

theorem exec_ctxrest_tenant {m : BitVec 2} (listed : (a != 0 && m != 3 && (m == 2 || b == 0)) = true) :
    exec (.ctxrest t a b m) s = s.becomes (s.privilege s.me) := (State.checked_of listed _).trans (State.runtime_tenant tenant _)

end

section
variable (priv : s.priv)
include priv

/-- ERET with a held snapshot (R220). -/
theorem exec_eret_held (held : s.me.sh = true) :
    exec (.eret t a) s = s.becomes (if a != 0 then s.illegal s.me else s.me.addFin (.snapRest none)) := by
  refine (State.runtime_priv priv _).trans (congrArg s.becomes ?_)
  exact if_pos held

/-- ERET from an image (R221). -/
theorem exec_eret_image (free : s.me.sh = false) :
    exec (.eret t a) s = s.becomes (if a == 0 then s.illegal s.me else s.unlessAt (saveCheck s s.me (s.me.readS a) 0x18000) (fun c =>
      if s.refusesImage (s.me.readS a) then s.fault cFORMAT (s.me.readS a) 0 c
      else s.holdFor 385 (c.addItem 0 384 false false [.snapRest (some (s.me.readS a))])) s.me) := by
  refine (State.runtime_priv priv _).trans (congrArg s.becomes ?_)
  exact if_neg (by rw [free]; exact Bool.false_ne_true)

theorem exec_snapst (named : (a != 0) = true) : exec (.snapst t a) s = s.becomes (if !s.me.sh then s.illegal s.me else
      s.unlessAt (saveCheck s s.me (s.me.readS a) 0x18000)
        (fun c => s.holdFor 384 (c.addItem 0 383 false false [.snapSave (s.me.readS a)])) s.me) :=
  (State.checked_of named _).trans (State.runtime_priv priv _)

theorem exec_ctxsave (named : (a != 0) = true) : exec (.ctxsave t a) s = s.becomes
    (s.unlessAt (saveCheck s s.me (s.me.readS a) 0x2A1000) (fun c => c.addFin (.ctxDrain (s.me.readS a))) s.me) :=
  (State.checked_of named _).trans (State.runtime_priv priv _)

theorem exec_ctxrest {m : BitVec 2} (listed : (a != 0 && m != 3 && (m == 2 || b == 0)) = true) : exec (.ctxrest t a b m) s = s.becomes
    (s.unlessAt (saveCheck s s.me (s.me.readS a) 0x2A1000) (fun c =>
      if !(imageMagic s.mem (s.me.readS a).toNat) then s.fault cFORMAT (s.me.readS a) 0 c
      else if m == 2 && (winOf (s.me.readS b).toNat != some .face || (s.me.lookup (s.me.readS b).toNat).isNone) then
        s.fault cTABLE (s.me.readS b) 0 c
      else
        s.holdFor (if m = 0 then 10384 else if m = 1 then 6288 else 64)
          (c.addItem 0 ((if m = 0 then 10384 else if m = 1 then 6288 else 64) - 1) false false [.ctxRest (s.me.readS a) m.toNat (s.me.readS b)]))
      s.me) := by
  refine ((State.checked_of listed _).trans (State.runtime_priv priv _)).trans (congrArg s.becomes ?_)
  dsimp only
  cases saveCheck s s.me (s.me.readS a) 0x2A1000 <;> rfl

theorem exec_lttld_range {e n : Nat} (range : lttRange (s.me.readS b) = some (e, n)) :
    exec (.lttld t a b) s = s.becomes (if (s.me.readS a).toNat % 16 ≠ 0 then s.fault cALIGN (s.me.readS a) 0 s.me
      else s.holdFor (2 + (n + 3) / 4) (s.me.addMacro 0 0 n (.lttld (s.me.readS a) e n))) := by
  refine (State.runtime_priv priv _).trans (congrArg s.becomes ?_)
  simp only [range]

theorem exec_lttld_none (range : lttRange (s.me.readS b) = none) :
    exec (.lttld t a b) s = s.becomes (s.fault cFORMAT (s.me.readS b) 0 s.me) := by
  refine (State.runtime_priv priv _).trans (congrArg s.becomes ?_)
  simp only [range]

theorem exec_lttinv_range {e n : Nat} (range : lttRange (s.me.readS a) = some (e, n)) :
    exec (.lttinv t a) s = s.becomes (s.me.addFin (.lttInv e n)) := by
  refine (State.runtime_priv priv _).trans (congrArg s.becomes ?_)
  simp only [range]

theorem exec_lttinv_none (range : lttRange (s.me.readS a) = none) :
    exec (.lttinv t a) s = s.becomes (s.fault cFORMAT (s.me.readS a) 0 s.me) := by
  refine (State.runtime_priv priv _).trans (congrArg s.becomes ?_)
  simp only [range]

end

end

/-! ## Save areas (R218, R222) -/

theorem saveCheck_of_misaligned (s : State) (c : Core) {p : Word} (off : p.extractLsb' 52 12 ≠ 0 ∨ p.extractLsb' 0 12 ≠ 0) (len : Nat) :
    saveCheck s c p len = some (cALIGN, p) := by
  refine if_pos ?_
  simpa only [Bool.or_eq_true, bne_iff_ne] using off

/-- A page of a save area that keeps an image: in device memory, on a stack that works, and pinned by its partition (R222). -/
def State.keepsPage (s : State) (q : Part) (x : Nat) : Prop :=
  inDevice x = true ∧ (s.msu (msuOf x)).offline = false ∧ ∃ e, leafOver s.mem 3 q.system.toNat x = some e ∧ ptePIN e = true

theorem State.keepsPage_iff (s : State) (q : Part) (x : Nat) : s.keepsPage q x ↔ (!(inDevice x) || (s.msu (msuOf x)).offline ||
    (match leafOver s.mem 3 q.system.toNat x with | some e => !(ptePIN e) | none => true)) = false := by
  unfold State.keepsPage
  cases leafOver s.mem 3 q.system.toNat x <;> simp [and_assoc]

theorem saveCheck_aligned {s : State} {c : Core} {p : Word} {q : Part} (high : p.extractLsb' 52 12 = 0) (low : p.extractLsb' 0 12 = 0)
    (owner : s.partOf c = some q) (len : Nat) :
    saveCheck s c p len = ((pageStarts p.toNat len).find? fun x => !(inDevice x) || (s.msu (msuOf x)).offline ||
      (match leafOver s.mem 3 q.system.toNat x with | some e => !(ptePIN e) | none => true)).map fun x => (cSAVE, BitVec.ofNat 64 x) := by
  have on : ¬(p.extractLsb' 52 12 != 0 || p.extractLsb' 0 12 != 0) = true := by rw [high, low]; decide
  rw [saveCheck, if_neg on, owner] <;> rfl

theorem saveCheck_of_kept {s : State} {c : Core} {p : Word} {q : Part} (high : p.extractLsb' 52 12 = 0) (low : p.extractLsb' 0 12 = 0)
    (owner : s.partOf c = some q) {len : Nat} (kept : ∀ x ∈ pageStarts p.toNat len, s.keepsPage q x) : saveCheck s c p len = none := by
  rw [saveCheck_aligned high low owner, Option.map_eq_none_iff, List.find?_eq_none]
  exact fun x member => Bool.eq_false_iff.1 ((s.keepsPage_iff q x).1 (kept x member))

theorem saveCheck_of_first {s : State} {c : Core} {p : Word} {q : Part} (high : p.extractLsb' 52 12 = 0) (low : p.extractLsb' 0 12 = 0)
    (owner : s.partOf c = some q) {len x : Nat} {l r : List Nat} (pages : pageStarts p.toNat len = l ++ x :: r)
    (before : ∀ y ∈ l, s.keepsPage q y) (lost : ¬s.keepsPage q x) : saveCheck s c p len = some (cSAVE, BitVec.ofNat 64 x) := by
  rw [saveCheck_aligned high low owner, pages, List.find?_append, List.find?_eq_none.2 fun y member =>
    Bool.eq_false_iff.1 ((s.keepsPage_iff q y).1 (before y member)), List.find?_cons_of_pos]
  · rfl
  · rw [← Bool.not_eq_false]
    exact fun no => lost ((s.keepsPage_iff q x).2 no)

/-! ## CTXSAVE at the end of its bundle (R222) -/

theorem State.ctxDrain_drained {s : State} {k first y : Nat} (alone : (s.core k).tail = none) (drained : (s.core k).ctx.drainedAt first = some y)
    (p : Word) : s.ctxDrain k p first = s.setCore k { s.core k with
      ctx := { (s.core k).ctx with
        items := (s.core k).ctx.items ++ [⟨y + 10383, (s.core k).ctx.clk, 0, false, false, (s.core k).nextUid, [.ctxSave p]⟩] }
      nextUid := (s.core k).nextUid + 1, holdTo := s.tickOf (s.core k) + (y - (s.core k).ctx.clk + 10384) } := by
  have free : (if (s.core k).tail.isSome then none else (s.core k).ctx.drainedAt first) = some y := by
    rw [alone]
    exact drained
  unfold State.ctxDrain
  dsimp only
  rw [free] <;> rfl

/-- Settles O46: `State.runtime` in each mode, with the checks of each instruction. -/
theorem runtimeInstructions : Obligations.RuntimeInstructions := by
  unfold Obligations.RuntimeInstructions
  intro s t a b m named listed alone c p held
  have name : (a != 0) = true := bne_iff_ne.2 named
  have unnamed : ¬(a == 0) = true := fun same => named (beq_iff_eq.1 same)
  have list : (a != 0 && m != 3 && (m == 2 || b == 0)) = true := by
    have other : (m != 3) = true := bne_iff_ne.2 listed
    have form : (m == 2 || b == 0) = true := by simpa only [Bool.or_eq_true, beq_iff_eq] using alone
    rw [name, other, form]
    rfl
  refine ⟨fun tenant => ?_, fun priv => ?_, fun priv => ?_, fun k first y tail drained => State.ctxDrain_drained tail drained p⟩
  · intro f
    exact ⟨exec_eret_tenant t a tenant, exec_snapst_tenant t a tenant name, exec_snaprel_tenant t tenant, exec_ctxsave_tenant t a tenant name,
      exec_ctxrest_tenant t a b tenant name list, exec_lttld_tenant t a b tenant, exec_lttinv_tenant t a tenant⟩
  · refine ⟨fun snapshot => ?_, fun free safe magic mode few => ?_, fun snapshot safe => ?_, ?_, fun safe => ⟨?_, fun magic face => ?_⟩,
      fun v e n first count some_ within => ⟨fun range aligned => ?_, fun range => ?_⟩⟩
    · exact exec_eret_held t 0 priv snapshot
    · have good : s.refusesImage p = false := by
        rw [← Bool.not_eq_true, State.refusesImage_iff]
        rintro (no | no | no)
        · cases no.symm.trans magic
        · omega
        · omega
      rw [exec_eret_image t a priv free, if_neg unnamed, safe, State.unlessAt_none, good]
      rfl
    · rw [exec_snapst t a priv name, snapshot, safe]
      rfl
    · exact State.runtime_priv priv _
    · rw [exec_ctxsave t a priv name, safe]
      rfl
    · have mapped : ¬(m == 2 && (winOf (c.readS b).toNat != some .face || (c.lookup (c.readS b).toNat).isNone)) = true := by
        rcases face with full | ⟨window, entry⟩
        · rw [beq_eq_false_iff_ne.2 full]
          exact Bool.false_ne_true
        · obtain ⟨x, look⟩ := Option.isSome_iff_exists.1 entry
          simp [window, look]
      rw [exec_ctxrest t a b priv list, safe, State.unlessAt_none, magic, Bool.not_true, if_neg Bool.false_ne_true, if_neg mapped]
      rfl
    · subst range
      rw [exec_lttld_range t a b priv (lttRange_of_fields first count some_ within), if_neg (not_not.2 aligned)]
      rfl
    · subst range
      exact exec_lttinv_range t a priv (lttRange_of_fields first count some_ within)
  · intro stops bad
    refine ⟨fun snapshot => ?_, fun free => ⟨?_, ?_⟩, fun code v => ⟨fun unsafe_ => ⟨fun free => ?_, fun snapshot => ?_⟩, fun unsafe_ => ⟨?_, ?_⟩⟩,
      fun free safe refused => ?_, fun safe => ⟨fun magic => ?_, fun magic page face => ?_⟩, fun wrong => ?_, fun right off => ?_, fun wrong => ?_,
      fun len => ⟨fun off => saveCheck_of_misaligned s c off len, fun q high low owner => ?_⟩⟩
    · rw [exec_eret_held t a priv snapshot, if_pos name]
    · exact (exec_eret_image t 0 priv free).trans (congrArg s.becomes (if_pos (beq_self_eq_true 0)))
    · rw [exec_snapst t a priv name, free, Bool.not_false, if_pos rfl]
    · refine (exec_eret_image t a priv free).trans ?_
      rw [if_neg unnamed, unsafe_, State.unlessAt_some]
    · refine (exec_snapst t a priv name).trans ?_
      rw [snapshot, Bool.not_true, if_neg Bool.false_ne_true, unsafe_, State.unlessAt_some]
    · refine (exec_ctxsave t a priv name).trans ?_
      rw [unsafe_, State.unlessAt_some]
    · refine (exec_ctxrest t a b priv list).trans ?_
      rw [unsafe_, State.unlessAt_some]
    · refine (exec_eret_image t a priv free).trans ?_
      rw [if_neg unnamed, safe, State.unlessAt_none, if_pos ((s.refusesImage_iff p).2 refused)]
    · refine (exec_ctxrest t a b priv list).trans ?_
      rw [safe, State.unlessAt_none, magic, Bool.not_false, if_pos rfl]
    · have unmapped : (m == 2 && (winOf (c.readS b).toNat != some .face || (c.lookup (c.readS b).toNat).isNone)) = true := by
        rcases face with window | entry
        · simp [page, window]
        · simp [page, entry]
      refine (exec_ctxrest t a b priv list).trans ?_
      rw [safe, State.unlessAt_none, magic, Bool.not_true, if_neg Bool.false_ne_true, if_pos unmapped]
    · exact exec_lttld_none t a b priv (lttRange_of_bad wrong)
    · refine (exec_lttld_range t a b priv (lttRange_of_good right)).trans ?_
      rw [if_pos off]
    · exact exec_lttinv_none t a priv (lttRange_of_bad wrong)
    · exact ⟨fun kept => saveCheck_of_kept high low owner kept, fun l x r pages before lost => saveCheck_of_first high low owner pages before lost⟩

end Sys2Proof.Machine
end

section
/-! PROOFS. Rows of queued copies (O50): what a row of a load, a gather or a store leaves when it performs, and a read-out -/

namespace Sys2Proof.Machine

open Sys2Proof

/-! ## Rows of queued copies: what a write to device memory leaves unchanged -/

theorem State.cores_foldl {α : Type} {f : State → α → State} (keeps : ∀ s a, (f s a).cores = s.cores) (l : List α) (s : State) :
    (l.foldl f s).cores = s.cores := by
  induction l generalizing s with
  | nil => rfl
  | cons a l ih => exact (ih _).trans (keeps s a)

@[simp] theorem State.cores_sendEvent (s : State) (part offset unit : Nat) : (s.sendEvent part offset unit).cores = s.cores := by
  unfold State.sendEvent
  split
  · rfl
  · dsimp only
    split <;> split <;> rfl

@[simp] theorem State.cores_checkHallmark (part : Nat) (s : State) (f : Nat) : (State.checkHallmark part s f).cores = s.cores := by
  unfold State.checkHallmark
  dsimp only
  split
  · rfl
  · split
    · split
      · rfl
      · split
        · exact State.cores_sendEvent ..
        · rfl
    · rfl

@[simp] theorem State.cores_devWrite (s : State) (part a : Nat) (l : List Byte) : (s.devWrite part a l).cores = s.cores := by
  unfold State.devWrite
  split
  · rfl
  · exact State.cores_foldl (fun t f => t.cores_checkHallmark part f) _ (s.writeKey a l)

theorem State.core_of_cores {s t : State} (same : t.cores = s.cores) (n : Nat) : t.core n = s.core n := by rw [State.core, State.core, same]

theorem State.core_foldl_devWrite (part : Nat) (l : List (Nat × List Byte)) (s : State) (n : Nat) :
    (l.foldl (fun t p => t.devWrite part p.1 p.2) s).core n = s.core n :=
  State.core_of_cores (State.cores_foldl (fun t p => t.cores_devWrite part p.1 p.2) l s) n

/-! ## The core after a row -/

/-- A core with an entry of a queue replaced or gone, and its progress register after it. -/
def Core.withEntry (c : Core) (slot uid : Nat) (e : Option QEntry) : Core :=
  (c.setQueue slot (replaceEntry uid e (c.queue slot))).followQueue slot

/-- A change of the system registers is one of a context. -/
theorem Core.onSys_contexts (c : Core) (f : Ctx → Ctx) : ∃ x h, c.onSys f = { c with ctx := x, held := h } := by
  unfold Core.onSys
  split
  · exact ⟨_, _, rfl⟩
  · exact ⟨_, _, rfl⟩

section
variable (c : Core) (slot : Nat)

theorem Core.followQueue_contexts : ∃ x h, c.followQueue slot = { c with ctx := x, held := h } := by
  unfold Core.followQueue Core.queueProgress
  exact c.onSys_contexts _

@[simp] theorem Core.tiles_followQueue : (c.followQueue slot).tiles = c.tiles := by
  obtain ⟨x, h, same⟩ := c.followQueue_contexts slot
  rw [same]

@[simp] theorem Core.tilePend_followQueue : (c.followQueue slot).tilePend = c.tilePend := by
  obtain ⟨x, h, same⟩ := c.followQueue_contexts slot
  rw [same]

@[simp] theorem Core.queue_followQueue (k : Nat) : (c.followQueue slot).queue k = c.queue k := by
  obtain ⟨x, h, same⟩ := c.followQueue_contexts slot
  rw [same]
  rfl

@[simp] theorem Core.queue_setQueue (q : List QEntry) : (c.setQueue slot q).queue slot = q := by
  unfold Core.setQueue Core.queue
  split <;> rfl

@[simp] theorem Core.tiles_setQueue (q : List QEntry) : (c.setQueue slot q).tiles = c.tiles := by
  unfold Core.setQueue
  split <;> rfl

@[simp] theorem Core.tilePend_setQueue (q : List QEntry) : (c.setQueue slot q).tilePend = c.tilePend := by
  unfold Core.setQueue
  split <;> rfl

variable (uid : Nat) (e : Option QEntry)

@[simp] theorem Core.tiles_withEntry : (c.withEntry slot uid e).tiles = c.tiles := by simp [Core.withEntry]
@[simp] theorem Core.tilePend_withEntry : (c.withEntry slot uid e).tilePend = c.tilePend := by simp [Core.withEntry]
@[simp] theorem Core.queue_withEntry : (c.withEntry slot uid e).queue slot = replaceEntry uid e (c.queue slot) := by simp [Core.withEntry]

end

/-- Entries of other numbers stay. -/
theorem replaceEntry_of_other {uid : Nat} (e : Option QEntry) {l : List QEntry} (other : ∀ q ∈ l, q.uid ≠ uid) : replaceEntry uid e l = l := by
  induction l with
  | nil => rfl
  | cons q l ih =>
    have here : q.uid ≠ uid := other q (List.mem_cons_self ..)
    simp only [replaceEntry, List.filterMap_cons, here, if_false]
    exact congrArg (q :: ·) (ih fun x member => other x (List.mem_cons_of_mem _ member))

theorem replaceEntry_head (e : QEntry) (x : Option QEntry) {r : List QEntry} (other : ∀ q ∈ r, q.uid ≠ e.uid) :
    replaceEntry e.uid x (e :: r) = x.toList ++ r := by
  have rest := replaceEntry_of_other x other
  simp only [replaceEntry, List.filterMap_cons, if_true]
  cases x with
  | none => exact rest
  | some y => exact congrArg (y :: ·) rest

/-! ## The step of a row -/

/-- A queued load or gather into a tile. -/
def QKind.loads (k : QKind) (t f : Nat) : Prop :=
  (∃ ea sr er ec old, k = .tld t ea sr er ec f old) ∨ ∃ b u er ec la idx old, k = .gather t b u er ec f la idx old

/-- The bytes of a row of an entry, as they stand. -/
def rowBytes (s : State) (n : Nat) (e : QEntry) : List Byte :=
  if (e.kind.rowAt e.row).2 = 0 then [] else (s.core n).loadBytes s.mem n (e.kind.rowAt e.row).1 (e.kind.rowAt e.row).2

/-- The core of a load whose row has arrived. -/
def Core.loaded (c : Core) (t f row : Nat) (l : List Byte) : Core :=
  let d := c.putTile t row (loadRow f l) (BitVec.allOnes 2048)
  if 64 ≤ row + 1 then d.unpend t else d

section
variable {s : State} {n : Nat} {e : QEntry}

/-- A packet without an error does nothing beside its access. -/
theorem State.fabricError_none (s : State) (n router src : Nat) : s.fabricError n 0 router src = s := rfl

theorem performRow_load {t f : Nat} (load : e.kind.loads t f) (within : e.row < 64) (clear : rowFault s n e e.row = none) :
    performRow s n 0 e = some (s.setCore n ((s.core n).loaded t f e.row (rowBytes s n e)), { e with row := e.row + 1 }) := by
  have inside : ¬64 ≤ e.row := by omega
  have no2 : decide (0 = 2) = false := rfl
  have no1 : decide (0 = 1) = false := rfl
  unfold performRow rowBytes
  rcases load with ⟨ea, sr, er, ec, old, kind⟩ | ⟨b, u, er, ec, la, idx, old, kind⟩
  · simp only [kind, inside, clear, if_false, State.fabricError_none, ite_self, QKind.tile?, Option.getD_some, no2, no1, Bool.and_false,
      Bool.false_eq_true]
    rfl
  · simp only [kind, inside, clear, if_false, State.fabricError_none, ite_self, QKind.tile?, Option.getD_some, no2, no1, Bool.and_false,
      Bool.false_eq_true]
    rfl

theorem performRow_load_fault {t f : Nat} {trap : Trap} (load : e.kind.loads t f) (within : e.row < 64)
    (fault : rowFault s n e e.row = some trap) : performRow s n 0 e = some (s, { e with faulted := some trap }) := by
  have inside : ¬64 ≤ e.row := by omega
  unfold performRow
  rcases load with ⟨ea, sr, er, ec, old, kind⟩ | ⟨b, u, er, ec, la, idx, old, kind⟩
  · simp only [kind, inside, fault, if_false]
  · simp only [kind, inside, fault, if_false]

/-- A row of a store that has been read out is written, piece by piece. -/
theorem performRow_store {t : Nat} {ea : Word} {sr er ec f : Nat} {old out : List Vec} {row : Vec} (kind : e.kind = .tst t ea sr er ec f old out)
    (ready : out[e.row]? = some row) (clear : rowFault s n e e.row = none)
    (room : ((storePieces n (s.core n) e.kind e.row row).any fun p => s.writeHeld (s.core n).partId.toNat p.1 p.2) = false) :
    performRow s n 0 e = some ((storePieces n (s.core n) e.kind e.row row).foldl (fun s' p => s'.devWrite (s.core n).partId.toNat p.1 p.2) s,
      { e with row := e.row + 1 }) := by
  rw [kind] at room
  unfold performRow
  simp only [kind, ready, clear, room, Bool.false_eq_true, if_false, State.fabricError_none, ite_self, decide_true, Bool.or_true,
    Bool.true_or, if_true]

theorem performRow_store_fault {t : Nat} {ea : Word} {sr er ec f : Nat} {old out : List Vec} {row : Vec} {trap : Trap}
    (kind : e.kind = .tst t ea sr er ec f old out) (ready : out[e.row]? = some row) (fault : rowFault s n e e.row = some trap) :
    performRow s n 0 e = some (s, { e with faulted := some trap }) := by
  unfold performRow
  simp only [kind, ready, fault]

/-- The row of a store that is read out: each cell as at issue or as it is now (R187). -/
def readOutCells (s : State) (n t : Nat) (old : List Vec) (r : Nat) : Vec :=
  ofLanes 32 64 fun q =>
    if Config.pendingCell (64 * s.oracle + q) then laneNat (old.getD r 0) q 32 else laneNat ((s.core n).tileRow t r) q 32

theorem readOutCells_or (s : State) (n t : Nat) (old : List Vec) (r : Nat) {q : Nat} (lane : q < 64) :
    laneNat (readOutCells s n t old r) q 32 = laneNat (old.getD r 0) q 32 ∨
      laneNat (readOutCells s n t old r) q 32 = laneNat ((s.core n).tileRow t r) q 32 := by
  unfold readOutCells
  rw [laneNat_ofLanes _ (by decide) lane]
  split
  · exact .inl (Nat.mod_mod ..)
  · exact .inr (Nat.mod_mod ..)

/-- The state after a read-out: the tile is free once its last row has been read. -/
def State.afterReadOut (s : State) (n t : Nat) (last : Prop) [Decidable last] : State :=
  { (if last then s.setCore n ((s.core n).unpend t) else s) with oracle := s.oracle + 1 }

theorem State.mem_afterReadOut (s : State) (n t : Nat) (last : Prop) [Decidable last] : (s.afterReadOut n t last).mem = s.mem := by
  unfold State.afterReadOut
  split <;> rfl

theorem State.core_afterReadOut_other (s : State) (n t : Nat) (last : Prop) [Decidable last] {m : Nat} (other : m ≠ n) :
    (s.afterReadOut n t last).core m = s.core m := by
  unfold State.afterReadOut
  split
  · exact s.core_setCore_other _ other
  · rfl

theorem State.core_afterReadOut (s : State) (n t : Nat) (last : Prop) [Decidable last] :
    (s.afterReadOut n t last).core n = if last then (s.core n).unpend t else s.core n := by
  unfold State.afterReadOut
  split
  · exact s.core_setCore ..
  · rfl

theorem readOutRow_store {t : Nat} {ea : Word} {sr er ec f : Nat} {old out : List Vec} (kind : e.kind = .tst t ea sr er ec f old out)
    (more : out.length < 64) (clear : out.length < e.row ∨ rowFault s n e out.length = none) (head : Bool) :
    readOutRow s n head e = some (s.afterReadOut n t (64 ≤ out.length + 1),
      { e with kind := .tst t ea sr er ec f old (out ++ [readOutCells s n t old out.length]) }) := by
  have inside : ¬64 ≤ out.length := by omega
  have sound : (if out.length < e.row then none else rowFault s n e out.length) = none := by
    rcases clear with before | none
    · exact if_pos before
    · rw [none, ite_self]
  unfold readOutRow State.afterReadOut
  simp only [kind, inside, sound, if_false, List.length_append, List.length_singleton]
  split <;> rfl

end

/-- The head of a queue performs or is read out. -/
theorem exec_queuedRowPerform {s u : State} {n slot : Nat} {e d : QEntry} {r : List QEntry} (queue : (s.core n).queue slot = e :: r)
    (ready : entryReady (s.core n) e = true) (performs : performRow s n 0 e = some (u, d)) :
    exec (.queuedRowPerform n slot (some 0)) s =
      .next (u.onCore n fun c => c.withEntry slot e.uid (if 64 ≤ d.row then none else some d)) := by
  change execQueuedRowPerform n slot (some 0) s = _
  unfold execQueuedRowPerform
  simp only [queue, Option.isNone_some, Bool.false_eq_true, if_false, List.head?_cons, ready, Bool.not_true, performs, Bool.not_false, Bool.true_and,
    decide_eq_true_eq]
  rfl

/-- A row of a store at the head of a queue is read out. -/
theorem exec_queuedRowPerform_readOut {s u : State} {n slot : Nat} {e d : QEntry} {r : List QEntry} {t : Nat} {ea : Word} {sr er ec f : Nat}
    {old out : List Vec} (queue : (s.core n).queue slot = e :: r) (ready : entryReady (s.core n) e = true)
    (kind : e.kind = .tst t ea sr er ec f old out) (more : out.length < 64) (read : readOutRow s n true e = some (u, d)) :
    exec (.queuedRowPerform n slot none) s =
      .next (u.onCore n fun c => c.setQueue slot (replaceEntry e.uid (some d) (c.queue slot))) := by
  have parts := ready
  unfold entryReady at parts
  simp only [Bool.and_eq_true] at parts
  obtain ⟨⟨⟨⟨⟨⟨sound, free⟩, performs⟩, -⟩, -⟩, -⟩, -⟩ := parts
  change execQueuedRowPerform n slot none s = _
  unfold execQueuedRowPerform
  simp only [queue, Option.isNone_none, if_true, List.find?_cons, sound, free, kind, more, decide_true, Bool.and_self, performs, Bool.not_true,
    Bool.false_eq_true, if_false, List.head?_cons, Option.map_some, beq_self_eq_true, read, Bool.false_and]

theorem exec_nonTemporalPerform {s u : State} {n i : Nat} {e d : QEntry} (stands : (s.core n).nt[i]? = some e) (sound : e.faulted = none)
    (free : e.held = false) (performs : (s.core n).performs = true) (performed : performRow s n 0 e = some (u, d)) :
    exec (.nonTemporalPerform n i (some 0)) s = .next (u.onCore n fun c =>
      ({ c with nt := replaceEntry e.uid (if 64 ≤ d.row then none else some d) c.nt } : Core).followQueue e.slot) := by
  change execNonTemporalPerform n i (some 0) s = _
  unfold execNonTemporalPerform
  simp only [stands, sound, free, performs, performed, Option.isNone_some, Option.isSome_none, Bool.or_self, Bool.not_true, Bool.false_eq_true,
    if_false, Bool.not_false, Bool.true_and, decide_eq_true_eq]

/-! ## What a step of a row leaves -/

theorem Core.tiles_loaded (c : Core) (t f row : Nat) (l : List Byte) :
    (c.loaded t f row l).tiles = (c.putTile t row (loadRow f l) (BitVec.allOnes 2048)).tiles := by
  unfold Core.loaded
  dsimp only
  split <;> rfl

theorem Core.tilePend_loaded (c : Core) (t f row : Nat) (l : List Byte) :
    (c.loaded t f row l).tilePend = if 64 ≤ row + 1 then c.tilePend &&& ~~~(1#8 <<< t) else c.tilePend := by
  unfold Core.loaded
  dsimp only
  split <;> rfl

theorem Core.queue_loaded (c : Core) (t f row slot : Nat) (l : List Byte) : (c.loaded t f row l).queue slot = c.queue slot := by
  unfold Core.loaded Core.queue
  dsimp only
  split <;> split <;> rfl

/-- Settles O50: `performRow` and `readOutRow` by the kind of the entry, and the step around them. -/
theorem queuedRowsPerform : Obligations.QueuedRowsPerform := by
  unfold Obligations.QueuedRowsPerform
  refine ⟨?_, ?_⟩
  · intro s n slot e r _ queue ready others c loads after quiet stands
    have advanced : ∀ d : QEntry, d = { e with row := e.row + 1 } → replaceEntry e.uid (if 64 ≤ d.row then none else some d) (e :: r) = after := by
      rintro d rfl
      rw [replaceEntry_head e _ others]
      by_cases last : e.row < 63
      · rw [if_neg (by dsimp only; omega)]
        exact (if_pos last).symm
      · rw [if_pos (by dsimp only; omega)]
        exact (if_neg last).symm
    have faulted : ∀ trap, e.row < 64 → performRow s n 0 e = some (s, { e with faulted := some trap }) →
        stands (exec (.queuedRowPerform n slot (some 0)) s) trap := by
      intro trap within performs
      refine ⟨_, exec_queuedRowPerform queue ready performs, ⟨rfl, fun m other => s.core_onCore_other _ other⟩, ?_, ?_, ?_⟩
      · rw [State.core_onCore, Core.tiles_withEntry]
      · rw [State.core_onCore, Core.tilePend_withEntry]
      · rw [State.core_onCore, Core.queue_withEntry, queue, replaceEntry_head e _ others, if_neg (by dsimp only; omega)]
        rfl
    refine ⟨fun t f load within clear => ?_, fun t f trap load within fault => faulted trap within (performRow_load_fault load within fault), ?_⟩
    · refine ⟨_, exec_queuedRowPerform queue ready (performRow_load load within clear), ⟨rfl, fun m other => ?_⟩, ?_, ?_, ?_⟩
      · exact (State.core_onCore_other _ _ other).trans (s.core_setCore_other _ other)
      · rw [State.core_onCore, State.core_setCore, Core.queue_withEntry, Core.queue_loaded, queue]
        exact advanced _ rfl
      · rw [State.core_onCore, State.core_setCore, Core.tilePend_withEntry, Core.tilePend_loaded]
        by_cases last : e.row < 63
        · rw [if_neg (by omega), if_pos last]
        · rw [if_pos (by omega), if_neg last]
      · rw [State.core_onCore, State.core_setCore, Core.tiles_withEntry, Core.tiles_loaded]
        rfl
    · intro t ea sr er ec f old out kind
      refine ⟨fun more clear => ?_, fun row within read => ⟨fun trap fault => faulted trap within (performRow_store_fault kind read fault), ?_⟩⟩
      · refine ⟨_, readOutCells s n t old out.length, exec_queuedRowPerform_readOut queue ready kind more (readOutRow_store kind more clear true),
          ⟨?_, fun m other => ?_⟩, ?_, ?_, ?_, fun q lane => ?_⟩
        · exact s.mem_afterReadOut ..
        · exact (State.core_onCore_other _ _ other).trans (s.core_afterReadOut_other _ _ _ other)
        · rw [State.core_onCore, Core.tiles_setQueue, s.core_afterReadOut]
          split <;> rfl
        · rw [State.core_onCore, Core.queue_setQueue, s.core_afterReadOut]
          have same : (if 64 ≤ out.length + 1 then (s.core n).unpend t else s.core n).queue slot = e :: r := by
            split
            · exact queue
            · exact queue
          rw [same, replaceEntry_head e _ others]
          rfl
        · rw [State.core_onCore, Core.tilePend_setQueue, s.core_afterReadOut]
          by_cases last : out.length < 63
          · rw [if_neg (by omega), if_pos last]
          · rw [if_pos (by omega), if_neg last]
            rfl
        · exact readOutCells_or s n t old out.length lane
      · intro ps clear room
        refine ⟨_, exec_queuedRowPerform queue ready (performRow_store kind read clear room), rfl, fun m other => ?_, ?_, ?_⟩
        · exact (State.core_onCore_other _ _ other).trans (State.core_foldl_devWrite ..)
        · rw [State.core_onCore, Core.queue_withEntry, State.core_foldl_devWrite, queue]
          exact advanced _ rfl
        · rw [State.core_onCore, Core.tiles_withEntry, State.core_foldl_devWrite]
  · intro s n i e t ea sr er ec f old out row stands sound free performs kind read clear part ps room
    refine ⟨_, exec_nonTemporalPerform stands sound free performs (performRow_store kind read clear room), rfl, fun m other => ?_, ?_⟩
    · exact (State.core_onCore_other _ _ other).trans (State.core_foldl_devWrite ..)
    · rw [State.core_onCore, Core.tiles_followQueue]
      change (State.core _ n).tiles = _
      rw [State.core_foldl_devWrite]

end Sys2Proof.Machine
end

section
/-! PROOFS. The scheduler (O53): records, admission, and the starts of every unit of a launch -/

namespace Sys2Proof.Machine

open Sys2Proof

/-! ## Records and admissions -/

section
variable {s : State} {part queue : Nat} {p : Part} {q : Queue}

theorem exec_launchRecord_far {t : Nat} (formed : Map.get? s.parts part = some p) (stands : Map.get? p.queues queue = some q)
    (enabled : q.enabled = true) (runs : q.stopped = false) (tail : s.tailOf p q = some t)
    (far : 2 ^ qdSIZE q.desc < (t + 2 ^ 64 - q.taken % 2 ^ 64) % 2 ^ 64) :
    exec (.launchRecord part queue) s = .next ((s.setQueue part queue { q with stopped := true }).sendEvent part 0x500 0) := by
  change execLaunchRecord part queue s = _
  unfold execLaunchRecord
  simp only [formed, Option.bind_some, stands, Option.map_some, enabled, runs, tail, Bool.not_true, Bool.or_self, Bool.false_eq_true, if_false]
  exact if_pos far

theorem exec_launchRecord_copied {t : Nat} (formed : Map.get? s.parts part = some p) (stands : Map.get? p.queues queue = some q)
    (enabled : q.enabled = true) (runs : q.stopped = false) (tail : s.tailOf p q = some t)
    (some_ : 0 < (t + 2 ^ 64 - q.taken % 2 ^ 64) % 2 ^ 64) (near : (t + 2 ^ 64 - q.taken % 2 ^ 64) % 2 ^ 64 ≤ 2 ^ qdSIZE q.desc)
    (none_ : q.head = none) :
    exec (.launchRecord part queue) s = .next ((s.setQueue part queue { q with
      seen := q.taken + (t + 2 ^ 64 - q.taken % 2 ^ 64) % 2 ^ 64
      times := q.times ++ List.replicate ((t + 2 ^ 64 - q.taken % 2 ^ 64) % 2 ^ 64 - (q.seen - q.taken)) s.gt
      head := some (s.ringRecord p q q.taken), taken := q.taken + 1 }).gpaWrite part (qdHEAD q.desc) (toBytes 8 ((q.taken + 1) % 2 ^ 64))) := by
  change execLaunchRecord part queue s = _
  unfold execLaunchRecord
  simp only [formed, Option.bind_some, stands, Option.map_some, enabled, runs, tail, Bool.not_true, Bool.or_self, Bool.false_eq_true, if_false]
  generalize (t + 2 ^ 64 - q.taken % 2 ^ 64) % 2 ^ 64 = ahead at some_ near
  have more : ¬q.taken = q.taken + ahead := by omega
  rw [if_neg (Nat.not_lt.mpr near)]
  simp only [none_, Option.isSome_none, more]
  rfl

end

/-! ## The identity of a unit that begins -/

/-- A core that runs a unit of a launch from its first bundle on, in a mode. -/
def Core.begins (c : Core) (key : Nat) (lid : BitVec 32) (m : BitVec 2) : Prop :=
  c.run = .run ∧ c.mode = m ∧ c.launch = key ∧ c.launchId = lid.setWidth 64

/-- What each step of a fold leaves, and the step of one member gives, stands after the fold. -/
theorem State.foldl_reaches {α : Type} {f : State → α → State} {Q : State → Prop} (stays : ∀ t b, Q t → Q (f t b)) {a : α} (here : ∀ t, Q (f t a))
    {l : List α} (member : a ∈ l) (s : State) : Q (l.foldl f s) := by
  have kept : ∀ (r : List α) (t : State), Q t → Q (r.foldl f t) := by
    intro r
    induction r with
    | nil => exact fun _ held => held
    | cons b r ih => exact fun t held => ih _ (stays t b held)
  induction l generalizing s with
  | nil => cases member
  | cons b l ih =>
    rcases List.mem_cons.mp member with rfl | later
    · exact kept l _ (here s)
    · exact ih later _

theorem State.cores_ite {c : Prop} [Decidable c] {s t u : State} (yes : t.cores = s.cores) (no : u.cores = s.cores) :
    (if c then t else u).cores = s.cores := by
  split
  · exact yes
  · exact no

@[simp] theorem State.cores_loadHandler (s : State) (l : Launch) (n : Nat) : (s.loadHandler l n).cores = s.cores := by
  unfold State.loadHandler
  split <;> rfl

@[simp] theorem State.cores_loadCore (s : State) (p : Part) (l : Launch) (i : Image) (n half : Nat) (handed : Bool) :
    (s.loadCore p l i n half handed).cores = s.cores := by
  unfold State.loadCore
  extract_lets s1 s2 s3 s4 s5
  have same1 : s1.cores = s.cores := State.cores_ite (State.cores_ite rfl rfl) rfl
  have same4 : s4.cores = s.cores := (State.cores_loadHandler s2 l n).trans same1
  have same5 : s5.cores = s.cores := by
    refine (State.cores_foldl (fun t e => ?_) i.buffers s4).trans same4
    split <;> rfl
  split
  · exact same5
  · exact same5

/-! ## Hand-over of a core -/

theorem State.core_renameFlights (s : State) (c : Core) (old new : Nat) (pick : Nat → Bool) (x : Nat) :
    ∃ qa qb xfers, (s.renameFlights c old new pick).core x = { s.core x with qa := qa, qb := qb, xfers := xfers } := by
  unfold State.core Map.get State.renameFlights
  dsimp only
  rw [Map.get?_map_value]
  case keeps => exact fun _ => rfl
  cases Map.get? s.cores x with
  | none => exact ⟨_, _, _, rfl⟩
  | some d =>
    dsimp only [Option.map_some, Option.getD_some]
    split
    · exact ⟨_, _, _, rfl⟩
    · exact ⟨_, _, _, rfl⟩

/-- The number that a hand-over gives the remaining copies of a core is that of no core of the package. -/
theorem phantom_number_ge (free : Nat → Bool) (n : Nat) :
    1024 ≤ (((List.range 8).map fun j => 1024 * (j + 1) + n).find? free).getD (1024 * 9 + n) := by
  cases found : ((List.range 8).map fun j => 1024 * (j + 1) + n).find? free with
  | none => exact Nat.le_trans (by decide) (Nat.le_add_right (1024 * 9) n)
  | some k =>
    obtain ⟨j, -, rfl⟩ := List.mem_map.mp (List.mem_of_find?_eq_some found)
    rw [Option.getD_some]
    omega

section
variable (s : State) (n : Nat) (bank7 : Bool) (c : Core) {key : Nat} {lid : BitVec 32} {m : BitVec 2}

/-- The core of a successor keeps its identity. -/
theorem State.begins_handCore (begun : c.begins key lid m) : (s.handCore n bank7 c).2.begins key lid m := by
  unfold State.handCore
  dsimp only
  split
  · exact begun
  · exact begun

/-- The units that have begun keep their identity beside a core handed over. -/
theorem State.begins_handCore_other {x : Nat} (below : x < 1024) (begun : (s.core x).begins key lid m) :
    ((s.handCore n bank7 c).1.core x).begins key lid m := by
  unfold State.handCore
  dsimp only
  split
  · exact begun
  · obtain ⟨qa, qb, xfers, same⟩ := State.core_renameFlights (s.setCore (((List.range 8).map fun j => 1024 * (j + 1) + n).find? (fun k =>
      (s.core k).run == .idle) |>.getD (1024 * 9 + n)) (s.core n)) (s.core n) n _ (fun _ => true) x
    have other := phantom_number_ge (fun k => (s.core k).run == .idle) n
    rw [State.core_setCore_other _ _ (by omega)] at same
    change (State.core (State.renameFlights ..) x).begins key lid m
    rw [same]
    exact begun

end

/-! ## Every unit of a launch started -/

/-- A place of a launch has a core of its members. -/
theorem Launch.mem_members {l : Launch} {x : Nat} : x ∈ l.members ↔ ∃ y ∈ l.places, 8 * l.cluster y.1 + y.2 = x := by
  simp only [Launch.members, Launch.places, List.mem_flatMap, List.mem_map]
  constructor
  · rintro ⟨a, inArea, k, inCores, same⟩
    exact ⟨(a, k), ⟨a, inArea, k, inCores, rfl⟩, same⟩
  · rintro ⟨y, ⟨a, inArea, k, inCores, rfl⟩, same⟩
    exact ⟨a, inArea, k, inCores, same⟩

/-- The launch is resident, and every unit named has begun. -/
def State.startsAt (u : State) (key : Nat) (l : Launch) (m : BitVec 2) (x : Nat) : Prop :=
  (∃ y, Map.get? u.launches key = some y ∧ y.st = .resident ∧ y.lid = l.lid) ∧ (u.core x).begins key l.lid m

theorem State.begins_setCore (s : State) {n x : Nat} {c : Core} {key : Nat} {lid : BitVec 32} {m : BitVec 2} (begun : c.begins key lid m)
    (same : n = x ∨ (s.core x).begins key lid m) : ((s.setCore n c).core x).begins key lid m := by
  by_cases here : x = n
  · rw [here, State.core_setCore]
    exact begun
  · rw [State.core_setCore_other _ _ here]
    exact same.resolve_left fun eq => here eq.symm

/-- One unit started, in place or on the core handed over. -/
theorem State.begins_startOne (s : State) (p : Part) (l : Launch) (i : Image) (n : Nat) (handed : Bool) (c : Core) {key : Nat} {lid : BitVec 32}
    {m : BitVec 2} (begun : c.begins key lid m) {x : Nat} (below : x < 1024) (same : n = x ∨ (s.core x).begins key lid m) :
    State.core (let (t, d) := if handed then s.handCore n (l.psize != 0) c else (s, c)
      let u := t.loadCore p l i n d.faceHalf handed
      u.setCore n { d with ctx := { d.ctx with pc := normAt u.mem n 0 } }) x |>.begins key lid m := by
  cases handed
  · refine State.begins_setCore _ begun (same.imp_right fun held => ?_)
    rw [State.core_of_cores (State.cores_loadCore s p l i n _ false)]
    exact held
  · have first := State.begins_handCore s n (l.psize != 0) c begun
    have others := State.begins_handCore_other s n (l.psize != 0) c (lid := lid) (key := key) (m := m) below
    generalize s.handCore n (l.psize != 0) c = passed at first others
    obtain ⟨t, d⟩ := passed
    refine State.begins_setCore _ first (same.imp_right fun held => ?_)
    rw [State.core_of_cores (State.cores_loadCore t p l i n _ true)]
    exact others held

theorem State.startUnits_starts {s : State} {key : Nat} {handed : Bool} {l : Launch} {p : Part} {i : Image} {h : Nat × List Byte}
    (stands : Map.get? s.launches key = some l) (formed : Map.get? s.parts l.part = some p) (image : readImageAt s.mem p l.image = some i)
    (hand : l.hand = some h) (below : ∀ x ∈ l.members, x < 1024) :
    ∀ x ∈ l.members, (s.startUnits key handed).startsAt key l 0 x := by
  intro x member
  have small := below x member
  obtain ⟨y, place, same⟩ := Launch.mem_members.mp member
  unfold State.startUnits
  simp only [stands, formed, image, hand]
  refine ⟨⟨_, Map.get?_put_self .., rfl, rfl⟩, ?_⟩
  refine State.foldl_reaches (Q := fun t => (t.core x).begins key l.lid 0) (fun t b begun => ?_) (a := y) (fun t => ?_) place _
  · exact t.begins_startOne p l i _ handed _ ⟨rfl, rfl, rfl, rfl⟩ small (.inr begun)
  · exact t.begins_startOne p l i _ handed _ ⟨rfl, rfl, rfl, rfl⟩ small (.inl same)

/-! ## The regions taken, and the starts -/

/-- What taking the clusters of a region leaves: launches, partitions, and memory but for SRAM cleared. -/
structure State.regionTaken (s t : State) : Prop where
  launches : t.launches = s.launches
  parts : t.parts = s.parts
  cleared : ∃ xs : List Nat, t.mem = xs.foldl (fun m x => memClear m (sramSpa x) 0x1000000) s.mem

theorem State.takeClusters_regionTaken (s : State) (key : Nat) (l : Launch) : s.regionTaken (s.takeClusters key l) := by
  unfold State.takeClusters
  generalize rectangle l.row l.col l.rows l.cols = places
  have kept : ∀ (r : List Nat) (t : State), s.regionTaken t → s.regionTaken (r.foldl (fun s x =>
      let c := s.cluster x
      let s1 := if c.lastJob = some (l.part, l.job) then s else s.clearKey (sramSpa x) 0x1000000
      { s1 with clusters := Map.put s1.clusters x { c with busy := some key, lastJob := some (l.part, l.job) } }) t) := by
    intro r
    induction r with
    | nil => exact fun _ held => held
    | cons x r ih =>
      rintro t ⟨launches, parts, xs, mem⟩
      refine ih _ ?_
      dsimp only
      split
      · exact ⟨launches, parts, xs, mem⟩
      · refine ⟨launches, parts, xs ++ [x], ?_⟩
        rw [List.foldl_append, ← mem]
        rfl
  exact kept places s ⟨rfl, rfl, [], rfl⟩

section
variable {s : State} {key : Nat} {l : Launch}

/-- What a start needs beside its own condition. -/
def State.loads (s : State) (l : Launch) : Prop :=
  s.launchMoves l = false ∧ s.powered l.part = true ∧ ∃ p i h, Map.get? s.parts l.part = some p ∧ l.hand = some h ∧
    (∀ t : State, (∃ xs : List Nat, t.mem = xs.foldl (fun m x => memClear m (sramSpa x) 0x1000000) s.mem) → readImageAt t.mem p l.image = some i)

theorem State.loads.starts_taken {t : State} (ready : s.loads l) (taken : s.regionTaken t) (stands : Map.get? s.launches key = some l)
    (below : ∀ x ∈ l.members, x < 1024) (handed : Bool) : ∀ x ∈ l.members, (t.startUnits key handed).startsAt key l 0 x := by
  obtain ⟨-, -, p, i, h, formed, hand, image⟩ := ready
  exact State.startUnits_starts (taken.launches ▸ stands) (taken.parts ▸ formed) (image t taken.cleared) hand below

theorem exec_launchStart (stands : Map.get? s.launches key = some l) (ready : s.loads l) (loaded : l.st = .loaded) (whole : l.vacatedUnits = [])
    (accepted : s.startRefused l = false) (due : ∃ c, l.startAt = some c ∧ c ≤ s.cyc) :
    exec (.launchStart key) s = .next (s.startUnits key false) := by
  obtain ⟨still, powered, -⟩ := ready
  obtain ⟨c, at_, come⟩ := due
  change execLaunchStart key s = _
  unfold execLaunchStart
  simp [stands, loaded, powered, whole, still, at_, come, accepted]

theorem exec_handoverStart (stands : Map.get? s.launches key = some l) (ready : s.loads l) (waits : l.st = .waiting)
    (follows : l.handover.isSome = true) (free : s.handsOver l = true) (accepted : s.startRefused l = false) :
    exec (.handoverStart key) s = .next ((s.takeClusters key l).startUnits key true) := by
  obtain ⟨still, powered, -⟩ := ready
  change execHandoverStart key s = _
  unfold execHandoverStart
  simp [stands, waits, powered, follows, free, still, accepted]

theorem exec_nodeStart {n node : Nat} {r : Replay} {handed : Bool} (replayed : Map.get? s.replays n = some r)
    (ready : s.nodeReady r node = some (key, l, handed, false)) (accepted : s.startRefused l = false) :
    exec (.nodeStart n node) s = .next ((s.takeClusters key l).startUnits key handed) := by
  change execNodeStart n node s = _
  unfold execNodeStart
  simp [replayed, ready, accepted]

theorem exec_restoreStart (stands : Map.get? s.launches key = some l) (ready : s.loads l) (loaded : l.st = .loaded) (vacated : l.vacatedUnits ≠ [])
    (due : ∃ c, l.startAt = some c ∧ c ≤ s.cyc) :
    ∃ u, exec (.restoreStart key) s = .next u ∧ ∀ y ∈ l.places, l.vacatedUnits.contains (y.1 * l.cores + y.2) = true →
      u.startsAt key l 1 (8 * l.cluster y.1 + y.2) := by
  obtain ⟨-, powered, p, -, h, formed, hand, -⟩ := ready
  obtain ⟨c, at_, come⟩ := due
  have some_ : l.vacatedUnits.isEmpty = false := by simpa using vacated
  change ∃ u, execRestoreStart key s = .next u ∧ _
  unfold execRestoreStart
  simp only [stands, loaded, powered, some_, at_, formed, hand, bne_self_eq_false, Bool.not_true, Bool.or_self, Option.any_some, come, decide_true,
    Bool.false_eq_true, if_false, Option.bind_some, Option.map_some]
  refine ⟨_, rfl, fun y place gone => ⟨⟨_, Map.get?_put_self .., rfl, rfl⟩, ?_⟩⟩
  refine State.foldl_reaches (Q := fun t => (t.core (8 * l.cluster y.1 + y.2)).begins key l.lid 1) (fun t b begun => ?_) (a := y) (fun t => ?_)
    place _
  · split
    · exact begun
    · refine State.begins_setCore _ ⟨rfl, rfl, rfl, rfl⟩ (.inr ?_)
      rw [State.core_of_cores (State.cores_loadHandler ((t.clearKey _ _).clearKey _ _) l _)]
      exact begun
  · rw [gone]
    exact State.begins_setCore _ ⟨rfl, rfl, rfl, rfl⟩ (.inl rfl)

/-! ## Admission and the passing of banks -/

theorem exec_admission {part queue : Nat} {p : Part} {q : Queue} {r : BitVec 512} {rest : List (Nat × Queue)}
    (formed : Map.get? s.parts part = some p) (admits : p.admits = true) (first : s.considered p = (queue, q) :: rest) (none_ : q.back = [])
    (head : q.head = some r) (unmarked : p.marks.contains (markKey queue (q.taken - 1)) = false) :
    exec (.admission part) s = match s.considerRecord part p queue q r with
      | .refused => .next (s.refuse part queue q r)
      | .waits => .next s
      | .admits v ids => .next ((v.setQueue part queue q.drop).admitted part queue ids) := by
  change execAdmission part s = _
  unfold execAdmission
  simp only [formed, admits, first, none_, head, unmarked, Bool.not_true, Bool.false_eq_true, if_false] <;> rfl

theorem exec_bankPass {n b : Nat} (passing : (s.core n).passing.getLsbD b = true) (free : (s.touchedBanks n (s.core n)).getLsbD b = false) :
    exec (.bankPass n b) s = .next (s.setCore n { s.core n with
      passing := (s.core n).passing &&& ~~~(1#16 <<< b), owned := (s.core n).owned ||| (1#16 <<< b) }) := by
  change execBankPass n b s = _
  unfold execBankPass
  simp only [passing, free, Bool.not_false, Bool.and_self, if_true]

end

/-- Settles O53: the head record of a queue and its admission, each start by the identity that its fold over the places gives, and the bank. -/
theorem schedulerEvents : Obligations.SchedulerEvents := by
  unfold Obligations.SchedulerEvents
  intro s part queue key n p q l formed begun starts loads
  refine ⟨fun t stands enabled runs tail => ⟨exec_launchRecord_far formed stands enabled runs tail, fun more near empty =>
      exec_launchRecord_copied formed stands enabled runs tail more near empty⟩, fun r rest admits first back head unmarked => ?_,
    fun stands ready below => ?_, fun b passing free => exec_bankPass passing free⟩
  · have outcome := exec_admission formed admits first back head unmarked
    refine ⟨fun v ids verdict => ?_, fun verdict => ?_, fun verdict => ?_⟩
    · rw [outcome, verdict]
    · rw [outcome, verdict]
    · rw [outcome, verdict]
  · have taken := s.takeClusters_regionTaken key l
    have still : s.regionTaken s := ⟨rfl, rfl, [], rfl⟩
    have ready : s.loads l := ready
    refine ⟨fun loaded whole accepted due => ?_, fun waits follows free accepted => ?_, fun r node handed replayed node_ accepted => ?_,
      fun loaded vacated due => exec_restoreStart stands ready loaded vacated due⟩
    · exact ⟨_, exec_launchStart stands ready loaded whole accepted due, ready.starts_taken still stands below false⟩
    · exact ⟨_, exec_handoverStart stands ready waits follows free accepted, ready.starts_taken taken stands below true⟩
    · exact ⟨_, exec_nodeStart replayed node_ accepted, ready.starts_taken taken stands below handed⟩

end Sys2Proof.Machine
end

section
/-! PROOFS. A stack that goes offline (O52 refuted): the leaf it marks may stand in its own frames -/

namespace Sys2Proof.Machine

open Sys2Proof

/-! ## A stack that goes offline writes the leaves of its pages, and they may stand in its own frames -/

/-- A stack with one page of one partition: what its units hold once the page's leaf has been marked. -/
theorem exec_stackOffline_one {s : State} {stack part : Nat} {p : Part} {base old : Nat} {leaf : Word} {z : Nat} {ats : List Nat} {k : Nat}
    (low : stack < 16) (parts : s.parts = [(part, p)])
    (pages : (s.setMsu stack { s.msu stack with offline := true }).pagesOn stack part p = [(base, old, leaf, z, ats)])
    (works : (s.setMsu stack { s.msu stack with offline := true }).freeUnit = some k) :
    ∃ u, exec (.stackOffline stack) s = .next u ∧ ∀ v, u.msu v = (({ s.setMsu stack { s.msu stack with offline := true } with
      oracle := s.oracle + 2 } : State).putLeaf part ats (leaf ||| (1 <<< 6))).msu v := by
  have listed : Map.get? (s.setMsu stack { s.msu stack with offline := true }).parts part = some p := by
    change Map.get? s.parts part = some p
    rw [parts]
    exact if_pos rfl
  have same : (s.setMsu stack { s.msu stack with offline := true }).parts = [(part, p)] := parts
  change ∃ u, execStackOffline stack s = .next u ∧ _
  unfold execStackOffline
  rw [if_neg (Nat.not_le.mpr low)]
  refine ⟨_, rfl, fun v => ?_⟩
  rw [same, List.foldl_cons, List.foldl_nil]
  simp only [pages, List.foldl_cons, List.foldl_nil, works, listed]
  split
  · rfl
  · rfl

namespace StackLeaves

/-- System tables at 0x10000 with one leaf at 0x14000 that maps the first 64 GiB onto themselves, the frames of unit 0. -/
def tablesOnStack : Memory := [(0x10000, 0x01), (0x10001, 0x40), (0x10002, 0x01), (0x14000, 0x1F)]

def owner : Part := { Part.formed 0 0 1 1 with system := 0x10000 }

/-- A package with that partition alone; every frame reads as the hallmark 0 of its unit, and no exception is listed. -/
def before : State := { State.reset with mem := tablesOnStack, parts := [(0, owner)] }

/-- Unit 0 marked offline, before its pages begin to move. -/
def marked : State := before.setMsu 0 { before.msu 0 with offline := true }

/-- The one page on unit 0: its leaf is the word at 0x14000. -/
theorem pagesOn_marked : marked.pagesOn 0 0 owner = [(0, 0, 0x1F, 2 ^ 36, [0x14000])] := by decide +kernel

theorem works_marked : ((List.range 40).filter fun u => !(marked.msu u).offline).length = 39 := by decide +kernel

/-- Some unit still works, whichever free value names it. -/
theorem freeUnit_marked : ∃ u, marked.freeUnit = some u := by
  refine ⟨_, List.getElem?_eq_getElem ?_⟩
  rw [works_marked]
  exact Nat.mod_lt _ (by decide)

/-- The mark of the move, an unmarked write, enters the frame of the leaf in the exception table of unit 0. -/
theorem exc_moving : (({ marked with oracle := marked.oracle + 2 }.putLeaf 0 [0x14000] (0x1F ||| (1 <<< 6))).msu 0).exc = [0x14000] := by
  decide +kernel

theorem exec_stackOffline_before : ∃ u, exec (.stackOffline 0) before = .next u ∧ (u.msu 0).exc = [0x14000] := by
  obtain ⟨k, works⟩ := freeUnit_marked
  obtain ⟨u, outcome, msus⟩ := exec_stackOffline_one (s := before) (stack := 0) (by decide) rfl pagesOn_marked works
  exact ⟨u, outcome, (congrArg Msu.exc (msus 0)).trans exc_moving⟩

end StackLeaves

open StackLeaves in
/-- Refutes O52: the leaf of a page of an offline stack is rewritten by an unmarked write, and where the leaf stands in a frame of that stack
that reads as the hallmark, the frame joins its exception table (R274, R282); so that more than `offline` changes in the unit. -/
theorem not_memorySideEvents : ¬ Obligations.MemorySideEvents := by
  unfold Obligations.MemorySideEvents
  rintro ⟨events, -⟩
  obtain ⟨-, -, -, -, -, stack, -⟩ := events before 0 0 0
  obtain ⟨t, runs, same, -⟩ := stack (by decide)
  obtain ⟨u, outcome, entered⟩ := exec_stackOffline_before
  cases runs.symm.trans outcome
  rw [same] at entered
  cases entered

end Sys2Proof.Machine
end

section
/-! PROOFS. Timing groups (O48): stalls, restarts, barriers, events at a boundary, quench, watchdog and debugger halts -/

namespace Sys2Proof.Machine

open Sys2Proof

/-! ## Cores after a change of every core, and after a fold over some of them -/

/-- A core after a change of every listed core that leaves a core with no unit as it is. -/
theorem State.core_map (s : State) (f : Nat × Core → Nat × Core) (keeps : ∀ x, (f x).1 = x.1) (n : Nat)
    (bare : (f (n, Core.reset)).2 = Core.reset) : ({ s with cores := s.cores.map f } : State).core n = (f (n, s.core n)).2 := by
  unfold State.core Map.get
  dsimp only
  rw [Map.get?_map_value f keeps]
  cases Map.get? s.cores n with
  | none => exact bare.symm
  | some c => rfl

/-- A change made at most once in effect, of each core of a list. -/
theorem State.core_foldl_onCore {F : Core → Core} (once : ∀ c, F (F c) = F c) (l : List Nat) (s : State) (n : Nat) :
    (l.foldl (fun t k => t.onCore k F) s).core n = if n ∈ l then F (s.core n) else s.core n := by
  induction l generalizing s with
  | nil => rfl
  | cons k l ih =>
    rw [List.foldl_cons, ih]
    by_cases same : n = k
    · rw [same, State.core_onCore, once, ite_self, if_pos (List.mem_cons_self ..)]
    · rw [State.core_onCore_other _ _ same]
      simp [same]

theorem State.groups_foldl_onCore {α : Type} (f : α → Nat) (F : α → Core → Core) (l : List α) (s : State) :
    (l.foldl (fun t a => t.onCore (f a) (F a)) s).groups = s.groups := by
  induction l generalizing s with
  | nil => rfl
  | cons a l ih => exact ih _

/-- A fold of steps that each replace the core of their own number, over distinct numbers. -/
theorem State.core_foldl_nodup {f : State → Nat → State} {F : Nat → Core} {l : List Nat} (distinct : l.Nodup) (s : State)
    (step : ∀ t, ∀ m ∈ l, t.core m = s.core m → f t m = t.setCore m (F m)) :
    (l.foldl f s).mem = s.mem ∧ (∀ m ∈ l, (l.foldl f s).core m = F m) ∧ ∀ m, m ∉ l → (l.foldl f s).core m = s.core m := by
  induction l generalizing s with
  | nil => exact ⟨rfl, ⟨fun _ member => absurd member List.not_mem_nil, fun _ _ => rfl⟩⟩
  | cons k l ih =>
    obtain ⟨fresh, rest⟩ := List.nodup_cons.mp distinct
    have first : f s k = s.setCore k (F k) := step s k (List.mem_cons_self ..) rfl
    have others : ∀ m, m ∈ l → m ≠ k := fun m member same => fresh (same ▸ member)
    have tail := ih rest (s.setCore k (F k)) fun t m member same =>
      step t m (List.mem_cons_of_mem _ member) (same.trans (State.core_setCore_other _ _ (others m member)))
    rw [List.foldl_cons, first]
    refine ⟨tail.1, fun m member => ?_, fun m out => ?_⟩
    · rcases List.mem_cons.mp member with rfl | later
      · exact (tail.2.2 _ fresh).trans (State.core_setCore ..)
      · exact tail.2.1 m later
    · obtain ⟨other, out⟩ := not_or.mp fun same => out (List.mem_cons.mpr same)
      exact (tail.2.2 m out).trans (State.core_setCore_other _ _ other)

/-! ## A stall -/

theorem Core.putSkew_contexts (k : Nat) (c : Core) : ∃ x h, c.putSkew k = { c with ctx := x, held := h } := by
  unfold Core.putSkew
  split
  · exact ⟨_, _, rfl⟩
  · split
    · exact c.onSys_contexts _
    · exact ⟨_, _, rfl⟩

/-- The RSKEWs of a group's members are fields of their contexts alone. -/
theorem State.setSkews_contexts (s : State) (g n : Nat) : ∃ x h, (s.setSkews g).core n = { s.core n with ctx := x, held := h } := by
  unfold State.setSkews
  dsimp only
  generalize (s.groupCores g).filterMap _ = ms
  generalize ((ms.map Prod.snd).min?).getD 0 = low
  induction ms generalizing s with
  | nil => exact ⟨_, _, rfl⟩
  | cons m ms ih =>
    obtain ⟨x, h, later⟩ := ih (s.onCore m.1 (Core.putSkew (m.2 - low)))
    rw [List.foldl_cons, later]
    by_cases same : n = m.1
    · obtain ⟨x1, h1, put⟩ := Core.putSkew_contexts (m.2 - low) (s.core m.1)
      rw [same, State.core_onCore, put]
      exact ⟨_, _, rfl⟩
    · rw [State.core_onCore_other _ _ same]
      exact ⟨_, _, rfl⟩

theorem State.stallGroup_contexts (s : State) (g tick : Nat) (trap quench : Bool) (n : Nat) :
    ∃ x h, (s.stallGroup g tick trap quench).core n = { s.core n with ctx := x, held := h } := by
  unfold State.stallGroup
  split
  · exact ⟨_, _, rfl⟩
  · exact State.setSkews_contexts _ g n

theorem exec_groupStall {s : State} {n : Nat} (due : (s.core n).stopAt.isSome = true) (live : (s.core n).live = true)
    (calm : (s.core n).ctx.qreq = false) :
    ∃ u, exec (.groupStall n) s = .next u ∧ u.mem = s.mem ∧ (u.core n).run = .stop ∧ (u.core n).stopAt = none ∧
      (u.core n).stopped = some ((s.core n).ctx.clk - (s.core n).ctx.base, s.tickOf (s.core n)) := by
  have some_ : (s.core n).stopAt.isNone = false := by
    rw [← Option.not_isSome, due]
    rfl
  change ∃ u, execGroupStall n s = .next u ∧ _
  unfold execGroupStall
  dsimp only
  rw [if_neg (by rw [some_]; exact Bool.false_ne_true), live, if_neg (by decide), calm]
  refine ⟨_, rfl, ?_⟩
  obtain ⟨x, h, same⟩ := State.stallGroup_contexts (s.onCore n fun c => { c with
      stopAt := none, run := .stop, stopped := some (c.ctx.clk - c.ctx.base, s.tickOf (s.core n)) })
    (s.core n).group (s.tickOf (s.core n)) false false n
  rw [State.core_onCore] at same
  refine ⟨?_, ?_, ?_, ?_⟩
  · exact (State.mem_stallGroup ..).trans (State.mem_onCore ..)
  · exact congrArg Core.run same
  · exact congrArg Core.stopAt same
  · exact congrArg Core.stopped same

/-! ## A restart -/

/-- A member that its group's restart gives its cycle. -/
def Core.restartAt (q : Nat) (c : Core) : Core := if c.inSync then c else { c with restart := some (q + c.ctx.rskew.toNat) }

theorem Core.restartAt_once (q : Nat) (c : Core) : (c.restartAt q).restartAt q = c.restartAt q := by
  unfold Core.restartAt
  split
  · rfl
  · exact if_neg ‹_›

theorem exec_groupResume {s : State} {g q : Nat} {x : Group} (due : s.restartCycle g = some q) (stands : Map.get? s.groups g = some x) :
    ∃ u, exec (.groupResume g) s = .next u ∧ u.mem = s.mem ∧ (∃ y, Map.get? u.groups g = some y ∧ y.stalled = false ∧ y.members = x.members) ∧
      ∀ m ∈ s.groupCores g, (s.core m).inSync = false → (u.core m).restart = some (q + (s.core m).ctx.rskew.toNat) := by
  change ∃ u, execGroupResume g s = .next u ∧ _
  refine ⟨_, rfl, State.mem_restartGroup s g, ?_⟩
  unfold State.restartGroup
  rw [due, stands]
  refine ⟨⟨_, (congrArg (fun gs => Map.get? gs g) (State.groups_foldl_onCore (fun n => n) (fun _ => Core.restartAt q) _ _)).trans
    (Map.get?_put_self ..), rfl, rfl⟩, fun m member alone => ?_⟩
  have given := State.core_foldl_onCore (Core.restartAt_once q) (s.groupCores g) (s.setGroup g { x with
    stalled := false, trap := false, quench := false, due := none, resumed := none }) m
  rw [if_pos member] at given
  refine (congrArg Core.restart given).trans ?_
  unfold Core.restartAt
  rw [if_neg (by exact fun sync => Bool.false_ne_true (alone.symm.trans sync))]
  rfl

/-! ## A barrier -/

/-- A member that waits at a barrier which releases. -/
def Core.released (c : Core) (g tick : Nat) (b : BGroup) : Core :=
  let d : Core := { c with bgroups := Map.put c.bgroups g { b with arrived := false, bar := false, sync := false, passed := false } }
  { (if b.bar then d.barSwap else d) with sat := some tick }

theorem Core.released_fields (c : Core) (g tick : Nat) (b : BGroup) :
    (c.released g tick b).arrivedAt g = false ∧ (c.released g tick b).sat = some tick ∧ (c.released g tick b).swapped = (b.bar != c.swapped) ∧
      (c.released g tick b).parity = (b.bar != c.parity) ∧
      (c.released g tick b).owned = (if b.bar then c.owned.extractLsb' 0 8 ++ c.owned.extractLsb' 8 8 else c.owned) := by
  have listed : (c.released g tick b).bgroups = Map.put c.bgroups g { b with arrived := false, bar := false, sync := false, passed := false } := by
    unfold Core.released
    cases b.bar <;> rfl
  refine ⟨?_, rfl, ?_⟩
  · rw [Core.arrivedAt, listed, Map.get?_put_self]
    rfl
  · unfold Core.released
    cases b.bar
    · exact ⟨(Bool.false_bne _).symm, (Bool.false_bne _).symm, rfl⟩
    · exact ⟨(Bool.true_bne _).symm, (Bool.true_bne _).symm, rfl⟩

theorem exec_barrierRelease {s : State} {n g : Nat} (all_ : s.allArrived (s.core n) g = true) (distinct : (s.barrierCores (s.core n) g).Nodup)
    (wait : ∀ m ∈ s.barrierCores (s.core n) g, (s.core m).run = .wait (.barrier g))
    (noSync : ∀ m ∈ s.barrierCores (s.core n) g, ∀ b, Map.get? (s.core m).bgroups g = some b → b.sync = false)
    (before : s.justArrived n g = false) (member : n ∈ s.barrierCores (s.core n) g) :
    ∃ u, exec (.barrierRelease n g) s = .next u ∧ u.mem = s.mem ∧ ∀ m ∈ s.barrierCores (s.core n) g, ∀ b,
      Map.get? (s.core m).bgroups g = some b → u.core m = (s.core m).released g (s.tickOf (s.core n)) b := by
  have alone : ∀ m ∈ s.barrierCores (s.core n) g, (Map.get (s.core m).bgroups g ⟨[], false, false, false, false⟩).sync = false := by
    intro m named
    unfold Map.get
    cases stands : Map.get? (s.core m).bgroups g with
    | none => rfl
    | some b => exact noSync m named b stands
  have none_ : (s.barrierCores (s.core n) g).filter (fun m => (Map.get (s.core m).bgroups g ⟨[], false, false, false, false⟩).sync) = [] :=
    List.filter_eq_nil_iff.mpr fun m named => by rw [alone m named]; exact Bool.false_ne_true
  have later : ((s.barrierCores (s.core n) g).all fun m => s.justArrived m g) = false :=
    List.all_eq_false.mpr ⟨n, member, by rw [before]; exact Bool.false_ne_true⟩
  change ∃ u, execBarrierRelease n g s = .next u ∧ _
  unfold execBarrierRelease
  simp only [all_, none_, later, Bool.not_true, Bool.false_eq_true, if_false, List.isEmpty_nil, if_true]
  refine ⟨_, rfl, And.imp_right (fun given m named b stands => (given.1 m named).trans ?_) (State.core_foldl_nodup (F := fun m =>
    (s.core m).released g (s.tickOf (s.core n)) (Map.get (s.core m).bgroups g ⟨[], false, false, false, false⟩)) distinct s fun t m named same => ?_)⟩
  · have stands : ((s.core m).run == .wait (.barrier g)) = true := beq_iff_eq.2 (wait m named)
    rw [same, alone m named, stands]
    rfl
  · rw [Map.get, stands]
    rfl

/-! ## Events at a boundary -/

theorem Core.events_takeTrap {c : Core} (free : c.tm = false) (tick clk sres : Nat) (t : Trap) (pc : Word) (rep : BitVec 7) :
    (c.takeTrap tick clk sres t pc rep).events = c.events := by
  obtain ⟨m, hold⟩ := c.holdReheat_eq
  rw [Core.takeTrap, free, hold]
  simp only [Bool.false_eq_true, if_false]

theorem exec_pendingEvent {s : State} {n : Nat} {e : Trap} (boundary : s.atBoundary (s.core n) = true)
    (first : firstEvent (s.core n).pending = some e) :
    ∃ u, exec (.pendingEvent n) s = .next u ∧ u.mem = s.mem ∧ (∀ m, m ≠ n → u.core m = s.core m) ∧ (u.core n).mode = 1 ∧ (u.core n).tm = true ∧
      (u.core n).holdTo = s.tickOf (s.core n) + 4 ∧ (u.core n).events = (s.core n).events.erase e ∧
      ∃ x, (u.core n).held = some x ∧ x.cause = causeOf e ∧ x.fval = e.fval := by
  have parts := boundary
  unfold State.atBoundary at parts
  simp only [Bool.and_eq_true, Bool.not_eq_true', beq_iff_eq] at parts
  obtain ⟨⟨⟨⟨⟨⟨⟨runs, -⟩, free⟩, -⟩, -⟩, -⟩, -⟩, -⟩ := parts
  change ∃ u, execPendingEvent n s = .next u ∧ _
  unfold execPendingEvent
  dsimp only
  rw [boundary, Bool.not_true, if_neg Bool.false_ne_true, first]
  refine ⟨_, rfl, rfl, fun m other => State.core_onCore_other _ _ other, ?_⟩
  rw [State.core_onCore]
  have still : ∀ es f, ({ s.core n with events := es, forced := f } : Core).interruptWait = { s.core n with events := es, forced := f } := by
    intro es f
    unfold Core.interruptWait
    rw [runs]
  unfold Core.trapHere
  rw [still]
  have trap : ∀ c : Core, c.tm = false → ∀ tick, let d := c.takeTrap tick c.ctx.clk 0 e c.ctx.pc c.ctx.rep
      d.mode = 1 ∧ d.tm = true ∧ d.holdTo = tick + 4 ∧ d.events = c.events ∧ ∃ x, d.held = some x ∧ x.cause = causeOf e ∧ x.fval = e.fval := by
    intro c free tick
    obtain ⟨mode, tm, -, -, hold, -⟩ := Core.takeTrap_enters free tick c.ctx.clk 0 e c.ctx.pc c.ctx.rep
    obtain ⟨x, held, -, -, -, -, -, -, -, -, -, -, fval, -, -, -, cause, -⟩ := Core.takeTrap_snapshot free tick c.ctx.clk 0 e c.ctx.pc c.ctx.rep
    exact ⟨mode, tm, hold, Core.events_takeTrap free .., x, held, cause, fval⟩
  exact trap { s.core n with
    events := (s.core n).events.erase e, forced := (s.core n).forced && e.code != cQUENCH } free (s.tickOf (s.core n))

/-! ## Quench, watchdog and debugger -/

theorem exec_forcedQuench {s : State} {k : Nat} :
    ∃ u, exec (.forcedQuench k) s = .next u ∧ u.mem = s.mem ∧
      (∀ m, (s.core m).run ≠ .idle → (s.core m).launch = k → (s.core m).sysCtx.qreq = true → u.core m = { s.core m with forced := true }) ∧
      ∀ m, (s.core m).launch ≠ k → u.core m = s.core m := by
  change ∃ u, execForcedQuench k s = .next u ∧ _
  unfold execForcedQuench
  have mapped := fun m => State.core_map s (fun x =>
    if x.2.run != .idle && x.2.launch == k && x.2.sysCtx.qreq then (x.1, { x.2 with forced := true }) else x) (fun x => by split <;> rfl) m rfl
  refine ⟨_, rfl, rfl, fun m runs mine asked => ?_, fun m other => ?_⟩
  · refine (mapped m).trans ?_
    simp [runs, mine, asked]
  · refine (mapped m).trans ?_
    simp [other]

/-- A core with the watchdog of its contexts. -/
def Core.withWdog (w : Word) (c : Core) : Core :=
  { c with ctx := { c.ctx with wdog := w }, held := c.held.map fun y => { y with wdog := w } }

theorem exec_watchdog {s : State} {k : Nat} {l : Launch} (stands : Map.get? s.launches k = some l) (counts : s.watches k l = true)
    (due : l.wdogAt + gtMicro ≤ s.gt) (left : 1 < l.wdog) :
    ∃ u, exec (.watchdog k) s = .next u ∧ u.mem = s.mem ∧
      (∃ y, Map.get? u.launches k = some y ∧ y.wdog = l.wdog - 1 ∧ y.wdogAt = l.wdogAt + gtMicro) ∧
      (∀ m, (s.core m).run ≠ .idle → (s.core m).launch = k → (u.core m).ctx.wdog = l.wdog - 1 ∧ (u.core m).run = (s.core m).run) ∧
      ∀ m, (s.core m).launch ≠ k → u.core m = s.core m := by
  have some_ : ¬l.wdog = 0 := by bv_omega
  have more : (l.wdog - 1 != 0) = true := bne_iff_ne.2 (by bv_omega)
  have late : decide (s.gt < l.wdogAt + gtMicro) = false := decide_eq_false (by omega)
  change ∃ u, execWatchdog k s = .next u ∧ _
  unfold execWatchdog
  simp only [stands, counts, late, Bool.not_true, Bool.or_self, Bool.and_false, Bool.false_eq_true, if_false, some_, more, if_true]
  have mapped := fun m => State.core_map (s.setLaunch k { l with wdog := l.wdog - 1, wdogAt := l.wdogAt + gtMicro }) (fun x =>
    if (x.2.run != .idle && x.2.launch == k) = true then (x.1, x.2.withWdog (l.wdog - 1)) else x)
    (fun x => by split <;> rfl) m rfl
  refine ⟨_, rfl, rfl, ⟨_, Map.get?_put_self .., rfl, rfl⟩, fun m runs mine => ?_, fun m other => ?_⟩
  · have now : ((s.core m).run != .idle && (s.core m).launch == k) = true := by simp [runs, mine]
    have given := (mapped m).trans (congrArg Prod.snd (if_pos now))
    have run := congrArg Core.run given
    exact ⟨congrArg (fun c => c.ctx.wdog) given, run⟩
  · have gone : ¬((s.core m).run != .idle && (s.core m).launch == k) = true := by simp [other]
    exact (mapped m).trans (congrArg Prod.snd (if_neg gone))

/-- A core that the debugger has halted before its bundle. -/
def Core.halts (c : Core) : Core := { c with run := .stop, line := none, ctx := { c.ctx with broke := true } }

/-- A core stopped in a cycle, with its schedule count. -/
def Core.stopsAt (tick : Nat) (c : Core) : Core := { c with stopped := some (c.ctx.clk - c.ctx.base, tick), fresh := true }

theorem exec_debuggerHalt {s : State} {n : Nat} {x : Group} (runs : (s.core n).run = .run) (tenant : (s.core n).mode = 0)
    (stands : Map.get? s.groups (s.core n).group = some x) :
    ∃ u, exec (.debuggerHalt n) s = .next u ∧ u.mem = s.mem ∧ (∀ m, m ≠ n → u.core m = s.core m) ∧ (u.core n).run = .stop ∧
      (u.core n).line = none ∧ (u.core n).stopped = some ((s.core n).ctx.clk - (s.core n).ctx.base, s.tickOf (s.core n)) ∧
      ∃ y, Map.get? u.groups (s.core n).group = some y ∧ y.halt = true := by
  change ∃ u, execDebuggerHalt n s = .next u ∧ _
  unfold execDebuggerHalt
  dsimp only
  rw [if_neg (by rw [runs]; decide), if_pos tenant]
  split
  · rename_i gone
    cases stands.symm.trans gone
  · have given := (State.core_onCore (s.onCore n Core.halts) n (Core.stopsAt (s.tickOf (s.core n)))).trans
      (congrArg (Core.stopsAt (s.tickOf (s.core n))) (State.core_onCore s n Core.halts))
    refine ⟨_, rfl, rfl, fun m other => ?_, congrArg Core.run given, congrArg Core.line given, congrArg Core.stopped given, _,
      Map.get?_put_self .., rfl⟩
    exact (State.core_onCore_other (s.onCore n Core.halts) (Core.stopsAt (s.tickOf (s.core n))) other).trans
      (State.core_onCore_other s Core.halts other)

/-- Settles O48: one lemma for each event, by what its fold or its map makes of a core. -/
theorem groupEvents : Obligations.GroupEvents := by
  unfold Obligations.GroupEvents
  intro s n g c t
  refine ⟨exec_groupStall, fun q x due stands => exec_groupResume due stands, fun same => ?_, fun all_ distinct wait noSync before member => ?_,
    fun e boundary first => exec_pendingEvent boundary first, fun k l _ => exec_forcedQuench,
    fun k l stands counts due left => exec_watchdog stands counts due left, fun x runs tenant stands => exec_debuggerHalt runs tenant stands⟩
  · subst same
    rfl
  · obtain ⟨u, outcome, mem, cores⟩ := exec_barrierRelease all_ distinct wait noSync before member
    refine ⟨u, outcome, mem, fun m named b stands => ?_⟩
    rw [cores m named b stands]
    exact Core.released_fields ..

end Sys2Proof.Machine
end

section
/-! PROOFS. The Ethernet ports (O56): SCT flows, RoCE v2 by its regions, and pauses -/

namespace Sys2Proof.Machine

open Sys2Proof

/-! ## Frames handed to a port -/

section
variable (s : State) (port prio : Nat) (l : List Output)

theorem State.transmit_free (free : s.isPaused port prio = false) : s.transmit port prio l = { s with outbox := s.outbox ++ l } := by
  rw [State.transmit, free]
  rfl

theorem State.transmit_paused (paused : s.isPaused port prio = true) :
    s.transmit port prio l = { s with portQueue := s.portQueue ++ l.map fun o => (port, prio, o) } := by
  rw [State.transmit, paused]
  rfl

/-- A port's transmission is outputs and held frames alone. -/
theorem State.transmit_eq : ∃ o q, s.transmit port prio l = { s with outbox := o, portQueue := q } := by
  unfold State.transmit
  split
  · exact ⟨_, _, rfl⟩
  · exact ⟨_, _, rfl⟩

end

/-! ## SCT frames -/

section
variable {s : State} {port vlan i : Nat} {flags : Byte} {flow : BitVec 16} {psn : BitVec 32} {pkt : Packet} {r : RxFlow}

/-- A frame that brings a packet, and no acknowledgement alone. -/
theorem exec_sctFrame_refused (data : flags.getLsbD 0 = false) (fits : pkt.payload.length ≤ 1024) (unknown : s.accepts pkt = false) :
    exec (.sctFrame port vlan flags flow psn pkt) s = .next (s.logFabric 5 (port * 256) pkt.part pkt.src) := by
  change execSctFrame port vlan flags flow psn pkt s = _
  unfold execSctFrame
  simp only [data, Nat.not_lt.mpr fits, unknown, decide_false, Bool.or_self, Bool.false_eq_true, Bool.not_false, if_false, if_true]

/-- The flow of a frame with one more frame to acknowledge. -/
def RxFlow.taken (r : RxFlow) (gt : Nat) : RxFlow :=
  { r with next := r.next + 1, since := if r.count = 0 then gt else r.since, count := r.count + 1 }

theorem exec_sctFrame_other (data : flags.getLsbD 0 = false) (fits : pkt.payload.length ≤ 1024) (known : s.accepts pkt = true)
    (index : (s.rxs.findIdx? fun r => r.port == port && r.flow == flow && r.spkg == pkt.spkg) = some i) (stands : s.rxs[i]? = some r)
    (other : psn ≠ r.next) : exec (.sctFrame port vlan flags flow psn pkt) s = .next s := by
  change execSctFrame port vlan flags flow psn pkt s = _
  unfold execSctFrame
  have flow_ : ∀ d, s.rxs.getD i d = r := fun d => by rw [List.getD_eq_getElem?_getD, stands]; rfl
  have dropped : (psn != r.next) = true := bne_iff_ne.2 other
  simp only [data, Nat.not_lt.mpr fits, known, index, flow_, dropped, decide_false, Bool.or_self, Bool.not_true, Bool.false_eq_true, if_false,
    if_true]

theorem exec_sctFrame_next {node : Nat} (data : flags.getLsbD 0 = false) (fits : pkt.payload.length ≤ 1024) (known : s.accepts pkt = true)
    (index : (s.rxs.findIdx? fun r => r.port == port && r.flow == flow && r.spkg == pkt.spkg) = some i) (stands : s.rxs[i]? = some r)
    (few : r.count < 15) (next : psn = r.next) (target : s.sctTarget pkt = some node) :
    exec (.sctFrame port vlan flags flow psn pkt) s = .next { s with
      rxs := s.rxs.set i (r.taken s.gt), agenda := s.agenda ++ [.coordinatePacket node { pkt with frame := some (i, psn) }] } := by
  subst next
  change execSctFrame port vlan flags flow r.next pkt s = _
  unfold execSctFrame
  have flow_ : ∀ d, s.rxs.getD i d = r := fun d => by rw [List.getD_eq_getElem?_getD, stands]; rfl
  have within : i < s.rxs.length := (List.getElem?_eq_some_iff.mp stands).1
  have same : ∀ rxs, State.sctTarget { s with rxs := rxs } pkt = some node := fun _ => target
  have room : ¬16 ≤ r.count + 1 := by omega
  simp only [data, Nat.not_lt.mpr fits, known, index, flow_, within, same, room, bne_self_eq_false, decide_false, Bool.or_self, Bool.not_true,
    Bool.false_eq_true, if_false, if_true]
  rfl

theorem exec_sctAcknowledgement {t : TxFlow} {ack : BitVec 32} (stands : s.txs[i]? = some t) (works : t.failed = false)
    (covers : ∃ u ∈ t.unacked, (ack - u.1).toNat < 2 ^ 31) : exec (.sctAcknowledgement i ack) s = .next { s with
      txs := s.txs.set i { t with unacked := t.unacked.filter (fun u => decide (2 ^ 31 ≤ (ack - u.1).toNat)), since := s.gt, tries := 0 } } := by
  obtain ⟨u, member, old⟩ := covers
  have fewer : (t.unacked.filter fun u => decide (2 ^ 31 ≤ (ack - u.1).toNat)).length ≠ t.unacked.length := by
    intro same
    have all_ := List.length_filter_eq_length_iff.mp same u member
    exact Nat.not_le.mpr old (of_decide_eq_true all_)
  change execSctAcknowledgement i ack s = _
  unfold execSctAcknowledgement
  simp only [stands, works, fewer, decide_false, Bool.or_self, Bool.false_eq_true, if_false]
  rfl

/-! ## Cumulative acknowledgements -/

theorem foldl_min_le (l : List Nat) (a : Nat) : l.foldl min a ≤ a ∧ ∀ x ∈ l, l.foldl min a ≤ x := by
  induction l generalizing a with
  | nil => exact ⟨Nat.le_refl a, fun _ member => absurd member List.not_mem_nil⟩
  | cons y l ih =>
    obtain ⟨start, rest⟩ := ih (min a y)
    refine ⟨Nat.le_trans start (Nat.min_le_left ..), fun x member => ?_⟩
    rcases List.mem_cons.mp member with rfl | later
    · exact Nat.le_trans start (Nat.min_le_right ..)
    · exact rest x later

theorem State.written_le (s : State) (i : Nat) (r : RxFlow) : s.written i r ≤ r.count := (foldl_min_le _ _).1

theorem State.written_all (waits : s.waiting = []) (held : r.held = []) : s.written i r = r.count := by
  unfold State.written
  rw [waits, held]
  rfl

/-- A frame of which a write is held is not written. -/
theorem State.written_le_held {x : Nat × Nat × List Byte} {psn : BitVec 32} (member : (psn, x) ∈ r.held) (held : s.heldWrites.contains x = true) :
    s.written i r ≤ (psn - (r.next - BitVec.ofNat 32 r.count)).toNat := by
  refine (foldl_min_le _ _).2 _ (List.mem_append_right _ (List.mem_map.mpr ⟨(psn, x), List.mem_filter.mpr ⟨member, held⟩, rfl⟩))

theorem exec_cumulativeAcknowledgement (stands : s.rxs[i]? = some r) (due : 16 ≤ r.count ∨ r.since + 2 * gtMicro ≤ s.gt)
    (some_ : s.written i r ≠ 0) : exec (.cumulativeAcknowledgement i) s = .next (s.acknowledge i (s.written i r) r) := by
  have now : (decide (r.count < 16) && decide (s.gt < r.since + 2 * gtMicro)) = false := by
    simp only [Bool.and_eq_false_iff, decide_eq_false_iff_not]
    omega
  change execCumulativeAcknowledgement i s = _
  unfold execCumulativeAcknowledgement
  simp only [stands, some_, now, decide_false, Bool.or_self, Bool.false_eq_true, if_false]

theorem exec_cumulativeAcknowledgement_none (stands : s.rxs[i]? = some r) (none_ : s.written i r = 0) :
    exec (.cumulativeAcknowledgement i) s = .next s := by
  change execCumulativeAcknowledgement i s = _
  unfold execCumulativeAcknowledgement
  simp only [stands, none_, decide_true, Bool.true_or, if_true]

/-! ## Timeouts -/

theorem exec_retransmitTimeout_again {t : TxFlow} (stands : s.txs[i]? = some t) (works : t.failed = false) (left : t.unacked ≠ [])
    (late : t.since + 20 * gtMicro ≤ s.gt) (few : t.tries < 7) : exec (.retransmitTimeout i) s =
      .next (({ s with txs := s.txs.set i { t with since := s.gt, tries := t.tries + 1 } } : State).transmit
        (peerPORT ((s.peerEntry t.part t.peer).getD 0)) (peerPRIO ((s.peerEntry t.part t.peer).getD 0))
        (t.unacked.map fun u => s.dataFrame ((s.peerEntry t.part t.peer).getD 0) i u.1 true u.2)) := by
  have now : decide (s.gt < t.since + 20 * gtMicro) = false := decide_eq_false (Nat.not_lt.mpr late)
  have some_ : t.unacked.isEmpty = false := by simpa using left
  change execRetransmitTimeout i s = _
  unfold execRetransmitTimeout
  simp only [stands, works, some_, now, Nat.not_le.mpr few, Bool.or_self, Bool.false_eq_true, if_false]
  rfl

theorem exec_retransmitTimeout_fails {t : TxFlow} (stands : s.txs[i]? = some t) (works : t.failed = false) (left : t.unacked ≠ [])
    (late : t.since + 20 * gtMicro ≤ s.gt) (often : 7 ≤ t.tries) : exec (.retransmitTimeout i) s =
      .next (((s.setFlow i { t with failed := true }).launchesEvent t.part t.launches
        ⟨cPAYLOAD, 9, false, BitVec.ofNat 64 t.peer, 0⟩).sendEvent t.part 0x508 0) := by
  have now : decide (s.gt < t.since + 20 * gtMicro) = false := decide_eq_false (Nat.not_lt.mpr late)
  have some_ : t.unacked.isEmpty = false := by simpa using left
  change execRetransmitTimeout i s = _
  unfold execRetransmitTimeout
  simp only [stands, works, some_, now, often, Bool.or_self, Bool.false_eq_true, if_false, if_true]

theorem State.core_launchesEvent {part : Nat} {keys : List Nat} (t : Trap) {n : Nat} (runs : (s.core n).runsIn part = true)
    (named : keys.contains (s.core n).launch = true) : (s.launchesEvent part keys t).core n = (s.core n).addEvent t := by
  have given := State.core_map s (fun x => if x.2.runsIn part && keys.contains x.2.launch then (x.1, x.2.addEvent t) else x)
    (fun x => by split <;> rfl) n rfl
  exact given.trans (congrArg Prod.snd (if_pos (by rw [runs, named]; rfl)))

end

/-! ## RoCE v2 -/

/-- A region that covers a range. -/
def Region.covers (a n : Nat) (r : Region) : Bool := decide (r.base ≤ a) && decide (a + n ≤ r.base + r.len)

@[simp] theorem State.qps_sendEvent (s : State) (part offset unit : Nat) : (s.sendEvent part offset unit).qps = s.qps := by
  unfold State.sendEvent
  split
  · rfl
  · dsimp only
    split <;> split <;> rfl

@[simp] theorem State.qps_checkHallmark (part : Nat) (s : State) (f : Nat) : (State.checkHallmark part s f).qps = s.qps := by
  unfold State.checkHallmark
  dsimp only
  split
  · rfl
  · split
    · split
      · rfl
      · split
        · exact State.qps_sendEvent ..
        · rfl
    · rfl

theorem State.qps_foldl {α : Type} {f : State → α → State} (keeps : ∀ s a, (f s a).qps = s.qps) (l : List α) (s : State) :
    (l.foldl f s).qps = s.qps := by
  induction l generalizing s with
  | nil => rfl
  | cons a l ih => exact (ih _).trans (keeps s a)

@[simp] theorem State.qps_devWrite (s : State) (part a : Nat) (l : List Byte) : (s.devWrite part a l).qps = s.qps := by
  unfold State.devWrite
  split
  · rfl
  · exact State.qps_foldl (fun t f => t.qps_checkHallmark part f) _ (s.writeKey a l)

@[simp] theorem State.qps_gpaWrite (s : State) (part a : Nat) (l : List Byte) : (s.gpaWrite part a l).qps = s.qps := by
  unfold State.gpaWrite
  split
  · rfl
  · refine State.qps_foldl (fun t x => ?_) _ s
    split
    · exact State.qps_devWrite ..
    · rfl

section
variable (s : State) (qp a : Nat) (marked : Bool)

/-- A congestion notification sent for a marked packet is an output or a held frame alone. -/
theorem State.congested_eq : ∃ o q, s.congested qp marked = { s with outbox := o, portQueue := q } := by
  unfold State.congested
  split
  · exact s.transmit_eq ..
  · exact ⟨_, _, rfl⟩

@[simp] theorem State.qp_congested (k : Nat) : (s.congested qp marked).qp k = s.qp k := by
  obtain ⟨o, q, same⟩ := s.congested_eq qp marked
  rw [same]
  rfl

theorem State.refused_congested : (s.congested qp marked).refused qp =
    (s.congested qp marked).transmit (s.qp qp).port (s.qp qp).prio [.nak qp (s.qp qp).psn false] := by
  rw [State.refused, State.reply, State.qp_congested]

theorem exec_roceSendRequest : exec (.roceSendRequest qp marked) s =
    .next ((s.congested qp marked).transmit (s.qp qp).port (s.qp qp).prio [.nak qp (s.qp qp).psn false]) :=
  congrArg Host.Outcome.next (s.refused_congested qp marked)

theorem exec_roceAtomicRequest : exec (.roceAtomicRequest qp marked) s =
    .next ((s.congested qp marked).transmit (s.qp qp).port (s.qp qp).prio [.nak qp (s.qp qp).psn false]) :=
  congrArg Host.Outcome.next (s.refused_congested qp marked)

theorem State.regionFor_congested (n : Nat) : (s.congested qp marked).regionFor qp a n = (s.qp qp).regions.find? (Region.covers a n) := by
  rw [State.regionFor, State.qp_congested]
  rfl

theorem exec_rdmaWrite_refused {data : List Byte} (none_ : (s.qp qp).regions.find? (Region.covers a data.length) = none) :
    exec (.rdmaWrite qp a data marked) s =
      .next ((s.congested qp marked).transmit (s.qp qp).port (s.qp qp).prio [.nak qp (s.qp qp).psn false]) := by
  change execRdmaWrite qp a data marked s = _
  unfold execRdmaWrite
  simp only [State.regionFor_congested, none_, State.refused_congested]

theorem exec_rdmaRead_refused {len : Nat} (none_ : (s.qp qp).regions.find? (Region.covers a len) = none) :
    exec (.rdmaRead qp a len marked) s =
      .next ((s.congested qp marked).transmit (s.qp qp).port (s.qp qp).prio [.nak qp (s.qp qp).psn false]) := by
  change execRdmaRead qp a len marked s = _
  unfold execRdmaRead
  simp only [State.regionFor_congested, none_, State.refused_congested, Option.bind_none]

theorem exec_rdmaWrite {data : List Byte} {r : Region} (covered : (s.qp qp).regions.find? (Region.covers a data.length) = some r) :
    exec (.rdmaWrite qp a data marked) s = .next (({ (s.congested qp marked).gpaWrite r.part a data with
      qps := Map.put ((s.congested qp marked).gpaWrite r.part a data).qps qp
        { s.qp qp with psn := (s.qp qp).psn + rocePackets data.length } } : State).transmit (s.qp qp).port (s.qp qp).prio
      [.rdmaAck qp ((s.qp qp).psn + rocePackets data.length - 1)]) := by
  have same : ((s.congested qp marked).gpaWrite r.part a data).qp qp = s.qp qp := by
    rw [State.qp, State.qps_gpaWrite]
    exact s.qp_congested qp marked qp
  have now : ∀ t : State, ((t.advanceQp qp (rocePackets data.length)).qp qp) = { t.qp qp with psn := (t.qp qp).psn + rocePackets data.length } := by
    intro t
    rw [State.qp, State.advanceQp, Map.get, Map.get?_put_self]
    rfl
  change execRdmaWrite qp a data marked s = _
  unfold execRdmaWrite
  simp only [State.regionFor_congested, covered, State.reply, now, same]
  rw [State.advanceQp, same]

theorem exec_rdmaRead {len : Nat} {r : Region} {p : Part} {l : List Byte} (covered : (s.qp qp).regions.find? (Region.covers a len) = some r)
    (formed : Map.get? s.parts r.part = some p) (bytes : gpaBytes s.mem p a len = some l) :
    exec (.rdmaRead qp a len marked) s = .next { (s.congested qp marked).transmit (s.qp qp).port (s.qp qp).prio [.rdma qp (s.qp qp).psn l] with
      qps := Map.put s.qps qp { s.qp qp with psn := (s.qp qp).psn + rocePackets len } } := by
  change execRdmaRead qp a len marked s = _
  unfold execRdmaRead
  obtain ⟨o, q, same⟩ := s.congested_eq qp marked
  have region := s.regionFor_congested qp a marked len
  rw [covered] at region
  simp only [region, Option.bind_some]
  rw [same]
  simp only [formed, Option.bind_some, bytes]
  obtain ⟨o2, q2, sent⟩ := ({ s with outbox := o, portQueue := q } : State).transmit_eq (s.qp qp).port (s.qp qp).prio [.rdma qp (s.qp qp).psn l]
  rw [sent]
  refine congrArg Host.Outcome.next ?_
  change State.advanceQp (State.transmit _ (s.qp qp).port (s.qp qp).prio [.rdma qp (s.qp qp).psn l]) qp _ = _
  rw [sent]
  rfl

end

/-! ## Pauses -/

/-- The priorities of a port that stand paused after a frame of flow control. -/
def pausedBits (old enable : Byte) (quanta : List Nat) : Byte :=
  BitVec.ofNat 8 (packNat 1 8 fun i =>
    if enable.getLsbD i then (if quanta.getD i 0 = 0 then 0 else 1) else (if old.getLsbD i then 1 else 0))

theorem getLsbD_pausedBits (old enable : Byte) (quanta : List Nat) {i : Nat} (within : i < 8) :
    (pausedBits old enable quanta).getLsbD i = if enable.getLsbD i then decide (quanta.getD i 0 ≠ 0) else old.getLsbD i := by
  have bits := testBit_packNat_one 8 (fun i => if enable.getLsbD i then decide (quanta.getD i 0 ≠ 0) else old.getLsbD i) i
  have same : ∀ j, (if enable.getLsbD j then (if quanta.getD j 0 = 0 then 0 else 1) else (if old.getLsbD j then 1 else 0)) =
      if (if enable.getLsbD j then decide (quanta.getD j 0 ≠ 0) else old.getLsbD j) = true then 1 else 0 := by
    intro j
    cases enable.getLsbD j
    · rfl
    · simp
  unfold pausedBits
  rw [BitVec.getLsbD_ofNat]
  simp only [same, bits, within, decide_true, Bool.true_and]

/-- Settles O56: frames and acknowledgements of SCT flows, timeouts, RoCE v2 by its regions, and the outputs of a port. -/
theorem portEvents : Obligations.PortEvents := by
  unfold Obligations.PortEvents
  intro s port qp
  refine ⟨fun vlan flags flow psn pkt data fits => ⟨exec_sctFrame_refused data fits, fun i r node known index stands few => ⟨fun next target => ?_,
      exec_sctFrame_other data fits known index stands⟩⟩, fun i t ack stands works covers => exec_sctAcknowledgement stands works covers,
    fun i r stands some_ due => ?_, fun i t stands works left late => ⟨exec_retransmitTimeout_again stands works left late, fun often => ?_⟩,
    fun a len data marked => ?_, fun pr l => ⟨s.transmit_free port pr l, s.transmit_paused port pr l⟩, fun id one => rfl, fun enable quanta => ?_⟩
  · have within : i < s.rxs.length := (List.getElem?_eq_some_iff.mp stands).1
    refine ⟨_, exec_sctFrame_next data fits known index stands few next target, rfl, rfl, rfl, r.taken s.gt, ?_, rfl, rfl, fun j other => ?_⟩
    · exact List.getElem?_set_self within
    · exact List.getElem?_set_ne fun same => other same.symm
  · exact ⟨exec_cumulativeAcknowledgement stands due, exec_cumulativeAcknowledgement_none stands, s.written_le i r, s.written_all,
      fun x psn member held => s.written_le_held member held⟩
  · exact ⟨_, exec_retransmitTimeout_fails stands works left late often, rfl, rfl, rfl, rfl, fun n runs named _ =>
      State.core_launchesEvent (s := s.setFlow i { t with failed := true }) _ runs named⟩
  · exact ⟨exec_roceSendRequest s qp marked, exec_roceAtomicRequest s qp marked, exec_rdmaWrite_refused s qp a marked,
      exec_rdmaRead_refused s qp a marked, fun r covered => exec_rdmaWrite s qp a marked covered,
      fun r p l covered formed bytes => exec_rdmaRead s qp a marked covered formed bytes⟩
  · exact ⟨pausedBits (Map.get s.paused port 0) enable quanta, _, rfl, fun i within => getLsbD_pausedBits _ enable quanta within⟩

end Sys2Proof.Machine
end

section
/-! PROOFS. Arrivals: direct sends, collectives, PAYLOAD_ERROR in every unit, and packets with an error -/

namespace Sys2Proof.Machine

open Sys2Proof

/-! ## Direct sends and waybills -/

section
variable {s : State} {n src : Nat} {data : Vec}

theorem State.holdOr_runs {ev : Instr} {land : State} (runs : (s.core n).stopped = none) : s.holdOr n ev land = land := by
  unfold State.holdOr
  simp only [runs]

theorem State.holdOr_stopped {ev : Instr} {land : State} {S k : Nat} (stopped : (s.core n).stopped = some (S, k)) :
    s.holdOr n ev land = s.setCore n { s.core n with xfers := (s.core n).xfers ++ [⟨ev, S + (s.tickOf (s.core n) - k)⟩] } := by
  unfold State.holdOr
  simp only [stopped]

theorem execDirectSend_runs (runs : (s.core n).stopped = none) :
    execDirectSend n src data 0 s = .next (s.setCore n { s.core n with arrived := (s.core n).arrived ++ [⟨src, some data⟩] }) :=
  congrArg Host.Outcome.next (State.holdOr_runs runs)

theorem exec_directSend_stopped {S k : Nat} (stopped : (s.core n).stopped = some (S, k)) : exec (.directSend n src data 0) s =
    .next (s.setCore n { s.core n with xfers := (s.core n).xfers ++ [⟨.directSend n src data 0, S + (s.tickOf (s.core n) - k)⟩] }) :=
  congrArg Host.Outcome.next (State.holdOr_stopped stopped)

end

/-! ## Collectives -/

section
variable {s : State} {n id : Nat} {data : Vec} {k : Coll} {l : Launch}

theorem exec_collectiveContribution (stands : Map.get? s.colls id = some k) : exec (.collectiveContribution id n data 0) s =
    .next { s with colls := Map.put s.colls id { k with vals := Map.put k.vals n data } } := by
  change execCollectiveContribution id n data 0 s = _
  unfold execCollectiveContribution
  simp only [stands]

theorem exec_collectiveContribution_header (stands : Map.get? s.colls id = some k) (listed : Map.get? s.launches k.launch = some l) :
    exec (.collectiveContribution id n data 2) s =
      .next { s.logFabric 3 (clusterOf n) l.part ((k.members.find? fun x => l.coreOf x = n).getD 0) with
        agenda := s.agenda ++ [.partitionHalted l.part] } := by
  change execCollectiveContribution id n data 2 s = _
  unfold execCollectiveContribution State.collNames
  simp only [stands, listed]

/-- The state in which a collective's result with an error code is delivered to an issuer: the issuer is counted, and the debugger may keep it. -/
def State.collReached (s : State) (id n : Nat) (k : Coll) (l : Launch) : State :=
  let t : State := { s with colls := Map.put s.colls id { k with got := k.got ++ [n] } }
  let old := t.dbg.reds.filter fun (x : Nat × Nat × Coll) => !(x.1 == n && x.2.1 == k.group && x.2.2.launch == k.launch)
  if l.performs k then { t with dbg := { t.dbg with reds := old ++ [(n, k.group, { k with got := k.got ++ [n] })] } } else t

theorem State.collReached_keeps (s : State) (id n : Nat) (k : Coll) (l : Launch) :
    (s.collReached id n k l).mem = s.mem ∧ (s.collReached id n k l).cores = s.cores ∧ (s.collReached id n k l).fabLog = s.fabLog := by
  unfold State.collReached
  dsimp only
  split
  · exact ⟨rfl, rfl, rfl⟩
  · exact ⟨rfl, rfl, rfl⟩

theorem exec_collectiveResult (stands : Map.get? s.colls id = some k) (listed : Map.get? s.launches k.launch = some l) :
    exec (.collectiveResult ⟨id, 0⟩ n) s = .next ((s.collReached id n k l).onCore n (Core.collDeliver l k n)) := by
  change execCollectiveResult ⟨id, 0⟩ n s = _
  unfold execCollectiveResult
  simp only [stands, listed]
  rfl

theorem exec_collectiveResult_corrected (stands : Map.get? s.colls id = some k) (listed : Map.get? s.launches k.launch = some l) :
    exec (.collectiveResult ⟨id, 3⟩ n) s =
      .next (((s.logFabric 1 (clusterOf n) l.part 0).collReached id n k l).onCore n (Core.collDeliver l k n)) := by
  change execCollectiveResult ⟨id, 3⟩ n s = _
  unfold execCollectiveResult
  simp only [stands, listed]
  rfl

theorem exec_collectiveResult_header (stands : Map.get? s.colls id = some k) (listed : Map.get? s.launches k.launch = some l) :
    exec (.collectiveResult ⟨id, 2⟩ n) s =
      .next { s.logFabric 3 (clusterOf n) l.part 0 with agenda := s.agenda ++ [.partitionHalted l.part] } := by
  change execCollectiveResult ⟨id, 2⟩ n s = _
  unfold execCollectiveResult
  simp only [stands, listed]

theorem exec_collectiveResult_poisoned (stands : Map.get? s.colls id = some k) (listed : Map.get? s.launches k.launch = some l) :
    exec (.collectiveResult ⟨id, 1⟩ n) s = .next { State.payloadError (s.logFabric 2 (clusterOf n) l.part 0) l.part (l.lid.extractLsb' 0 16) 0 with
      colls := Map.put (State.payloadError (s.logFabric 2 (clusterOf n) l.part 0) l.part (l.lid.extractLsb' 0 16) 0).colls id
        { k with got := k.got ++ [n] } } := by
  change execCollectiveResult ⟨id, 1⟩ n s = _
  unfold execCollectiveResult
  simp only [stands, listed]

/-- A collective in order, sound and complete gives its vector and its status. -/
theorem Core.collDeliver_value {c : Core} {d sd depth : Nat} {mark : Bool}
    (dest : Map.get? k.dests n = some (d, sd, depth, mark)) (order : k.order = false) (sound : k.bad = none) (complete : l.missing k = none)
    (own : Map.get? k.given n = none) : c.collDeliver l k n = { c with
      nextUid := c.nextUid + 1
      ctx := { c.ctx with items := c.ctx.items ++ [⟨c.ctx.clk, c.ctx.base + k.count, 7, false, false, c.nextUid,
        [.setV d (l.collective k) (BitVec.allOnes 2048), .setS sd (BitVec.ofNat 64 ((if mark then 1 else 0) + k.vals.length * 2 ^ 32))]⟩] } } := by
  unfold Core.collDeliver
  have named : Map.get k.dests n (0, 0, 0, false) = (d, sd, depth, mark) := by rw [Map.get, dest]; rfl
  simp only [named, order, sound, complete, own]
  rfl

theorem Core.events_collDeliver {c : Core} (order : k.order = true) :
    (c.collDeliver l k n).events = c.events ++ [⟨cCOLL, 7, false, BitVec.ofNat 64 k.group, 0⟩] := by
  unfold Core.collDeliver
  simp only [order, if_true]
  rfl

/-! ## PAYLOAD_ERROR in every unit -/

/-- A core that takes an event where it runs a unit of a context. -/
def Core.warned (part : Nat) (ctx : BitVec 16) (t : Trap) (c : Core) : Core :=
  if c.runsIn part && c.launchId.extractLsb' 0 16 == ctx then c.addEvent t else c

/-- A fold of warnings adds the event alone, and at every core of the list that runs a unit of the context. -/
theorem State.core_foldl_warned (part : Nat) (ctx : BitVec 16) (e : Trap) (ns : List Nat) (s : State) (m : Nat) :
    ∃ es, (ns.foldl (fun s n => if !(([] : List Nat).contains n) && (s.core n).runsIn part && (s.core n).launchId.extractLsb' 0 16 == ctx
        then s.onCore n (Core.addEvent e) else s) s).core m = { s.core m with events := es } ∧ (∀ x ∈ (s.core m).events, x ∈ es) ∧
      ((s.core m).runsIn part = true → (s.core m).launchId.extractLsb' 0 16 = ctx → m ∈ ns → e ∈ es) := by
  induction ns generalizing s with
  | nil => exact ⟨_, rfl, fun _ member => member, fun _ _ member => absurd member List.not_mem_nil⟩
  | cons n ns ih =>
    rw [List.foldl_cons]
    by_cases named : (!(([] : List Nat).contains n) && (s.core n).runsIn part && (s.core n).launchId.extractLsb' 0 16 == ctx) = true
    · rw [if_pos named]
      obtain ⟨es, later, keeps, taken⟩ := ih (s.onCore n (Core.addEvent e))
      by_cases here : m = n
      · subst here
        rw [State.core_onCore] at later keeps
        exact ⟨es, later, fun x member => keeps x (List.mem_append_left _ member),
          fun _ _ _ => keeps e (List.mem_append_right _ (List.mem_singleton.mpr rfl))⟩
      · rw [State.core_onCore_other _ _ here] at later keeps taken
        exact ⟨es, later, keeps, fun runs ctx_ member => taken runs ctx_ ((List.mem_cons.mp member).resolve_left here)⟩
    · rw [if_neg named]
      obtain ⟨es, later, keeps, taken⟩ := ih s
      refine ⟨es, later, keeps, fun runs ctx_ member => ?_⟩
      rcases List.mem_cons.mp member with rfl | rest
      · exact absurd (by simp [runs, ctx_]) named
      · exact taken runs ctx_ rest

/-- The units of a launch's context take an event; nothing else of a core changes. -/
theorem State.payloadError_cores (s : State) (part : Nat) (ctx : BitVec 16) (src m : Nat) :
    ((s.payloadError part ctx src).core m).ctx = (s.core m).ctx ∧
      ((s.core m).runsIn part = true → (s.core m).launchId.extractLsb' 0 16 = ctx → m ∈ s.cores.map Prod.fst →
        (⟨cPAYLOAD, 9, false, BitVec.ofNat 64 src, 0⟩ : Trap) ∈ ((s.payloadError part ctx src).core m).events) := by
  obtain ⟨es, same, -, taken⟩ := State.core_foldl_warned part ctx ⟨cPAYLOAD, 9, false, BitVec.ofNat 64 src, 0⟩ (s.cores.map Prod.fst) s m
  have given : (s.payloadError part ctx src).core m = { s.core m with events := es } := same
  rw [given]
  exact ⟨rfl, taken⟩

@[simp] theorem State.fabLog_payloadError (s : State) (part : Nat) (ctx : BitVec 16) (src : Nat) :
    (s.payloadError part ctx src).fabLog = s.fabLog := by
  unfold State.payloadError State.payloadErrorBut
  generalize s.cores.map Prod.fst = ns
  dsimp only
  induction ns generalizing s with
  | nil => rfl
  | cons n ns ih =>
    refine (ih _).trans ?_
    dsimp only
    split <;> rfl

end

/-! ## Packets -/

section
variable {s : State} {n : Nat} {p : Packet}

theorem exec_coordinatePacket_header (spoiled : p.bad = 2 ∨ headerReserved (pktHeader p 1 (pktClass p) 0) = true) :
    exec (.coordinatePacket n p) s = .next { s.logFabric 3 (pktRouter p n) p.part p.src with
      agenda := s.agenda ++ [.partitionHalted p.part] } := by
  have checked : pktChecked p = { p with bad := 2 } := by
    unfold pktChecked
    split
    · rfl
    · rcases spoiled with bad | reserved
      · rw [← bad]
      · rename_i kept
        rw [reserved, Bool.and_true, bne_iff_ne, not_not] at kept
        rw [← kept]
  change execCoordinatePacket n p s = _
  unfold execCoordinatePacket
  rw [checked]
  rfl

/-- A sound packet lands, waits, or is held, by its receiving memory. -/
theorem execCoordinatePacket_sound (sound : p.bad = 0) (checked : pktChecked p = p) : execCoordinatePacket n p s = .next
    (match pktDest p n with
      | .core n =>
        match s.waitAway p (.coordinatePacket n p) with
        | some s1 => s1
        | none => s.holdOr (s.packetCore p n) (.coordinatePacket (s.packetCore p n) p)
            (landPacket (.core (s.packetCore p n)) p (s.noteLanding (s.packetCore p n) p))
      | _ => (landPacket (pktDest p n) p s).noteHeld s.heldWrites.length p.frame) := by
  have clean : { p with bad := 0 } = p := by rw [← sound]
  unfold execCoordinatePacket
  simp only [checked, sound, clean, if_neg (show ¬0 = 1 by decide), if_neg (show ¬0 = 2 by decide), if_neg (show ¬0 = 3 by decide)] <;> rfl

end

end Sys2Proof.Machine
end

section
/-! PROOFS. Arrivals: an element that a map takes, and strays -/

namespace Sys2Proof.Machine

open Sys2Proof

/-! ## An element written -/

section
variable (s : State) (part : Nat)

/-- What a row of little-endian bytes leaves in memory. -/
theorem State.memGet_writeKey_toBytes {s : State} (inv : s.memInv) (key z v : Nat) :
    (∀ j, j < z → memGet (s.writeKey key (toBytes z v)).mem (key + j) = BitVec.ofNat 8 (v / 2 ^ (8 * j))) ∧
      ∀ b, b < key ∨ key + z ≤ b → memGet (s.writeKey key (toBytes z v)).mem b = memGet s.mem b := by
  refine ⟨fun j inside => ?_, fun b outside => ?_⟩
  · have within : j < (toBytes z v).length := by rw [length_toBytes]; exact inside
    exact (memGet_memPutN_self inv key j _ within).trans (by rw [getElem_toBytes, Nat.shiftRight_eq_div_pow])
  · exact memGet_memPutN_other s.mem _ (by rw [length_toBytes]; exact outside)

theorem State.landWrite_core {n a z v : Nat} (aligned : a % z = 0) (inside : a + z ≤ 0x100000) :
    s.landWrite (.core n) (a : Int) z v part = some (s.writeKey (padKey n (s.core n).shadowHalf a) (toBytes z v)) := by
  have nonneg : ¬((a : Int) < 0) := Int.not_lt.mpr (Int.natCast_nonneg a)
  unfold State.landWrite
  simp only [Int.toNat_natCast, aligned, nonneg, decide_false, ne_eq, not_true_eq_false, Bool.or_self, Bool.false_eq_true, if_false, inside, if_true]

theorem State.landWrite_cluster {k a z v : Nat} (aligned : a % z = 0) (window : 0x1000000 ≤ a) (inside : a + z ≤ 0x2000000) :
    s.landWrite (.cluster k) (a : Int) z v part = some (s.writeKey (sramSpa k + (a - 0x1000000)) (toBytes z v)) := by
  have nonneg : ¬((a : Int) < 0) := Int.not_lt.mpr (Int.natCast_nonneg a)
  unfold State.landWrite
  simp only [Int.toNat_natCast, aligned, nonneg, decide_false, ne_eq, not_true_eq_false, Bool.or_self, Bool.false_eq_true, if_false, window, inside,
    decide_true, Bool.and_self, if_true]

end

/-! ## The map that takes an element -/

/-- The state with a slot's map as a landing leaves it, OVERLAP and a retire event set where they are due. -/
def State.slotLanded (s : State) (d : Dest) (slot : Nat) (m : LMap) (tie : Bool) (part : Nat) : State :=
  let s1 := s.putSlot d slot m.landed.1
  let s2 := if tie then s1.overlap d m.setter part else s1
  if m.landed.2 then s2.retire d slot m.setter else s2

theorem landElement_taken {d : Dest} {p : Packet} {s t : State} {i slot w z : Nat} {tie : Bool} {m : LMap}
    (decided : landDecide (s.landTable d) p.tag.toNat p.parity p.fmt.toNat (pktCoord p i) = some (slot, tie))
    (stands : Map.get? (s.landTable d) slot = some m) (value : landValue (lmFMT m.desc) p.fmt.toNat (pktElem p i) = (w, z))
    (written : (s.slotLanded d slot m tie p.part).landWrite d (lmAddress m.desc z (pktCoord p i)) z w p.part = some t) :
    landElement d p s i = t := by
  unfold State.slotLanded at written
  unfold landElement
  simp only [decided, stands, value]
  simp only [written]

theorem landElement_stray {d : Dest} {p : Packet} {s : State} {i : Nat}
    (decided : landDecide (s.landTable d) p.tag.toNat p.parity p.fmt.toNat (pktCoord p i) = none) :
    landElement d p s i = s.stray d p (pktCoord p i) (pktElem p i) := by
  unfold landElement
  simp only [decided]

/-! ## A cluster's map -/

theorem landElement_cluster {s : State} {k i slot a z w : Nat} {p : Packet} {m : LMap} (inv : s.memInv)
    (decided : landDecide (s.cluster k).landing p.tag.toNat p.parity p.fmt.toNat (pktCoord p i) = some (slot, false))
    (stands : Map.get? (s.cluster k).landing slot = some m) (active : m.st = .active)
    (value : landValue (lmFMT m.desc) p.fmt.toNat (pktElem p i) = (w, z)) (address : lmAddress m.desc z (pktCoord p i) = a)
    (aligned : a % z = 0) (window : 0x1000000 ≤ a) (inside : a + z ≤ 0x2000000) :
    (landElement (.cluster k) p s i).cores = s.cores ∧
      (∀ j, j < z → memGet (landElement (.cluster k) p s i).mem (sramSpa k + (a - 0x1000000) + j) = BitVec.ofNat 8 (w / 2 ^ (8 * j))) ∧
      ∀ b, b < sramSpa k + (a - 0x1000000) ∨ sramSpa k + (a - 0x1000000) + z ≤ b →
        memGet (landElement (.cluster k) p s i).mem b = memGet s.mem b := by
  have landed : m.landed = (m, false) := by rw [LMap.landed, active]; rfl
  have same : s.slotLanded (.cluster k) slot m false p.part = s.putSlot (.cluster k) slot m := by rw [State.slotLanded, landed]; rfl
  rw [landElement_taken (d := .cluster k) decided stands value (by rw [same, address]; exact State.landWrite_cluster _ _ aligned window inside)]
  exact ⟨rfl, State.memGet_writeKey_toBytes (s := s.putSlot (.cluster k) slot m) inv _ z w⟩

/-! ## A core's map -/

/-- A core whose slot has taken an element. -/
def Core.slotLanded (c : Core) (slot : Nat) (m : LMap) (tie : Bool) : Core :=
  let c1 : Core := { c with landing := Map.put c.landing slot m.landed.1 }
  let c2 := if tie then c1.onSys Ctx.setOverlap else c1
  if m.landed.2 then c2.onSys fun x => x.setRet slot else c2

section
variable (s : State) (n slot : Nat) (m : LMap) (tie : Bool) (part : Nat)

theorem State.core_slotLanded : (s.slotLanded (.core n) slot m tie part).core n = (s.core n).slotLanded slot m tie := by
  unfold State.slotLanded Core.slotLanded
  dsimp only [State.putSlot, State.overlap, State.retire]
  split
  · split
    · simp only [State.core_onCore]
    · simp only [State.core_onCore]
  · split
    · simp only [State.core_onCore]
    · simp only [State.core_onCore]

theorem State.core_slotLanded_other {j : Nat} (other : j ≠ n) : (s.slotLanded (.core n) slot m tie part).core j = s.core j := by
  unfold State.slotLanded
  dsimp only [State.putSlot, State.overlap, State.retire]
  split
  · split
    · simp only [State.core_onCore_other _ _ other]
    · simp only [State.core_onCore_other _ _ other]
  · split
    · simp only [State.core_onCore_other _ _ other]
    · simp only [State.core_onCore_other _ _ other]

theorem State.mem_slotLanded : (s.slotLanded (.core n) slot m tie part).mem = s.mem := by
  unfold State.slotLanded
  dsimp only [State.putSlot, State.overlap, State.retire]
  split
  · split <;> rfl
  · split <;> rfl

end

theorem Core.s_onSys {f : Ctx → Ctx} (keeps : ∀ x, (f x).s = x.s) (c : Core) : (c.onSys f).ctx.s = c.ctx.s := by
  unfold Core.onSys
  split
  · rfl
  · exact keeps c.ctx

/-- A landing changes the slot and the flags of MAPSTAT. -/
theorem Core.slotLanded_fields (c : Core) (slot : Nat) (m : LMap) (tie : Bool) :
    let d := c.slotLanded slot m tie
    d.v = c.v ∧ d.ctx.s = c.ctx.s ∧ d.strayIn = c.strayIn ∧ d.swapped = c.swapped ∧ Map.get? d.landing slot = some m.landed.1 := by
  have step : ∀ (e : Core) (f : Ctx → Ctx), (∀ x, (f x).s = x.s) → (e.onSys f).v = e.v ∧ (e.onSys f).ctx.s = e.ctx.s ∧
      (e.onSys f).strayIn = e.strayIn ∧ (e.onSys f).swapped = e.swapped ∧ (e.onSys f).landing = e.landing := by
    intro e f keeps
    have regs := e.s_onSys keeps
    obtain ⟨x, h, same⟩ := e.onSys_contexts f
    rw [same] at regs ⊢
    exact ⟨rfl, regs, rfl, rfl, rfl⟩
  unfold Core.slotLanded
  generalize first : ({ c with landing := Map.put c.landing slot m.landed.1 } : Core) = e
  have start : e.v = c.v ∧ e.ctx.s = c.ctx.s ∧ e.strayIn = c.strayIn ∧ e.swapped = c.swapped ∧ Map.get? e.landing slot = some m.landed.1 := by
    rw [← first]
    exact ⟨rfl, rfl, rfl, rfl, Map.get?_put_self ..⟩
  have keep : ∀ (e : Core) (f : Ctx → Ctx) (b : Bool), (∀ x, (f x).s = x.s) →
      e.v = c.v ∧ e.ctx.s = c.ctx.s ∧ e.strayIn = c.strayIn ∧ e.swapped = c.swapped ∧ Map.get? e.landing slot = some m.landed.1 →
      let d := if b then e.onSys f else e
      d.v = c.v ∧ d.ctx.s = c.ctx.s ∧ d.strayIn = c.strayIn ∧ d.swapped = c.swapped ∧ Map.get? d.landing slot = some m.landed.1 := by
    intro e f b keeps held
    obtain ⟨v, regs, strays, swapped, landing⟩ := step e f keeps
    cases b
    · exact held
    · obtain ⟨v0, regs0, strays0, swapped0, landing0⟩ := held
      exact ⟨v.trans v0, regs.trans regs0, strays.trans strays0, swapped.trans swapped0, (congrArg (fun t => Map.get? t slot) landing).trans landing0⟩
  exact keep _ _ _ (fun _ => by rfl) (keep _ _ _ (fun _ => by rfl) start)

theorem Core.slotLanded_mapstat (c : Core) {slot : Nat} (low : slot < 16) (m : LMap) (tie : Bool) :
    (m.landed.2 = true → (c.slotLanded slot m tie).sysCtx.mapstat.getLsbD slot = true) ∧
      (tie = true → (c.slotLanded slot m tie).sysCtx.mapstat.getLsbD 32 = true) := by
  have bit : ∀ k, k < 33 → ∀ v : BitVec 33, (v ||| (1#33 <<< k)).getLsbD k = true := by
    intro k within v
    simp [within]
  have kept : ∀ k j : Nat, ∀ v : BitVec 33, v.getLsbD j = true → (v ||| (1#33 <<< k)).getLsbD j = true := by
    intro k j v held
    rw [BitVec.getLsbD_or, held, Bool.true_or]
  unfold Core.slotLanded
  dsimp only
  refine ⟨fun gone => ?_, fun tied => ?_⟩
  · rw [gone, if_pos rfl, Core.sysCtx_onSys]
    exact bit slot (by omega) _
  · rw [tied, if_pos rfl]
    split
    · rw [Core.sysCtx_onSys, Core.sysCtx_onSys]
      exact kept slot 32 _ (bit 32 (by decide) _)
    · rw [Core.sysCtx_onSys]
      exact bit 32 (by decide) _

theorem landElement_core {s : State} {n i slot a z w : Nat} {p : Packet} {m : LMap} {tie : Bool}
    (decided : landDecide (s.core n).landing p.tag.toNat p.parity p.fmt.toNat (pktCoord p i) = some (slot, tie))
    (stands : Map.get? (s.core n).landing slot = some m) (value : landValue (lmFMT m.desc) p.fmt.toNat (pktElem p i) = (w, z))
    (address : lmAddress m.desc z (pktCoord p i) = a) (aligned : a % z = 0) (inside : a + z ≤ 0x100000) :
    landElement (.core n) p s i =
      (s.slotLanded (.core n) slot m tie p.part).writeKey (padKey n (s.core n).shadowHalf a) (toBytes z w) := by
  obtain ⟨-, -, -, swapped, -⟩ := (s.core n).slotLanded_fields slot m tie
  have half : ((s.slotLanded (.core n) slot m tie p.part).core n).shadowHalf = (s.core n).shadowHalf := by
    rw [State.core_slotLanded, Core.shadowHalf, Core.shadowHalf, swapped]
  rw [← half]
  exact landElement_taken (d := .core n) decided stands value (by rw [address]; exact State.landWrite_core _ _ aligned inside)

/-- The map of a landing: a DRAINING one counts down and is gone at 0. -/
theorem LMap.landed_fst (m : LMap) : m.landed.1 = if m.st ≠ .draining then m else if m.drain ≤ 1 then { m with st := .free, drain := 0 }
    else { m with drain := m.drain - 1 } := by
  unfold LMap.landed
  by_cases draining : m.st = .draining
  · rw [if_pos (beq_iff_eq.2 draining), if_neg (not_not.mpr draining)]
    split <;> rfl
  · rw [if_neg (mt beq_iff_eq.1 draining), if_pos draining]

theorem LMap.landed_gone {m : LMap} (draining : m.st = .draining) (last : m.drain ≤ 1) : m.landed.2 = true := by
  unfold LMap.landed
  rw [if_pos (beq_iff_eq.2 draining), if_pos last]

theorem LMap.landed_stays {m : LMap} (active : m.st ≠ .draining) : m.landed = (m, false) := by
  unfold LMap.landed
  rw [if_neg (mt beq_iff_eq.1 active)]

/-! ## Strays -/

/-- An element that no map takes, as the stray buffer keeps it. -/
def strayOf (p : Packet) (i : Nat) : Stray := ⟨p.tag, p.parity, p.fmt, BitVec.ofNat 16 p.src, pktCoord p i, BitVec.ofNat 32 (pktElem p i)⟩

section
variable (s : State) (p : Packet) (i k : Nat)

theorem State.lowestIn_first {j part : Nat} (within : j < 8) (runs : (s.core (8 * k + j)).runsIn part = true)
    (before : ∀ h, h < j → (s.core (8 * k + h)).runsIn part = false) : s.lowestIn k part = some (8 * k + j) := by
  unfold State.lowestIn
  have cut : List.range 8 = List.range j ++ j :: (List.range (7 - j)).map (fun x => j + 1 + x) := by
    rw [show 8 = j + (7 - j + 1) by omega, List.range_add, List.range_succ_eq_map]
    simp [Function.comp_def, Nat.add_assoc, Nat.add_comm 1]
  have none_ : (List.range j).findSome? (fun i => if (s.core (8 * k + i)).runsIn part then some (8 * k + i) else none) = none := by
    rw [List.findSome?_eq_none_iff]
    intro h member
    rw [before h (List.mem_range.mp member)]
    rfl
  rw [cut, List.findSome?_append, none_, Option.none_or, List.findSome?_cons, if_pos runs]

theorem State.lowestIn_none {part : Nat} (idle : ∀ j, j < 8 → (s.core (8 * k + j)).runsIn part = false) : s.lowestIn k part = none := by
  unfold State.lowestIn
  rw [List.findSome?_eq_none_iff]
  intro j member
  rw [idle j (List.mem_range.mp member)]
  rfl

theorem State.stray_cluster_first {n : Nat} (lowest : s.lowestIn k p.part = some n) : s.stray (.cluster k) p (pktCoord p i) (pktElem p i) =
    s.setCore n { s.core n with strayIn := (s.core n).strayIn ++ [strayOf p i] } := by
  unfold State.stray
  simp only [lowest]
  rfl

theorem State.stray_cluster_sender {x uid : Nat} (lowest : s.lowestIn k p.part = none) (sent : p.sent = some (x, uid)) (here : p.spkg = 0)
    (runs : (s.core x).runsIn p.part = true) : s.stray (.cluster k) p (pktCoord p i) (pktElem p i) =
      s.setCore x { s.core x with strayIn := (s.core x).strayIn ++ [strayOf p i] } := by
  unfold State.stray
  simp only [lowest, sent, here, runs]
  rfl

theorem State.stray_cluster_lost (lowest : s.lowestIn k p.part = none) (sent : p.sent = none) :
    s.stray (.cluster k) p (pktCoord p i) (pktElem p i) = s.logFabric 6 0 p.part p.src := by
  unfold State.stray
  simp only [lowest, sent]

end

/-! ## Strays that join their buffer -/

/-- A stray that joins the buffer, or sets OVF where it is full. -/
def Core.takeStray (c : Core) (e : Stray) : Core :=
  if 4 ≤ c.strays.length then c.onSys fun x => { x with strayOvf := true }
  else
    let c1 : Core := { c with strays := c.strays ++ [e] }
    if c1.events.any fun t => t.code == cSTRAY then c1 else c1.addEvent ⟨cSTRAY, 8, false, e.tag.setWidth 64, 0⟩

theorem Core.mergeStrays_eq (c : Core) : c.mergeStrays = c.strayIn.foldl Core.takeStray { c with strayIn := [] } := rfl

theorem Core.takeStray_full {c : Core} (full : 4 ≤ c.strays.length) (e : Stray) : c.takeStray e = c.onSys fun x => { x with strayOvf := true } :=
  if_pos full

theorem Core.takeStray_room {c : Core} (room : c.strays.length < 4) (e : Stray) : ∃ es, c.takeStray e = { c with
    strays := c.strays ++ [e], events := es } ∧ (es.any fun t => t.code == cSTRAY) = true ∧
      ((c.events.any fun t => t.code == cSTRAY) = true → es = c.events) ∧
      ((c.events.any fun t => t.code == cSTRAY) = false → es = c.events ++ [⟨cSTRAY, 8, false, e.tag.setWidth 64, 0⟩]) := by
  unfold Core.takeStray
  rw [if_neg (Nat.not_le.mpr room)]
  dsimp only
  cases listed : c.events.any fun t => t.code == cSTRAY
  · exact ⟨_, rfl, by simp [Core.addEvent], fun no => absurd no (by decide), fun _ => rfl⟩
  · exact ⟨_, rfl, listed, fun _ => rfl, fun no => absurd no (by decide)⟩

/-- What a list of strays leaves of a core whose buffer holds at most four. -/
theorem Core.foldl_takeStray (l : List Stray) (c : Core) (few : c.strays.length ≤ 4) :
    let d := l.foldl Core.takeStray c
    d.strays = (c.strays ++ l).take 4 ∧ d.strayIn = c.strayIn ∧ d.v = c.v ∧ d.ctx.s = c.ctx.s ∧
      d.sysCtx.strayOvf = (c.sysCtx.strayOvf || decide (4 < c.strays.length + l.length)) ∧
      ((c.events.any fun t => t.code == cSTRAY) = true → d.events = c.events) := by
  induction l generalizing c with
  | nil => exact ⟨by simp [List.take_of_length_le few], rfl, rfl, rfl, by simp [Nat.not_lt.mpr few], fun _ => rfl⟩
  | cons e l ih =>
    rw [List.foldl_cons]
    by_cases room : c.strays.length < 4
    · obtain ⟨es, took, listed, same, -⟩ := Core.takeStray_room room e
      have size : (c.takeStray e).strays.length ≤ 4 := by
        rw [took]
        simp only [List.length_append, List.length_singleton]
        omega
      obtain ⟨strays, strayIn, v, regs, ovf, events⟩ := ih (c.takeStray e) size
      rw [took] at strays strayIn v regs ovf events ⊢
      refine ⟨strays.trans (by simp), strayIn, v, regs, ovf.trans ?_, fun stray => (events listed).trans (same stray)⟩
      change (c.sysCtx.strayOvf || decide (4 < (c.strays ++ [e]).length + l.length)) = _
      rw [List.length_append, List.length_singleton, List.length_cons, Nat.add_assoc, Nat.add_comm 1 l.length]
    · have full : 4 ≤ c.strays.length := Nat.not_lt.mp room
      have took := Core.takeStray_full full e
      have regs0 := c.s_onSys (f := fun x => { x with strayOvf := true }) (fun _ => by rfl)
      have set := c.sysCtx_onSys fun x => { x with strayOvf := true }
      obtain ⟨x, h, same⟩ := c.onSys_contexts fun x => { x with strayOvf := true }
      rw [same] at took regs0 set
      rw [took]
      obtain ⟨strays, strayIn, v, regs, ovf, events⟩ := ih { c with ctx := x, held := h } few
      have exact_ : c.strays.length = 4 := Nat.le_antisymm few full
      refine ⟨strays.trans ?_, strayIn, v, regs.trans regs0, ovf.trans ?_, events⟩
      · rw [List.take_append_of_le_length (Nat.le_of_eq exact_.symm), List.take_append_of_le_length (Nat.le_of_eq exact_.symm)]
      · rw [set]
        simp [exact_]

end Sys2Proof.Machine
end

section
/-! PROOFS. Arrivals: which map takes an element, and the copies of a multicast -/

namespace Sys2Proof.Machine

open Sys2Proof

/-! ## The landing decision (R202) -/

/-- An entry of a map whose keys rise is the value at its key. -/
theorem Map.get?_of_mem_rising {α : Type} {t : Map α} (rising : (t.map Prod.fst).Pairwise (· < ·)) {y : Nat × α} (member : y ∈ t) :
    Map.get? t y.1 = some y.2 := by
  induction t with
  | nil => cases member
  | cons x t ih =>
    rw [List.map_cons, List.pairwise_cons] at rising
    obtain ⟨first, rest⟩ := rising
    rcases List.mem_cons.mp member with rfl | later
    · exact if_pos rfl
    · have less : x.1 < y.1 := first y.1 (List.mem_map_of_mem later)
      exact (if_neg (Nat.ne_of_lt less)).trans (ih rest later)

/-- The greatest of the values of a list, and 0. -/
theorem foldl_max_spec {α : Type} (f : α → Nat) (l : List α) (a : Nat) : a ≤ l.foldl (fun a m => max a (f m)) a ∧
    (∀ y ∈ l, f y ≤ l.foldl (fun a m => max a (f m)) a) ∧
    (l.foldl (fun a m => max a (f m)) a = a ∨ ∃ y ∈ l, f y = l.foldl (fun a m => max a (f m)) a) := by
  induction l generalizing a with
  | nil => exact ⟨Nat.le_refl a, fun _ member => absurd member List.not_mem_nil, .inl rfl⟩
  | cons x l ih =>
    obtain ⟨start, all_, reached⟩ := ih (max a (f x))
    rw [List.foldl_cons]
    refine ⟨Nat.le_trans (Nat.le_max_left ..) start, fun y member => ?_, ?_⟩
    · rcases List.mem_cons.mp member with rfl | later
      · exact Nat.le_trans (Nat.le_max_right ..) start
      · exact all_ y later
    · rcases reached with same | ⟨y, member, eq⟩
      · rcases Nat.le_total (f x) a with le | le
        · exact .inl (same.trans (Nat.max_eq_left le))
        · exact .inr ⟨x, List.mem_cons_self .., (Nat.max_eq_right le).symm.trans same.symm⟩
      · exact .inr ⟨y, List.mem_cons_of_mem _ member, eq⟩

section
variable (t : Map LMap) (tag : Nat) (parity : Bool) (fmt : Nat) (x : Word)

/-- The maps that take an element. -/
def landCandidates : Map LMap := t.filter fun m => lmCandidate m.2 tag parity fmt x

/-- Those of the highest priority. -/
def landFirst : Map LMap :=
  (landCandidates t tag parity fmt x).filter fun m =>
    lmPRIO m.2.desc == (landCandidates t tag parity fmt x).foldl (fun a m => max a (lmPRIO m.2.desc)) 0

/-- Those of them that drain, or all where none does. -/
def landChosen : Map LMap :=
  let c := landFirst t tag parity fmt x
  let dr := c.filter fun m => m.2.st == .draining
  if dr.isEmpty then c else dr

theorem landDecide_eq : landDecide t tag parity fmt x = (landChosen t tag parity fmt x).head?.map fun m =>
    (m.1, !(landChosen t tag parity fmt x).tail.isEmpty) := by
  change (match landChosen t tag parity fmt x with | [] => none | m :: r => some (m.1, !r.isEmpty)) = _
  cases landChosen t tag parity fmt x <;> rfl

theorem mem_landCandidates (y : Nat × LMap) : y ∈ landCandidates t tag parity fmt x ↔ y ∈ t ∧ lmCandidate y.2 tag parity fmt x = true :=
  List.mem_filter

/-- The maps of the highest priority: no other map that takes the element has a higher one. -/
theorem mem_landFirst (y : Nat × LMap) : y ∈ landFirst t tag parity fmt x ↔ y ∈ landCandidates t tag parity fmt x ∧
    ∀ z ∈ landCandidates t tag parity fmt x, lmPRIO z.2.desc ≤ lmPRIO y.2.desc := by
  obtain ⟨-, above, reached⟩ := foldl_max_spec (fun m : Nat × LMap => lmPRIO m.2.desc) (landCandidates t tag parity fmt x) 0
  unfold landFirst
  rw [List.mem_filter, beq_iff_eq]
  refine and_congr_right fun member => ⟨fun top z other => ?_, fun greatest => ?_⟩
  · rw [top]
    exact above z other
  · refine Nat.le_antisymm (above y member) ?_
    rcases reached with zero | ⟨z, other, top⟩
    · rw [zero]
      exact Nat.zero_le _
    · rw [← top]
      exact greatest z other

theorem landFirst_eq_nil : landFirst t tag parity fmt x = [] ↔ landCandidates t tag parity fmt x = [] := by
  refine ⟨fun none_ => ?_, fun none_ => by rw [landFirst, none_]; rfl⟩
  obtain ⟨-, above, reached⟩ := foldl_max_spec (fun m : Nat × LMap => lmPRIO m.2.desc) (landCandidates t tag parity fmt x) 0
  refine List.eq_nil_iff_forall_not_mem.mpr fun y member => ?_
  have out : ∀ z, z ∉ landFirst t tag parity fmt x := fun z => by rw [none_]; exact List.not_mem_nil
  rcases reached with zero | ⟨z, other, top⟩
  · refine out y ((mem_landFirst ..).mpr ⟨member, fun z other => ?_⟩)
    exact Nat.le_trans (above z other) (Nat.le_trans (Nat.le_of_eq zero) (Nat.zero_le _))
  · refine out z ((mem_landFirst ..).mpr ⟨other, fun u more => ?_⟩)
    exact top ▸ above u more

theorem landChosen_eq_nil : landChosen t tag parity fmt x = [] ↔ landCandidates t tag parity fmt x = [] := by
  rw [← landFirst_eq_nil]
  unfold landChosen
  dsimp only
  split
  · rfl
  · rename_i some_
    exact ⟨fun none_ => absurd (List.isEmpty_iff.mpr none_) some_, fun none_ => by rw [none_]; rfl⟩

/-- The chosen maps are those tied with any one of them. -/
theorem mem_landChosen {m : Nat × LMap} (chosen : m ∈ landChosen t tag parity fmt x) (y : Nat × LMap) : y ∈ landChosen t tag parity fmt x ↔
    y ∈ landFirst t tag parity fmt x ∧ (y.2.st = .draining ↔ m.2.st = .draining) := by
  unfold landChosen at chosen ⊢
  dsimp only at chosen ⊢
  split at chosen
  · rename_i none_
    have stays : ∀ z ∈ landFirst t tag parity fmt x, z.2.st ≠ .draining := fun z member draining => by
      have := List.filter_eq_nil_iff.mp (List.isEmpty_iff.mp none_) z member
      exact this (beq_iff_eq.2 draining)
    rw [if_pos none_]
    exact ⟨fun member => ⟨member, iff_of_false (stays y member) (stays m chosen)⟩, fun member => member.1⟩
  · rename_i some_
    rw [if_neg some_, List.mem_filter, beq_iff_eq]
    have draining := beq_iff_eq.1 (List.mem_filter.mp chosen).2
    exact and_congr_right fun _ => ⟨fun also => iff_of_true also draining, fun also => also.mpr draining⟩

theorem landChosen_first {m : Nat × LMap} (chosen : m ∈ landChosen t tag parity fmt x) : m ∈ landFirst t tag parity fmt x :=
  ((mem_landChosen t tag parity fmt x chosen m).mp chosen).1

/-- A draining map of the highest priority goes before one that does not drain. -/
theorem landChosen_drains {m y : Nat × LMap} (chosen : m ∈ landChosen t tag parity fmt x) (first : y ∈ landFirst t tag parity fmt x)
    (draining : y.2.st = .draining) : m.2.st = .draining := by
  unfold landChosen at chosen
  dsimp only at chosen
  have some_ : ¬((landFirst t tag parity fmt x).filter fun m => m.2.st == .draining).isEmpty = true := by
    rw [List.isEmpty_iff]
    exact List.ne_nil_of_mem (List.mem_filter.mpr ⟨first, beq_iff_eq.2 draining⟩)
  rw [if_neg some_] at chosen
  exact beq_iff_eq.1 (List.mem_filter.mp chosen).2

theorem landChosen_sublist : (landChosen t tag parity fmt x).Sublist t := by
  have first : (landFirst t tag parity fmt x).Sublist t := List.filter_sublist.trans List.filter_sublist
  unfold landChosen
  dsimp only
  split
  · exact first
  · exact List.filter_sublist.trans first

end

/-! ## A multicast sent -/

/-- The first bit of a mask with one bit. -/
theorem find?_oneBit {i : Nat} (within : i < 64) : (List.range 64).find? (fun j => (1#64 <<< i).getLsbD j) = some i := by
  rw [List.find?_range_eq_some]
  refine ⟨?_, List.mem_range.mpr within, fun j before => ?_⟩
  · simp [within]
  · simp [before]

/-- The copy of a multicast packet for one node of its mask. -/
theorem pktNode_copy {p : Packet} (multicast : p.dkind = 4) {i : Nat} (within : i < 64) : pktNode { p with mask := 1#64 <<< i } = p.dest + i := by
  unfold pktNode
  rw [if_pos multicast, find?_oneBit within]
  rfl

section
variable (s : State) (l : Launch)

/-- The flight of a copy to its core (R304, R308). -/
def Core.copyFlight (c : Core) (q : Packet) : Emit :=
  .flight (s.tickOf c + 17 + 4 * (l.path (c.node / 8) (pktNode q / 8)).length) (l.path (c.node / 8) (pktNode q / 8))
    (.coordinatePacket (l.coreOf (pktNode q)) q)

theorem Core.foldl_copyFlight (qs : List Packet) (c : Core) : qs.foldl (fun c q => { c with emits := c.emits ++ [c.copyFlight s l q] }) c =
    { c with emits := c.emits ++ qs.map (c.copyFlight s l) } := by
  induction qs generalizing c with
  | nil => rw [List.foldl_nil, List.map_nil, List.append_nil]
  | cons q qs ih =>
    rw [List.foldl_cons, ih]
    simp only [List.append_assoc]
    rfl

/-- The copies of a multicast packet, one for each node of MASK. -/
def multicastCopies (s : State) (n uid fmt : Nat) (tag : BitVec 16) (parity : Bool) (k : Cut) (payload : List Byte) : List Packet :=
  ((List.range 64).filter (BitVec.ofNat 64 (byteField k.route 0x18 8)).getLsbD).map fun i =>
    { packetOf s n uid fmt tag parity k 4 (rtNODE k.route) payload with mask := 1#64 <<< i }

theorem launchPacket_multicast {s : State} {n : Nat} {m : Macro} {fmt : Nat} {tag : BitVec 16} {parity : Bool} {epoch : Nat} {k : Cut}
    {payload : List Byte} {l : Launch} (runs : s.launchOf (s.core n) = some l) (multicast : rtKIND k.route = 4) :
    launchPacket s n m fmt tag parity epoch k payload = s.setCore n { s.core n with
      emits := (s.core n).emits ++ (multicastCopies s n m.uid fmt tag parity k payload).map ((s.core n).copyFlight s l) } := by
  unfold launchPacket
  simp only [runs, multicast]
  refine congrArg (s.setCore n) ?_
  exact Core.foldl_copyFlight s l _ (s.core n)

end

end Sys2Proof.Machine
end

section
/-! PROOFS. Arrivals (O49): what each leaves at a core, a cluster and a memory-side unit -/

namespace Sys2Proof.Machine

open Sys2Proof

/-! ## What arrives -/

theorem State.cores_onCore_congr {s t : State} (same : s.cores = t.cores) (n : Nat) (f : Core → Core) :
    (s.onCore n f).cores = (t.onCore n f).cores := by
  change Map.put s.cores n (f (s.core n)) = Map.put t.cores n (f (t.core n))
  rw [State.core_of_cores same, same]

section
variable {s : State} {n : Nat} {p : Packet}

theorem exec_coordinatePacket_cluster (sound : p.bad = 0) (checked : pktChecked p = p) (kind : p.dkind = 2) : exec (.coordinatePacket n p) s =
    .next (((List.range p.count).foldl (landElement (.cluster n) p) s).noteHeld s.heldWrites.length p.frame) := by
  have dest : pktDest p n = .cluster n := by unfold pktDest; rw [kind] <;> rfl
  refine (execCoordinatePacket_sound sound checked).trans ?_
  rw [dest] <;> rfl

theorem exec_coordinatePacket_msu (sound : p.bad = 0) (checked : pktChecked p = p) (kind : p.dkind = 3) : exec (.coordinatePacket n p) s =
    .next (((List.range p.count).foldl (landElement (.msu n p.part) p) s).noteHeld s.heldWrites.length p.frame) := by
  have dest : pktDest p n = .msu n p.part := by unfold pktDest; rw [kind] <;> rfl
  refine (execCoordinatePacket_sound sound checked).trans ?_
  rw [dest] <;> rfl

theorem exec_coordinatePacket_core (sound : p.bad = 0) (checked : pktChecked p = p) (kind : p.dkind = 1 ∨ p.dkind = 4)
    (here : s.waitAway p (.coordinatePacket n p) = none) : exec (.coordinatePacket n p) s =
      .next (s.holdOr (s.packetCore p n) (.coordinatePacket (s.packetCore p n) p)
        (landPacket (.core (s.packetCore p n)) p (s.noteLanding (s.packetCore p n) p))) := by
  have dest : pktDest p n = .core n := by
    unfold pktDest
    rcases kind with one | four
    · rw [one] <;> rfl
    · rw [four] <;> rfl
  refine (execCoordinatePacket_sound sound checked).trans ?_
  rw [dest]
  simp only [here] <;> rfl

end

theorem Core.mergeStrays_events {c : Core} {e : Stray} {r : List Stray} (list : c.strayIn = e :: r) (room : c.strays.length < 4)
    (quiet : ∀ t ∈ c.events, t.code ≠ cSTRAY) : c.mergeStrays.events = c.events ++ [⟨cSTRAY, 8, false, e.tag.setWidth 64, 0⟩] := by
  have none_ : (c.events.any fun t => t.code == cSTRAY) = false :=
    List.any_eq_false.mpr fun t member => by rw [beq_iff_eq]; exact quiet t member
  obtain ⟨es, took, listed, -, first⟩ := Core.takeStray_room (c := { c with strayIn := [] }) room e
  have few : (Core.takeStray { c with strayIn := [] } e).strays.length ≤ 4 := by
    rw [took]
    simp only [List.length_append, List.length_singleton]
    omega
  obtain ⟨-, -, -, -, -, events⟩ := Core.foldl_takeStray r _ few
  rw [Core.mergeStrays_eq, list, List.foldl_cons]
  rw [took] at events ⊢
  exact (events listed).trans (first none_)

theorem landDecide_none_iff (t : Map LMap) (tag : Nat) (parity : Bool) (fmt : Nat) (x : Word) :
    (∀ y, ¬(y ∈ t ∧ lmCandidate y.2 tag parity fmt x = true)) ↔ landDecide t tag parity fmt x = none := by
  rw [landDecide_eq, Option.map_eq_none_iff, List.head?_eq_none_iff, landChosen_eq_nil, List.eq_nil_iff_forall_not_mem]
  simp only [mem_landCandidates]

/-- The map chosen, with what ties with it. -/
theorem landDecide_some {t : Map LMap} {tag : Nat} {parity : Bool} {fmt : Nat} {x : Word} {slot : Nat} {tie : Bool}
    (decided : landDecide t tag parity fmt x = some (slot, tie)) :
    ∃ m r, landChosen t tag parity fmt x = (slot, m) :: r ∧ tie = !r.isEmpty := by
  rw [landDecide_eq] at decided
  cases chosen : landChosen t tag parity fmt x with
  | nil => rw [chosen] at decided; cases decided
  | cons y r =>
    rw [chosen] at decided
    cases decided
    exact ⟨y.2, r, rfl, rfl⟩

theorem landDecide_spec {t : Map LMap} {tag : Nat} {parity : Bool} {fmt : Nat} {x : Word} (rising : (t.map Prod.fst).Pairwise (· < ·))
    {slot : Nat} {tie : Bool} (decided : landDecide t tag parity fmt x = some (slot, tie)) :
    let takes (y : Nat × LMap) : Prop := y ∈ t ∧ lmCandidate y.2 tag parity fmt x = true
    ∃ m, takes (slot, m) ∧ Map.get? t slot = some m ∧
      let tied (y : Nat × LMap) : Prop := takes y ∧ lmPRIO y.2.desc = lmPRIO m.desc ∧ (y.2.st = .draining ↔ m.st = .draining)
      (∀ y, takes y → lmPRIO y.2.desc ≤ lmPRIO m.desc ∧ (lmPRIO y.2.desc = lmPRIO m.desc → y.2.st = .draining → m.st = .draining)) ∧
      (∀ y, tied y → slot ≤ y.1) ∧ (tie = true ↔ ∃ y, tied y ∧ y.1 ≠ slot) := by
  intro takes
  obtain ⟨m, r, chosen, tie_⟩ := landDecide_some decided
  have head : (slot, m) ∈ landChosen t tag parity fmt x := by rw [chosen]; exact List.mem_cons_self ..
  have first := landChosen_first t tag parity fmt x head
  obtain ⟨candidate, greatest⟩ := (mem_landFirst ..).mp first
  have own : takes (slot, m) := (mem_landCandidates ..).mp candidate
  have top : ∀ y, takes y → lmPRIO y.2.desc = lmPRIO m.desc → y ∈ landFirst t tag parity fmt x := fun y takes_ same =>
    (mem_landFirst ..).mpr ⟨(mem_landCandidates ..).mpr takes_, fun z other => same.symm ▸ greatest z other⟩
  have tied : ∀ y, (takes y ∧ lmPRIO y.2.desc = lmPRIO m.desc ∧ (y.2.st = .draining ↔ m.st = .draining)) ↔ y ∈ (slot, m) :: r := by
    intro y
    rw [← chosen, mem_landChosen t tag parity fmt x head]
    refine ⟨fun ⟨takes_, same, drains⟩ => ⟨top y takes_ same, drains⟩, fun ⟨member, drains⟩ => ?_⟩
    obtain ⟨candidate_, greatest_⟩ := (mem_landFirst ..).mp member
    have high : lmPRIO y.2.desc ≤ lmPRIO m.desc := greatest y candidate_
    have low : lmPRIO m.desc ≤ lmPRIO y.2.desc := greatest_ (slot, m) candidate
    exact ⟨(mem_landCandidates ..).mp candidate_, Nat.le_antisymm high low, drains⟩
  have sorted : (((slot, m) :: r).map Prod.fst).Pairwise (· < ·) := by
    rw [← chosen]
    exact rising.sublist ((landChosen_sublist t tag parity fmt x).map _)
  rw [List.map_cons, List.pairwise_cons] at sorted
  have above : ∀ y ∈ r, slot < y.1 := fun y member => sorted.1 y.1 (List.mem_map_of_mem member)
  refine ⟨m, own, Map.get?_of_mem_rising rising own.1, fun y takes_ => ⟨greatest y ((mem_landCandidates ..).mpr takes_), fun same draining =>
    landChosen_drains t tag parity fmt x head (top y takes_ same) draining⟩, fun y member => ?_, ?_⟩
  · rcases List.mem_cons.mp ((tied y).mp member) with rfl | later
    · exact Nat.le_refl _
    · exact Nat.le_of_lt (above y later)
  · rw [tie_]
    constructor
    · intro some_
      cases r with
      | nil => cases some_
      | cons y r => exact ⟨y, (tied y).mpr (List.mem_cons_of_mem _ (List.mem_cons_self ..)), Nat.ne_of_gt (above y (List.mem_cons_self ..))⟩
    · rintro ⟨y, member, other⟩
      rcases List.mem_cons.mp ((tied y).mp member) with rfl | later
      · exact absurd rfl other
      · cases r with
        | nil => cases later
        | cons => rfl

/-- Settles O49: what each arrival leaves, by the lemmas on transfers, packets, landing maps and strays. -/
theorem arrivalEvents : Obligations.ArrivalEvents := by
  unfold Obligations.ArrivalEvents
  refine ⟨?_, ?_, ?_, ?_, ?_, ?_, ?_, ?_⟩
  · intro s n src data c
    refine ⟨fun runs => ⟨execDirectSend_runs runs, execDirectSend_runs runs⟩, fun S k stopped => exec_directSend_stopped stopped,
      fun id k stands => ⟨exec_collectiveContribution stands, ?_, ?_, ?_⟩,
      fun id k l stands listed => exec_collectiveContribution_header stands listed, rfl, ?_, fun p spoiled => exec_coordinatePacket_header spoiled⟩
    · intro l d sd depth mark listed dest order sound complete own
      obtain ⟨mem, cores, -⟩ := s.collReached_keeps id n k l
      refine ⟨_, exec_collectiveResult stands listed, mem, fun m other => ?_, ?_⟩
      · exact (State.core_onCore_other _ _ other).trans (State.core_of_cores cores m)
      · rw [State.core_onCore, State.core_of_cores cores n]
        exact Core.collDeliver_value dest order sound complete own
    · intro l listed order
      obtain ⟨mem, cores, -⟩ := s.collReached_keeps id n k l
      refine ⟨_, exec_collectiveResult stands listed, mem, ?_⟩
      rw [State.core_onCore, State.core_of_cores cores n]
      exact Core.events_collDeliver order
    · intro l listed
      refine ⟨exec_collectiveResult_header stands listed, ⟨_, exec_collectiveResult_poisoned stands listed, ?_, ?_, fun m => ?_⟩, ?_⟩
      · exact State.mem_payloadError (s.logFabric 2 (clusterOf n) l.part 0) l.part (l.lid.extractLsb' 0 16) 0
      · exact State.fabLog_payloadError ..
      · exact State.payloadError_cores (s.logFabric 2 (clusterOf n) l.part 0) l.part (l.lid.extractLsb' 0 16) 0 m
      · obtain ⟨mem, cores, -⟩ := s.collReached_keeps id n k l
        obtain ⟨mem1, cores1, log1⟩ := (s.logFabric 1 (clusterOf n) l.part 0).collReached_keeps id n k l
        refine ⟨_, _, exec_collectiveResult_corrected stands listed, exec_collectiveResult stands listed, ?_, mem1.trans mem.symm, log1⟩
        exact State.cores_onCore_congr (cores1.trans cores.symm) n _
    · intro p sound checked
      refine ⟨fun kind => exec_coordinatePacket_cluster sound checked kind, fun kind => exec_coordinatePacket_msu sound checked kind,
        fun kind here own S k stopped => ?_⟩
      rw [exec_coordinatePacket_core sound checked (.inl kind) here, own]
      exact congrArg Host.Outcome.next (State.holdOr_stopped stopped)
  · intro s k p i slot m a esz w inv decided stands active value address _ aligned window inside
    exact landElement_cluster inv decided stands active value address aligned window inside
  · intro s n p sound checked kind away_ here runs
    refine ⟨s.noteLanding n p, rfl, rfl, ?_⟩
    rw [exec_coordinatePacket_core sound checked kind away_, here]
    exact congrArg Host.Outcome.next (State.holdOr_runs runs)
  · intro s n m fmt tag parity epoch k payload l runs multicast c mask
    refine ⟨_, launchPacket_multicast runs multicast, ?_, fun i within named => ?_⟩
    · rw [List.length_map, multicastCopies, List.length_map]
    · have copied := pktNode_copy (p := packetOf s n m.uid fmt tag parity k 4 (rtNODE k.route) payload) rfl within
      refine ⟨{ packetOf s n m.uid fmt tag parity k 4 (rtNODE k.route) payload with mask := 1#64 <<< i }, List.mem_map.mpr ⟨_,
        List.mem_map.mpr ⟨i, List.mem_filter.mpr ⟨List.mem_range.mpr within, named⟩, rfl⟩, ?_⟩, copied, rfl, rfl, rfl, rfl, rfl, rfl, rfl⟩
      rw [Core.copyFlight, copied]
      rfl
  · exact fun t tag parity fmt x rising => ⟨landDecide_none_iff t tag parity fmt x, fun slot tie decided => landDecide_spec rising decided⟩
  · intro s n p i slot tie m a esz w inv low decided stands value address _ aligned inside c key t
    have landed : t = _ := landElement_core decided stands value address aligned inside
    obtain ⟨self, other⟩ := State.memGet_writeKey_toBytes (s := s.slotLanded (.core n) slot m tie p.part)
      (State.memInv_of_mem (s.mem_slotLanded n slot m tie p.part) inv) key esz w
    obtain ⟨v, regs, strays, -, landing⟩ := c.slotLanded_fields slot m tie
    obtain ⟨gone, tied⟩ := c.slotLanded_mapstat low m tie
    have core : t.core n = c.slotLanded slot m tie := landed ▸ s.core_slotLanded n slot m tie p.part
    rw [core]
    refine ⟨landed ▸ self, fun b out => ?_, fun j off => landed ▸ s.core_slotLanded_other n slot m tie p.part off, v, regs, strays, ?_,
      fun draining last => gone (LMap.landed_gone draining last), tied, fun stays alone => ?_⟩
    · rw [landed]
      exact (other b out).trans (congrArg (fun mem => memGet mem b) (s.mem_slotLanded n slot m tie p.part))
    · rw [landing, LMap.landed_fst]
    · rw [landed, State.slotLanded, LMap.landed_stays stays, alone]
      rfl
  · intro s n k p i e gives cl
    refine ⟨fun none_ => landElement_stray (d := .core n) none_, fun none_ => ?_⟩
    have stray : cl = s.stray (.cluster k) p (pktCoord p i) (pktElem p i) := landElement_stray (d := .cluster k) none_
    rw [stray]
    refine ⟨fun j within runs before => s.stray_cluster_first p i k (s.lowestIn_first k within runs before), fun idle => ?_⟩
    have lowest := s.lowestIn_none k idle
    exact ⟨fun x uid sent here runs => s.stray_cluster_sender p i k lowest sent here runs, fun sent => s.stray_cluster_lost p i k lowest sent⟩
  · intro c few d
    obtain ⟨strays, strayIn, v, regs, ovf, -⟩ := Core.foldl_takeStray c.strayIn { c with strayIn := [] } few
    refine ⟨strays, strayIn, v, regs, ovf, fun e r list room quiet => ?_⟩
    exact Core.mergeStrays_events list room quiet

end Sys2Proof.Machine
end

section
/-! PROOFS. The assay instructions that pass their gates: updates, images and queries (R145 to R157). -/

namespace Sys2Proof.Machine

open Sys2Proof

/-! ## The assay instructions that pass their gates (R145 to R157) -/

section
variable {s : State}

/-- Past room, busy period and kind, the instruction acts. -/
theorem State.room_assayGate_passes (room : s.roomy) {b : Bool} (free : b = false ∨ s.me.ctx.asBusy ≤ s.me.ctx.clk) {c : BitVec 2}
    {need : Option Nat}
    (right : ∀ n, need = some n → n ≠ 0 ∧ (s.me.assayView c.toNat).kind = n ∨ n = 0 ∧ (s.me.assayView c.toNat).kind ≠ 0) (f : Core → Core) :
    s.act (s.room (assayGate s b c need f)) = s.becomes (f s.me) := by
  rw [State.act_becomes, State.room_of_lt room, assayGate_passes free s right]

/-- A demand for one kind, met. -/
theorem kind_right {k n : Nat} (named : n ≠ 0) (kind : k = n) : ∀ m, some n = some m → m ≠ 0 ∧ k = m ∨ m = 0 ∧ k ≠ 0 := by
  rintro _ ⟨⟩
  exact Or.inl ⟨named, kind⟩

/-- No demand, met. -/
theorem kind_free (k : Nat) : ∀ m, none = some m → m ≠ 0 ∧ k = m ∨ m = 0 ∧ k ≠ 0 := nofun

variable (room : s.roomy) (free : s.me.ctx.asBusy ≤ s.me.ctx.clk)
include room free

theorem exec_asqu {c : BitVec 2} (kind : (s.me.assayView c.toNat).kind = 1) (k : BitVec 3) (a : BitVec 7) :
    exec (.asqu k c a) s = s.becomes (Core.assayBusy 4 ((s.me.coinTake c.toNat).2.addMacro s.slot (s.me.startAt 5) 64
      (.assay c.toNat (.qu (s.me.readV a) ((s.me.readK k).extractLsb' 0 64) (s.me.coinTake c.toNat).1) 0))) :=
  State.room_assayGate_passes room (.inr free) (kind_right (by decide) kind) _

theorem exec_ashh {c : BitVec 2} (kind : (s.me.assayView c.toNat).kind = 2) (k : BitVec 3) (a : BitVec 7) {b : BitVec 7} {sc : BitVec 1}
    (listed : sc = 0 ∨ b.getLsbD 6 = false) :
    exec (.ashh k c a b sc) s = s.becomes (Core.assayBusy 4 (s.me.addMacro s.slot (s.me.startAt 5) 64
      (.assay c.toNat (.hh (s.me.readV a) (ofLanes 32 64 fun i => s.laneF b sc i) ((s.me.readK k).extractLsb' 0 64)) 0))) :=
  (State.checked_of (by simpa using listed) _).trans (State.room_assayGate_passes room (.inr free) (kind_right (by decide) kind) _)

theorem exec_asdc {c : BitVec 2} (kind : (s.me.assayView c.toNat).kind = 3) (k : BitVec 3) (a : BitVec 7) (w : BitVec 1) :
    exec (.asdc k c a w) s = s.becomes (Core.assayBusy 4 (s.me.addMacro s.slot (s.me.startAt 5) 64
      (.assay c.toNat (.dc (s.me.readV a) ((s.me.readK k).extractLsb' 0 64) (w == 1)) 0))) :=
  State.room_assayGate_passes room (.inr free) (kind_right (by decide) kind) _

theorem exec_asmrg {c : BitVec 2} {b : BitVec 6} (checks : s.me.check s.cur (s.me.readS b) 4224 128 true false [.face] = none) :
    exec (.asmrg c b) s = s.becomes (Core.assayBusy 40 ((s.me.coinTake c.toNat).2.addMacro s.slot (s.me.startAt 5) 17
      (.asmrg c.toNat (s.me.readS b) (List.replicate 4224 0) (s.me.coinTake c.toNat).1))) := by
  refine (State.room_assayGate_passes room (.inr free) (kind_free _) _).trans (congrArg s.becomes ?_)
  dsimp only
  rw [checks]
  rfl

theorem exec_assv {c : BitVec 2} {b : BitVec 6} (checks : s.me.check s.cur (s.me.readS b) 4224 128 false true [.face] = none) :
    exec (.assv c b) s = s.becomes (Core.assayBusy 20 (s.me.addMacro s.slot (s.me.startAt 5) 17 (.assv c.toNat (s.me.readS b)))) := by
  refine (State.room_assayGate_passes room (.inr free) (kind_free _) _).trans (congrArg s.becomes ?_)
  dsimp only
  rw [checks]
  rfl

omit room in
theorem exec_ascfg {o kind : BitVec 2} (named : kind ≠ 0) (coin : o ≠ 3) (pair : kind = 1 ∨ o = 0) (c : BitVec 2) (b : BitVec 6) :
    exec (.ascfg o kind c b) s = s.becomes (Core.assayBusy 4 (s.me.addMacro s.slot 0 1
      (.assay c.toNat (.cfg kind.toNat o.toNat (if s.me.readS b = 0 then 1 else s.me.readS b)) 0))) :=
  (State.checked_of (by simpa using And.intro (And.intro named coin) pair) _).trans
    (congrArg s.becomes (assayGate_passes (.inr free) s (kind_free _) _))

omit room in
theorem exec_asclr (f : BitVec 1) (c : BitVec 2) :
    exec (.asclr f c) s = s.becomes (Core.assayBusy 4 (s.me.addMacro s.slot 0 1 (.assay c.toNat (if f = 1 then .free else .clr) 0))) :=
  congrArg s.becomes (assayGate_passes (.inr free) s (kind_free _) _)

end

/-- What R142 to R157 say of the seven instructions that keep the unit busy, at issue. -/
theorem assay_issues (s : State) (k : BitVec 3) (c : BitVec 2) (a b7 : BitVec 7) (b : BitVec 6) (w sc f : BitVec 1) (o kind : BitVec 2)
    (room : s.roomy) (free : s.me.ctx.asBusy ≤ s.me.ctx.clk) (named : kind ≠ 0) (coin : o ≠ 3) (pair : kind = 1 ∨ o = 0)
    (listed : sc = 0 ∨ b7.getLsbD 6 = false) :
    let x := s.me
    let view := x.assayView c.toNat
    let n := x.startAt 5
    let m := (x.readK k).extractLsb' 0 64
    let busy (t : Nat) (y : Core) : Out := s.becomes { y with ctx := { y.ctx with asBusy := y.ctx.clk + t } }
    let (r, y) : Vec × Core := if view.coin = 1 then (x.rngAt 0, x.rngTake 1) else (0, x)
    exec (.ascfg o kind c b) s =
      busy 4 (x.addMacro s.slot 0 1 (.assay c.toNat (.cfg kind.toNat o.toNat (if x.readS b = 0 then 1 else x.readS b)) 0)) ∧
    exec (.asclr f c) s = busy 4 (x.addMacro s.slot 0 1 (.assay c.toNat (if f = 1 then .free else .clr) 0)) ∧
    (view.kind = 1 → exec (.asqu k c a) s = busy 4 (y.addMacro s.slot n 64 (.assay c.toNat (.qu (x.readV a) m r) 0))) ∧
    (view.kind = 2 → exec (.ashh k c a b7 sc) s =
      busy 4 (x.addMacro s.slot n 64 (.assay c.toNat (.hh (x.readV a) (ofLanes 32 64 fun i => s.laneF b7 sc i) m) 0))) ∧
    (view.kind = 3 → exec (.asdc k c a w) s = busy 4 (x.addMacro s.slot n 64 (.assay c.toNat (.dc (x.readV a) m (w == 1)) 0))) ∧
    (x.check s.cur (x.readS b) 4224 128 true false [.face] = none →
      exec (.asmrg c b) s = busy 40 (y.addMacro s.slot n 17 (.asmrg c.toNat (x.readS b) (List.replicate 4224 0) r))) ∧
    (x.check s.cur (x.readS b) 4224 128 false true [.face] = none →
      exec (.assv c b) s = busy 20 (x.addMacro s.slot n 17 (.assv c.toNat (x.readS b)))) :=
  ⟨exec_ascfg free named coin pair c b, exec_asclr free f c, fun kind => exec_asqu room free kind k a,
    fun kind => exec_ashh room free kind k a listed, fun kind => exec_asdc room free kind k a w, exec_asmrg room free, exec_assv room free⟩

/-! ## The queries (R151, R152, R154, R156) -/

section
variable {s : State} (room : s.roomy)
include room

theorem exec_asqry_lanes {c : BitVec 2} (kind : (s.me.assayView c.toNat).kind = 1) {b : BitVec 7} {sc : BitVec 1}
    (listed : sc = 0 ∨ b.getLsbD 6 = false) (k : BitVec 3) (z : BitVec 1) (d : BitVec 7) :
    exec (.asqry k z d 0 c b sc) s = s.givesLanes 20 32 d k z
      (fun i => quantileOf (s.me.assayView c.toNat).entries (s.me.assayView c.toNat).n (s.laneF b sc i)) 0 :=
  (State.checked_of (by simpa using listed) _).trans <|
    (State.room_assayGate_passes room (.inl rfl) (kind_right (by decide) kind) _).trans (State.deliverV_of_roomy room ..)

theorem exec_asqry_scalar {c : BitVec 2} (kind : (s.me.assayView c.toNat).kind = 1) {b : BitVec 7} (listed : b.getLsbD 6 = false)
    {d : BitVec 7} (scalar : d.getLsbD 6 = false) :
    exec (.asqry 0 0 d 1 c b 1) s = s.givesS 20 (d.extractLsb' 0 6)
      (BitVec.ofNat 64 (quantileOf (s.me.assayView c.toNat).entries (s.me.assayView c.toNat).n (s.laneF b 1 0))) :=
  (State.checked_of (by rw [listed, scalar]; rfl) _).trans <|
    (State.room_assayGate_passes room (.inl rfl) (kind_right (by decide) kind) _).trans
      (congrArg s.becomes (State.deliver_of_lt room ..))

theorem exec_asest {c : BitVec 2} (kind : (s.me.assayView c.toNat).kind ≠ 0) (e : BitVec 6) :
    exec (.asest e c) s = s.givesS 20 e (BitVec.ofNat 64 (match (s.me.assayView c.toNat).kind with
      | 1 => (s.me.assayView c.toNat).bound | 2 => (s.me.assayView c.toNat).n | _ => (s.me.assayView c.toNat).estimate)) :=
  (State.room_assayGate_passes room (.inl rfl) (by rintro _ ⟨⟩; exact Or.inr ⟨rfl, kind⟩) _).trans
    (congrArg s.becomes (State.deliver_of_lt room ..))

/-- The word of ASTOPK for one rank: key, count or error. -/
def topWord (p : BitVec 2) (l : List (Nat × BitVec 32 × Nat × Nat)) (i : Nat) : Nat :=
  match l[i]? with
  | none => 0
  | some (_, k, n, e) => if p = 0 then k.toNat else if p = 1 then n else e

theorem exec_astopk {c : BitVec 2} (kind : (s.me.assayView c.toNat).kind = 2) {p : BitVec 2} (part : p ≠ 3) (d : BitVec 7) :
    exec (.astopk d p c) s = s.becomes (s.inFlight 20
      [.setV (s.me.ctx.physV d.toNat) (ofLanes 32 64 (topWord p (s.me.assayView c.toNat).ranked)) (BitVec.allOnes 2048)]) :=
  (State.checked_of (by simpa using part) _).trans <|
    (State.room_assayGate_passes room (.inl rfl) (kind_right (by decide) kind) _).trans
      (congrArg s.becomes (State.deliver_of_lt room ..))

omit room in
theorem laneNat_topWord (p : BitVec 2) (l : List (Nat × BitVec 32 × Nat × Nat)) {i : Nat} (lane : i < 64) :
    (∀ x, l[i]? = some x → laneNat (ofLanes 32 64 (topWord p l)) i 32 =
      (if p = 0 then x.2.1.toNat else if p = 1 then x.2.2.1 else x.2.2.2) % 2 ^ 32) ∧
    (l[i]? = none → laneNat (ofLanes 32 64 (topWord p l)) i 32 = 0) := by
  rw [laneNat_ofLanes _ (by decide) lane, topWord]
  constructor
  · intro x listed
    rw [listed]
  · intro unlisted
    rw [unlisted, Nat.zero_mod]

end

end Sys2Proof.Machine
end

section
/-! PROOFS. Work of an assay update: sixteen lanes a cycle, and what a lane does (R145, R148, R155). -/

namespace Sys2Proof.Machine

open Sys2Proof

/-! ## Work of an update: sixteen lanes a cycle (R145) -/

@[simp] theorem Core.v_onSys (c : Core) (f : Ctx → Ctx) : (c.onSys f).v = c.v := by
  obtain ⟨x, h, same⟩ := c.onSys_contexts f
  rw [same]

@[simp] theorem Core.k_onSys (c : Core) (f : Ctx → Ctx) : (c.onSys f).k = c.k := by
  obtain ⟨x, h, same⟩ := c.onSys_contexts f
  rw [same]

@[simp] theorem Core.assay_onSys (c : Core) (f : Ctx → Ctx) : (c.onSys f).assay = c.assay := by
  obtain ⟨x, h, same⟩ := c.onSys_contexts f
  rw [same]

/-- A context put back, with the HOVF of one that saturated. -/
def Core.assayLeft (c : Core) (k : Nat) (w : AWork) : Core :=
  { c with assay := Map.put c.assay k w.a }.onSys fun x => if w.ovf then { x with hovf := x.hovf ||| (1#4 <<< k) } else x

section
variable (c : Core) (k : Nat) (w : AWork)

@[simp] theorem Core.assay_assayLeft : (c.assayLeft k w).assay = Map.put c.assay k w.a := by
  rw [Core.assayLeft, Core.assay_onSys]

@[simp] theorem Core.v_assayLeft : (c.assayLeft k w).v = c.v := by rw [Core.assayLeft, Core.v_onSys]

@[simp] theorem Core.k_assayLeft : (c.assayLeft k w).k = c.k := by rw [Core.assayLeft, Core.k_onSys]

theorem Core.sysCtx_assayLeft :
    (c.assayLeft k w).sysCtx = if w.ovf then { c.sysCtx with hovf := c.sysCtx.hovf ||| (1#4 <<< k) } else c.sysCtx := by
  rw [Core.assayLeft, Core.sysCtx_onSys]
  rfl

@[simp] theorem Core.assayStored_assayLeft : (c.assayLeft k w).assayStored k = w.a := by
  rw [Core.assayStored, Core.assay_assayLeft, Map.get_put_self]

@[simp] theorem Core.s_assayLeft : (c.assayLeft k w).ctx.s = c.ctx.s := by
  rw [Core.assayLeft, Core.onSys]
  split
  · rfl
  · dsimp only
    split <;> rfl

end

/-- Bit j of a flag register in which the flag of context k was raised. -/
theorem getLsbD_or_one_shiftLeft (x : BitVec 4) (k : Nat) {j : Nat} (fits : j < 4) :
    (x ||| (1#4 <<< k)).getLsbD j = (x.getLsbD j || decide (j = k)) := by
  simp only [BitVec.getLsbD_or, BitVec.getLsbD_shiftLeft, fits, BitVec.getLsbD_one]
  by_cases same : j = k
  · simp [same]
  · by_cases below : j < k
    · simp [same, below]
    · have apart : j - k ≠ 0 := by omega
      simp [same, apart]

theorem Core.hovf_assayLeft (c : Core) (k : Nat) (w : AWork) {j : Nat} (fits : j < 4) :
    (c.assayLeft k w).sysCtx.hovf.getLsbD j = (c.sysCtx.hovf.getLsbD j || (decide (j = k) && w.ovf)) := by
  rw [Core.sysCtx_assayLeft]
  cases w.ovf with
  | false => rw [if_neg (by decide), Bool.and_false, Bool.or_false]
  | true => rw [if_pos rfl, getLsbD_or_one_shiftLeft _ _ fits, Bool.and_true]

section
variable {m0 : Memory} {n : Nat} {s : State} {m : Macro} {k : Nat} {u : AUpd} {d : Nat} (work : m.work = .assay k u d)
include work

theorem macroStep_assay (due : m.start + m.offset ≤ (s.core n).ctx.clk) (total : m.total = 64) (next : m.next < 64) :
    macroStep m0 n s m =
      (s.setCore n ((s.core n).assayLeft k
        (applyLanes u m.next (16 * (m.next / 16) + 16) ⟨(s.core n).assayStored k, u.rng, d, false⟩)),
        { m with
          next := 16 * (m.next / 16) + 16
          work := .assay k u (applyLanes u m.next (16 * (m.next / 16) + 16) ⟨(s.core n).assayStored k, u.rng, d, false⟩).j }, none) := by
  have last : min m.total (16 * (m.next / 16) + 16) = 16 * (m.next / 16) + 16 := by omega
  refine (if_neg (Nat.not_lt.2 due)).trans ?_
  simp only [work, assayStep, last]
  rfl

end

/-- Sixteen lanes of an update fall due in each cycle, and change their context alone (R145). -/
theorem assay_lanes_due (m0 : Memory) (n : Nat) (s : State) (m : Macro) (k : Nat) (u : AUpd) (d : Nat) (work : m.work = .assay k u d)
    (total : m.total = 64) (next : m.next < 64) :
    let c := s.core n
    let last := 16 * (m.next / 16) + 16
    let w := applyLanes u m.next last ⟨c.assayStored k, u.rng, d, false⟩
    (c.ctx.clk < m.start + m.offset → macroStep m0 n s m = (s, m, none)) ∧
    (m.start + m.offset ≤ c.ctx.clk → ∃ e, macroStep m0 n s m = (s.setCore n e, { m with next := last, work := .assay k u w.j }, none) ∧
      Map.get? e.assay k = some w.a ∧ (∀ j, j ≠ k → Map.get? e.assay j = Map.get? c.assay j) ∧ e.v = c.v ∧ e.k = c.k ∧ e.ctx.s = c.ctx.s ∧
      ∀ j, j < 4 → e.sysCtx.hovf.getLsbD j = (c.sysCtx.hovf.getLsbD j || (decide (j = k) && w.ovf))) := by
  refine ⟨macroStep_early, fun due => ⟨_, macroStep_assay work due total next, ?_, fun j other => ?_, Core.v_assayLeft .., Core.k_assayLeft ..,
    Core.s_assayLeft .., fun j fits => Core.hovf_assayLeft _ _ _ fits⟩⟩
  · rw [Core.assay_assayLeft, Map.get?_put_self]
  · rw [Core.assay_assayLeft, Map.get?_put_other _ _ other]

/-! ## The lanes of an update (R145, R148, R155) -/

theorem AWork.lane_masked (w : AWork) (v x r : Vec) {mk : BitVec 64} {i : Nat} (masked : mk.getLsbD i = false) :
    w.lane (.qu v mk r) i = w ∧ w.lane (.hh v x mk) i = w ∧ w.lane (.dc v mk false) i = w := by
  simp only [AWork.lane, masked, Bool.false_eq_true, if_false, and_self]

theorem AWork.lane_unmasked (w : AWork) (v x r : Vec) {mk : BitVec 64} {i : Nat} (unmasked : mk.getLsbD i = true) :
    w.lane (.qu v mk r) i = w.quLane (laneNat v i 32) ∧ w.lane (.hh v x mk) i = w.hhLane (laneNat v i 32) (laneNat x i 32) ∧
      w.lane (.dc v mk false) i = w.dcLane (BitVec.ofNat 64 (laneNat v i 32)) := by
  simp only [AWork.lane, unmasked, Bool.false_eq_true, if_false, if_true, and_self]

theorem AWork.lane_wide (w : AWork) (v : Vec) (mk : BitVec 64) (i : Nat) :
    w.lane (.dc v mk true) (2 * i) = (if mk.getLsbD i then w.dcLane (v.extractLsb' (64 * i) 64) else w) ∧
      w.lane (.dc v mk true) (2 * i + 1) = w := by
  have even : 2 * i % 2 = 0 := by omega
  have odd : (2 * i + 1) % 2 = 1 := by omega
  have half : 2 * i / 2 = i := by omega
  simp only [AWork.lane, Sys2Proof.Machine.lane, even, odd, half, Nat.mul_comm i 64, if_true, decide_true, Bool.true_and]
  exact ⟨trivial, rfl⟩

/-- What one lane of an update does, and what configuring and clearing leave. -/
theorem AWork.lane_updates (w : AWork) (v r x : Vec) (mk : BitVec 64) (i k co : Nat) (sd : Word) (_ : i < 64) :
    (mk.getLsbD i = false → w.lane (.qu v mk r) i = w ∧ w.lane (.hh v x mk) i = w ∧ w.lane (.dc v mk false) i = w) ∧
    (mk.getLsbD i = true → w.lane (.qu v mk r) i = w.quLane (laneNat v i 32) ∧ w.lane (.hh v x mk) i = w.hhLane (laneNat v i 32) (laneNat x i 32) ∧
      w.lane (.dc v mk false) i = w.dcLane (BitVec.ofNat 64 (laneNat v i 32))) ∧
    (i < 32 → w.lane (.dc v mk true) (2 * i) = (if mk.getLsbD i then w.dcLane (v.extractLsb' (64 * i) 64) else w) ∧
      w.lane (.dc v mk true) (2 * i + 1) = w) ∧
    (k ≠ 0 → (w.lane (.cfg k co sd) 0).a = ⟨k, co, 15, 0, 0, 0, 0, sd, sd, [], [], 0, [], []⟩) ∧
    (w.a.kind ≠ 0 → (w.lane .clr 0).a = ⟨w.a.kind, w.a.coin, 15, 0, 0, 0, 0, w.a.seed, w.a.seed, [], [], 0, [], []⟩) ∧
    (w.lane .free 0).a = Assay.empty :=
  ⟨AWork.lane_masked w v x r, AWork.lane_unmasked w v x r, fun _ => AWork.lane_wide w v mk i, fun named => if_neg named,
    fun named => if_neg named, rfl⟩

end Sys2Proof.Machine
end

section
/-! PROOFS. The quantile sketch: sorted levels, coins and compactions (R147, R149, R150). -/

namespace Sys2Proof.Machine

open Sys2Proof

/-! ## Sorting and halving a level (R150) -/

theorem insertSorted_perm (x : BitVec 32) (l : List (BitVec 32)) : (insertSorted x l).Perm (x :: l) := by
  induction l with
  | nil => exact .refl _
  | cons y r ih =>
    rw [insertSorted]
    split
    · exact .refl _
    · exact (ih.cons y).trans (.swap x y r)

theorem sortLevel_perm (l : List (BitVec 32)) : (sortLevel l).Perm l := by
  induction l with
  | nil => exact .refl _
  | cons x l ih => exact (insertSorted_perm x _).trans (ih.cons x)

@[simp] theorem length_sortLevel (l : List (BitVec 32)) : (sortLevel l).length = l.length := (sortLevel_perm l).length_eq

theorem insertSorted_rising (x : BitVec 32) {l : List (BitVec 32)} (rising : l.Pairwise fun a b => totalKey a.toNat ≤ totalKey b.toNat) :
    (insertSorted x l).Pairwise fun a b => totalKey a.toNat ≤ totalKey b.toNat := by
  induction l with
  | nil => exact List.pairwise_singleton _ _
  | cons y r ih =>
    obtain ⟨first, rest⟩ := List.pairwise_cons.1 rising
    rw [insertSorted]
    split
    case isTrue le =>
      refine List.pairwise_cons.2 ⟨fun z member => ?_, rising⟩
      rcases List.mem_cons.1 member with rfl | member
      · exact le
      · exact le_trans le (first z member)
    case isFalse gt =>
      refine List.pairwise_cons.2 ⟨fun z member => ?_, ih rest⟩
      rcases List.mem_cons.1 ((insertSorted_perm x r).mem_iff.1 member) with rfl | member
      · exact (le_total _ _).resolve_left gt
      · exact first z member

theorem sortLevel_rising (l : List (BitVec 32)) : (sortLevel l).Pairwise fun a b => totalKey a.toNat ≤ totalKey b.toNat := by
  induction l with
  | nil => exact .nil
  | cons x l ih => exact insertSorted_rising x ih

theorem length_everyNth_le (l : List (BitVec 32)) (s o : Nat) : (everyNth l s o).length ≤ l.length := by
  rw [everyNth, List.length_map]
  exact (List.length_filter_le _ _).trans_eq List.length_zipIdx

/-- Of a list numbered from an even number on, the entries whose number is even, or those whose number is odd. -/
theorem getElem?_everySecond (l : List (BitVec 32)) {b : Nat} (bit : b < 2) :
    ∀ n, n % 2 = 0 → ∀ i, (((l.zipIdx n).filter fun x => x.2 % 2 = b).map Prod.fst)[i]? = l[2 * i + b]? := by
  induction l using List.twoStepInduction with
  | nil => intro n _ i; rfl
  | singleton x =>
    intro n even i
    obtain rfl | rfl : b = 0 ∨ b = 1 := by omega
    · cases i <;> simp [even]
    · simp [even]
  | cons_cons x y r ih _ =>
    intro n even i
    have odd : (n + 1) % 2 = 1 := by omega
    have rest := ih (n + 2) (by omega)
    obtain rfl | rfl : b = 0 ∨ b = 1 := by omega
    · cases i with
      | zero => simp [even]
      | succ i => simpa [even, odd, Nat.mul_add] using rest i
    · cases i with
      | zero => simp [even, odd]
      | succ i => simpa [even, odd, Nat.mul_add] using rest i

theorem getElem?_everyNth_two (l : List (BitVec 32)) {b : Nat} (bit : b < 2) (i : Nat) : (everyNth l 2 b)[i]? = l[2 * i + b]? :=
  getElem?_everySecond l bit 0 rfl i

/-- Of 64 entries, 32 remain. -/
theorem length_everyNth_half {l : List (BitVec 32)} (full : l.length = 64) {b : Nat} (bit : b < 2) : (everyNth l 2 b).length = 32 := by
  have last := getElem?_everyNth_two l bit 31
  have beyond := getElem?_everyNth_two l bit 32
  rw [List.getElem?_eq_none (l := l) (by omega), List.getElem?_eq_none_iff] at beyond
  rw [List.getElem?_eq_getElem (l := l) (by omega)] at last
  have listed := (List.getElem?_eq_some_iff.1 last).1
  omega

/-! ## What the steps of a compaction leave (R147, R150) -/

theorem lfsrBits_one (l : Word) : lfsrBits 1 0 l 0 = ((lfsrBit l).1.toNat, (lfsrBit l).2) := by
  cases bit : (lfsrBit l).1 <;> simp [lfsrBits, bit]

/-- A draw moves its source of coins on, and changes nothing else. -/
theorem AWork.draw_keeps (w : AWork) (d : Nat) : ∃ f a j, (w.draw d).2 = { w with a := { w.a with lfsr := f, alt := a }, j := j } := by
  unfold AWork.draw
  split
  · exact ⟨_, _, _, rfl⟩
  · exact ⟨_, _, _, rfl⟩
  · exact ⟨_, _, _, rfl⟩

/-- A draw of one bit. -/
theorem AWork.draw_one_lt (w : AWork) : (w.draw 1).1 < 2 := by
  unfold AWork.draw
  rw [show min 1 32 = 1 from rfl]
  dsimp only
  split
  · rw [lfsrBits_one]
    exact Bool.toNat_lt _
  · exact Nat.mod_lt _ (by decide)
  · exact Nat.mod_lt _ (by decide)

/-- The coin of a context whose source is its LFSR, the random-bits queue, or its alternation (R147). -/
theorem AWork.draw_one (w : AWork) :
    (w.a.coin = 2 → (w.draw 1).1 = w.a.alt.toNat % 2 ∧ (w.draw 1).2.a.alt = w.a.alt + 1) ∧
    (w.a.coin = 1 → (w.draw 1).1 = laneNat w.rng (w.j % 64) 32 % 2 ∧ (w.draw 1).2.j = w.j + 1) ∧
    (w.a.coin = 0 → (w.draw 1).1 = (lfsrBit w.a.lfsr).1.toNat ∧ (w.draw 1).2.a.lfsr = (lfsrBit w.a.lfsr).2) := by
  refine ⟨fun coin => ?_, fun coin => ?_, fun coin => ?_⟩
  · simp [AWork.draw, coin]
  · simp [AWork.draw, coin]
  · simp only [AWork.draw, coin, show min 1 32 = 1 from rfl, lfsrBits_one]
    exact ⟨trivial, trivial⟩

section
variable (w : AWork)

theorem AWork.level_setLevel_self (h : Nat) (l : List (BitVec 32)) : (w.setLevel h l).a.level h = l := by
  rw [AWork.setLevel, Assay.level]
  cases l with
  | nil => simp [Map.get, Map.get?_del_self]
  | cons x r => simp

theorem AWork.level_setLevel_other {h g : Nat} (l : List (BitVec 32)) (other : g ≠ h) : (w.setLevel h l).a.level g = w.a.level g := by
  rw [AWork.setLevel, Assay.level]
  cases l with
  | nil => simp [Assay.level, Map.get, Map.get?_del_other _ other]
  | cons x r => simp [Assay.level, Map.get_put_other _ _ _ other]

@[simp] theorem AWork.level_addCnt (h n g : Nat) : (w.addCnt h n).a.level g = w.a.level g := rfl

@[simp] theorem AWork.level_draw (d g : Nat) : (w.draw d).2.a.level g = w.a.level g := by
  obtain ⟨f, a, j, same⟩ := w.draw_keeps d
  rw [same]
  rfl

@[simp] theorem AWork.level_sample (l : List (BitVec 32)) (x d g : Nat) : (w.sample l x d).2.a.level g = w.a.level g := w.level_draw d g

theorem AWork.length_sample_le (l : List (BitVec 32)) (x d : Nat) : (w.sample l x d).1.length ≤ l.length := length_everyNth_le ..

/-- Every level of a sketch has fewer than 64 entries (R149). -/
def AWork.fits : Prop := ∀ h, h < 16 → (w.a.level h).length < 64

variable {w}

theorem AWork.fits_setLevel (fits : w.fits) {h : Nat} {l : List (BitVec 32)} (short : l.length < 64) : (w.setLevel h l).fits := by
  intro g small
  by_cases same : g = h
  · subst same
    rwa [AWork.level_setLevel_self]
  · rw [AWork.level_setLevel_other _ _ same]
    exact fits g small

theorem AWork.fits_of_level {u : AWork} (fits : w.fits) (same : ∀ h, u.a.level h = w.a.level h) : u.fits := by
  intro h small
  rw [same]
  exact fits h small

theorem AWork.fits_foldl {β : Type} (f : AWork → β → AWork) (keeps : ∀ w b, AWork.fits w → (f w b).fits) (l : List β) (fits : w.fits) :
    (l.foldl f w).fits := by
  induction l generalizing w with
  | nil => exact fits
  | cons b l ih => exact ih (keeps w b fits)

/-- A level has at most 63 entries, so 64 once one has joined and none is left over. -/
theorem AWork.full_of_fits (fits : w.fits) {h : Nat} (small : h < 16) {e : BitVec 32} (full : ¬(w.a.level h ++ [e]).length < 64) :
    (w.a.level h ++ [e]).length = 64 := by
  have short := fits h small
  rw [List.length_append, List.length_singleton] at full ⊢
  omega

end

/-! ## An entry that joins a level (R149, R150) -/

/-- One more entry in a level that has room. -/
theorem AWork.append_top_short (w : AWork) {e : BitVec 32} (short : (w.a.level 15 ++ [e]).length < 64) :
    AWork.append 0 w e = w.setLevel 15 (w.a.level 15 ++ [e]) := if_pos short

theorem AWork.append_succ_short (w : AWork) {j : Nat} {e : BitVec 32} (short : (w.a.level (14 - j) ++ [e]).length < 64) :
    AWork.append (j + 1) w e = w.setLevel (14 - j) (w.a.level (14 - j) ++ [e]) := if_pos short

theorem AWork.append_short (w : AWork) (k : Nat) (e : BitVec 32) (room : (w.a.level (15 - k)).length < 63) :
    AWork.append k w e = w.setLevel (15 - k) (w.a.level (15 - k) ++ [e]) := by
  have short : (w.a.level (15 - k) ++ [e]).length < 64 := by
    rw [List.length_append, List.length_singleton]
    omega
  cases k with
  | zero => exact w.append_top_short short
  | succ j =>
    have below : 15 - (j + 1) = 14 - j := by omega
    rw [below] at short ⊢
    exact w.append_succ_short short

/-- The compaction of level 15: the 32 entries that a coin chooses stay, at twice the weight. -/
def AWork.compactTop (w : AWork) (l : List (BitVec 32)) : AWork :=
  let u := (w.draw 1).2.setLevel 15 (everyNth (sortLevel l) 2 (w.draw 1).1)
  { u with a := { u.a with etop := sat64 (u.a.etop + 2 ^ u.a.t), t := min 63 (u.a.t + 1) } }

theorem AWork.append_top_full (w : AWork) (e : BitVec 32) (full : ¬(w.a.level 15 ++ [e]).length < 64) :
    AWork.append 0 w e = w.compactTop (w.a.level 15 ++ [e]) := if_neg full

/-- A level emptied, and its compaction counted. -/
def AWork.emptied (w : AWork) (h : Nat) : AWork := ((w.draw 1).2.setLevel h []).addCnt h 1

/-- The entries of a compaction that go up: those that a coin chooses, sampled once more below a level 15 of a weight above 2^15. -/
def AWork.goingUp (w : AWork) (top : Bool) (h : Nat) (l : List (BitVec 32)) : List (BitVec 32) × AWork :=
  if top && decide (15 < (w.emptied h).a.t) then
    (w.emptied h).sample (everyNth (sortLevel l) 2 (w.draw 1).1) 15 ((w.emptied h).a.t - 15)
  else (everyNth (sortLevel l) 2 (w.draw 1).1, w.emptied h)

theorem AWork.append_full (w : AWork) (j : Nat) (e : BitVec 32) (full : ¬(w.a.level (14 - j) ++ [e]).length < 64) :
    AWork.append (j + 1) w e = (w.goingUp (decide (j = 0)) (14 - j) (w.a.level (14 - j) ++ [e])).1.foldl (AWork.append j)
      (w.goingUp (decide (j = 0)) (14 - j) (w.a.level (14 - j) ++ [e])).2 := if_neg full

theorem AWork.fits_emptied {w : AWork} (fits : w.fits) (h : Nat) : (w.emptied h).fits :=
  AWork.fits_of_level (w := (w.draw 1).2.setLevel h [])
    (AWork.fits_setLevel (AWork.fits_of_level fits (w.level_draw 1)) (by decide)) fun _ => rfl

theorem AWork.fits_goingUp {w : AWork} (fits : w.fits) (top : Bool) (h : Nat) (l : List (BitVec 32)) : (w.goingUp top h l).2.fits := by
  unfold AWork.goingUp
  split
  · exact AWork.fits_of_level (AWork.fits_emptied fits h) (AWork.level_sample _ _ _ _)
  · exact AWork.fits_emptied fits h

/-- No level holds 64 entries once an entry has joined (R149). -/
theorem AWork.fits_append (k : Nat) : ∀ {w : AWork}, w.fits → ∀ e, (AWork.append k w e).fits := by
  induction k with
  | zero =>
    intro w fits e
    by_cases short : (w.a.level 15 ++ [e]).length < 64
    · rw [w.append_top_short short]
      exact AWork.fits_setLevel fits short
    · rw [AWork.append_top_full w e short]
      have half := length_everyNth_half ((length_sortLevel _).trans (AWork.full_of_fits fits (by decide) short)) w.draw_one_lt
      exact AWork.fits_of_level (w := (w.draw 1).2.setLevel 15 _)
        (AWork.fits_setLevel (AWork.fits_of_level fits (w.level_draw 1)) (half.trans_lt (by decide))) fun _ => rfl
  | succ j ih =>
    intro w fits e
    by_cases short : (w.a.level (14 - j) ++ [e]).length < 64
    · rw [w.append_succ_short short]
      exact AWork.fits_setLevel fits short
    · rw [AWork.append_full w j e short]
      exact AWork.fits_foldl _ (fun _ e fits => ih fits e) _ (AWork.fits_goingUp fits _ _ _)

/-! ## Entries that go up to a level with room -/

/-- A work in which entries have joined one level and nothing else has changed. -/
def AWork.joins (w u : AWork) (h : Nat) (l : List (BitVec 32)) : Prop :=
  u = { w with a := { w.a with lev := u.a.lev } } ∧ u.a.level h = w.a.level h ++ l ∧ ∀ g, g ≠ h → u.a.level g = w.a.level g

theorem AWork.joins_append {w : AWork} {k : Nat} (e : BitVec 32) (room : (w.a.level (15 - k)).length < 63) :
    w.joins (AWork.append k w e) (15 - k) [e] := by
  rw [AWork.append_short w k e room]
  exact ⟨rfl, AWork.level_setLevel_self .., fun g other => AWork.level_setLevel_other _ _ other⟩

theorem AWork.joins_foldl (k : Nat) (l : List (BitVec 32)) :
    ∀ {w : AWork}, (w.a.level (15 - k)).length + l.length < 64 → w.joins (l.foldl (AWork.append k) w) (15 - k) l := by
  induction l with
  | nil => exact fun _ => ⟨rfl, (List.append_nil _).symm, fun _ _ => rfl⟩
  | cons e l ih =>
    intro w room
    rw [List.length_cons] at room
    obtain ⟨same, joined, others⟩ := w.joins_append (k := k) e (by omega)
    obtain ⟨same', joined', others'⟩ := ih (w := AWork.append k w e) (by rw [joined, List.length_append, List.length_singleton]; omega)
    refine ⟨?_, ?_, fun g other => (others' g other).trans (others g other)⟩
    · rw [List.foldl_cons, same', same]
    · rw [List.foldl_cons, joined', joined, List.append_assoc, List.singleton_append]

/-! ## One lane of ASQU (R149, R150) -/

/-- A sketch that has counted one more entry. -/
def AWork.counted (w : AWork) : AWork := { w with a := { w.a with n := sat64 (w.a.n + 1) } }

theorem AWork.quLane_nan (w : AWork) {x : Nat} (nan : fp32 x = .nan) :
    w.quLane x = { w with a := { w.a with nans := sat64 (w.a.nans + 1) } } := by
  rw [AWork.quLane, nan]
  exact if_pos rfl

theorem AWork.quLane_number (w : AWork) {x : Nat} (number : fp32 x ≠ .nan) :
    w.quLane x = AWork.append 15 w.counted (BitVec.ofNat 32 x) := by
  have isNumber : ¬(fp32 x).isNaN = true := by
    cases value : fp32 x with
    | nan => exact absurd value number
    | inf s => exact Bool.false_ne_true
    | fin s n e => exact Bool.false_ne_true
  exact if_neg isNumber

/-- Level 0 full, with room in level 1: one compaction, whose 32 entries join level 1. -/
theorem AWork.joins_compaction (w : AWork) (e : BitVec 32) (full : (w.a.level 0).length = 63) (room : (w.a.level 1).length < 32) :
    (w.emptied 0).joins (AWork.append 15 w e) 1 (everyNth (sortLevel (w.a.level 0 ++ [e])) 2 (w.draw 1).1) := by
  have length : (w.a.level 0 ++ [e]).length = 64 := by rw [List.length_append, full, List.length_singleton]
  have above : ¬(w.a.level (14 - 14) ++ [e]).length < 64 := by
    rw [length]
    decide
  have half := length_everyNth_half ((length_sortLevel _).trans length) w.draw_one_lt
  have free : ((w.emptied 0).a.level 1).length = (w.a.level 1).length := by
    rw [AWork.emptied, AWork.level_addCnt, AWork.level_setLevel_other _ _ Nat.one_ne_zero, AWork.level_draw]
  rw [AWork.append_full w 14 e above]
  refine AWork.joins_foldl 14 _ ?_
  change ((w.emptied 0).a.level 1).length + (everyNth (sortLevel (w.a.level 0 ++ [e])) 2 (w.draw 1).1).length < 64
  rw [free, half]
  omega

theorem sat32_eq (n : Nat) : sat32 n = (min n (2 ^ 32 - 1), decide (2 ^ 32 - 1 < n)) := by
  unfold sat32
  split
  case isTrue beyond => rw [Nat.min_eq_right beyond.le, decide_eq_true beyond]
  case isFalse fits => rw [Nat.min_eq_left (Nat.not_lt.1 fits), decide_eq_false fits]

/-- What an emptied level leaves: its compactions counted, the coin drawn, everything else as before. -/
theorem AWork.emptied_eq (w : AWork) (h : Nat) : ∃ lev, w.emptied h =
    { (w.draw 1).2 with
      a := { (w.draw 1).2.a with lev := lev, cnt := Map.put w.a.cnt h (min (Map.get w.a.cnt h 0 + 1) (2 ^ 32 - 1)) }
      ovf := w.ovf || decide (2 ^ 32 - 1 < Map.get w.a.cnt h 0 + 1) } := by
  obtain ⟨f, a, j, drawn⟩ := w.draw_keeps 1
  refine ⟨(w.emptied h).a.lev, ?_⟩
  rw [AWork.emptied, drawn, AWork.addCnt, sat32_eq]
  rfl

/-- A lane of ASQU in a sketch whose level 0 is full and whose level 1 has room: one compaction. -/
theorem AWork.quLane_compacts (w : AWork) {x : Nat} (number : fp32 x ≠ .nan) (full : (w.a.level 0).length = 63)
    (room : (w.a.level 1).length < 32) :
    let l := w.a.level 0 ++ [BitVec.ofNat 32 x]
    let u := w.quLane x
    ∃ b kept, b < 2 ∧ kept.length = 32 ∧
      (∀ i, i < 32 → kept[i]? = (sortLevel l)[2 * i + b]?) ∧ u.a.n = min (w.a.n + 1) (2 ^ 64 - 1) ∧ u.a.level 0 = [] ∧
      u.a.level 1 = w.a.level 1 ++ kept ∧
      (∀ h, 2 ≤ h → u.a.level h = w.a.level h) ∧ Map.get u.a.cnt 0 0 = min (Map.get w.a.cnt 0 0 + 1) (2 ^ 32 - 1) ∧ u.a.etop = w.a.etop ∧
      u.a.t = w.a.t ∧ u.ovf = (w.ovf || decide (2 ^ 32 - 1 < Map.get w.a.cnt 0 0 + 1)) ∧
      (w.a.coin = 2 → b = w.a.alt.toNat % 2 ∧ u.a.alt = w.a.alt + 1) ∧ (w.a.coin = 1 → b = laneNat w.rng (w.j % 64) 32 % 2 ∧ u.j = w.j + 1) ∧
      (w.a.coin = 0 → ∃ bit : Bool, bit = (w.a.lfsr.getLsbD 63 != (w.a.lfsr.getLsbD 62 != (w.a.lfsr.getLsbD 60 != w.a.lfsr.getLsbD 59))) ∧
        b = bit.toNat ∧ u.a.lfsr = (w.a.lfsr <<< 1 ||| (if bit then 1 else 0))) := by
  intro l u
  have reads : u = AWork.append 15 w.counted (BitVec.ofNat 32 x) := w.quLane_number number
  have length : l.length = 64 := by rw [List.length_append, full, List.length_singleton]
  obtain ⟨same, joined, others⟩ := w.counted.joins_compaction (BitVec.ofNat 32 x) full room
  rw [← reads] at same joined others
  obtain ⟨alternates, queued, shifts⟩ := w.counted.draw_one
  obtain ⟨f, a, j, drawn⟩ := w.counted.draw_keeps 1
  obtain ⟨lev, emptied⟩ := w.counted.emptied_eq 0
  have cleared (g : Nat) (other : g ≠ 0) : (w.counted.emptied 0).a.level g = w.a.level g := by
    rw [AWork.emptied, AWork.level_addCnt, AWork.level_setLevel_other _ _ other, AWork.level_draw]
    rfl
  refine ⟨(w.counted.draw 1).1, everyNth (sortLevel l) 2 (w.counted.draw 1).1, w.counted.draw_one_lt,
    length_everyNth_half ((length_sortLevel _).trans length) w.counted.draw_one_lt,
    fun i _ => getElem?_everyNth_two _ w.counted.draw_one_lt i, ?_, ?_, ?_, ?_, ?_, ?_, ?_, ?_, ?_, ?_, ?_⟩
  · rw [same, emptied, drawn]
    rfl
  · rw [others 0 (by decide), AWork.emptied, AWork.level_addCnt, AWork.level_setLevel_self]
  · exact joined.trans (congrArg (· ++ everyNth (sortLevel l) 2 (w.counted.draw 1).1) (cleared 1 (by decide)))
  · exact fun h above => (others h (by omega)).trans (cleared h (by omega))
  · rw [same, emptied]
    exact Map.get_put_self ..
  · rw [same, emptied, drawn]
    rfl
  · rw [same, emptied, drawn]
    rfl
  · rw [same, emptied]
    rfl
  · intro coin
    obtain ⟨bit, moved⟩ := alternates coin
    exact ⟨bit, by rw [same, emptied, moved]; rfl⟩
  · intro coin
    obtain ⟨bit, moved⟩ := queued coin
    exact ⟨bit, by rw [same, emptied, moved]; rfl⟩
  · intro coin
    obtain ⟨bit, moved⟩ := shifts coin
    exact ⟨_, rfl, bit, by rw [same, emptied, moved]; rfl⟩

/-- A lane of ASQU: a NaN is counted apart, any other value joins level 0, and a full level compacts (R149, R150). -/
theorem AWork.quLane_spec (w : AWork) (x : Nat) (_ : x < 2 ^ 32) :
    let counted : Nat := min (w.a.n + 1) (2 ^ 64 - 1)
    let l := w.a.level 0 ++ [BitVec.ofNat 32 x]
    let u := w.quLane x
    (fp32 x = .nan → u = { w with a := { w.a with nans := min (w.a.nans + 1) (2 ^ 64 - 1) } }) ∧
    (fp32 x ≠ .nan → (w.a.level 0).length < 63 → u.a.n = counted ∧ u.a.level 0 = l ∧ (∀ h, h ≠ 0 → u.a.level h = w.a.level h) ∧
      u.a.nans = w.a.nans ∧ u.a.etop = w.a.etop ∧ u.a.t = w.a.t ∧ u.a.cnt = w.a.cnt ∧ u.j = w.j) ∧
    (fp32 x ≠ .nan → (w.a.level 0).length = 63 → (w.a.level 1).length < 32 → ∃ b kept, b < 2 ∧ kept.length = 32 ∧
      (∀ i, i < 32 → kept[i]? = (sortLevel l)[2 * i + b]?) ∧ u.a.n = counted ∧ u.a.level 0 = [] ∧ u.a.level 1 = w.a.level 1 ++ kept ∧
      (∀ h, 2 ≤ h → u.a.level h = w.a.level h) ∧ Map.get u.a.cnt 0 0 = min (Map.get w.a.cnt 0 0 + 1) (2 ^ 32 - 1) ∧ u.a.etop = w.a.etop ∧
      u.a.t = w.a.t ∧ u.ovf = (w.ovf || decide (2 ^ 32 - 1 < Map.get w.a.cnt 0 0 + 1)) ∧
      (w.a.coin = 2 → b = w.a.alt.toNat % 2 ∧ u.a.alt = w.a.alt + 1) ∧ (w.a.coin = 1 → b = laneNat w.rng (w.j % 64) 32 % 2 ∧ u.j = w.j + 1) ∧
      (w.a.coin = 0 → ∃ bit : Bool, bit = (w.a.lfsr.getLsbD 63 != (w.a.lfsr.getLsbD 62 != (w.a.lfsr.getLsbD 60 != w.a.lfsr.getLsbD 59))) ∧
        b = bit.toNat ∧ u.a.lfsr = (w.a.lfsr <<< 1 ||| (if bit then 1 else 0)))) ∧
    ((∀ h, h < 16 → (w.a.level h).length < 64) → ∀ h, h < 16 → (u.a.level h).length < 64) ∧
    ((w.a.level 15).length = 63 → let t := AWork.append 0 w (BitVec.ofNat 32 x)
      t.a.etop = min (w.a.etop + 2 ^ w.a.t) (2 ^ 64 - 1) ∧ t.a.t = min 63 (w.a.t + 1) ∧ (t.a.level 15).length = 32) := by
  intro counted l u
  refine ⟨w.quLane_nan, fun number room => ?joins, fun number full room => w.quLane_compacts number full room, fun fits => ?fits,
    fun full => ?top⟩
  case joins =>
    have reads : u = AWork.append 15 w.counted (BitVec.ofNat 32 x) := w.quLane_number number
    obtain ⟨same, joined, others⟩ := w.counted.joins_append (k := 15) (BitVec.ofNat 32 x) room
    rw [← reads] at same joined others
    refine ⟨?_, joined, others, ?_, ?_, ?_, ?_, ?_⟩ <;> rw [same] <;> rfl
  case fits =>
    change u.fits
    by_cases nan : fp32 x = .nan
    · rw [show u = _ from w.quLane_nan nan]
      exact fits
    · rw [show u = _ from w.quLane_number nan]
      exact AWork.fits_append 15 (w := w.counted) fits _
  case top =>
    have length : (w.a.level 15 ++ [BitVec.ofNat 32 x]).length = 64 := by rw [List.length_append, full, List.length_singleton]
    have half := length_everyNth_half ((length_sortLevel _).trans length) w.draw_one_lt
    obtain ⟨f, a, j, drawn⟩ := w.draw_keeps 1
    dsimp only
    rw [AWork.append_top_full w _ (by rw [length]; decide)]
    refine ⟨?_, ?_, ?_⟩
    · rw [AWork.compactTop, drawn]
      rfl
    · rw [AWork.compactTop, drawn]
      rfl
    · exact (congrArg List.length (AWork.level_setLevel_self ..)).trans half

end Sys2Proof.Machine
end

section
/-! PROOFS. Heavy hitters and distinct counts: what one lane leaves (R153, R155). -/

namespace Sys2Proof.Machine

open Sys2Proof

/-! ## Heavy hitters (R153) -/

/-- The first index of the least of the values below `n + 1`. -/
theorem foldl_least (c : Nat → Nat) (n : Nat) :
    let r := (List.range (n + 1)).foldl (fun b j => if c j < c b then j else b) 0
    r ≤ n ∧ (∀ i, i ≤ n → c r ≤ c i) ∧ ∀ i, i < r → c r < c i := by
  induction n with
  | zero =>
    refine ⟨?_, ?_, ?_⟩
    · simp
    · intro i below
      obtain rfl := Nat.le_zero.1 below
      simp
    · simp
  | succ n ih =>
    intro r
    obtain ⟨inside, least, first⟩ := ih
    have step : r = if c (n + 1) < c ((List.range (n + 1)).foldl (fun b j => if c j < c b then j else b) 0) then n + 1
        else (List.range (n + 1)).foldl (fun b j => if c j < c b then j else b) 0 := by
      simp only [r]
      rw [List.range_succ, List.foldl_append, List.foldl_cons, List.foldl_nil]
    split at step
    case isTrue less =>
      rw [step]
      refine ⟨le_rfl, fun i below => ?_, fun i below => less.trans_le (least i (Nat.lt_succ_iff.1 below))⟩
      rcases Nat.le_succ_iff.1 below with below | rfl
      · exact less.le.trans (least i below)
      · exact le_rfl
    case isFalse keeps =>
      rw [step]
      refine ⟨inside.trans n.le_succ, fun i below => ?_, first⟩
      rcases Nat.le_succ_iff.1 below with below | rfl
      · exact least i below
      · exact Nat.not_lt.1 keeps

section
variable {w : AWork} {x : BitVec 32} {wt : Nat}

/-- The lowest counter that is not valid is the victim. -/
theorem Assay.victim_free {a : Assay} {j : Nat} (small : j < 64) (free : a.valid.getLsbD j = false)
    (first : ∀ i, i < j → a.valid.getLsbD i = true) : a.victim = j := by
  have found : ((List.range 64).find? fun j => !(a.valid.getLsbD j)) = some j :=
    List.find?_range_eq_some.2 ⟨by simp [free], List.mem_range.2 small, fun i below => by simp [first i below]⟩
  rw [Assay.victim, found]

/-- With every counter valid, the victim is the lowest of the least count. -/
theorem Assay.victim_least {a : Assay} (valid : a.valid = BitVec.allOnes 64) {j : Nat} (small : j < 64)
    (least : ∀ i, i < 64 → (a.counter j).2.1 ≤ (a.counter i).2.1) (first : ∀ i, i < j → (a.counter j).2.1 < (a.counter i).2.1) :
    a.victim = j := by
  have found : ((List.range 64).find? fun j => !(a.valid.getLsbD j)) = none :=
    List.find?_range_eq_none.2 fun i below => by rw [valid, BitVec.getLsbD_allOnes, decide_eq_true below]; rfl
  obtain ⟨inside, least', first'⟩ := foldl_least (fun j => (a.counter j).2.1) 63
  rw [Assay.victim, found]
  refine Nat.le_antisymm (Nat.not_lt.1 fun above => ?_) (Nat.not_lt.1 fun below => ?_)
  · exact absurd (first' j above) (Nat.not_lt.2 (least _ (by omega)))
  · exact absurd (first _ below) (Nat.not_lt.2 (least' j (by omega)))

/-- A key in counter `j` with its count clamped and its error, and the total weight raised. -/
def AWork.hhPut (w : AWork) (x : BitVec 32) (wt j n e : Nat) : AWork :=
  { w with
    a := { w.a with
      n := sat64 (w.a.n + wt)
      keys := Map.put w.a.keys j (x, min n (2 ^ 32 - 1), e)
      valid := w.a.valid ||| (1#64 <<< j) }
    ovf := w.ovf || decide (2 ^ 32 - 1 < n) }

theorem AWork.hhLane_zero (w : AWork) (x : Nat) : w.hhLane x 0 = w := if_pos rfl

/-- A bit already set stays. -/
theorem or_one_shiftLeft_of_set {v : BitVec 64} {j : Nat} (set : v.getLsbD j = true) : v ||| (1#64 <<< j) = v := by
  refine BitVec.eq_of_getLsbD_eq fun i below => ?_
  rw [BitVec.getLsbD_or, BitVec.getLsbD_shiftLeft, BitVec.getLsbD_one]
  by_cases same : i = j
  · rw [same, set, Bool.true_or]
  · by_cases lower : i < j
    · simp [lower]
    · simp [show i - j ≠ 0 by omega]

theorem AWork.hhLane_held (some_ : wt ≠ 0) {j : Nat} (small : j < 64) (valid : w.a.valid.getLsbD j = true) (key : (w.a.counter j).1 = x)
    (first : ∀ i, i < j → ¬(w.a.valid.getLsbD i = true ∧ (w.a.counter i).1 = x)) :
    w.hhLane x.toNat wt = w.hhPut x wt j ((w.a.counter j).2.1 + wt) (w.a.counter j).2.2 := by
  have found : ((List.range 64).find? fun j => w.a.valid.getLsbD j && (w.a.counter j).1 == BitVec.ofNat 32 x.toNat) = some j := by
    rw [BitVec.ofNat_toNat, BitVec.setWidth_eq]
    exact List.find?_range_eq_some.2 ⟨by simp [valid, key], List.mem_range.2 small, fun i below => by
      simpa [imp_iff_not_or] using first i below⟩
  refine (if_neg some_).trans ?_
  dsimp only
  change (match ((List.range 64).find? fun j => w.a.valid.getLsbD j && (w.a.counter j).1 == BitVec.ofNat 32 x.toNat) with
    | some _ => _ | none => _) = _
  rw [found]
  simp only [sat32_eq, AWork.hhPut, or_one_shiftLeft_of_set valid, BitVec.ofNat_toNat, BitVec.setWidth_eq]
  rfl

theorem AWork.hhLane_new (some_ : wt ≠ 0) (absent : ∀ j, j < 64 → ¬(w.a.valid.getLsbD j = true ∧ (w.a.counter j).1 = x)) {j e : Nat}
    (victim : w.a.victim = j) (least : (if w.a.valid.getLsbD j then (w.a.counter j).2.1 else 0) = e) :
    w.hhLane x.toNat wt = w.hhPut x wt j (e + wt) e := by
  have found : ((List.range 64).find? fun j => w.a.valid.getLsbD j && (w.a.counter j).1 == BitVec.ofNat 32 x.toNat) = none := by
    rw [BitVec.ofNat_toNat, BitVec.setWidth_eq]
    exact List.find?_range_eq_none.2 fun i below => by
      simpa [imp_iff_not_or] using absent i below
  refine (if_neg some_).trans ?_
  dsimp only
  change (match ((List.range 64).find? fun j => w.a.valid.getLsbD j && (w.a.counter j).1 == BitVec.ofNat 32 x.toNat) with
    | some _ => _ | none => _) = _
  rw [found]
  simp only [sat32_eq, BitVec.ofNat_toNat, BitVec.setWidth_eq]
  subst victim least
  rfl

/-- What a key put into its counter leaves. -/
theorem AWork.hhPut_sets (w : AWork) (x : BitVec 32) (wt j n e : Nat) :
    (w.hhPut x wt j n e).a.counter j = (x, min n (2 ^ 32 - 1), e) ∧ (w.hhPut x wt j n e).ovf = (w.ovf || decide (2 ^ 32 - 1 < n)) ∧
      (∀ i, i ≠ j → (w.hhPut x wt j n e).a.counter i = w.a.counter i) ∧ (w.hhPut x wt j n e).a.valid = (w.a.valid ||| (1#64 <<< j)) :=
  ⟨Map.get_put_self .., rfl, fun _ other => Map.get_put_other _ _ _ other, rfl⟩

/-- The total weight that a lane leaves, whichever counter it takes. -/
theorem AWork.n_hhLane (some_ : wt ≠ 0) : (w.hhLane x.toNat wt).a.n = min (w.a.n + wt) (2 ^ 64 - 1) := by
  refine (congrArg (fun w => AWork.a w |>.n) (if_neg some_)).trans ?_
  dsimp only
  split <;> rfl

end

/-- A lane of ASHH: the counter that holds its key, else the lowest invalid one, else the least (R153). -/
theorem AWork.hhLane_spec (w : AWork) (x : BitVec 32) (wt : Nat) : w.hhLane x.toNat 0 = w ∧ (wt ≠ 0 →
    let u := w.hhLane x.toNat wt
    let held (j : Nat) : Prop := w.a.valid.getLsbD j = true ∧ (w.a.counter j).1 = x
    let sets (j n e : Nat) : Prop := u.a.counter j = (x, min n (2 ^ 32 - 1), e) ∧ u.ovf = (w.ovf || decide (2 ^ 32 - 1 < n)) ∧
      (∀ i, i ≠ j → u.a.counter i = w.a.counter i) ∧ u.a.valid = (w.a.valid ||| (1#64 <<< j))
    u.a.n = min (w.a.n + wt) (2 ^ 64 - 1) ∧
    (∀ j, j < 64 → held j → (∀ i, i < j → ¬ held i) → sets j ((w.a.counter j).2.1 + wt) (w.a.counter j).2.2) ∧
    ((∀ j, j < 64 → ¬ held j) →
      (∀ j, j < 64 → w.a.valid.getLsbD j = false → (∀ i, i < j → w.a.valid.getLsbD i = true) → sets j wt 0) ∧
      (w.a.valid = BitVec.allOnes 64 → ∀ j, j < 64 → (∀ i, i < 64 → (w.a.counter j).2.1 ≤ (w.a.counter i).2.1) →
        (∀ i, i < j → (w.a.counter j).2.1 < (w.a.counter i).2.1) → sets j ((w.a.counter j).2.1 + wt) (w.a.counter j).2.1))) := by
  refine ⟨w.hhLane_zero _, fun some_ => ?_⟩
  intro u held sets
  have put {j n e : Nat} (same : u = w.hhPut x wt j n e) : sets j n e := by
    simp only [sets, same]
    exact w.hhPut_sets x wt j n e
  refine ⟨AWork.n_hhLane some_, fun j small holds first => ?_, fun absent => ⟨fun j small free first => ?_, fun valid j small least first => ?_⟩⟩
  · exact put (AWork.hhLane_held some_ small holds.1 holds.2 first)
  · have same : u = w.hhPut x wt j (0 + wt) 0 :=
      AWork.hhLane_new some_ absent (Assay.victim_free small free first) (if_neg (by rw [free]; exact Bool.false_ne_true))
    rw [Nat.zero_add] at same
    exact put same
  · exact put (AWork.hhLane_new some_ absent (Assay.victim_least valid small least first)
      (if_pos (by rw [valid, BitVec.getLsbD_allOnes, decide_eq_true small])))

/-! ## Distinct counts (R155) -/

/-- The rank of the leading zeros of 52 bits, plus one. -/
theorem leadingZeros_rank {low : Nat} (fits : low < 2 ^ 52) :
    (low = 0 → leadingZeros 52 low + 1 = 53) ∧
    (low ≠ 0 → 1 ≤ leadingZeros 52 low + 1 ∧ leadingZeros 52 low + 1 ≤ 52 ∧ 2 ^ (52 - (leadingZeros 52 low + 1)) ≤ low ∧
      low < 2 ^ (53 - (leadingZeros 52 low + 1))) := by
  rw [leadingZeros, Nat.mod_eq_of_lt fits]
  refine ⟨fun zero => by rw [if_pos zero], fun positive => ?_⟩
  have size : Nat.log2 low < 52 := (Nat.log2_lt positive).2 fits
  have floor : 52 - (52 - 1 - low.log2 + 1) = low.log2 := by omega
  have ceiling : 53 - (52 - 1 - low.log2 + 1) = low.log2 + 1 := by omega
  rw [if_neg positive, floor, ceiling]
  exact ⟨by omega, by omega, Nat.log2_self_le positive, Nat.lt_log2_self⟩

/-- An element of ASDC raises the register that its hash names to the rank of its zeros (R155). -/
theorem AWork.dcLane_spec (w : AWork) (x : Word) :
    let h1 := x * 0x9B1F52C73A64E8D5
    let h2 := (h1 ^^^ (h1 >>> 31)) * 0xC2B74E91D05A3F6B
    let h := h2 ^^^ (h2 >>> 29)
    let j := h.toNat / 2 ^ 52
    let low := h.toNat % 2 ^ 52
    let u := w.dcLane x
    ∃ rho, (low = 0 → rho = 53) ∧ (low ≠ 0 → 1 ≤ rho ∧ rho ≤ 52 ∧ 2 ^ (52 - rho) ≤ low ∧ low < 2 ^ (53 - rho)) ∧
      Map.get u.a.regs j 0 = max (Map.get w.a.regs j 0) rho ∧ (∀ i, i ≠ j → Map.get u.a.regs i 0 = Map.get w.a.regs i 0) ∧
      u.a.n = (w.a.n + 1) % 2 ^ 64 := by
  intro h1 h2 h j low u
  have register : (h.extractLsb' 52 12).toNat = j := by
    rw [BitVec.extractLsb'_toNat, Nat.shiftRight_eq_div_pow]
    exact Nat.mod_eq_of_lt ((Nat.div_lt_iff_lt_mul (by decide)).2 h.isLt)
  have zeros : (h.extractLsb' 0 52).toNat = low := by
    rw [BitVec.extractLsb'_toNat, Nat.shiftRight_zero]
  have same : u.a.regs = Map.put w.a.regs j (max (Map.get w.a.regs j 0) (leadingZeros 52 low + 1)) := by
    rw [← register, ← zeros]
    rfl
  obtain ⟨none_, some_⟩ := leadingZeros_rank (Nat.mod_lt _ (by decide) : low < 2 ^ 52)
  refine ⟨_, none_, some_, ?_, fun i other => ?_, rfl⟩
  · rw [same, Map.get_put_self]
  · rw [same, Map.get_put_other _ _ _ other]

end Sys2Proof.Machine
end

section
/-! PROOFS. Merges of assay images and O32 (R158, R159). -/

namespace Sys2Proof.Machine

open Sys2Proof

/-! ## Merging two sketches (R159) -/

/-- Weights and NaN counts as before, and no level with 64 entries where none had them. -/
def AWork.leads (w u : AWork) : Prop := u.a.n = w.a.n ∧ u.a.nans = w.a.nans ∧ (w.fits → u.fits)

section
variable {w u v : AWork}

theorem AWork.leads_refl (w : AWork) : w.leads w := ⟨rfl, rfl, id⟩

theorem AWork.leads_trans (first : w.leads u) (second : u.leads v) : w.leads v := by
  obtain ⟨n, nans, fits⟩ := first
  obtain ⟨n', nans', fits'⟩ := second
  exact ⟨n'.trans n, nans'.trans nans, fun h => fits' (fits h)⟩

theorem AWork.leads_foldl {β : Type} {f : AWork → β → AWork} (leads : ∀ w b, AWork.leads w (f w b)) (l : List β) :
    ∀ w, AWork.leads w (l.foldl f w) := by
  induction l with
  | nil => exact AWork.leads_refl
  | cons b l ih => exact fun w => AWork.leads_trans (leads w b) (ih _)

theorem AWork.leads_draw (w : AWork) (d : Nat) : w.leads (w.draw d).2 := by
  have levels := w.level_draw d
  obtain ⟨f, a, j, same⟩ := w.draw_keeps d
  rw [same] at levels ⊢
  exact ⟨rfl, rfl, fun fits => AWork.fits_of_level fits levels⟩

theorem AWork.leads_sample (w : AWork) (l : List (BitVec 32)) (x d : Nat) : w.leads (w.sample l x d).2 :=
  AWork.leads_trans (w.leads_draw d) ⟨rfl, rfl, id⟩

theorem AWork.leads_addCnt (w : AWork) (h n : Nat) : w.leads (w.addCnt h n) := ⟨rfl, rfl, id⟩

theorem AWork.leads_append (k : Nat) : ∀ w e, AWork.leads w (AWork.append k w e) := by
  suffices counts : ∀ w e, (AWork.append k w e).a.n = w.a.n ∧ (AWork.append k w e).a.nans = w.a.nans from
    fun w e => ⟨(counts w e).1, (counts w e).2, fun fits => AWork.fits_append k fits e⟩
  induction k with
  | zero =>
    intro w e
    obtain ⟨n, nans, _⟩ := w.leads_draw 1
    by_cases short : (w.a.level 15 ++ [e]).length < 64
    · rw [w.append_top_short short]
      exact ⟨rfl, rfl⟩
    · rw [w.append_top_full e short]
      exact ⟨n, nans⟩
  | succ j ih =>
    intro w e
    by_cases short : (w.a.level (14 - j) ++ [e]).length < 64
    · rw [w.append_succ_short short]
      exact ⟨rfl, rfl⟩
    · rw [w.append_full j e short]
      have going (top : Bool) (h : Nat) (l : List (BitVec 32)) : w.leads (w.goingUp top h l).2 := by
        have emptied : w.leads (w.emptied h) := by
          obtain ⟨n, nans, _⟩ := w.leads_draw 1
          exact ⟨n, nans, fun fits => AWork.fits_emptied fits h⟩
        unfold AWork.goingUp
        split
        · exact AWork.leads_trans emptied (AWork.leads_sample ..)
        · exact emptied
      have joined := AWork.leads_foldl (fun w e => ⟨(ih w e).1, (ih w e).2, fun fits => AWork.fits_append j fits e⟩)
        (w.goingUp (decide (j = 0)) (14 - j) (w.a.level (14 - j) ++ [e])).1 (w.goingUp (decide (j = 0)) (14 - j) (w.a.level (14 - j) ++ [e])).2
      obtain ⟨n, nans, _⟩ := AWork.leads_trans (going _ _ _) joined
      exact ⟨n, nans⟩

/-- A sample in place of a level, at another weight. -/
theorem AWork.leads_setLevel_sample (w : AWork) (h x d t : Nat) (small : h < 16) {p : List (BitVec 32) × AWork}
    (sampled : w.sample (sortLevel (w.a.level h)) x d = p) : w.leads { p.2.setLevel h p.1 with a := { (p.2.setLevel h p.1).a with t := t } } := by
  subst sampled
  obtain ⟨n, nans, fits⟩ := w.leads_sample (sortLevel (w.a.level h)) x d
  refine ⟨n, nans, fun inside => AWork.fits_setLevel (fits inside) ?_⟩
  exact (w.length_sample_le ..).trans_lt ((length_sortLevel _).trans_lt (inside h small))

/-- The entries of an image and its compactions join step by step; the weights are added at the end. -/
theorem mergeQsk_eq (w : AWork) (b : Assay) : ∃ u, w.leads u ∧ mergeQsk w b = { u with
    a := { u.a with n := sat64 (u.a.n + b.n), nans := sat64 (u.a.nans + b.nans), etop := sat64 (u.a.etop + b.etop) } } := by
  unfold mergeQsk
  extract_lets raised lower
  have toRaised : w.leads raised := by
    simp only [raised]
    split
    · generalize sampled : w.sample (sortLevel (w.a.level 15)) w.a.t (b.t - w.a.t) = p
      exact w.leads_setLevel_sample 15 w.a.t (b.t - w.a.t) b.t (by decide) sampled
    · exact w.leads_refl
  have toLower : raised.leads lower := AWork.leads_foldl (fun w h => AWork.leads_foldl (AWork.leads_append _) _ w) _ _
  have toTop : lower.leads (if b.t < lower.a.t then lower.sample (sortLevel (b.level 15)) b.t (lower.a.t - b.t) else (b.level 15, lower)).2 := by
    split
    · exact lower.leads_sample ..
    · exact lower.leads_refl
  generalize (if b.t < lower.a.t then lower.sample (sortLevel (b.level 15)) b.t (lower.a.t - b.t) else (b.level 15, lower)) = p at toTop ⊢
  obtain ⟨l, top⟩ := p
  refine ⟨_, ?_, rfl⟩
  exact AWork.leads_trans toRaised <| AWork.leads_trans toLower <| AWork.leads_trans toTop <|
    AWork.leads_trans (AWork.leads_foldl (AWork.leads_append 0) l top) (AWork.leads_foldl (fun w h => w.leads_addCnt h _) _ _)

/-- A merge adds weights and NaN counts, and leaves no level with 64 entries. -/
theorem mergeQsk_spec (w : AWork) (b : Assay) :
    (mergeQsk w b).a.n = min (w.a.n + b.n) (2 ^ 64 - 1) ∧ (mergeQsk w b).a.nans = min (w.a.nans + b.nans) (2 ^ 64 - 1) ∧
      (w.fits → (mergeQsk w b).fits) := by
  obtain ⟨u, ⟨n, nans, fits⟩, same⟩ := mergeQsk_eq w b
  rw [same]
  exact ⟨congrArg (fun n => sat64 (n + b.n)) n, congrArg (fun n => sat64 (n + b.nans)) nans, fits⟩

end

/-! ## Merging two lists of counters (R159) -/

theorem Assay.mem_counters {a : Assay} {x : Nat × BitVec 32 × Nat × Nat} :
    x ∈ a.counters ↔ x.1 < 64 ∧ a.valid.getLsbD x.1 = true ∧ x.2 = a.counter x.1 := by
  rw [Assay.counters, List.mem_map]
  constructor
  · rintro ⟨j, member, rfl⟩
    obtain ⟨small, valid⟩ := List.mem_filter.1 member
    exact ⟨List.mem_range.1 small, valid, rfl⟩
  · rintro ⟨small, valid, same⟩
    exact ⟨x.1, List.mem_filter.2 ⟨List.mem_range.2 small, valid⟩, Prod.ext rfl same.symm⟩

theorem insertByCount_perm (x : Nat × BitVec 32 × Nat × Nat) (l : List (Nat × BitVec 32 × Nat × Nat)) : (insertByCount x l).Perm (x :: l) := by
  induction l with
  | nil => exact .refl _
  | cons y r ih =>
    rw [insertByCount]
    split
    · exact .refl _
    · exact (ih.cons y).trans (.swap x y r)

theorem foldl_insertByCount_perm (l : List (Nat × BitVec 32 × Nat × Nat)) :
    ∀ acc, (l.foldl (fun l x => insertByCount x l) acc).Perm (l ++ acc) := by
  induction l with
  | nil => exact fun acc => .refl _
  | cons x l ih => exact fun acc => (ih _).trans (((insertByCount_perm x acc).append_left l).trans List.perm_middle)

/-- A map filled from a list in which one entry alone has its key. -/
theorem Map.get?_foldl_put {α : Type} (l : List (Nat × α)) {x : Nat × α} (member : x ∈ l) (alone : ∀ y ∈ l, y.1 = x.1 → y = x) (m : Map α) :
    Map.get? (l.foldl (fun m x => Map.put m x.1 x.2) m) x.1 = some x.2 := by
  induction l using List.reverseRecOn with
  | nil => exact absurd member List.not_mem_nil
  | append_singleton l y ih =>
    rw [List.foldl_append, List.foldl_cons, List.foldl_nil]
    by_cases same : y.1 = x.1
    · rw [alone y (by simp) same, Map.get?_put_self]
    · have inside : x ∈ l := by
        rcases List.mem_append.1 member with inside | last
        · exact inside
        · exact absurd (congrArg Prod.fst (List.mem_singleton.1 last)).symm same
      rw [Map.get?_put_other _ _ (Ne.symm same)]
      exact ih inside fun z listed => alone z (List.mem_append_left _ listed)

/-- The bits of the indices of a list. -/
theorem getLsbD_foldl_indices {α : Type} (l : List (Nat × α)) {j : Nat} (small : j < 64) :
    ∀ m : BitVec 64, (m.getLsbD j = true ∨ ∃ x ∈ l, x.1 = j) → (l.foldl (fun m x => m ||| (1#64 <<< x.1)) m).getLsbD j = true := by
  induction l with
  | nil =>
    rintro m (set | ⟨x, member, _⟩)
    · exact set
    · exact absurd member List.not_mem_nil
  | cons y l ih =>
    intro m set
    refine ih _ ?_
    rcases set with set | ⟨x, member, rfl⟩
    · exact Or.inl (by rw [BitVec.getLsbD_or, set, Bool.true_or])
    · rcases List.mem_cons.1 member with rfl | member
      · exact Or.inl (by simp [small])
      · exact Or.inr ⟨x, member, rfl⟩

/-- The count and error that an image adds to those of a key. -/
def Assay.addsTo (b : Assay) (key : BitVec 32) : Nat × Nat :=
  match b.counters.find? fun y => y.2.1 == key with
  | some y => y.2.2
  | none => (b.least, b.least)

/-- A counter with its count and error clamped. -/
def clamped (x : Nat × BitVec 32 × Nat × Nat) : Nat × BitVec 32 × Nat × Nat := (x.1, x.2.1, (sat32 x.2.2.1).1, (sat32 x.2.2.2).1)

/-- The counters of the context, with what the image adds. -/
def mergedMine (a b : Assay) : List (Nat × BitVec 32 × Nat × Nat) :=
  a.counters.map fun x =>
    match b.counters.find? fun y => y.2.1 == x.2.1 with
    | some y => (x.1, x.2.1, x.2.2.1 + y.2.2.1, x.2.2.2 + y.2.2.2)
    | none => (x.1, x.2.1, x.2.2.1 + b.least, x.2.2.2 + b.least)

theorem mergedMine_eq (a b : Assay) :
    mergedMine a b = a.counters.map fun x => (x.1, x.2.1, x.2.2.1 + (b.addsTo x.2.1).1, x.2.2.2 + (b.addsTo x.2.1).2) := by
  refine List.map_congr_left fun x _ => ?_
  unfold Assay.addsTo
  split <;> rfl

/-- The counters of the image whose keys the context does not hold, numbered from 64 on. -/
def mergedTheirs (a b : Assay) : List (Nat × BitVec 32 × Nat × Nat) :=
  (b.counters.filter fun y => (a.counters.find? fun x => x.2.1 == y.2.1).isNone).map fun y =>
    (64 + y.1, y.2.1, y.2.2.1 + a.least, y.2.2.2 + a.least)

/-- The counters that two lists have together. -/
def mergedAll (a b : Assay) : List (Nat × BitVec 32 × Nat × Nat) := (mergedMine a b ++ mergedTheirs a b).map clamped

/-- The 64 that rank highest. -/
def mergedTop (a b : Assay) : List (Nat × BitVec 32 × Nat × Nat) := ((mergedAll a b).foldl (fun l x => insertByCount x l) []).take 64

/-- The counters of the context that stay. -/
def mergedKept (a b : Assay) : List (Nat × BitVec 32 × Nat × Nat) := (mergedAll a b).filter fun x => x.1 < 64 && (mergedTop a b).contains x

/-- The counters of the image that come in. -/
def mergedNew (a b : Assay) : List (Nat × BitVec 32 × Nat × Nat) := (mergedAll a b).filter fun x => 64 ≤ x.1 && (mergedTop a b).contains x

/-- The indices that no counter of the context keeps. -/
def mergedFree (a b : Assay) : List Nat := (List.range 64).filter fun j => !((mergedKept a b).any fun x => x.1 == j)

/-- Where each counter stands after the merge. -/
def mergedPut (a b : Assay) : List (Nat × BitVec 32 × Nat × Nat) :=
  mergedKept a b ++ ((mergedFree a b).zip (mergedNew a b)).map fun x => (x.1, x.2.2)

theorem mergeHhl_eq (w : AWork) (b : Assay) : (mergeHhl w b).a = { w.a with
    n := sat64 (w.a.n + b.n)
    keys := (mergedPut w.a b).foldl (fun m x => Map.put m x.1 x.2) []
    valid := (mergedPut w.a b).foldl (fun m x => m ||| (1#64 <<< x.1)) 0 } := rfl

section
variable {a b : Assay}

theorem mem_mergedTop (fits : (mergedAll a b).length ≤ 64) {x : Nat × BitVec 32 × Nat × Nat} (member : x ∈ mergedAll a b) :
    (mergedTop a b).contains x = true := by
  have perm := foldl_insertByCount_perm (mergedAll a b) []
  rw [List.append_nil] at perm
  rw [mergedTop, List.take_of_length_le (perm.length_eq.trans_le fits), List.contains_iff_mem]
  exact perm.mem_iff.2 member

/-- A counter of the context is summed and clamped; one of the image stands from 64 on. -/
theorem mem_mergedAll {x : Nat × BitVec 32 × Nat × Nat} (member : x ∈ mergedAll a b) :
    64 ≤ x.1 ∨ ∃ y ∈ a.counters, x = clamped (y.1, y.2.1, y.2.2.1 + (b.addsTo y.2.1).1, y.2.2.2 + (b.addsTo y.2.1).2) := by
  obtain ⟨y, joined, rfl⟩ := List.mem_map.1 member
  rcases List.mem_append.1 joined with mine | theirs
  · rw [mergedMine_eq] at mine
    obtain ⟨z, listed, rfl⟩ := List.mem_map.1 mine
    exact Or.inr ⟨z, listed, rfl⟩
  · obtain ⟨z, listed, rfl⟩ := List.mem_map.1 theirs
    exact Or.inl (Nat.le_add_right 64 z.1)

theorem length_mergedAll : (mergedAll a b).length =
    a.counters.length + (b.counters.filter fun y => a.counters.all fun x => x.2.1 != y.2.1).length := by
  have absent (y : Nat × BitVec 32 × Nat × Nat) :
      (a.counters.find? fun x => x.2.1 == y.2.1).isNone = a.counters.all fun x => x.2.1 != y.2.1 := by
    rw [Bool.eq_iff_iff, Option.isNone_iff_eq_none, List.find?_eq_none, List.all_eq_true]
    simp
  rw [mergedAll, List.length_map, List.length_append, mergedMine_eq, List.length_map, mergedTheirs, List.length_map,
    List.filter_congr fun y _ => absent y]

/-- A valid counter of the context keeps its place when all fit, with the sums that R159 gives it. -/
theorem mem_mergedPut (fits : (mergedAll a b).length ≤ 64) {x : Nat × BitVec 32 × Nat × Nat} (listed : x ∈ a.counters) :
    clamped (x.1, x.2.1, x.2.2.1 + (b.addsTo x.2.1).1, x.2.2.2 + (b.addsTo x.2.1).2) ∈ mergedKept a b := by
  have member : clamped (x.1, x.2.1, x.2.2.1 + (b.addsTo x.2.1).1, x.2.2.2 + (b.addsTo x.2.1).2) ∈ mergedAll a b := by
    refine List.mem_map_of_mem (List.mem_append_left _ ?_)
    rw [mergedMine_eq]
    exact List.mem_map_of_mem (f := fun x => (x.1, x.2.1, x.2.2.1 + (b.addsTo x.2.1).1, x.2.2.2 + (b.addsTo x.2.1).2)) listed
  refine List.mem_filter.2 ⟨member, ?_⟩
  rw [mem_mergedTop fits member, Bool.and_true]
  exact decide_eq_true (Assay.mem_counters.1 listed).1

/-- No other counter takes its place. -/
theorem mergedPut_alone {x : Nat × BitVec 32 × Nat × Nat} (kept : x ∈ mergedKept a b) : ∀ y ∈ mergedPut a b, y.1 = x.1 → y = x := by
  intro y put same
  rcases List.mem_append.1 put with kept' | came
  · obtain ⟨all, small⟩ := List.mem_filter.1 kept
    obtain ⟨all', small'⟩ := List.mem_filter.1 kept'
    have below : x.1 < 64 := of_decide_eq_true (Bool.and_eq_true_iff.1 small).1
    have below' : y.1 < 64 := of_decide_eq_true (Bool.and_eq_true_iff.1 small').1
    obtain ⟨p, listed, rfl⟩ := (mem_mergedAll all).resolve_left (Nat.not_le.2 below)
    obtain ⟨q, listed', rfl⟩ := (mem_mergedAll all').resolve_left (Nat.not_le.2 below')
    obtain ⟨_, _, counter⟩ := Assay.mem_counters.1 listed
    obtain ⟨_, _, counter'⟩ := Assay.mem_counters.1 listed'
    have index : q.1 = p.1 := same
    have equal : q = p := Prod.ext index (by rw [counter, counter', index])
    rw [equal]
  · obtain ⟨z, zipped, rfl⟩ := List.mem_map.1 came
    obtain ⟨_, free⟩ := List.mem_filter.1 (List.of_mem_zip zipped).1
    have held : (mergedKept a b).any (fun x => x.1 == z.1) = true := List.any_eq_true.2 ⟨x, kept, beq_iff_eq.2 same.symm⟩
    rw [held] at free
    exact absurd free (by decide)

end

/-- Two lists that fit into 64 counters: each valid counter of the context keeps its place and receives what the image adds (R159). -/
theorem mergeHhl_spec (w : AWork) (b : Assay) :
    (mergeHhl w b).a.n = min (w.a.n + b.n) (2 ^ 64 - 1) ∧
    (w.a.counters.length + (b.counters.filter fun y => w.a.counters.all fun x => x.2.1 != y.2.1).length ≤ 64 →
      ∀ j, j < 64 → w.a.valid.getLsbD j = true →
        (mergeHhl w b).a.valid.getLsbD j = true ∧ (mergeHhl w b).a.counter j =
          ((w.a.counter j).1, min ((w.a.counter j).2.1 + (b.addsTo (w.a.counter j).1).1) (2 ^ 32 - 1),
            min ((w.a.counter j).2.2 + (b.addsTo (w.a.counter j).1).2) (2 ^ 32 - 1))) := by
  rw [mergeHhl_eq]
  refine ⟨rfl, fun fits j small valid => ?_⟩
  rw [← length_mergedAll] at fits
  have listed : (j, w.a.counter j) ∈ w.a.counters := Assay.mem_counters.2 ⟨small, valid, rfl⟩
  have kept := mem_mergedPut fits listed
  have put : _ ∈ mergedPut w.a b := List.mem_append_left _ kept
  refine ⟨getLsbD_foldl_indices _ small _ (Or.inr ⟨_, put, rfl⟩), ?_⟩
  have found := Map.get?_foldl_put _ put (mergedPut_alone kept) []
  change Map.get ((mergedPut w.a b).foldl (fun m x => Map.put m x.1 x.2) []) j (0, 0, 0) = _
  rw [Map.get, show Map.get? _ j = _ from found, Option.getD_some, clamped, sat32_eq, sat32_eq]

/-! ## Merging two register sets (R159) -/

theorem Map.get?_unlisted {α : Type} {m : Map α} {k : Nat} (unlisted : k ∉ m.map Prod.fst) : Map.get? m k = none := by
  induction m with
  | nil => rfl
  | cons x m ih =>
    obtain ⟨other, rest⟩ := not_or.1 (mt List.mem_cons.2 unlisted)
    exact (if_neg (Ne.symm other)).trans (ih rest)

theorem get_foldl_max (l : Map Nat) (distinct : (l.map Prod.fst).Nodup) (j : Nat) :
    ∀ m : Map Nat, Map.get (l.foldl (fun m x => Map.put m x.1 (max (Map.get m x.1 0) x.2)) m) j 0 = max (Map.get m j 0) (Map.get l j 0) := by
  induction l with
  | nil => exact fun m => (Nat.max_zero _).symm
  | cons x l ih =>
    intro m
    obtain ⟨unlisted, distinct'⟩ := List.nodup_cons.1 distinct
    rw [List.foldl_cons, ih distinct']
    by_cases same : x.1 = j
    · have absent : Map.get? l j = none := Map.get?_unlisted (same ▸ unlisted)
      have first : Map.get (x :: l) j 0 = x.2 := by simp [Map.get, Map.get?, same]
      rw [same, Map.get_put_self, first, Map.get, Map.get, absent]
      exact Nat.max_zero _
    · have first : Map.get (x :: l) j 0 = Map.get l j 0 := by simp [Map.get, Map.get?, same]
      rw [Map.get_put_other _ _ _ (Ne.symm same), first]

/-- The registers of an image are listed once each. -/
theorem parseImage_distinct {img : List Byte} {b : Assay} (parsed : parseImage img = some b) : (b.regs.map Prod.fst).Nodup := by
  unfold parseImage at parsed
  extract_lets k at parsed
  clear_value k
  split at parsed
  · exact absurd parsed nofun
  · split at parsed
    · obtain rfl := Option.some.inj parsed
      exact List.nodup_nil
    · split at parsed
      · exact absurd parsed nofun
      · obtain rfl := Option.some.inj parsed
        exact List.nodup_nil
    · obtain rfl := Option.some.inj parsed
      exact List.nodup_nil
    · split at parsed
      · exact absurd parsed nofun
      · obtain rfl := Option.some.inj parsed
        rw [List.map_map]
        exact (List.map_id _).symm ▸ List.nodup_range.filter _

/-- The higher of two registers stays. -/
theorem mergeDcr_spec (w : AWork) {b : Assay} (distinct : (b.regs.map Prod.fst).Nodup) :
    (mergeDcr w b).a.n = (w.a.n + b.n) % 2 ^ 64 ∧
      ∀ j, Map.get (mergeDcr w b).a.regs j 0 = max (Map.get w.a.regs j 0) (Map.get b.regs j 0) :=
  ⟨rfl, fun j => get_foldl_max b.regs distinct j w.a.regs⟩

/-! ## ASMRG's effect (R158, R159) -/

section
variable {c : Core} {k : Nat} {img : List Byte} {rng : Vec}

/-- The work on which a merge starts. -/
def Core.mergeWork (c : Core) (k : Nat) (rng : Vec) : AWork := ⟨c.assayStored k, rng, 0, false⟩

theorem Core.asMerge_accepts {w : AWork} (merged : mergeImage (c.mergeWork k rng) img = some w) : c.asMerge k img rng = c.assayLeft k w := by
  rw [Core.mergeWork] at merged
  unfold Core.asMerge
  rw [merged]
  rfl

theorem Core.asMerge_refuses (small : k < 4) (merged : mergeImage (c.mergeWork k rng) img = none) :
    (c.asMerge k img rng).sysCtx.badimg.getLsbD k = true ∧ (c.asMerge k img rng).assay = c.assay := by
  have same : c.asMerge k img rng = c.onSys fun x => { x with badimg := x.badimg ||| (1#4 <<< k) } := by
    rw [Core.mergeWork] at merged
    simp only [Core.asMerge, merged]
  rw [same, Core.sysCtx_onSys, Core.assay_onSys]
  refine ⟨?_, rfl⟩
  rw [getLsbD_or_one_shiftLeft _ _ small, decide_eq_true rfl, Bool.or_true]

/-- A merge changes no register. -/
theorem Core.asMerge_registers (c : Core) (k : Nat) (img : List Byte) (rng : Vec) :
    (c.asMerge k img rng).v = c.v ∧ (c.asMerge k img rng).k = c.k ∧ (c.asMerge k img rng).ctx.s = c.ctx.s := by
  cases merged : mergeImage (c.mergeWork k rng) img with
  | some w =>
    rw [Core.asMerge_accepts merged]
    exact ⟨Core.v_assayLeft .., Core.k_assayLeft .., Core.s_assayLeft ..⟩
  | none =>
    have same : c.asMerge k img rng = c.onSys fun x => { x with badimg := x.badimg ||| (1#4 <<< k) } := by
      rw [Core.mergeWork] at merged
      simp only [Core.asMerge, merged]
    rw [same]
    exact ⟨Core.v_onSys .., Core.k_onSys .., Core.s_onSys (fun _ => by rfl) c⟩

end

section
variable {w : AWork} {img : List Byte} {b : Assay}

theorem mergeImage_bad (bad : parseImage img = none) : mergeImage w img = none := by
  rw [mergeImage, bad]

variable (parsed : parseImage img = some b)
include parsed

theorem mergeImage_zero (zero : b.kind = 0) : mergeImage w img = some w := by
  simp only [mergeImage, parsed, zero, if_true]

theorem mergeImage_empty (named : b.kind ≠ 0) (zero : w.a.kind = 0) : mergeImage w img = some { w with a := b } := by
  simp only [mergeImage, parsed, named, zero, if_true, if_false]

theorem mergeImage_other (named : b.kind ≠ 0) (named' : w.a.kind ≠ 0) (other : b.kind ≠ w.a.kind) : mergeImage w img = none := by
  simp only [mergeImage, parsed, named, named', other, ne_eq, not_false_eq_true, if_true, if_false]

theorem mergeImage_qsk (kind : b.kind = 1) (kind' : w.a.kind = 1) : mergeImage w img = some (mergeQsk w b) := by
  simp [mergeImage, parsed, kind, kind']

theorem mergeImage_hhl (kind : b.kind = 2) (kind' : w.a.kind = 2) : mergeImage w img = some (mergeHhl w b) := by
  simp [mergeImage, parsed, kind, kind']

theorem mergeImage_dcr (kind : b.kind = 3) (kind' : w.a.kind = 3) : mergeImage w img = some (mergeDcr w b) := by
  simp [mergeImage, parsed, kind, kind']

end

/-- What ASMRG leaves: an EMPTY context its image, another merged, a bad image refused. -/
theorem Core.asMerge_spec (c : Core) (k : Nat) (img : List Byte) (rng : Vec) (small : k < 4) :
    let d := c.asMerge k img rng
    let a := c.assayStored k
    let refused : Prop := d.sysCtx.badimg.getLsbD k = true ∧ d.assay = c.assay
    d.v = c.v ∧ d.k = c.k ∧ d.ctx.s = c.ctx.s ∧ (parseImage img = none → refused) ∧
    ∀ b, parseImage img = some b →
      (b.kind = 0 → d.assayStored k = a ∧ d.sysCtx.badimg = c.sysCtx.badimg) ∧ (b.kind ≠ 0 → a.kind = 0 → d.assayStored k = b) ∧
      (b.kind ≠ 0 → a.kind ≠ 0 → b.kind ≠ a.kind → refused) ∧
      (b.kind = 1 → a.kind = 1 → (d.assayStored k).n = min (a.n + b.n) (2 ^ 64 - 1) ∧ (d.assayStored k).nans = min (a.nans + b.nans) (2 ^ 64 - 1) ∧
        ((∀ h, h < 16 → (a.level h).length < 64) → ∀ h, h < 16 → ((d.assayStored k).level h).length < 64)) ∧
      (b.kind = 2 → a.kind = 2 → (d.assayStored k).n = min (a.n + b.n) (2 ^ 64 - 1) ∧
        (a.counters.length + (b.counters.filter fun y => a.counters.all fun x => x.2.1 != y.2.1).length ≤ 64 →
          ∀ j, j < 64 → a.valid.getLsbD j = true →
            let other : Nat × Nat := match b.counters.find? fun y => y.2.1 == (a.counter j).1 with
              | some y => y.2.2
              | none => (b.least, b.least)
            (d.assayStored k).valid.getLsbD j = true ∧ (d.assayStored k).counter j =
              ((a.counter j).1, min ((a.counter j).2.1 + other.1) (2 ^ 32 - 1), min ((a.counter j).2.2 + other.2) (2 ^ 32 - 1)))) ∧
      (b.kind = 3 → a.kind = 3 → (d.assayStored k).n = (a.n + b.n) % 2 ^ 64 ∧
        ∀ j, Map.get (d.assayStored k).regs j 0 = max (Map.get a.regs j 0) (Map.get b.regs j 0)) := by
  intro d a refused
  obtain ⟨v, masks, scalars⟩ := c.asMerge_registers k img rng
  refine ⟨v, masks, scalars, fun bad => Core.asMerge_refuses small (mergeImage_bad bad), fun b parsed => ?_⟩
  have stored {w : AWork} (merged : mergeImage (c.mergeWork k rng) img = some w) : d.assayStored k = w.a := by
    rw [show d = _ from Core.asMerge_accepts merged, Core.assayStored_assayLeft]
  refine ⟨fun zero => ?_, fun named zero => stored (mergeImage_empty parsed named zero),
    fun named named' other => Core.asMerge_refuses small (mergeImage_other parsed named named' other), fun kind kind' => ?_,
    fun kind kind' => ?_, fun kind kind' => ?_⟩
  · have merged := mergeImage_zero (w := c.mergeWork k rng) parsed zero
    refine ⟨stored merged, ?_⟩
    rw [show d = _ from Core.asMerge_accepts merged, Core.sysCtx_assayLeft]
    rfl
  · rw [stored (mergeImage_qsk parsed kind kind')]
    exact mergeQsk_spec (c.mergeWork k rng) b
  · rw [stored (mergeImage_hhl parsed kind kind')]
    exact mergeHhl_spec (c.mergeWork k rng) b
  · rw [stored (mergeImage_dcr parsed kind kind')]
    exact mergeDcr_spec (c.mergeWork k rng) (parseImage_distinct parsed)

/-! ## The obligation -/

/-- Settles O32: the instructions at issue (`assay_issues` and the queries), the lanes that fall due (`assay_lanes_due`), and what one lane of each
kind and a merge leave (`AWork.quLane_spec`, `AWork.hhLane_spec`, `AWork.dcLane_spec`, `Core.asMerge_spec`). -/
theorem assayInstructions : Obligations.AssayInstructions := by
  refine ⟨assay_issues, fun s k z sc d b e c p room listed => ⟨fun kind => ?quantiles, fun kind => exec_asest room kind e, fun kind part => ?ranked⟩,
    assay_lanes_due, AWork.lane_updates, AWork.quLane_spec, fun l => ⟨sortLevel_perm l, sortLevel_rising l⟩, AWork.hhLane_spec, AWork.dcLane_spec,
    Core.asMerge_spec⟩
  case quantiles =>
    refine ⟨exec_asqry_lanes room kind listed k z d, fun scalar low => ?_⟩
    subst scalar
    exact exec_asqry_scalar room kind (listed.resolve_left (by decide)) low
  case ranked => exact ⟨_, exec_astopk room kind part d, fun i lane => laneNat_topWord p _ lane⟩

end Sys2Proof.Machine
end

section
/-! PROOFS. The matrix engine at issue: what MMA, MMA3, MZERO and MBAND begin, and where they stop (R169 to R174). -/

namespace Sys2Proof.Machine

open Sys2Proof

/-! ## A product at issue (R97, R169, R173, R174) -/

/-- The matrix engine once a product has begun. -/
def Core.mxBegun (c : Core) (r : MxRun) (three : Bool) (acc : BitVec 1) : Core :=
  { c with ctx := { c.ctx with mx := { c.ctx.mx with
    runs := c.ctx.mx.runs ++ [r], nextSeq := c.ctx.mx.nextSeq + 1
    busyTo := c.ctx.clk + mxSteps three }.setLast acc.toNat (c.ctx.mx.nextSeq, c.ctx.clk + (if three then 64 else 24)) } }

section
variable {s : State} {g : BitVec 4} (on : s.on g) {three : Bool} (none_ : (s.me.held.map fun h => !h.mx.runs.isEmpty).getD false = false)
  (left : s.me.startAt 0 < mxSteps three)
include on none_ left

/-- Under a true guard, with no suspended product and steps left, the hazard monitor and the checks of R174 decide. -/
theorem mxIssue_on (word : BitVec 32) (acc : BitVec 1) (a b t : BitVec 6) (z : BitVec 1) (y : BitVec 2) {c : Core}
    (decides : (if s.me.ctx.clk < s.me.ctx.mx.busyTo then s.iiViolation s.me
      else match mxIssueCheck s.cur s.me three y (s.me.readS a) (s.me.readS b) (s.me.readS t) (s.me.startAt 0) with
        | some (code, v) => s.fault code v 0 s.me
        | none =>
          s.me.mxBegun (mxRun s.me word acc.toNat three y (s.me.readS a) (s.me.readS b) (s.me.readS t) (z == 1) (s.me.startAt 0)) three acc) = c) :
    mxIssue s word g acc a b t z y three = s.becomes c := by
  have ready : ¬((s.me.held.map fun h => !h.mx.runs.isEmpty).getD false || decide (mxSteps three ≤ s.me.startAt 0)) = true := by
    simpa [none_] using left
  have guard : ¬(!s.me.readP g) = true := by
    rw [State.on] at on
    rw [on]
    decide
  rw [mxIssue, State.act_becomes]
  exact congrArg s.becomes ((if_neg ready).trans ((if_neg guard).trans decides))

theorem mxIssue_busy (busy : s.me.ctx.clk < s.me.ctx.mx.busyTo) (word : BitVec 32) (acc : BitVec 1) (a b t : BitVec 6) (z : BitVec 1) (y : BitVec 2) :
    mxIssue s word g acc a b t z y three = s.becomes (s.fault cII (BitVec.ofNat 64 s.slot) 0 s.me) :=
  mxIssue_on on none_ left word acc a b t z y (if_pos busy)

theorem mxIssue_passes (free : s.me.ctx.mx.busyTo ≤ s.me.ctx.clk) (word : BitVec 32) (acc : BitVec 1) {a b t : BitVec 6} (z : BitVec 1)
    {y : BitVec 2} (checks : mxIssueCheck s.cur s.me three y (s.me.readS a) (s.me.readS b) (s.me.readS t) (s.me.startAt 0) = none) :
    mxIssue s word g acc a b t z y three = s.becomes
      (s.me.mxBegun (mxRun s.me word acc.toNat three y (s.me.readS a) (s.me.readS b) (s.me.readS t) (z == 1) (s.me.startAt 0)) three acc) :=
  mxIssue_on on none_ left word acc a b t z y (by rw [if_neg (Nat.not_lt.2 free), checks])

theorem mxIssue_stops (free : s.me.ctx.mx.busyTo ≤ s.me.ctx.clk) (word : BitVec 32) (acc : BitVec 1) {a b t : BitVec 6} (z : BitVec 1)
    {y : BitVec 2} {code : Nat} {v : Word}
    (checks : mxIssueCheck s.cur s.me three y (s.me.readS a) (s.me.readS b) (s.me.readS t) (s.me.startAt 0) = some (code, v)) :
    mxIssue s word g acc a b t z y three = s.becomes (s.fault code v 0 s.me) :=
  mxIssue_on on none_ left word acc a b t z y (by rw [if_neg (Nat.not_lt.2 free), checks])

end

/-- The latest-issued instruction of an accumulator, by its number of one bit. -/
theorem Matrix.setLast_toNat (mx : Matrix) (acc : BitVec 1) (v : Nat × Nat) :
    mx.setLast acc.toNat v = if acc = 0 then { mx with last0 := some v } else { mx with last1 := some v } := by
  obtain rfl | rfl : acc = 0 ∨ acc = 1 := by
    have := acc.isLt
    rcases (by omega : acc.toNat = 0 ∨ acc.toNat = 1) with zero | one
    · exact Or.inl (BitVec.eq_of_toNat_eq zero)
    · exact Or.inr (BitVec.eq_of_toNat_eq one)
  · rfl
  · rfl

/-- MMA, MMA3, MZERO and MBAND whose checks pass. -/
theorem matrix_issues (s : State) (g : BitVec 4) (acc z : BitVec 1) (a b t : BitVec 6) (y : BitVec 2) (on : s.on g) :
    let x := s.me
    let mx := x.ctx.mx
    let start := x.startAt 0
    let with_ (m : Matrix) : Out := s.becomes { x with ctx := { x.ctx with mx := m } }
    let last (v : Nat × Nat) (m : Matrix) : Matrix := if acc = 0 then { m with last0 := some v } else { m with last1 := some v }
    let run (word : BitVec 32) (three : Bool) (y : BitVec 2) : Out :=
      with_ (last (mx.nextSeq, x.ctx.clk + (if three then 64 else 24)) { mx with
        runs := mx.runs ++ [mxRun x word acc.toNat three y (x.readS a) (x.readS b) (x.readS t) (z == 1) start]
        nextSeq := mx.nextSeq + 1, busyTo := x.ctx.clk + mxSteps three })
    ((x.held.map fun h => !h.mx.runs.isEmpty).getD false = false → mx.busyTo ≤ x.ctx.clk →
      (start < mxSteps false → mxIssueCheck s.cur x false y (x.readS a) (x.readS b) (x.readS t) start = none →
        exec (.mma g acc a b t z y) s = run ((encode (.mma g acc a b t z y)).headD 0) false y) ∧
      (start < mxSteps true → mxIssueCheck s.cur x true 0 (x.readS a) (x.readS b) (x.readS t) start = none →
        exec (.mma3 g acc a b t z) s = run ((encode (.mma3 g acc a b t z)).headD 0) true 0)) ∧
    exec (.mzero g acc) s = with_ (last (mx.nextSeq, x.ctx.clk + 24) { mx with
      pend := mx.pend ++ [⟨mx.nextSeq, x.ctx.clk, acc.toNat, x.ctx.clk + 24, none, 0⟩], nextSeq := mx.nextSeq + 1 }) ∧
    exec (.mband g 0 a) s = with_ { mx with band0 := (x.readS a).extractLsb' 0 32 } ∧
    exec (.mband g 1 a) s = with_ { mx with band1 := (x.readS a).extractLsb' 0 32 } := by
  intro x mx start with_ last run
  have begun (word : BitVec 32) (three : Bool) (y : BitVec 2) :
      s.becomes (x.mxBegun (mxRun x word acc.toNat three y (x.readS a) (x.readS b) (x.readS t) (z == 1) start) three acc) = run word three y := by
    rw [Core.mxBegun, Matrix.setLast_toNat]
  refine ⟨fun none_ free => ⟨fun left checks => ?_, fun left checks => ?_⟩, ?_, ?_, ?_⟩
  · exact (mxIssue_passes on none_ left free _ acc z checks).trans (begun _ false y)
  · exact (mxIssue_passes on none_ left free _ acc z checks).trans (begun _ true 0)
  · refine (State.guarded_on on _).trans ?_
    dsimp only
    rw [Matrix.setLast_toNat]
  · exact State.guarded_on on _
  · exact State.guarded_on on _

/-- The hazard of the engine: an instruction before it is free of the last one. -/
theorem matrix_hazard (s : State) (g : BitVec 4) (acc z : BitVec 1) (a b t : BitVec 6) (y : BitVec 2) (on : s.on g)
    (none_ : (s.me.held.map fun h => !h.mx.runs.isEmpty).getD false = false) (busy : s.me.ctx.clk < s.me.ctx.mx.busyTo) :
    let ii := s.becomes (s.fault cII (BitVec.ofNat 64 s.slot) 0 s.me)
    (s.me.startAt 0 < mxSteps false → exec (.mma g acc a b t z y) s = ii) ∧ (s.me.startAt 0 < mxSteps true → exec (.mma3 g acc a b t z) s = ii) :=
  ⟨fun left => mxIssue_busy on none_ left busy _ acc a b t z y, fun left => mxIssue_busy on none_ left busy _ acc a b t z 0⟩

/-! ## The checks of R174 in their order -/

section
variable {n : Nat} {c : Core} {three : Bool} {y : BitVec 2} {A B T : Word} {start : Nat}

theorem mxIssueCheck_tableA (absent : c.lookup A.toNat = none) : mxIssueCheck n c three y A B T start = some (cTABLE, A) := by
  simp only [mxIssueCheck, absent]

variable {ia : Nat} {ea : BitVec 128} (listedA : c.lookup A.toNat = some (ia, ea))
include listedA

theorem mxIssueCheck_tableB (absent : c.lookup B.toNat = none) : mxIssueCheck n c three y A B T start = some (cTABLE, B) := by
  simp only [mxIssueCheck, absent, listedA]

variable {ib : Nat} {eb : BitVec 128} (listedB : c.lookup B.toNat = some (ib, eb))
include listedB

/-- An operand outside the face window, or whose entry's frame is not of it. -/
def faceBad (n : Nat) (x : Word) (e : BitVec 128) : Bool := winOf x.toNat != some .face || !(frameOk n .face e)

omit listedA listedB in
theorem faceBad_iff {x : Word} {e : BitVec 128} : faceBad n x e = true ↔ winOf x.toNat ≠ some .face ∨ frameOk n .face e = false := by
  rw [faceBad, Bool.or_eq_true, bne_iff_ne, Bool.not_eq_true']

/-- The checks of two operands that entries cover. -/
def mxOperandCheck (n : Nat) (c : Core) (three : Bool) (y : BitVec 2) (A B T : Word) (start : Nat) (ea eb : BitVec 128) : Option (Nat × Word) :=
  if faceBad n A ea then some (cCLASS, A)
  else if faceBad n B eb then some (cCLASS, B)
  else if !(mxAOk (lttFMT ea) (lttGEOM ea)) then some (cFORMAT, A)
  else if !(mxBOk three (lttFMT ea) (lttFMT eb) (lttGEOM eb) y) then some (cFORMAT, B)
  else if 0x100000 < A.toNat + 63 * (T.extractLsb' 0 32).toNat + (mxShape (lttFMT ea)).rowA then some (cCLASS, A)
  else if 0x100000 < B.toNat + (8 * (mxShape (lttFMT ea)).rowsB - 1) * (T.extractLsb' 32 32).toNat + (mxShape (lttFMT ea)).rowB then some (cCLASS, B)
  else match [A, B, BitVec.ofNat 64 (T.extractLsb' 0 32).toNat, BitVec.ofNat 64 (T.extractLsb' 32 32).toNat].find? fun v => v.toNat % 16 ≠ 0 with
    | some v => some (cALIGN, v)
    | none => if c.sqTotal < (mxShape (lttFMT ea)).ents * (8 - start) then some (cSCALE, BitVec.ofNat 64 c.sqTotal) else none

theorem mxIssueCheck_listed : mxIssueCheck n c three y A B T start = mxOperandCheck n c three y A B T start ea eb := by
  simp only [mxIssueCheck, listedA, listedB]
  rfl

end

/-- The first misaligned one of two bases and two strides. -/
def misaligned (A B SA SB : Word) : Option Word := [A, B, SA, SB].find? fun v => v.toNat % 16 ≠ 0

section
variable {A B SA SB : Word}

theorem misaligned_first (bad : A.toNat % 16 ≠ 0) : misaligned A B SA SB = some A := List.find?_cons_of_pos (decide_eq_true bad)

theorem misaligned_cons {l : List Word} {v : Word} (good : v.toNat % 16 = 0) :
    (v :: l).find? (fun v => v.toNat % 16 ≠ 0) = l.find? fun v => v.toNat % 16 ≠ 0 :=
  List.find?_cons_of_neg (by simpa using good)

theorem misaligned_second (good : A.toNat % 16 = 0) (bad : B.toNat % 16 ≠ 0) : misaligned A B SA SB = some B :=
  (misaligned_cons good).trans (List.find?_cons_of_pos (decide_eq_true bad))

theorem misaligned_third (good : A.toNat % 16 = 0) (good' : B.toNat % 16 = 0) (bad : SA.toNat % 16 ≠ 0) : misaligned A B SA SB = some SA :=
  (misaligned_cons good).trans <| (misaligned_cons good').trans (List.find?_cons_of_pos (decide_eq_true bad))

theorem misaligned_fourth (good : A.toNat % 16 = 0) (good' : B.toNat % 16 = 0) (good'' : SA.toNat % 16 = 0) (bad : SB.toNat % 16 ≠ 0) :
    misaligned A B SA SB = some SB :=
  (misaligned_cons good).trans <| (misaligned_cons good').trans <| (misaligned_cons good'').trans (List.find?_cons_of_pos (decide_eq_true bad))

theorem misaligned_none (good : A.toNat % 16 = 0) (good' : B.toNat % 16 = 0) (good'' : SA.toNat % 16 = 0) (last : SB.toNat % 16 = 0) :
    misaligned A B SA SB = none :=
  (misaligned_cons good).trans <| (misaligned_cons good').trans <| (misaligned_cons good'').trans (misaligned_cons last)

end

/-- The checks that follow those of windows and footprints: alignment, then scale entries. -/
def mxLateCheck (c : Core) (A B SA SB : Word) (ents start : Nat) : Option (Nat × Word) :=
  match misaligned A B SA SB with
  | some v => some (cALIGN, v)
  | none => if c.sqTotal < ents * (8 - start) then some (cSCALE, BitVec.ofNat 64 c.sqTotal) else none

theorem mxLateCheck_align {c : Core} {A B SA SB v : Word} {ents start : Nat} (bad : misaligned A B SA SB = some v) :
    mxLateCheck c A B SA SB ents start = some (cALIGN, v) := by
  rw [mxLateCheck, bad]

theorem mxLateCheck_scale {c : Core} {A B SA SB : Word} {ents start : Nat} (good : misaligned A B SA SB = none)
    (short : c.sqTotal < ents * (8 - start)) : mxLateCheck c A B SA SB ents start = some (cSCALE, BitVec.ofNat 64 c.sqTotal) := by
  rw [mxLateCheck, good]
  exact if_pos short

/-- Where MMA and MMA3 stop at issue, in the order of R174. -/
theorem matrix_stops (s : State) (g : BitVec 4) (acc z : BitVec 1) (a b t : BitVec 6) (y : BitVec 2) (three : Bool) (on : s.on g) :
    let c := s.me
    let A := c.readS a
    let B := c.readS b
    let SA := (c.readS t).toNat % 2 ^ 32
    let SB := (c.readS t).toNat / 2 ^ 32
    let stops (code : Nat) (v : Word) : Prop := exec (if three then .mma3 g acc a b t z else .mma g acc a b t z y) s = s.becomes (s.fault code v 0 c)
    (c.held.map fun h => !h.mx.runs.isEmpty).getD false = false → c.ctx.mx.busyTo ≤ c.ctx.clk → c.startAt 0 < mxSteps three →
    (c.lookup A.toNat = none → stops cTABLE A) ∧
    ∀ ia ea, c.lookup A.toNat = some (ia, ea) →
      (c.lookup B.toNat = none → stops cTABLE B) ∧
      ∀ ib eb, c.lookup B.toNat = some (ib, eb) →
        let out (x : Word) (e : BitVec 128) : Prop := winOf x.toNat ≠ some .face ∨ frameOk s.cur .face e = false
        let sh := mxShape (lttFMT ea)
        let endA := A.toNat + 63 * SA + sh.rowA
        let endB := B.toNat + (8 * sh.rowsB - 1) * SB + sh.rowB
        (out A ea → stops cCLASS A) ∧ (¬ out A ea → out B eb → stops cCLASS B) ∧
        (¬ out A ea → ¬ out B eb →
          (mxAOk (lttFMT ea) (lttGEOM ea) = false → stops cFORMAT A) ∧
          (mxAOk (lttFMT ea) (lttGEOM ea) = true →
            let pair := mxBOk three (lttFMT ea) (lttFMT eb) (lttGEOM eb) (if three then 0 else y)
            (pair = false → stops cFORMAT B) ∧
            (pair = true →
              (0x100000 < endA → stops cCLASS A) ∧ (endA ≤ 0x100000 → 0x100000 < endB → stops cCLASS B) ∧
              (endA ≤ 0x100000 → endB ≤ 0x100000 →
                (A.toNat % 16 ≠ 0 → stops cALIGN A) ∧ (A.toNat % 16 = 0 → B.toNat % 16 ≠ 0 → stops cALIGN B) ∧
                (A.toNat % 16 = 0 → B.toNat % 16 = 0 → (SA % 16 ≠ 0 → stops cALIGN (BitVec.ofNat 64 SA)) ∧
                  (SA % 16 = 0 → SB % 16 ≠ 0 → stops cALIGN (BitVec.ofNat 64 SB)) ∧
                  (SA % 16 = 0 → SB % 16 = 0 → c.sqTotal < sh.ents * (8 - c.startAt 0) → stops cSCALE (BitVec.ofNat 64 c.sqTotal))))))) := by
  intro c A B SA SB stops none_ free left
  have low : ((c.readS t).extractLsb' 0 32).toNat = SA := by rw [BitVec.extractLsb'_toNat, Nat.shiftRight_zero]
  have high : ((c.readS t).extractLsb' 32 32).toNat = SB := by
    rw [BitVec.extractLsb'_toNat, Nat.shiftRight_eq_div_pow]
    exact Nat.mod_eq_of_lt ((Nat.div_lt_iff_lt_mul (by decide)).2 (c.readS t).isLt)
  have smallA : (BitVec.ofNat 64 SA).toNat = SA := by
    rw [BitVec.toNat_ofNat]
    omega
  have smallB : (BitVec.ofNat 64 SB).toNat = SB := by
    rw [BitVec.toNat_ofNat]
    omega
  have stop {code : Nat} {v : Word}
      (checks : mxIssueCheck s.cur c three (if three then 0 else y) A B (c.readS t) (c.startAt 0) = some (code, v)) : stops code v := by
    cases three with
    | false => exact mxIssue_stops on none_ left free _ acc z checks
    | true => exact mxIssue_stops on none_ left free _ acc z checks
  refine ⟨fun absent => stop (mxIssueCheck_tableA absent), fun ia ea listedA => ⟨fun absent => stop (mxIssueCheck_tableB listedA absent),
    fun ib eb listedB => ?_⟩⟩
  intro out sh endA endB
  have decides {code : Nat} {v : Word} (checks : (if faceBad s.cur A ea then some (cCLASS, A)
      else if faceBad s.cur B eb then some (cCLASS, B)
      else if !(mxAOk (lttFMT ea) (lttGEOM ea)) then some (cFORMAT, A)
      else if !(mxBOk three (lttFMT ea) (lttFMT eb) (lttGEOM eb) (if three then 0 else y)) then some (cFORMAT, B)
      else if 0x100000 < endA then some (cCLASS, A)
      else if 0x100000 < endB then some (cCLASS, B)
      else mxLateCheck c A B (BitVec.ofNat 64 SA) (BitVec.ofNat 64 SB) sh.ents (c.startAt 0)) = some (code, v)) : stops code v := by
    refine stop ((mxIssueCheck_listed listedA listedB).trans ?_)
    rw [mxOperandCheck, low, high]
    exact checks
  refine ⟨fun bad => decides (if_pos (faceBad_iff.2 bad)), fun okA bad => decides ?_, fun okA okB => ?_⟩
  · rw [if_neg (mt faceBad_iff.1 okA), if_pos (faceBad_iff.2 bad)]
  rw [if_neg (mt faceBad_iff.1 okA), if_neg (mt faceBad_iff.1 okB)] at decides
  refine ⟨fun wrong => decides (by rw [wrong]; rfl), fun right => ?_⟩
  rw [right, if_neg (by decide)] at decides
  intro pair
  refine ⟨fun wrong => decides (if_pos (by rw [show mxBOk _ _ _ _ _ = _ from wrong]; rfl)), fun right => ?_⟩
  rw [show mxBOk _ _ _ _ _ = _ from right, if_neg (by decide)] at decides
  refine ⟨fun beyond => decides (if_pos beyond), fun inside beyond => decides ?_, fun inside inside' => ?_⟩
  · rw [if_neg (Nat.not_lt.2 inside), if_pos beyond]
  rw [if_neg (Nat.not_lt.2 inside), if_neg (Nat.not_lt.2 inside')] at decides
  refine ⟨fun bad => decides (mxLateCheck_align (misaligned_first bad)), fun good bad => decides (mxLateCheck_align (misaligned_second good bad)),
    fun good good' => ⟨fun bad => ?_, fun good'' bad => ?_, fun good'' last short => ?_⟩⟩
  · exact decides (mxLateCheck_align (misaligned_third good good' (by rwa [smallA])))
  · exact decides (mxLateCheck_align (misaligned_fourth good good' (by rwa [smallA]) (by rwa [smallB])))
  · exact decides (mxLateCheck_scale (misaligned_none good good' (by rwa [smallA]) (by rwa [smallB])) short)

end Sys2Proof.Machine
end

section
/-! PROOFS. The matrix engine's deliveries, integer lanes and bases (R49, R173, R179, R180). -/

namespace Sys2Proof.Machine

open Sys2Proof

/-! ## A delivery falls due and lands (R173, R179, R180) -/

/-- An accumulator written holds its rows, and every other register is as before. -/
theorem Core.putAcc_spec (c : Core) (a : Nat) (rows : List Vec) :
    ∃ v, c.putAcc a rows = { c with v := v } ∧ (∀ i, i < rows.length → Map.get v (64 * a + i) 0 = rows.getD i 0) ∧
      ∀ q, q < 64 * a ∨ 64 * a + rows.length ≤ q → Map.get v q 0 = Map.get c.v q 0 := by
  induction rows using List.reverseRecOn with
  | nil => exact ⟨c.v, rfl, fun i below => absurd below (Nat.not_lt_zero i), fun _ _ => rfl⟩
  | append_singleton rows x ih =>
    obtain ⟨v, same, within, outside⟩ := ih
    refine ⟨Map.put v (64 * a + rows.length) x, ?_, fun i below => ?_, fun q other => ?_⟩
    · rw [Core.putAcc, List.zipIdx_append, List.foldl_append]
      change (List.foldl _ (c.putAcc a rows) _) = _
      rw [same, Nat.zero_add]
      rfl
    · rw [List.length_append, List.length_singleton] at below
      rcases Nat.lt_succ_iff_lt_or_eq.1 below with below | rfl
      · rw [Map.get_put_other _ _ _ (by omega), within i below, List.getD_append _ _ _ _ below]
      · rw [Map.get_put_self, List.getD_append_right _ _ _ _ le_rfl, Nat.sub_self]
        rfl
    · rw [List.length_append, List.length_singleton] at other
      rw [Map.get_put_other _ _ _ (by omega), outside q (by omega)]

/-- When a delivery falls due its tile, or zeros for MZERO, is written into its accumulator and its flags join VSTAT. -/
theorem matrix_delivers (c : Core) (d : MxPend) (rows : ∀ l, d.tile = some l → l.length = 64) :
    let t := c.mxDeliver d
    (∀ i, i < 64 → Map.get t.v (64 * d.acc + i) 0 = match d.tile with | none => 0 | some l => l.getD i 0) ∧
      (∀ q, q < 64 * d.acc ∨ 64 * d.acc + 64 ≤ q → Map.get t.v q 0 = Map.get c.v q 0) ∧ t.ctx.vstat = c.ctx.vstat ||| d.flags ∧
      t.ctx.mx.pend = c.ctx.mx.pend.filter (fun x => x.seq != d.seq) ∧ t.ctx.s = c.ctx.s ∧ t.k = c.k ∧ t.tiles = c.tiles := by
  intro t
  have length : (d.tile.getD (List.replicate 64 0)).length = 64 := by
    cases tile : d.tile with
    | none => exact List.length_replicate
    | some l => exact rows l tile
  obtain ⟨v, same, within, outside⟩ := c.putAcc_spec d.acc (d.tile.getD (List.replicate 64 0))
  rw [length] at within outside
  have registers : t.v = v := congrArg Core.v same
  have masks : (c.putAcc d.acc (d.tile.getD (List.replicate 64 0))).k = c.k := by rw [same]
  have tiles : (c.putAcc d.acc (d.tile.getD (List.replicate 64 0))).tiles = c.tiles := by rw [same]
  refine ⟨fun i lane => ?_, fun q other => ?_, rfl, rfl, rfl, masks, tiles⟩
  · rw [registers, within i lane]
    cases d.tile with
    | none => exact List.getD_replicate _ lane
    | some l => rfl
  · rw [registers, outside q other]

theorem mem_ordInsert {α : Type} (key : α → Nat) (a : α) (l : List α) {x : α} : x ∈ ordInsert key a l ↔ x = a ∨ x ∈ l := by
  induction l with
  | nil => exact List.mem_cons
  | cons b r ih =>
    rw [ordInsert]
    split
    · exact List.mem_cons
    · rw [List.mem_cons, ih, List.mem_cons]
      exact or_left_comm

theorem mem_ordSort {α : Type} (key : α → Nat) (l : List α) {x : α} : x ∈ ordSort key l ↔ x ∈ l := by
  have general : ∀ acc, x ∈ l.foldl (fun a x => ordInsert key x a) acc ↔ x ∈ l ∨ x ∈ acc := by
    induction l with
    | nil => simp
    | cons a l ih =>
      intro acc
      rw [List.foldl_cons, ih, mem_ordInsert, List.mem_cons, or_left_comm, or_assoc]
  exact (general []).trans (by simp)

/-- A pending delivery is due in a cycle exactly from its own on. -/
theorem matrix_due (c : Core) (d : MxPend) (pending : d ∈ c.ctx.mx.pend) : .inr d ∈ c.dueNow ↔ d.due ≤ c.ctx.clk := by
  rw [Core.dueNow, mem_ordSort]
  simp [pending]

/-! ## One beat (R48 to R52) -/

/-- An integer lane of a beat: the exact sum, saturated (R49). -/
theorem mxLane_integer (r : MxRun) (a : List (Nat × Nat)) (b : List Nat) (sc : Nat → Option (Nat × Nat)) (old : Nat) (integer : r.fA = 1 ∨ r.fA = 2) :
    let sum := signed 32 old + a.foldl (fun t x => t + intElem r.fA x.2 * intElem r.fB (b.getD x.1 0)) 0
    (mxLane r a b sc old).1 = (max (-2 ^ 31) (min sum (2 ^ 31 - 1)) % 2 ^ 32).toNat ∧
      (mxLane r a b sc old).2 = (if sum < -2 ^ 31 ∨ 2 ^ 31 ≤ sum then flSAT else 0) := by
  intro sum
  have unformatted : elemFmt r.fA = none := by
    rcases integer with fmt | fmt
    · rw [fmt]
      rfl
    · rw [fmt]
      rfl
  have same : mxLane r a b sc old = (wrapNat 32 (satInt 32 sum).1, if (satInt 32 sum).2 then flSAT else 0) := by
    simp only [mxLane, unformatted]
    rfl
  rw [same, satInt_eq_clampInt]
  refine ⟨rfl, ?_⟩
  have changed : clampInt 32 sum ≠ sum ↔ sum < -2 ^ 31 ∨ 2 ^ 31 ≤ sum := by
    rw [clampInt]
    omega
  simp only [decide_eq_true_eq, changed]

/-! ## What a product begins from (R173) -/

section
variable {c : Core} {a q at_ : Nat}

theorem Core.mxBase_zero (c : Core) (a : Nat) : c.mxBase a true = (none, List.replicate 64 0) := rfl

theorem Core.mxBase_first (first : c.ctx.mx.last a = none) : c.mxBase a false = (none, c.acc a) := by
  simp only [Core.mxBase, first, Bool.false_eq_true, if_false]

variable (last : c.ctx.mx.last a = some (q, at_))
include last

theorem Core.mxBase_running (running : ∃ r ∈ c.ctx.mx.runs, r.seq = q) : c.mxBase a false = (some q, []) := by
  have runs : (c.ctx.mx.runs.any fun r => r.seq = q) = true := by simpa using running
  simp only [Core.mxBase, last, runs, Bool.false_eq_true, if_false, if_true]

variable (done : ∀ r ∈ c.ctx.mx.runs, r.seq ≠ q) (alone : c.held = none)
include done alone

theorem Core.mxBase_pending {d : MxPend} (pending : (c.ctx.mx.pend.find? fun d => d.seq = q) = some d) :
    c.mxBase a false = (none, d.tile.getD (List.replicate 64 0)) := by
  have runs : ¬(c.ctx.mx.runs.any fun r => r.seq = q) = true := by simpa using done
  simp only [Core.mxBase, last, if_neg runs, alone, Option.map_none, Option.getD_none, List.append_nil, Bool.false_eq_true, if_false, pending]

theorem Core.mxBase_delivered (delivered : ∀ d ∈ c.ctx.mx.pend, d.seq ≠ q) : c.mxBase a false = (none, c.acc a) := by
  have runs : ¬(c.ctx.mx.runs.any fun r => r.seq = q) = true := by simpa using done
  have absent : (c.ctx.mx.pend.find? fun d => d.seq = q) = none := List.find?_eq_none.2 fun d member => by simpa using delivered d member
  simp only [Core.mxBase, last, if_neg runs, alone, Option.map_none, Option.getD_none, List.append_nil, Bool.false_eq_true, if_false, absent]

end

/-- The base of a product: zeros, the accumulator, or the tile of the latest-issued instruction to it that has not delivered. -/
theorem matrix_bases (c : Core) (a : Nat) :
    c.mxBase a true = (none, List.replicate 64 0) ∧ (c.ctx.mx.last a = none → c.mxBase a false = (none, c.acc a)) ∧
    ∀ q at_, c.ctx.mx.last a = some (q, at_) →
      ((∃ r ∈ c.ctx.mx.runs, r.seq = q) → c.mxBase a false = (some q, [])) ∧
      ((∀ r ∈ c.ctx.mx.runs, r.seq ≠ q) → c.held = none →
        (∀ d, (c.ctx.mx.pend.find? fun d => d.seq = q) = some d → c.mxBase a false = (none, d.tile.getD (List.replicate 64 0))) ∧
        ((∀ d ∈ c.ctx.mx.pend, d.seq ≠ q) → c.mxBase a false = (none, c.acc a))) :=
  ⟨c.mxBase_zero a, Core.mxBase_first, fun _ _ last => ⟨Core.mxBase_running last, fun done alone =>
    ⟨fun _ pending => Core.mxBase_pending last done alone pending, Core.mxBase_delivered last done alone⟩⟩⟩

end Sys2Proof.Machine
end

section
/-! PROOFS. A step of the matrix engine: elements, registers, the delivery (R173, R181). -/

namespace Sys2Proof.Machine

open Sys2Proof

/-! ## One step of the engine (R173, R175, R181, R183) -/

/-- The engine after a step that left the run `r1`. -/
def Matrix.stepped (mx : Matrix) (r1 : MxRun) : Matrix :=
  if r1.next < r1.total then { mx with runs := mx.runs.map fun q => if q.seq = r1.seq then r1 else q } else mx.finish r1

/-- The core after a step that left the run `r1` and the scale queue `sq`. -/
def Core.mxStepped (c : Core) (r1 : MxRun) (sq : List (BitVec 640)) : Core :=
  { c with sq := sq, ctx := { (if r1.next < r1.total then c.ctx else c.ctx.setProg 0 0) with mx := c.ctx.mx.stepped r1 } }

section
variable {m : Memory} {n : Nat} {c : Core} {r : MxRun} (due : c.ctx.mx.due c.ctx.clk = some r)
include due

/-- A step whose checks fail performs nothing. -/
theorem Core.mxStep_stops {t : Trap} (checked : r.three = false ∨ r.next < 8) (fails : mxCheck m n c r r.next = some t) :
    c.mxStep m n = (c, some t) := by
  have asked : ¬(r.three && decide (8 ≤ r.next)) = true := by
    rcases checked with three | early
    · simp [three]
    · simp [early]
  simp only [Core.mxStep, due, if_neg asked, fails]

theorem Core.mxStep_passes (passes : r.three = false ∨ r.next < 8 → mxCheck m n c r r.next = none) {r1 : MxRun} {sq : List (BitVec 640)}
    (stepped : (if r.three then (mma3Step m n c r r.next, c.sq) else mmaStep m n c r r.next) = (r1, sq)) :
    c.mxStep m n = (c.mxStepped r1 sq, none) := by
  have check : (if r.three && decide (8 ≤ r.next) then none else mxCheck m n c r r.next) = none := by
    split
    · rfl
    case isFalse asked =>
      refine passes ?_
      cases three : r.three with
      | false => exact Or.inl rfl
      | true => exact Or.inr (by simpa [three] using asked)
  simp only [Core.mxStep, due, check, stepped]
  rfl

/-- The run that is due is one of those under way. -/
theorem Matrix.mem_of_due : r ∈ c.ctx.mx.runs := List.mem_of_find?_eq_some due

end

/-- A run one step on: its number, place and kind as before. -/
structure MxRun.stepsTo (r r1 : MxRun) : Prop where
  next  : r1.next = r.next + 1
  seq   : r1.seq = r.seq
  start : r1.start = r.start
  acc   : r1.acc = r.acc
  three : r1.three = r.three
  total : r1.total = r.total

section
variable {c : Core} {r r1 : MxRun} {sq : List (BitVec 640)}

theorem Core.mxStepped_more (on : r.stepsTo r1) (member : r ∈ c.ctx.mx.runs) (more : r.next + 1 < r.total) :
    (c.mxStepped r1 sq).ctx.mx.pend = c.ctx.mx.pend ∧ r1 ∈ (c.mxStepped r1 sq).ctx.mx.runs := by
  have more' : r1.next < r1.total := by
    rw [on.next, on.total]
    exact more
  simp only [Core.mxStepped, Matrix.stepped, if_pos more']
  exact ⟨trivial, List.mem_map.2 ⟨r, member, if_pos on.seq.symm⟩⟩

theorem Core.mxStepped_last (on : r.stepsTo r1) (last : r.total ≤ r.next + 1) :
    (c.mxStepped r1 sq).ctx.mx.pend =
        c.ctx.mx.pend ++ [⟨r.seq, r.start, r.acc, r.start + (if r.three then 64 else 24), some r1.tile, r1.flags⟩] ∧
      (∀ q ∈ (c.mxStepped r1 sq).ctx.mx.runs, q.seq ≠ r.seq) ∧
      ∀ q ∈ c.ctx.mx.runs, q.seq ≠ r.seq → q.chain = some r.seq →
        { q with chain := none, tile := r1.tile } ∈ (c.mxStepped r1 sq).ctx.mx.runs := by
  have last' : ¬r1.next < r1.total := by
    rw [on.next, on.total]
    exact Nat.not_lt.2 last
  simp only [Core.mxStepped, Matrix.stepped, if_neg last', Matrix.finish]
  refine ⟨?_, fun q member => ?_, fun q member other chained => ?_⟩
  · rw [on.seq, on.start, on.acc, on.three]
  · obtain ⟨p, kept, rfl⟩ := List.mem_map.1 member
    have other : p.seq ≠ r.seq := by
      rw [← on.seq]
      exact bne_iff_ne.1 (List.mem_filter.1 kept).2
    split
    · exact other
    · exact other
  · refine List.mem_map.2 ⟨q, List.mem_filter.2 ⟨member, bne_iff_ne.2 (by rwa [on.seq])⟩, ?_⟩
    rw [if_pos (by rw [chained, on.seq])]

/-- A step writes no register. -/
theorem Core.mxStepped_registers (c : Core) (r1 : MxRun) (sq : List (BitVec 640)) :
    (c.mxStepped r1 sq).v = c.v ∧ (c.mxStepped r1 sq).k = c.k ∧ (c.mxStepped r1 sq).tiles = c.tiles ∧ (c.mxStepped r1 sq).ctx.s = c.ctx.s ∧
      (c.mxStepped r1 sq).ctx.p = c.ctx.p ∧ (c.mxStepped r1 sq).ctx.vstat = c.ctx.vstat ∧ (c.mxStepped r1 sq).ctx.items = c.ctx.items := by
  by_cases more : r1.next < r1.total
  · simp only [Core.mxStepped, if_pos more, and_self]
  · simp only [Core.mxStepped, if_neg more, Ctx.setProg, and_self]

end

/-! ## The elements that a step updates -/

theorem laneNat_mxRow {w : Nat} (fits : 64 * w ≤ 2048) (f : Nat → Nat → Nat × BitVec 7) (row : Vec) {j : Nat} (lane : j < 64) :
    laneNat (mxRow w f row).1 j w = (f j (laneNat row j w)).1 % 2 ^ w := by
  have listed : ((List.range 64).map fun j => f j (laneNat row j w)).getD j (0, 0) = f j (laneNat row j w) := by
    rw [List.getD_eq_getElem _ _ (by rwa [List.length_map, List.length_range]), List.getElem_map, List.getElem_range]
  rw [mxRow, laneNat_ofLanes _ fits lane, listed]

theorem yWidth_fits (y : BitVec 2) : 64 * yWidth y ≤ 2048 := by
  unfold yWidth
  split <;> decide

section
variable (m : Memory) (n : Nat) (c : Core) (r : MxRun)

theorem mmaStep_stepsTo : r.stepsTo (mmaStep m n c r r.next).1 := ⟨rfl, rfl, rfl, rfl, rfl, rfl⟩

/-- The bytes of a range, as a step reads them. -/
abbrev Core.rangeBytes (x : Nat × Nat) : List Byte := c.loadBytes m n (BitVec.ofNat 64 x.1) x.2

/-- The scales of a block of a step: those of its row and column in the entries it takes. -/
def stepScale (sq : List (BitVec 640)) (ents i j g : Nat) : Option (Nat × Nat) :=
  if ents = 0 then none else some (scaleAt ((sq.take ents).getD g 0) i, scaleAt ((sq.take ents).getD (ents / 2 + g) 0) j)

theorem length_rangesA (b : Nat) : (r.rangesA b).length = 64 := by
  rw [MxRun.rangesA, List.length_map, List.length_range]

section
variable {r} (rows : r.tile.length = 64)
include rows

theorem length_tile_mmaStep : (mmaStep m n c r r.next).1.tile.length = 64 := by
  simp only [mmaStep, List.length_map, List.length_zipIdx, List.length_zip, length_rangesA, rows, Nat.min_self]

/-- An element of the tile after a step of an MMA. -/
theorem laneNat_mmaStep {i j : Nat} (row : i < 64) (lane : j < 64) :
    laneNat ((mmaStep m n c r r.next).1.tile.getD i 0) j (yWidth r.y) =
      (mxLane r (stepRowA r.fA (c.rangeBytes m n ((r.rangesA r.next).getD i (0, 0)))) (stepColB r.fB ((r.rangesB r.next).map (c.rangeBytes m n)) j)
        (stepScale c.sq (mxShape r.fA).ents i j) (laneNat (r.tile.getD i 0) j (yWidth r.y))).1 % 2 ^ yWidth r.y := by
  have small : i < (mmaStep m n c r r.next).1.tile.length := by rwa [length_tile_mmaStep m n c rows]
  have column : ((List.range 64).map (stepColB r.fB ((r.rangesB r.next).map (c.rangeBytes m n)))).getD j [] =
      stepColB r.fB ((r.rangesB r.next).map (c.rangeBytes m n)) j := by
    rw [List.getD_eq_getElem _ _ (by rwa [List.length_map, List.length_range]), List.getElem_map, List.getElem_range]
  rw [List.getD_eq_getElem _ _ small, List.getD_eq_getElem _ _ (by rwa [length_rangesA]), List.getD_eq_getElem _ _ (by rwa [rows]), ← column]
  simp only [mmaStep, List.getElem_map, List.getElem_zipIdx, List.getElem_zip, Nat.zero_add]
  exact laneNat_mxRow (yWidth_fits r.y) _ _ lane

end

/-! ## A pass of an MMA3 (R52, R181) -/

/-- The words of a row of FP32 elements. -/
def rowWords (k : Nat) (l : List Byte) : List (BitVec 32) := (List.range k).map fun i => BitVec.ofNat 32 (ofBytes ((l.drop (4 * i)).take 4))

/-- The run once a reading step has taken its beat's operands. -/
def mma3Read (s : Nat) : MxRun :=
  if s < 8 then { r with
    opA := Map.put r.opA (s % 8) (((r.rangesA (s % 8)).map (c.rangeBytes m n)).flatMap (rowWords 4))
    opB := Map.put r.opB (s % 8) (((r.rangesB (s % 8)).map (c.rangeBytes m n)).flatMap (rowWords 64)) }
  else r

/-- The operands of one output in the beat of a step: four of its row, and four of its column. -/
def beatRow (s i : Nat) : List (BitVec 32) := ((Map.get r.opA (s % 8) []).drop (4 * i)).take 4
def beatColumn (s j : Nat) : List (BitVec 32) := (List.range 4).map fun k => (Map.get r.opB (s % 8) []).getD (64 * k + j) 0

/-- One output after the pass of a step. -/
def beatOutput (s i j old : Nat) : Nat × BitVec 7 :=
  beatUpdate 0 (beat3 (s / 8) (beatRow r s i) (beatColumn r s j)) ((beatRow r s i ++ beatColumn r s j).any fun z => (fp32 z.toNat).isNaN)
    r.bandA r.bandB old

/-- The rows of the tile after the pass of a step, with their flags. -/
def mma3Rows (s : Nat) : List (Vec × BitVec 7) := r.tile.zipIdx.map fun x => mxRow 32 (beatOutput r s x.2) x.1

theorem mma3Step_eq (s : Nat) : mma3Step m n c r s = { mma3Read m n c r s with
    tile := (mma3Rows (mma3Read m n c r s) s).map Prod.fst, next := s + 1
    flags := (mma3Rows (mma3Read m n c r s) s).foldl (fun f x => f ||| x.2) (mma3Read m n c r s).flags } := rfl

/-- Reading changes the operands alone. -/
theorem mma3Read_keeps (s : Nat) : ∃ a b, mma3Read m n c r s = { r with opA := a, opB := b } := by
  unfold mma3Read
  split
  · exact ⟨_, _, rfl⟩
  · exact ⟨_, _, rfl⟩

theorem mma3Step_stepsTo : r.stepsTo (mma3Step m n c r r.next) := by
  obtain ⟨a, b, same⟩ := mma3Read_keeps m n c r r.next
  rw [mma3Step_eq, same]
  exact ⟨rfl, rfl, rfl, rfl, rfl, rfl⟩

/-- Steps 0 to 7 read their beat's operands, and the others keep them. -/
theorem mma3Step_operands : (r.next < 8 →
      Map.get (mma3Step m n c r r.next).opA (r.next % 8) [] = (r.rangesA (r.next % 8)).flatMap (fun x => rowWords 4 (c.rangeBytes m n x)) ∧
        Map.get (mma3Step m n c r r.next).opB (r.next % 8) [] = (r.rangesB (r.next % 8)).flatMap fun x => rowWords 64 (c.rangeBytes m n x)) ∧
    (8 ≤ r.next → (mma3Step m n c r r.next).opA = r.opA ∧ (mma3Step m n c r r.next).opB = r.opB) := by
  rw [mma3Step_eq]
  constructor
  · intro early
    rw [mma3Read, if_pos early]
    dsimp only
    rw [Map.get_put_self, Map.get_put_self, List.flatMap_map, List.flatMap_map]
    exact ⟨rfl, rfl⟩
  · intro late
    rw [mma3Read, if_neg (Nat.not_lt.2 late)]
    exact ⟨rfl, rfl⟩

section
variable {r} (rows : r.tile.length = 64)
include rows

theorem length_tile_mma3Step : (mma3Step m n c r r.next).tile.length = 64 := by
  obtain ⟨a, b, same⟩ := mma3Read_keeps m n c r r.next
  rw [mma3Step_eq, List.length_map, mma3Rows, List.length_map, List.length_zipIdx, same]
  exact rows

/-- An element of the tile after a step of an MMA3. -/
theorem laneNat_mma3Step {i j : Nat} (row : i < 64) (lane : j < 64) :
    laneNat ((mma3Step m n c r r.next).tile.getD i 0) j 32 =
      (beatOutput (mma3Step m n c r r.next) r.next i j (laneNat (r.tile.getD i 0) j 32)).1 % 2 ^ 32 := by
  obtain ⟨a, b, same⟩ := mma3Read_keeps m n c r r.next
  have output : beatOutput (mma3Step m n c r r.next) r.next i j = beatOutput (mma3Read m n c r r.next) r.next i j := by
    rw [mma3Step_eq]
    rfl
  have tile : (mma3Read m n c r r.next).tile = r.tile := by rw [same]
  rw [output, List.getD_eq_getElem _ _ (by rwa [length_tile_mma3Step m n c rows]), List.getD_eq_getElem _ _ (by rwa [rows])]
  simp only [mma3Step_eq, mma3Rows, List.getElem_map, List.getElem_zipIdx, Nat.zero_add, tile]
  exact laneNat_mxRow (by decide) _ _ lane

end

end

/-- A step that its checks let pass: every element updated, no register written, and the last one leaves the delivery (R173, R181). -/
theorem matrix_steps (m : Memory) (n : Nat) (c : Core) (r : MxRun) (due : c.ctx.mx.due c.ctx.clk = some r) (rows : r.tile.length = 64)
    (_ : ∀ q ∈ c.ctx.mx.runs, q.seq = r.seq → q = r) (passes : r.three = false ∨ r.next < 8 → mxCheck m n c r r.next = none) :
    let bytes (x : Nat × Nat) : List Byte := c.loadBytes m n (BitVec.ofNat 64 x.1) x.2
    let words (k : Nat) (l : List Byte) : List (BitVec 32) := (List.range k).map fun i => BitVec.ofNat 32 (ofBytes ((l.drop (4 * i)).take 4))
    let ents := (mxShape r.fA).ents
    let scale (i j g : Nat) : Option (Nat × Nat) :=
      if ents = 0 then none else some (scaleAt ((c.sq.take ents).getD g 0) i, scaleAt ((c.sq.take ents).getD (ents / 2 + g) 0) j)
    let w := yWidth r.y
    let b := r.next % 8
    ∃ d r1, c.mxStep m n = (d, none) ∧ r1.next = r.next + 1 ∧ r1.seq = r.seq ∧ r1.tile.length = 64 ∧ d.v = c.v ∧ d.k = c.k ∧ d.tiles = c.tiles ∧
      d.ctx.s = c.ctx.s ∧ d.ctx.p = c.ctx.p ∧ d.ctx.vstat = c.ctx.vstat ∧ d.ctx.items = c.ctx.items ∧
      d.sq = (if r.three then c.sq else c.sq.drop ents) ∧
      (r.three = false → ∀ i j, i < 64 → j < 64 → laneNat (r1.tile.getD i 0) j w =
        (mxLane r (stepRowA r.fA (bytes ((r.rangesA r.next).getD i (0, 0)))) (stepColB r.fB ((r.rangesB r.next).map bytes) j) (scale i j)
          (laneNat (r.tile.getD i 0) j w)).1 % 2 ^ w) ∧
      (r.three = true →
        (r.next < 8 → Map.get r1.opA b [] = (r.rangesA b).flatMap (fun x => words 4 (bytes x)) ∧
          Map.get r1.opB b [] = (r.rangesB b).flatMap fun x => words 64 (bytes x)) ∧
        (8 ≤ r.next → r1.opA = r.opA ∧ r1.opB = r.opB) ∧
        ∀ i j, i < 64 → j < 64 →
          let ra := ((Map.get r1.opA b []).drop (4 * i)).take 4
          let cb := (List.range 4).map fun k => (Map.get r1.opB b []).getD (64 * k + j) 0
          laneNat (r1.tile.getD i 0) j 32 = (beatUpdate 0 (beat3 (r.next / 8) ra cb) ((ra ++ cb).any fun x => (fp32 x.toNat).isNaN) r.bandA r.bandB
            (laneNat (r.tile.getD i 0) j 32)).1 % 2 ^ 32) ∧
      (r.next + 1 < r.total → d.ctx.mx.pend = c.ctx.mx.pend ∧ r1 ∈ d.ctx.mx.runs) ∧
      (r.total ≤ r.next + 1 →
        d.ctx.mx.pend = c.ctx.mx.pend ++ [⟨r.seq, r.start, r.acc, r.start + (if r.three then 64 else 24), some r1.tile, r1.flags⟩] ∧
        (∀ q ∈ d.ctx.mx.runs, q.seq ≠ r.seq) ∧
        ∀ q ∈ c.ctx.mx.runs, q.seq ≠ r.seq → q.chain = some r.seq → { q with chain := none, tile := r1.tile } ∈ d.ctx.mx.runs) := by
  intro bytes words ents scale w b
  have member := Matrix.mem_of_due due
  by_cases three : r.three = true
  · have on := mma3Step_stepsTo m n c r
    obtain ⟨v, k, tiles, s, p, vstat, items⟩ := c.mxStepped_registers (mma3Step m n c r r.next) c.sq
    obtain ⟨early, late⟩ := mma3Step_operands m n c r
    have bands : (mma3Step m n c r r.next).bandA = r.bandA ∧ (mma3Step m n c r r.next).bandB = r.bandB := by
      obtain ⟨_, _, same⟩ := mma3Read_keeps m n c r r.next
      rw [mma3Step_eq, same]
      exact ⟨rfl, rfl⟩
    refine ⟨_, mma3Step m n c r r.next, Core.mxStep_passes due passes (if_pos three), on.next, on.seq, length_tile_mma3Step m n c rows,
      v, k, tiles, s, p, vstat, items, (if_pos three).symm, fun one => absurd three (Bool.eq_false_iff.1 one),
      fun _ => ⟨early, late, fun i j row lane => ?_⟩, Core.mxStepped_more on member, Core.mxStepped_last on⟩
    have output := laneNat_mma3Step m n c rows row lane
    rw [beatOutput, bands.1, bands.2] at output
    exact output
  · have on := mmaStep_stepsTo m n c r
    obtain ⟨v, k, tiles, s, p, vstat, items⟩ := c.mxStepped_registers (mmaStep m n c r r.next).1 (c.sq.drop ents)
    exact ⟨_, (mmaStep m n c r r.next).1, Core.mxStep_passes due passes (if_neg three), on.next, on.seq, length_tile_mmaStep m n c rows,
      v, k, tiles, s, p, vstat, items, (if_neg three).symm, fun _ i j row lane => laneNat_mmaStep m n c rows row lane,
      fun three' => absurd three' three, Core.mxStepped_more on member, Core.mxStepped_last on⟩

end Sys2Proof.Machine
end

section
/-! PROOFS. The checks of a step of the matrix engine, and O36 (R175). -/

namespace Sys2Proof.Machine

open Sys2Proof

/-! ## The checks of a step, in the order of R175 -/

/-- A fault at the lowest of the bad addresses, or the checks that follow. -/
def stopAt (code b : Nat) (l : List Nat) (bad : Nat → Bool) (next : Option Trap) : Option Trap :=
  match (l.filter bad).min? with
  | some a => some (mxTrap code a b)
  | none => next

section
variable {code b : Nat} {l : List Nat} {bad : Nat → Bool} {next : Option Trap}

theorem stopAt_lowest {x : Nat} (member : x ∈ l) (isBad : bad x = true) (lowest : ∀ y ∈ l, bad y = true → x ≤ y) :
    stopAt code b l bad next = some (mxTrap code x b) := by
  have least : (l.filter bad).min? = some x := List.min?_eq_some_iff.2
    ⟨List.mem_filter.2 ⟨member, isBad⟩, fun y kept => lowest y (List.mem_filter.1 kept).1 (List.mem_filter.1 kept).2⟩
  rw [stopAt, least]

theorem stopAt_good (good : ∀ y ∈ l, bad y = false) : stopAt code b l bad next = next := by
  have none_ : l.filter bad = [] := List.filter_eq_nil_iff.2 fun y member => Bool.eq_false_iff.1 (good y member)
  rw [stopAt, none_, List.min?_nil]

end

section
variable (n : Nat) (c : Core)

/-- The entry that covers an address. -/
def Core.entryAt (a : Nat) : Option (BitVec 128) := (c.lookup a).map Prod.snd

/-- An address whose entry has a property. -/
def Core.entryHas (p : BitVec 128 → Bool) (a : Nat) : Bool :=
  match c.entryAt a with
  | some e => p e
  | none => false

variable {n c}

theorem Core.entryHas_iff {p : BitVec 128 → Bool} {a : Nat} : c.entryHas p a = true ↔ ∃ e, c.entryAt a = some e ∧ p e = true := by
  rw [Core.entryHas]
  cases c.entryAt a with
  | none => simp
  | some e => simp

variable (n c)

/-- An address outside the face, or with no entry. -/
def mxUnlisted (a : Nat) : Bool := winOf a != some .face || (c.entryAt a).isNone

/-- A page of another format or geometry than that read at issue. -/
def mxOther (f g : Nat) (e : BitVec 128) : Bool := lttFMT e != f || (isFp4 f && lttGEOM e != g)

/-- The checks of the scale entries, and of the masks of sparse blocks. -/
def mxLastCheck (m : Memory) (r : MxRun) (b : Nat) : Option Trap :=
  if c.sq.length < (mxShape r.fA).ents then some (mxTrap cSCALE c.sq.length b)
  else if r.fA = 10 || r.fA = 11 || r.fA = 12 then
    (badBlock r.fA ((r.rangesA b).map fun x => c.loadBytes m n (BitVec.ofNat 64 x.1) x.2)).map fun g =>
      mxTrap cFORMAT (r.sA.toNat + g.1 * r.SA + b * (mxShape r.fA).stepA + g.2 * (sparseShape r.fA).1) (b * (mxShape r.fA).kb + 8 * g.2)
  else none

theorem mxCheck_eq (m : Memory) (r : MxRun) (b : Nat) : mxCheck m n c r b =
    stopAt cTABLE b (touched (r.rangesA b) ++ touched (r.rangesB b)) (mxUnlisted c) (
      stopAt cPAGE b (touched (r.rangesA b) ++ touched (r.rangesB b)) (c.entryHas fun e => !(lttP e)) (
        stopAt cFORMAT b ((touched (r.rangesA b)).filter (c.entryHas (mxOther r.fA r.gA)) ++
            (touched (r.rangesB b)).filter (c.entryHas (mxOther r.fB r.gB))) (fun _ => true) (
          stopAt cCLASS b (touched (r.rangesA b) ++ touched (r.rangesB b)) (c.entryHas fun e => !(frameOk n .face e)) (
            stopAt cPERM b (touched (r.rangesA b) ++ touched (r.rangesB b))
              (fun a => c.entryHas (fun e => !(lttRD e) || !(c.owned.getLsbD (a / 0x20000))) a) (mxLastCheck n c m r b))))) := rfl

variable {n c}

theorem mxUnlisted_iff {a : Nat} : mxUnlisted c a = true ↔ winOf a ≠ some .face ∨ c.entryAt a = none := by
  rw [mxUnlisted, Bool.or_eq_true, bne_iff_ne, Option.isNone_iff_eq_none]

theorem mxOther_iff {f g : Nat} {e : BitVec 128} : mxOther f g e = true ↔ lttFMT e ≠ f ∨ (isFp4 f = true ∧ lttGEOM e ≠ g) := by
  rw [mxOther, Bool.or_eq_true, Bool.and_eq_true, bne_iff_ne, bne_iff_ne]

/-- No bad address, in the form of a test. -/
theorem allGood {P : Nat → Prop} {bad : Nat → Bool} (iff : ∀ x, bad x = true ↔ P x) {l : List Nat} {reads : Nat → Prop}
    (listed : ∀ x ∈ l, reads x) (none_ : ∀ x, reads x → ¬ P x) : ∀ y ∈ l, bad y = false :=
  fun y member => Bool.eq_false_iff.2 fun isBad => none_ y (listed y member) ((iff y).1 isBad)

/-- Where a step stops before it reads, and that it otherwise goes on. -/
theorem matrix_stepStops (m : Memory) (n : Nat) (c : Core) (r : MxRun) (b : Nat) :
    let pa := touched (r.rangesA b)
    let pb := touched (r.rangesB b)
    let entry (x : Nat) : Option (BitVec 128) := (c.lookup x).map Prod.snd
    let reads (x : Nat) : Prop := x ∈ pa ∨ x ∈ pb
    let lowest (bad : Nat → Prop) (x : Nat) : Prop := reads x ∧ bad x ∧ ∀ y, reads y → bad y → x ≤ y
    let stops (code v felem : Nat) : Prop := mxCheck m n c r b = some ⟨code, 4, true, BitVec.ofNat 64 v, BitVec.ofNat 64 felem⟩
    let unlisted (x : Nat) : Prop := winOf x ≠ some .face ∨ entry x = none
    let absent (x : Nat) : Prop := ∃ e, entry x = some e ∧ lttP e = false
    let other (f g x : Nat) : Prop := ∃ e, entry x = some e ∧ (lttFMT e ≠ f ∨ (isFp4 f = true ∧ lttGEOM e ≠ g))
    let changed (x : Nat) : Prop := (x ∈ pa ∧ other r.fA r.gA x) ∨ (x ∈ pb ∧ other r.fB r.gB x)
    let denied (x : Nat) : Prop := ∃ e, entry x = some e ∧ (lttRD e = false ∨ c.owned.getLsbD (x / 0x20000) = false)
    let ents := (mxShape r.fA).ents
    (∀ x, lowest unlisted x → stops cTABLE x b) ∧
    ((∀ x, reads x → ¬ unlisted x) →
      (∀ x, lowest absent x → stops cPAGE x b) ∧
      ((∀ x, reads x → ¬ absent x) →
        (∀ x, lowest changed x → stops cFORMAT x b) ∧
        ((∀ x, reads x → ¬ changed x) → (∀ x e, reads x → entry x = some e → frameOk n .face e = true) →
          (∀ x, lowest denied x → stops cPERM x b) ∧
          ((∀ x, reads x → ¬ denied x) →
            (c.sq.length < ents → stops cSCALE c.sq.length b) ∧
            (ents ≤ c.sq.length →
              let rows := (r.rangesA b).map fun x => c.loadBytes m n (BitVec.ofNat 64 x.1) x.2
              (r.fA ≠ 10 ∧ r.fA ≠ 11 ∧ r.fA ≠ 12 ∨ badBlock r.fA rows = none → mxCheck m n c r b = none) ∧
              ∀ i k, r.fA = 10 ∨ r.fA = 11 ∨ r.fA = 12 → badBlock r.fA rows = some (i, k) →
                stops cFORMAT (r.sA.toNat + i * r.SA + b * (mxShape r.fA).stepA + k * (sparseShape r.fA).1) (b * (mxShape r.fA).kb + 8 * k)))))) := by
  intro pa pb entry reads lowest stops unlisted absent other changed denied ents
  have listed (x : Nat) : x ∈ pa ++ pb ↔ reads x := List.mem_append
  have low {bad : Nat → Bool} {P : Nat → Prop} (iff : ∀ x, bad x = true ↔ P x) (code : Nat) (next : Option Trap) {x : Nat} (is : lowest P x) :
      stopAt code b (pa ++ pb) bad next = some (mxTrap code x b) := by
    obtain ⟨read, isBad, least⟩ := is
    exact stopAt_lowest ((listed x).2 read) ((iff x).2 isBad) fun y member bad => least y ((listed y).1 member) ((iff y).1 bad)
  have skip {bad : Nat → Bool} {P : Nat → Prop} (iff : ∀ x, bad x = true ↔ P x) (code : Nat) (next : Option Trap) (none_ : ∀ x, reads x → ¬ P x) :
      stopAt code b (pa ++ pb) bad next = next := stopAt_good (allGood iff (fun x => (listed x).1) none_)
  have isUnlisted (x : Nat) : mxUnlisted c x = true ↔ unlisted x := mxUnlisted_iff
  have isAbsent (x : Nat) : c.entryHas (fun e => !(lttP e)) x = true ↔ absent x := by
    rw [Core.entryHas_iff]
    simp only [Bool.not_eq_true']
    rfl
  have isOther (f g x : Nat) : c.entryHas (mxOther f g) x = true ↔ other f g x := by
    rw [Core.entryHas_iff]
    simp only [mxOther_iff]
    rfl
  have isDenied (x : Nat) : c.entryHas (fun e => !(lttRD e) || !(c.owned.getLsbD (x / 0x20000))) x = true ↔ denied x := by
    rw [Core.entryHas_iff]
    simp only [Bool.or_eq_true, Bool.not_eq_true']
    rfl
  have isChanged (x : Nat) : x ∈ pa.filter (c.entryHas (mxOther r.fA r.gA)) ++ pb.filter (c.entryHas (mxOther r.fB r.gB)) ↔ changed x := by
    rw [List.mem_append, List.mem_filter, List.mem_filter, isOther, isOther]
  have check := mxCheck_eq n c m r b
  refine ⟨fun x is => check.trans (low isUnlisted _ _ is), fun allListed => ?_⟩
  replace check := check.trans (skip isUnlisted _ _ allListed)
  refine ⟨fun x is => check.trans (low isAbsent _ _ is), fun allPresent => ?_⟩
  replace check := check.trans (skip isAbsent _ _ allPresent)
  refine ⟨fun x is => check.trans ?_, fun noneChanged inFace => ?_⟩
  · obtain ⟨read, isBad, least⟩ := is
    refine stopAt_lowest ((isChanged x).2 isBad) rfl fun y member _ => least y ?_ ((isChanged y).1 member)
    exact ((isChanged y).1 member).imp And.left And.left
  have isForeign (x : Nat) : c.entryHas (fun e => !(frameOk n .face e)) x = true ↔ ∃ e, entry x = some e ∧ frameOk n .face e = false := by
    rw [Core.entryHas_iff]
    simp only [Bool.not_eq_true']
    rfl
  replace check := (check.trans (stopAt_good fun y member =>
    absurd ((isChanged y).1 member) (noneChanged y (((isChanged y).1 member).imp And.left And.left)))).trans
    (skip isForeign _ _ fun x read is => by
      obtain ⟨e, found, foreign⟩ := is
      rw [inFace x e read found] at foreign
      exact absurd foreign (by decide))
  refine ⟨fun x is => check.trans (low isDenied _ _ is), fun allRead => ?_⟩
  replace check := check.trans (skip isDenied _ _ allRead)
  refine ⟨fun short => check.trans (if_pos short), fun enough => ?_⟩
  replace check := check.trans (if_neg (Nat.not_lt.2 enough))
  intro rows
  have sparse : (decide (r.fA = 10) || decide (r.fA = 11) || decide (r.fA = 12)) = true ↔ r.fA = 10 ∨ r.fA = 11 ∨ r.fA = 12 := by
    simp only [Bool.or_eq_true, decide_eq_true_eq, or_assoc]
  refine ⟨fun good => check.trans ?_, fun i k fmt bad => check.trans ?_⟩
  · split
    case isFalse => rfl
    case isTrue fmt =>
      have none_ : badBlock r.fA rows = none := by
        refine good.resolve_left fun others => ?_
        obtain ⟨ne, ne', ne''⟩ := others
        rcases sparse.1 fmt with eq | eq | eq
        · exact ne eq
        · exact ne' eq
        · exact ne'' eq
      exact congrArg (Option.map _) none_
  · exact (if_pos (sparse.2 fmt)).trans (congrArg (Option.map _) bad)

end

/-! ## The obligation -/

/-- Settles O36: the engine at issue (`matrix_issues`, `matrix_hazard`, `matrix_stops`), a step and its checks (`matrix_steps`, `matrix_stepStops`),
and deliveries, beats and bases (`matrix_delivers`, `mxLane_integer`, `matrix_bases`). -/
theorem matrixInstructions : Obligations.MatrixInstructions :=
  ⟨matrix_issues,
    ⟨matrix_hazard, ⟨rfl, rfl⟩, matrix_steps, matrix_delivers, matrix_due, fun _ _ _ _ _ _ => rfl, mxLane_integer, rfl, matrix_bases⟩,
    matrix_stops, matrix_stepStops, fun _ _ _ _ _ due checked fails => Core.mxStep_stops due checked fails⟩

end Sys2Proof.Machine
end
